-- ==== Sys2Proof/Word.lean ====
section
/-! DEFINITION. The word types of the TPX-128 (R4: bit 0 is the least significant bit; registers are 32 bits
wide, *Register map*) and the indexed resources of R12, R13 and R22 as finite types. -/

namespace Sys2Proof

/-- One byte (R4). -/
abbrev Byte := BitVec 8

/-- One register word (*Register map*: every register is 32 bits wide). -/
abbrev Word := BitVec 32

/-- A stall STL0–STL15 (R22). -/
abbrev StallIx := Fin 16

/-- A channel CH0–CH127 (R22). -/
abbrev ChIx := Fin 128

/-- An octet or its framer, OCT0–OCT15 (R13). -/
abbrev OctIx := Fin 16

/-- A host lane HL0–HL7 (R22). -/
abbrev LaneIx := Fin 8

/-- A DRAM controller MC0–MC5 (R22). -/
abbrev McIx := Fin 6

/-- A hardware queue Q0–Q32767 (R22). -/
abbrev QIx := Fin 32768

end Sys2Proof
end

