-- ==== Sys2Proof/Machine/Map.lean ====
section
/-! DEFINITION. Sparse maps and byte order. A sparse map is a list of key and value pairs in one canonical form: keys
strictly rising, and no entry equal to what its key reads as when it is not listed. Memory, the register file, the
queues and every other indexed piece of state use it, so equal contents are equal data. -/

namespace Sys2Proof.Machine

/-- A sparse map from indices to values. -/
abbrev SMap (α : Type) := List (Nat × α)

/-- What key `k` reads as; an unlisted key reads as `d k`. -/
def mget {α : Type} (d : Nat → α) : SMap α → Nat → α
  | [], k => d k
  | (k', v) :: t, k => if k = k' then v else mget d t k

/-- Writes `v` at key `k` and keeps the canonical form. -/
def mset {α : Type} [DecidableEq α] (d : Nat → α) : SMap α → Nat → α → SMap α
  | [], k, v => if v = d k then [] else [(k, v)]
  | (k', v') :: t, k, v =>
    if k < k' then (if v = d k then (k', v') :: t else (k, v) :: (k', v') :: t)
    else if k = k' then (if v = d k then t else (k, v) :: t)
    else (k', v') :: mset d t k v

/-- The canonical form with every key at least `lo`. -/
def mwfFrom {α : Type} [DecidableEq α] (d : Nat → α) : Nat → SMap α → Bool
  | _, [] => true
  | lo, (k, v) :: t => decide (lo ≤ k) && decide (v ≠ d k) && mwfFrom d (k + 1) t

/-- The canonical form: keys strictly rising, no entry equal to what its key reads as unlisted. -/
def mwf {α : Type} [DecidableEq α] (d : Nat → α) (m : SMap α) : Bool := mwfFrom d 0 m

/-- Removes every entry whose key satisfies `p`, so those keys read as unlisted. -/
def mclear {α : Type} (p : Nat → Bool) (m : SMap α) : SMap α := m.filter (fun e => !p e.1)

/-- A 0/1 number for a condition. -/
def bit (b : Bool) : Nat := if b then 1 else 0

/-- Bits `hi` down to `lo` of `x`. -/
def bitsOf (x hi lo : Nat) : Nat := (x >>> lo) % 2 ^ (hi + 1 - lo)

/-- `x` with bits `hi` down to `lo` replaced by the low bits of `v`. -/
def putBits (x hi lo v : Nat) : Nat :=
  x - (bitsOf x hi lo) * 2 ^ lo + (v % 2 ^ (hi + 1 - lo)) * 2 ^ lo

/-- Bit `i` of `x`. -/
def tbit (x i : Nat) : Bool := x.testBit i

/-- The two's-complement value of the low `w` bits of `x`. -/
def toSigned (x w : Nat) : Int :=
  let m := x % 2 ^ w
  if 2 * m < 2 ^ w then (m : Int) else (m : Int) - (2 ^ w : Nat)

/-- The low `w` bits of the two's-complement form of `x`. -/
def ofSigned (x : Int) (w : Nat) : Nat := (x % ((2 ^ w : Nat) : Int)).toNat

/-- `x` limited to 0 … `m` (a counter that saturates). -/
def sat (m x : Nat) : Nat := if x ≤ m then x else m

/-- The `n` bytes of `x`, most significant first (R5, DCP fields). -/
def beBytes (n x : Nat) : List Byte :=
  (List.range n).map (fun k => BitVec.ofNat 8 (x >>> (8 * (n - 1 - k))))

/-- The `n` bytes of `x`, least significant first (R5, data structures). -/
def leBytes (n x : Nat) : List Byte := (List.range n).map (fun k => BitVec.ofNat 8 (x >>> (8 * k)))

/-- The number that bytes spell, least significant first. -/
def ofLe : List Byte → Nat
  | [] => 0
  | b :: t => b.toNat + 256 * ofLe t

/-- The number that bytes spell, most significant first. -/
def ofBe (l : List Byte) : Nat := ofLe l.reverse

end Sys2Proof.Machine
end

