-- ==== Sys2Proof/Syntax.lean ====
section
/-! DEFINITION. The commands of the part: one constructor of `Instr` for each row of spec/opcode_table.json. A row is a
DCP command, a write of a register that has a row of its own, or an event. The operands of an event are what the world
outside supplies with it: the sampled level, the measured value, the received bytes (log 2). -/

namespace Sys2Proof

/-- How a session is bound: the lane and source address of its HELLO (R102, R109), or the management target (R515). -/
inductive Binding where
  | eth (lane : LaneIx) (mac : BitVec 48)
  | udp (lane : LaneIx) (ip : BitVec 32) (port : BitVec 16)
  | mgmt
  deriving DecidableEq, Repr

/-- The header of a received DCP message (R105), where the message came from, and what the frame around it says: the
EtherType of an Ethernet frame, the destination address and port of a UDP datagram (R88, R102). The opcode is the constructor
that carries the header; the reserved flag bits, byte 9 and the status field are ignored (R106) and not kept. -/
structure Hdr where
  bind : Binding
  ethertype : BitVec 16 := 0x88b5
  toIp : BitVec 32 := 0
  toPort : BitVec 16 := 47600
  version : BitVec 4 := 2
  session : BitVec 16
  seq : BitVec 32
  target : BitVec 8
  plen : Nat
  deriving DecidableEq, Repr

/-- Why a received DCP frame is no command: it is malformed (R104, R106), or it is a CMD whose opcode is reserved, which no
other row of the table carries and which is answered (R116, R124). -/
inductive DcpDrop where
  | shortFrame | ipFragment | udpChecksum | reservedType
  | reservedOpcode (opcode : BitVec 16)
  deriving DecidableEq, Repr

/-- Why a received frame reaches no receiver (R88). -/
inductive RxDrop where
  | badFcs | notForPart | macControl | badLength
  deriving DecidableEq, Repr

/-- The blocks that a block reset can reset (R61, R77, R482). -/
inductive Blk where
  | hl (k : LaneIx) | mc (m : McIx) | qm | yrd | acq | flt | tim | frm | cal | stall (s : StallIx)
  deriving DecidableEq, Repr

/-- The residuals that a calibration run obtained for one element (R459): item of R457, channel or unit, one list of
residuals per candidate, the corrections (R458), and the junction temperature at the measurement (R461). -/
structure CalMeas where
  item : Fin 5
  index : Fin 128
  resid : List (List (BitVec 16))
  codes : List (BitVec 16)
  tj : BitVec 8
  deriving DecidableEq, Repr

/-- What the self-tests found (R470). -/
structure TestFinding where
  run : BitVec 32
  fail : BitVec 32
  bays : List (BitVec 8)
  memErrors : BitVec 32
  firstMem : BitVec 32
  loopFail : BitVec 32
  loopFirst : BitVec 64
  deriving DecidableEq, Repr

/-- What a start-up meets outside the logic (R64): the levels at the strap balls (R31), the voltages of the inputs in 25 mV
units, which controllers train or pass their recheck (R411, R412), whether the timing die passes step 7b, and the measured
junction temperatures. -/
structure StartIn where
  straps : BitVec 8
  vmainV : BitVec 8
  vauxV : BitVec 8
  trained : BitVec 6
  timingOk : Bool
  tjSys : BitVec 8
  tjTim : BitVec 8
  deriving DecidableEq, Repr

/-- What raises a cold reset (R56); PORST_L with the time in ns for which it is low (R525). -/
inductive ColdCause where
  | porst (low : BitVec 16) | cmd | supply
  deriving DecidableEq, Repr

/-- What raises a warm reset (R56). -/
inductive WarmCause where
  | pin | cmd | fault | clock
  deriving DecidableEq, Repr

/-- What asks for a warm reset (R56); WRST_L with the time in ns for which it is low (R525). -/
inductive WarmRequest where
  | pin (low : BitVec 16) | cmd | fault | clock
  deriving DecidableEq, Repr

/-- The voltage of an input that leaves range, in 25 mV units, and that of the other input when both leave within one filter
window (R46, R48). -/
structure InputLoss where
  volts : BitVec 8
  other : Option (BitVec 8)
  deriving DecidableEq, Repr

/-- The two supply inputs (R46). -/
inductive Input where
  | vmain | vaux
  deriving DecidableEq, Repr

/-- What ends a lane's link or keeps it from UP (R92, R93). -/
inductive LinkLoss where
  | blockLock | hiBer | localFault | remoteFault
  deriving DecidableEq, Repr

/-- What a lane's receiver meets: a loss begins, or hi_ber or a fault sequence ends (R92, R93). -/
inductive LinkNews where
  | begins (why : LinkLoss) | ends (why : LinkLoss)
  deriving DecidableEq, Repr

/-- What a read finds in the stored word (R428): what the cells hold by the time of the read. -/
inductive Cells where
  | asStored | correctable | uncorrectable
  deriving DecidableEq, Repr

/-- The sources of DRAM requests (R413). -/
inductive DramSrc where
  | leat (s : StallIx) | tailrace (s : StallIx) | dcp | spill | yard (core : Fin 32) | migration | scrub | fill
  deriving DecidableEq, Repr

/-- The producers of queue packets (R366). -/
inductive Producer where
  | acq (s : StallIx) | failLog (s : StallIx) | window (s : StallIx) | yard (core : Fin 32) | lane (k : LaneIx)
  | collector
  deriving DecidableEq, Repr

/-- One act of a user service module (R400): the spec does not document the cores' instruction set, so what a module
did while it ran comes with its completion (log 9). -/
inductive ModAct where
  | pop (port : Fin 7) | push (port : Fin 7) (words : List (BitVec 64)) | flag (mask value : BitVec 8)
  | state (off : BitVec 8) (val : Byte) | store (addr : BitVec 64) (val : BitVec 64)
  deriving DecidableEq, Repr

/-- An operation that reaches its run-time limit: its core, and what its user module did before (R391). -/
structure CutOff where
  core : Fin 32
  acts : List ModAct
  deriving DecidableEq, Repr

/-- An IEEE 1588 message as the firmware receives it (R446, R447). -/
inductive PtpMsg where
  | sync (domain : BitVec 8) (twoStep : Bool) (t1 : Nat) (stamp : BitVec 64)
  | followUp (domain : BitVec 8) (t1 : Nat)
  | delayReq (domain : BitVec 8) (seqId : BitVec 16) (stamp : BitVec 64)
  | delayResp (domain : BitVec 8) (t4 : Nat)
  | announce (domain : BitVec 8) (better : Bool)
  | other (domain : BitVec 8)
  deriving DecidableEq, Repr

/-- A received IEEE 1588 message and whether it came over UDP rather than Ethernet (R446). -/
structure PtpFrame where
  udp : Bool
  msg : PtpMsg
  deriving DecidableEq, Repr

/-- A block write on the management bus: the seven-bit address that it names and its bytes (R43, R514). -/
structure BusWrite where
  bus : BitVec 7
  bytes : List Byte
  deriving DecidableEq, Repr

/-- One constructor for each row of spec/opcode_table.json, in the table's order. -/
inductive Instr where
  | hello (h : Hdr) (client : BitVec 64) (leaseMs : BitVec 32) (flags : BitVec 8)
  | claim (h : Hdr) (prio : BitVec 8)
  | release (h : Hdr)
  | grant (h : Hdr) (toSession : BitVec 16)
  | renew (h : Hdr) (leaseMs : BitVec 32)
  | bye (h : Hdr)
  | opStatus (h : Hdr) (op : BitVec 16)
  | readReg (h : Hdr) (addr : BitVec 32) (count : BitVec 16)
  | writeReg (h : Hdr) (addr : BitVec 32) (count : BitVec 16) (values : List Word)
  | modifyReg (h : Hdr) (addr mask value : BitVec 32)
  | readRegList (h : Hdr) (count : BitVec 16) (addrs : List (BitVec 32))
  | writeMem (h : Hdr) (addr : BitVec 64) (len : BitVec 32) (data : List Byte)
  | readMem (h : Hdr) (addr : BitVec 64) (len : BitVec 32)
  | fillMem (h : Hdr) (addr len pattern : BitVec 64)
  | copyMem (h : Hdr) (src dst len : BitVec 64)
  | loadSeq (h : Hdr) (table : BitVec 64) (entries : BitVec 32)
  | start (h : Hdr) (mode acq source sourceIndex : BitVec 8) (firstEntry : BitVec 16)
  | stop (h : Hdr) (atWhen : BitVec 8)
  | arm (h : Hdr)
  | status (h : Hdr)
  | setflag (h : Hdr) (mask value : BitVec 8)
  | stallReset (h : Hdr)
  | streamOpen (h : Hdr) (queue maxPayload : BitVec 16) (limit : BitVec 32) (flushUs : BitVec 16)
  | credit (h : Hdr) (queue : BitVec 16) (ack limit : BitVec 32)
  | creditFrame (h : Hdr) (queue : BitVec 16) (ack limit : BitVec 32)
  | streamClose (h : Hdr) (queue : BitVec 16)
  | rewind (h : Hdr) (queue : BitVec 16) (fromSeq : BitVec 32)
  | calRun (h : Hdr) (items : BitVec 32) (count : BitVec 8) (channels : List (BitVec 8))
  | calRead (h : Hdr) (channel item : BitVec 8)
  | calCommit (h : Hdr)
  | selftestRun (h : Hdr) (tests : BitVec 32)
  | selftestRead (h : Hdr)
  | yardLoad (h : Hdr) (kind : BitVec 8) (slot : BitVec 16) (image : BitVec 64) (imageLen : BitVec 32)
  | yardUnload (h : Hdr) (kind : BitVec 8) (slot : BitVec 16)
  | yardSubmit (h : Hdr) (template flow plen : BitVec 16) (data : List Byte)
  | yardQuiesce (h : Hdr)
  | yardResume (h : Hdr)
  | yardStatus (h : Hdr)
  | timeRead (h : Hdr)
  | timeSet (h : Hdr) (sec : BitVec 64) (ns : BitVec 32) (subns : BitVec 16) (rate : BitVec 64)
  | timeStep (h : Hdr) (deltaNs : BitVec 64)
  | alarmSet (h : Hdr) (alarm action : BitVec 8) (sec : BitVec 64) (ns : BitVec 32) (periodNs : BitVec 64)
  | alarmCancel (h : Hdr) (alarm : BitVec 8)
  | tsqRead (h : Hdr) (port max : BitVec 8)
  | faultRead (h : Hdr)
  | faultClear (h : Hdr) (stickyMask : BitVec 256) (clearFirst : BitVec 8)
  | faultReaction (h : Hdr) (source reaction : BitVec 8)
  | faultInject (h : Hdr) (source : BitVec 8)
  | faultRelease (h : Hdr)
  | tackRead (h : Hdr) (offset : BitVec 32) (len : BitVec 16)
  | tackWrite (h : Hdr) (offset : BitVec 32) (len : BitVec 16) (data : List Byte)
  | fwWrite (h : Hdr) (offset : BitVec 32) (len : BitVec 16) (data : List Byte)
  | fwVerify (h : Hdr)
  | fwActivate (h : Hdr)
  | ident (h : Hdr)
  | mcStatus (h : Hdr) (controller : BitVec 8)
  | rankRetire (h : Hdr) (controller rank : BitVec 8)
  | migStatus (h : Hdr)
  | scrub (h : Hdr) (controller : BitVec 8)
  | dcpFrameDrop (h : Hdr) (why : DcpDrop)
  | rxFrameDrop (lane : LaneIx) (why : RxDrop)
  | arpRequest (lane : LaneIx) (senderMac : BitVec 48) (targetIp : BitVec 32)
  | icmpEchoRequest (lane : LaneIx) (senderMac : BitVec 48) (destIp : BitVec 32) (payload : List Byte)
  | fillMemDone (op : BitVec 16)
  | copyMemDone (op : BitVec 16)
  | calRunDone (op : BitVec 16) (meas : List CalMeas)
  | calCommitDone (op : BitVec 16)
  | selftestDone (op : BitVec 16) (found : TestFinding)
  | yardLoadDone (op : BitVec 16)
  | yardQuiesceDone (op : BitVec 16)
  | fwVerifyDone (op : BitVec 16) (ok : Bool)
  | scrubDone (op : BitVec 16)
  | opRecordExpiry (op : BitVec 16)
  | pcrResetCtlWarm (h : Hdr) (value : Word)
  | pcrResetCtlCold (h : Hdr) (value : Word)
  | blockRstHl (h : Hdr) (k : LaneIx)
  | blockRstMc (h : Hdr) (m : McIx)
  | blockRstQm (h : Hdr)
  | blockRstYrd (h : Hdr)
  | blockRstAcq (h : Hdr)
  | blockRstFlt (h : Hdr)
  | blockRstTim (h : Hdr)
  | blockRstFrm (h : Hdr)
  | blockRstCal (h : Hdr)
  | blockResetComplete (b : Blk)
  | forceReturn (h : Hdr) (value : Word)
  | hpPortCtlWrite (h : Hdr) (k : LaneIx) (value : Word)
  | restart (h : Hdr) (k : LaneIx) (value : Word)
  | hpRefCtlWrite (h : Hdr) (k : LaneIx) (value : Word)
  | laneSettingsApply (k : LaneIx)
  | testLoopSet (h : Hdr) (k : LaneIx) (value : Word)
  | loopTimeout (k : LaneIx)
  | prbsGen (h : Hdr) (k : LaneIx) (value : Word)
  | prbsChk (h : Hdr) (k : LaneIx) (value : Word)
  | ownCtlWrite (h : Hdr) (value : Word)
  | ownUdpWrite (h : Hdr) (value : Word)
  | ownChangeApply
  | devPartWrite (h : Hdr) (s : StallIx) (value : Word)
  | stlFlagsWrite (h : Hdr) (s : StallIx) (value : Word)
  | emit (h : Hdr) (value : Word)
  | syncOutPulse
  | measEnWrite (h : Hdr) (value : Word)
  | tbSyncTrimWrite (h : Hdr) (value : Word)
  | tbRateHiWrite (h : Hdr) (value : Word)
  | ptpRoleWrite (h : Hdr) (k : LaneIx) (value : Word)
  | acqSoftTrig (h : Hdr) (s : StallIx)
  | timArmWrite (h : Hdr) (u : Fin 16)
  | timCtlEnWrite (h : Hdr) (u : Fin 16) (value : Word)
  | qmCfgWrite (h : Hdr) (q : QIx) (value : Word)
  | flush (h : Hdr) (q : QIx)
  | flcFirstValidWrite (h : Hdr)
  | flcStickyWrite (h : Hdr) (i : Fin 8) (value : Word)
  | pesXferStart (h : Hdr) (j : Fin 4) (i : Fin 8) (value : Word)
  | pesTransferBegin (j : Fin 4)
  | pesTransferEnd (j : Fin 4) (rx : List Byte)
  | pesCfgWrite (h : Hdr) (j : Fin 4) (value : Word)
  | mcCfgWrite (h : Hdr) (m : McIx) (value : Word)
  | mcSysCfgWrite (h : Hdr) (value : Word)
  | policyWrite (h : Hdr) (value : Word)
  | coldReset (cause : ColdCause)
  | coldStart (inp : StartIn)
  | rootPllLock
  | hostReady
  | warmReset (cause : WarmRequest)
  | warmStart (inp : StartIn)
  | warmRetrain (m : McIx)
  | inputLeavesRange (i : Input) (loss : InputLoss)
  | inputEntersRange (i : Input) (volts : BitVec 8)
  | returnToVmain
  | refclkLoss
  | refclkReturn (inp : StartIn)
  | pllUnlock
  | pllRelock (inp : StartIn)
  | jtagTrst (low : Bool)
  | trigInEdge (n : Fin 4) (rising : Bool)
  | syncEpochBoundary (short disagree : Bool) (edges lead : BitVec 16)
  | linkUp (k : LaneIx)
  | linkDown (k : LaneIx) (news : LinkNews)
  | vectorT0 (s : StallIx)
  | seqEntryRead (s : StallIx)
  | lineRequest (s : StallIx)
  | lineArrival (s : StallIx) (flitParityBad : Bool)
  | prefillComplete (s : StallIx)
  | starvation (s : StallIx)
  | stopBoundary (s : StallIx)
  | stallResetComplete (s : StallIx)
  | setfPhaseReset (ch : ChIx)
  | compareEvent (ch : ChIx) (h l : Bool)
  | edgeCapture (ch : ChIx) (k : Option Nat) (h l : Bool)
  | eqWindowEnd (ch : ChIx) (transH transL : BitVec 13) (stepH stepL : Fin 3)
  | framerCharacter (o : OctIx) (tx : Bool)
  | recordAccept (source : Fin 176) (flitParityBad : Bool)
  | gapPairWrite (s : StallIx) (dest : Fin 32769)
  | timePairPeriodic (s : StallIx)
  | autoTrigger (s : StallIx)
  | windowRearm (s : StallIx)
  | trigOutPulse (n : Fin 4)
  | timGateOpen (u : Fin 16)
  | timGateClose (u : Fin 16)
  | timStartEdge (u : Fin 16) (c : BitVec 48) (f : BitVec 12)
  | timStopEdge (u : Fin 16) (c : BitVec 48) (f : BitVec 12)
  | timTimeout (u : Fin 16)
  | timDeadEnd (u : Fin 16)
  | fltInputSample (c : Fin 16)
  | queuePush (q : QIx) (p : Producer) (words : List (BitVec 64 × Bool)) (popHere : Bool)
  | queuePop (q : QIx) (parityBad : Bool)
  | spillReadback (q : QIx) (cells : Cells)
  | streamFrameSend (q : QIx)
  | leaseExpiry (slot : Fin 32)
  | expiredSessionClose (slot : Fin 32)
  | electionClose (r : Fin 17)
  | instanceCreate
  | workRequest (core : Fin 32)
  | operationComplete (core : Fin 32) (acts : List ModAct) (status : BitVec 3)
  | operationTimeout (cut : CutOff)
  | yardflagUpdate (s : StallIx)
  | dramRequest (src : DramSrc) (addr : BitVec 64) (store : Option (BitVec 64)) (cells : Cells)
  | regionFill (region : BitVec 20)
  | refreshInterval (m : McIx) (r : Fin 4)
  | mr4Poll (m : McIx) (rates : List (BitVec 2)) (temps : List (BitVec 7))
  | powerDownEntry (m : McIx) (r : Fin 4)
  | selfRefreshEntry (m : McIx) (r : Fin 4)
  | rowDisturbanceWindowEnd (m : McIx)
  | migrationUnitCopy (cells : List Cells)
  | migrationDone
  | alarmFire (a : Fin 16)
  | toutPulse (n : Fin 4)
  | ptpMessageRx (k : LaneIx) (frame : PtpFrame)
  | ptpSyncInterval (k : LaneIx) (stamp : BitVec 64)
  | ptpHoldover
  | faultActivation (source : BitVec 8) (detail : BitVec 16)
  | watchdog
  | deviceReset
  | shadowEnd (b : Blk)
  | blockWrite (frag : BusWrite) (pecOk : Bool)
  | blockRead
  | blockReadRepeat
  | alertResponse
  | sclLowTimeout
  | signalDetected (k : LaneIx)
  | blockLock (k : LaneIx)
  | signalLoss (k : LaneIx) (lockOnly : Bool)
  | faultyPair (source : BitVec 8) (equal : Bool)
  | condSourceInactive (source : BitVec 8)
  | retrainingComplete (m : McIx) (ok : Bool)
  deriving DecidableEq, Repr

end Sys2Proof
end

