-- ==== Sys2Proof/Decode.lean ====
section
/-! DEFINITION. The command that a word of the opcode table spells: none, since no row of spec/opcode_table.json gives bits;
and the command that the bytes of a DCP message spell, for messages that arrive over the management target (R105, R124,
R515). -/

namespace Sys2Proof

open Sys2Proof.Machine

/-- The command of a table word: none, since no row has bits. -/
def decodeTableWord (_nbits _w : Nat) : Option Instr := none

/-! ### DCP messages as bytes (R105, R124) -/

/-- A field of `n` bytes at offset `o`, most significant byte first (R5); bytes that are missing read as absent. -/
def beAt (l : List Byte) (o n : Nat) : Nat := ofBe ((l.drop o).take n)

/-- A field as a bit vector. -/
def fieldAt (w : Nat) (l : List Byte) (o : Nat) : BitVec w := BitVec.ofNat w (beAt l o (w / 8))

/-- Register values or addresses of four bytes each, from the front of the bytes on, at most `n`. -/
def wordsAt : Nat → List Byte → List (BitVec 32)
  | 0, _ => []
  | n + 1, l => if l.isEmpty then [] else fieldAt 32 l 0 :: wordsAt n (l.drop 4)

/-- A 256-bit map of sources of 32 bytes: source i at bit i mod 8 of byte ⌊i/8⌋ (R124). -/
def mapAt (l : List Byte) : BitVec 256 := BitVec.ofNat 256 (ofLe (l.take 32))

/-- The command of an opcode with its parameter bytes; none for a reserved opcode (R124). -/
def decodeCmd (h : Hdr) (opcode : Nat) (p : List Byte) : Option Instr :=
  match opcode with
  | 0x0001 => some (.hello h (fieldAt 64 p 0) (fieldAt 32 p 8) (fieldAt 8 p 12))
  | 0x0002 => some (.claim h (fieldAt 8 p 0))
  | 0x0003 => some (.release h)
  | 0x0004 => some (.grant h (fieldAt 16 p 0))
  | 0x0005 => some (.renew h (fieldAt 32 p 0))
  | 0x0006 => some (.bye h)
  | 0x0007 => some (.opStatus h (fieldAt 16 p 0))
  | 0x0010 => some (.readReg h (fieldAt 32 p 0) (fieldAt 16 p 4))
  | 0x0011 => some (.writeReg h (fieldAt 32 p 0) (fieldAt 16 p 4) (wordsAt 256 (p.drop 6)))
  | 0x0012 => some (.modifyReg h (fieldAt 32 p 0) (fieldAt 32 p 4) (fieldAt 32 p 8))
  | 0x0013 => some (.readRegList h (fieldAt 16 p 0) (wordsAt 256 (p.drop 2)))
  | 0x0020 => some (.writeMem h (fieldAt 64 p 0) (fieldAt 32 p 8) (p.drop 12))
  | 0x0021 => some (.readMem h (fieldAt 64 p 0) (fieldAt 32 p 8))
  | 0x0022 => some (.fillMem h (fieldAt 64 p 0) (fieldAt 64 p 8) (fieldAt 64 p 16))
  | 0x0023 => some (.copyMem h (fieldAt 64 p 0) (fieldAt 64 p 8) (fieldAt 64 p 16))
  | 0x0030 => some (.loadSeq h (fieldAt 64 p 0) (fieldAt 32 p 8))
  | 0x0031 => some (.start h (fieldAt 8 p 0) (fieldAt 8 p 1) (fieldAt 8 p 2) (fieldAt 8 p 3) (fieldAt 16 p 4))
  | 0x0032 => some (.stop h (fieldAt 8 p 0))
  | 0x0033 => some (.arm h)
  | 0x0034 => some (.status h)
  | 0x0035 => some (.setflag h (fieldAt 8 p 0) (fieldAt 8 p 1))
  | 0x0036 => some (.stallReset h)
  | 0x0040 => some (.streamOpen h (fieldAt 16 p 0) (fieldAt 16 p 2) (fieldAt 32 p 4) (fieldAt 16 p 8))
  | 0x0041 => some (.credit h (fieldAt 16 p 0) (fieldAt 32 p 2) (fieldAt 32 p 6))
  | 0x0042 => some (.streamClose h (fieldAt 16 p 0))
  | 0x0043 => some (.rewind h (fieldAt 16 p 0) (fieldAt 32 p 2))
  | 0x0050 => some (.calRun h (fieldAt 32 p 0) (fieldAt 8 p 4) (p.drop 5))
  | 0x0051 => some (.calRead h (fieldAt 8 p 0) (fieldAt 8 p 1))
  | 0x0052 => some (.calCommit h)
  | 0x0053 => some (.selftestRun h (fieldAt 32 p 0))
  | 0x0054 => some (.selftestRead h)
  | 0x0060 => some (.yardLoad h (fieldAt 8 p 0) (fieldAt 16 p 1) (fieldAt 64 p 3) (fieldAt 32 p 11))
  | 0x0061 => some (.yardUnload h (fieldAt 8 p 0) (fieldAt 16 p 1))
  | 0x0062 => some (.yardSubmit h (fieldAt 16 p 0) (fieldAt 16 p 2) (fieldAt 16 p 4) (p.drop 6))
  | 0x0063 => some (.yardQuiesce h)
  | 0x0064 => some (.yardResume h)
  | 0x0065 => some (.yardStatus h)
  | 0x0070 => some (.timeRead h)
  | 0x0071 => some (.timeSet h (fieldAt 64 p 0) (fieldAt 32 p 8) (fieldAt 16 p 12) (fieldAt 64 p 14))
  | 0x0072 => some (.timeStep h (fieldAt 64 p 0))
  | 0x0073 => some (.alarmSet h (fieldAt 8 p 0) (fieldAt 8 p 1) (fieldAt 64 p 2) (fieldAt 32 p 10) (fieldAt 64 p 14))
  | 0x0074 => some (.alarmCancel h (fieldAt 8 p 0))
  | 0x0075 => some (.tsqRead h (fieldAt 8 p 0) (fieldAt 8 p 1))
  | 0x0080 => some (.faultRead h)
  | 0x0081 => some (.faultClear h (mapAt p) (fieldAt 8 p 32))
  | 0x0082 => some (.faultReaction h (fieldAt 8 p 0) (fieldAt 8 p 1))
  | 0x0083 => some (.faultInject h (fieldAt 8 p 0))
  | 0x0084 => some (.faultRelease h)
  | 0x0090 => some (.tackRead h (fieldAt 32 p 0) (fieldAt 16 p 4))
  | 0x0091 => some (.tackWrite h (fieldAt 32 p 0) (fieldAt 16 p 4) (p.drop 6))
  | 0x0092 => some (.fwWrite h (fieldAt 32 p 0) (fieldAt 16 p 4) (p.drop 6))
  | 0x0093 => some (.fwVerify h)
  | 0x0094 => some (.fwActivate h)
  | 0x0095 => some (.ident h)
  | 0x00a0 => some (.mcStatus h (fieldAt 8 p 0))
  | 0x00a1 => some (.rankRetire h (fieldAt 8 p 0) (fieldAt 8 p 1))
  | 0x00a2 => some (.migStatus h)
  | 0x00a3 => some (.scrub h (fieldAt 8 p 0))
  | _ => none

/-- What the bytes of a message are: a command, a command of a reserved opcode, or a message that is dropped. -/
inductive DcpIn where
  | cmd (i : Instr) | unknown (h : Hdr) (opcode : BitVec 16) | dropped
  deriving DecidableEq, Repr

/-- A message that arrives over the management target: its length and type are checked, then its header is read (R105, R106,
R515). -/
def decodeDcp (l : List Byte) : DcpIn :=
  let plen := beAt l 12 2
  let b0 := beAt l 0 1
  let h : Hdr := { bind := .mgmt, version := BitVec.ofNat 4 (b0 / 16), session := fieldAt 16 l 2, seq := fieldAt 32 l 4,
                   target := fieldAt 8 l 8, plen := plen }
  let p := l.drop 16
  if l.length ≠ 16 + plen || 1024 < plen then .dropped
  else if b0 % 16 = 1 then
    match decodeCmd h (beAt l 10 2) p with
    | some i => .cmd i
    | none => .unknown h (fieldAt 16 l 10)
  else if b0 % 16 = 5 then .cmd (.creditFrame h (fieldAt 16 l 10) (fieldAt 32 p 0) (fieldAt 32 p 4))
  else .dropped

end Sys2Proof
end

