-- ==== Sys2Proof/Config.lean ====
section
/-! DEFINITION. The free values of the model: constants without a body, so that nothing in Lean can evaluate one or
prove a value of it. Each stands where the spec calls a value undefined, open or leaves its formula out, and the part
goes on; the assumption log names every use. -/

namespace Sys2Proof

/-- A fresh free value of `w` bits: draw number `n` (log 3). Used for every undefined value of R497 and for the other
open values that the assumption log lists. -/
opaque Config.free (n w : Nat) : BitVec w

/-- One draw of the row-disturbance generator of R426: true with probability 2^−p. The spec gives its seed and not its
feedback polynomial, so draw `n` is a free value (log 3). -/
opaque Config.nbrDraw (p n : Nat) : Bool

/-- SPECTRUM_MEASURE of R397: result word `i` for the samples `xs`. The spec names the measures and gives no formula for
them (log 3). -/
opaque Config.spectrum (params : List Byte) (xs : List Int) (i : Nat) : BitVec 64

/-- Whether a firmware slot's image verifies: ECDSA over P-384 with SHA-384 against the key in the boot ROM, of the bytes of
the slot as (offset, byte) pairs (R67). The spec does not give the key, so the check is a free function of the bytes (log
3). -/
opaque Config.verifies (image : List (Nat × BitVec 8)) : Bool

/-- The junction temperatures of both dies, system die in bits 7 to 0 and timing die in bits 15 to 8, as DEV_TEMP shows them in
millisecond `ms` after a start that measured `start` (R508, log 84). -/
opaque Config.junction (ms : Nat) (start : BitVec 16) : BitVec 16

/-- The build number in a firmware image (R77). The spec does not give the image's layout, so the number is a free function
of the bytes (log 3). -/
opaque Config.build (image : List (Nat × BitVec 8)) : BitVec 16

end Sys2Proof
end

