-- ==== Sys2Proof/Machine/RegMap.lean ====
section
/-! DEFINITION. The register map: every register of the part by name, its address, its instances, and the fields of
the field tables with their access codes and Reset-column values (R6, R7, R498, *Block summaries*). Reserved fields are
not listed: they read 0 and ignore writes (R8). "strap", "tack" and "X" resets stand as 0 here; what start-up loads over
them is the start-up's effect. FLT_HB is listed as one array of 24, YRD_HIST as one of 256, PES_TX and PES_RX as one of
256 per master. -/

namespace Sys2Proof.Machine

/-- Access codes of R6. -/
inductive Acc where
  | ro | rw | rwd | w1c | wo | rc
  deriving DecidableEq, Repr

/-- One field of a register. -/
structure RField where
  hi : Nat
  lo : Nat
  acc : Acc
  rst : Nat
  deriving DecidableEq, Repr

/-- One register kind: the address of instance (0, 0), instances and strides, and its fields. -/
structure RegRow where
  base : Nat
  n1 : Nat
  s1 : Nat
  n2 : Nat
  s2 : Nat
  fields : List RField
  deriving DecidableEq, Repr

/-- The register kinds. -/
inductive R where
  | DEV_ID | DEV_STEP | DEV_STRAP | DEV_SERIAL_LO | DEV_SERIAL_HI | DEV_MAC_LO | DEV_MAC_HI | DEV_TEMP 
  | DEV_MGMT | DEV_PART | DEV_MKR_DLY | PCR_SUPPLY_STAT | PCR_SUPPLY_CTL | PCR_RAIL_STAT | PCR_CLK_STAT 
  | PCR_RESET_CAUSE | PCR_RESET_CTL | PCR_BLOCK_RST | PCR_SERVICE | PCR_BOOT_STAT | HP_PORT_CTL | HP_REF_CTL 
  | HP_TX_EQ | HP_RX_EQ_STAT | HP_LINK_STAT | HP_TEST_CTL | HP_MAC_LO | HP_MAC_HI | HP_IPV4 | HP_VLAN 
  | HP_RX_FRAMES | HP_RX_FCS_ERR | HP_RX_DROP | HP_TX_FRAMES | HP_TX_DROP | HP_FEC_CORR | HP_FEC_UNCORR 
  | HP_PRBS_ERR | OWN_CTL | OWN_UDP | OWN_DEV_OWNER | OWN_DROP | OWN_EVENT_DROP | OWN_STALL_OWNER 
  | OWN_SESSION | OWN_MEMWIN_BASE | OWN_MEMWIN_LIMIT | STL_SEQ_CTL | STL_SEQ_STAT | STL_SEQ_ENTRY 
  | STL_SEQ_TABLE_LO | STL_SEQ_TABLE_HI | STL_SEQ_COUNT | STL_LOAD_ERR | STL_VEC_LO | STL_VEC_HI | STL_FLAGS 
  | STL_STACK_PTR | STL_HOP_CTL | STL_HOP_STAT | STL_HOP_RESERVE | STL_LEAT_RESV | STL_LEAT_CTL 
  | STL_LEAT_PANIC | STL_LEAT_MINLVL | STL_STARVE_LINE_LO | STL_STARVE_LINE_HI | STL_STARVE_VEC_LO 
  | STL_STARVE_VEC_HI | STL_LEAT_REQ | STL_FAIL_LOG_CTL | STL_FAIL_LOG_MAX | STL_FAIL_LOG_CNT 
  | STL_FAIL_LOG_DROP | STL_FIRST_FAIL_LO | STL_FIRST_FAIL_HI | STL_FIRST_FAIL_CH | STL_FAIL_VEC 
  | STL_MATCH_CTL | STL_STACK_A | STL_STACK_B | STL_HALT | STL_TS_PERIOD | CHN_TG_CTL | CHN_DRV_SKEW 
  | CHN_CMP_SKEW | CHN_FR_INC_LO | CHN_FR_INC_HI | CHN_TG_STAT | CHN_CMP_CTL | CHN_CMP_STAT | CHN_FAIL_CNT 
  | CHN_EQ_CTL | CHN_EQ_STAT | CHN_EQ_WIN | WFT_WORD | FRM_TX_CTL | FRM_RX_CTL | FRM_STAT | FRM_DISP_ERR 
  | FRM_CODE_ERR | FRM_MISALIGN | ACQ_CTL | ACQ_RESV | ACQ_REQ | ACQ_TRIG_CTL | ACQ_SOFT | ACQ_AUTO 
  | ACQ_WIN_CTL | ACQ_RING_BASE | ACQ_WIN_PRE | ACQ_WIN_POST | ACQ_WIN_STAT | ACQ_WIN_PRE_ACT 
  | ACQ_WIN_POST_ACT | ACQ_WIN_TRIG_LO | ACQ_WIN_TRIG_HI | ACQ_WPOS_LO | ACQ_WPOS_HI | ACQ_TRIG_IGN 
  | ACQ_SHAPED | ACQ_DISC | ACQ_LOST | ACQ_GAPS | ACQ_WIN_FIRST_LO | ACQ_WIN_FIRST_HI | ACQ_ROUTE 
  | ACQ_TRIGOUT | ACQ_RWD_FLOOR | TIM_ASSIGN | TIM_CTL | TIM_START_SRC | TIM_STOP_SRC | TIM_TIMEOUT | TIM_ARM 
  | TIM_STAT | TIM_START_C_LO | TIM_START_C_HI | TIM_START_F | TIM_STOP_C_LO | TIM_STOP_C_HI | TIM_STOP_F 
  | TIM_RESULT_LO | TIM_RESULT_HI | TIM_COUNT | TIM_MISS | FLT_ASSIGN | FLT_CTL | FLT_CIC | FLT_HB_CTL 
  | FLT_FIR_CTL | FLT_DC | FLT_SYNC | FLT_STAT | FLT_GDELAY | FLT_SETTLE | FLT_DECIM | FLT_DC_M_LO 
  | FLT_DC_M_HI | FLT_OUT_CNT | FLT_COMP | FLT_HB | FLT_FIR | QM_CFG | QM_SPILL | QM_DEPTH | QM_PKTS 
  | QM_RETAIN | QM_STAT | QM_REFUSED | QM_FLUSHED | YRD_CTL | YRD_STAT | YRD_USE | YRD_LOAD_WIN | YRD_REFUSED 
  | YRD_OPSTAT | YRD_CORE_LOAD | YRD_HIST_SEL | YRD_HIST | YRD_QWATCH_SEL | YRD_QWATCH_MAX | YRD_FLOW 
  | MC_CFG | MC_STAT | MC_TEMP | MC_CE_CNT | MC_UE_CNT | MC_UE_ADDR_LO | MC_UE_ADDR_HI | MC_THROTTLE 
  | MC_NBR_REF | MC_URGENT | MC_MIG_PTR_LO | MC_MIG_PTR_HI | MC_SYS_CFG | MC_SYS_REF | MC_SYS_PWR | MC_SYS_RD 
  | MC_SYS_ECC | MC_SYS_STAT | MC_SYS_PEAK | MC_SYS_SIZE | TB_STAT | TB_CNT_LO | TB_CNT_HI | TB_OFS_SEC_LO 
  | TB_OFS_SEC_HI | TB_OFS_NS | TB_OFS_SUBNS | TB_RATE_LO | TB_RATE_HI | TB_TSQ_STAT | TB_PTP_OFS 
  | TB_PTP_DLY | TB_SYNC_CTL | TB_SYNC_TRIM | TB_SYNC_STAT | TB_SYNC_MEAS | TB_SYNC_CNT_LO | TB_SYNC_CNT_HI 
  | TB_SYNC_COUNT | TB_PTP_CTL | TB_ALARM_STAT | CAL_STAT | CAL_SEL | CAL_TVC_SEL | CAL_SYNC_SEL | FLC_STAT 
  | FLC_FIRST | FLC_FIRST_TAG_LO | FLC_FIRST_TAG_HI | FLC_FIRST_DETAIL | FLC_SHADOW | FLC_SEC_CNT 
  | FLC_INJECT | FLC_EVT_SUPP | FLC_LIVE | FLC_STICKY | FLC_SEC | FLC_WIRE | FLC_REACT | PES_CFG | PES_STAT 
  | PES_CS_ASSIGN | PES_XFER | PES_TX | PES_RX | TCK_WORD 
  deriving DecidableEq, Repr

/-- The field tables (R77, R101, R141, R188, R208, R250, R287, R318, R336, R354, R380, R403, R439, R454, R471, R489,
R508, R513, R519). -/
def R.row : R → RegRow
  | .DEV_ID => ⟨0x0, 1, 0x0, 1, 0x0, [⟨31, 0, .ro, 0x4e440128⟩]⟩
  | .DEV_STEP => ⟨0x4, 1, 0x0, 1, 0x0, [⟨3, 0, .ro, 0⟩, ⟨7, 4, .ro, 0⟩, ⟨15, 8, .ro, 0⟩]⟩
  | .DEV_STRAP => ⟨0x8, 1, 0x0, 1, 0x0, [⟨2, 0, .ro, 0⟩, ⟨3, 3, .ro, 0⟩, ⟨4, 4, .ro, 0⟩, ⟨5, 5, .ro, 0⟩, ⟨6, 6, .ro, 0⟩, ⟨7, 7, .ro, 0⟩]⟩
  | .DEV_SERIAL_LO => ⟨0x10, 1, 0x0, 1, 0x0, [⟨31, 0, .ro, 0⟩]⟩
  | .DEV_SERIAL_HI => ⟨0x14, 1, 0x0, 1, 0x0, [⟨31, 0, .ro, 0⟩]⟩
  | .DEV_MAC_LO => ⟨0x18, 1, 0x0, 1, 0x0, [⟨31, 0, .ro, 0⟩]⟩
  | .DEV_MAC_HI => ⟨0x1c, 1, 0x0, 1, 0x0, [⟨15, 0, .ro, 0⟩]⟩
  | .DEV_TEMP => ⟨0x20, 1, 0x0, 1, 0x0, [⟨7, 0, .ro, 0⟩, ⟨15, 8, .ro, 0⟩, ⟨16, 16, .ro, 0⟩]⟩
  | .DEV_MGMT => ⟨0x24, 1, 0x0, 1, 0x0, [⟨31, 0, .ro, 0⟩]⟩
  | .DEV_PART => ⟨0x100, 16, 0x4, 1, 0x0, [⟨15, 0, .rwd, 0⟩, ⟨23, 16, .rwd, 0⟩]⟩
  | .DEV_MKR_DLY => ⟨0x140, 8, 0x4, 1, 0x0, [⟨13, 0, .rwd, 0⟩]⟩
  | .PCR_SUPPLY_STAT => ⟨0x10000, 1, 0x0, 1, 0x0, [⟨0, 0, .ro, 0⟩, ⟨1, 1, .ro, 0⟩, ⟨2, 2, .ro, 0⟩, ⟨15, 8, .ro, 0⟩, ⟨23, 16, .ro, 0⟩, ⟨31, 24, .ro, 0⟩]⟩
  | .PCR_SUPPLY_CTL => ⟨0x10004, 1, 0x0, 1, 0x0, [⟨0, 0, .rwd, 0⟩, ⟨1, 1, .rwd, 0⟩, ⟨23, 16, .rwd, 0xa⟩]⟩
  | .PCR_RAIL_STAT => ⟨0x10008, 1, 0x0, 1, 0x0, [⟨6, 0, .ro, 0⟩, ⟨14, 8, .w1c, 0⟩]⟩
  | .PCR_CLK_STAT => ⟨0x10010, 1, 0x0, 1, 0x0, [⟨0, 0, .ro, 0⟩, ⟨1, 1, .ro, 0⟩, ⟨13, 8, .ro, 0⟩, ⟨23, 16, .ro, 0⟩, ⟨24, 24, .w1c, 0⟩]⟩
  | .PCR_RESET_CAUSE => ⟨0x10020, 1, 0x0, 1, 0x0, [⟨0, 0, .ro, 0⟩, ⟨1, 1, .ro, 0⟩, ⟨2, 2, .ro, 0⟩, ⟨3, 3, .ro, 0⟩, ⟨4, 4, .ro, 0⟩, ⟨5, 5, .ro, 0⟩, ⟨6, 6, .ro, 0⟩, ⟨7, 7, .ro, 0⟩]⟩
  | .PCR_RESET_CTL => ⟨0x10024, 1, 0x0, 1, 0x0, [⟨0, 0, .rwd, 0⟩, ⟨1, 1, .rwd, 0⟩, ⟨31, 16, .rwd, 0⟩]⟩
  | .PCR_BLOCK_RST => ⟨0x10028, 1, 0x0, 1, 0x0, [⟨7, 0, .rwd, 0⟩, ⟨13, 8, .rwd, 0⟩, ⟨14, 14, .rwd, 0⟩, ⟨15, 15, .rwd, 0⟩, ⟨16, 16, .rwd, 0⟩, ⟨17, 17, .rwd, 0⟩, ⟨18, 18, .rwd, 0⟩, ⟨19, 19, .rwd, 0⟩, ⟨20, 20, .rwd, 0⟩]⟩
  | .PCR_SERVICE => ⟨0x10030, 1, 0x0, 1, 0x0, [⟨1, 0, .ro, 0⟩, ⟨2, 2, .ro, 0⟩, ⟨8, 3, .ro, 0⟩, ⟨16, 9, .ro, 0⟩, ⟨17, 17, .ro, 0⟩]⟩
  | .PCR_BOOT_STAT => ⟨0x10034, 1, 0x0, 1, 0x0, [⟨0, 0, .ro, 0⟩, ⟨1, 1, .ro, 0⟩, ⟨2, 2, .ro, 0⟩, ⟨3, 3, .ro, 0⟩, ⟨31, 16, .ro, 0⟩]⟩
  | .HP_PORT_CTL => ⟨0x20000, 8, 0x1000, 1, 0x0, [⟨0, 0, .rwd, 0⟩, ⟨1, 1, .rwd, 0⟩, ⟨2, 2, .rwd, 0⟩, ⟨3, 3, .rwd, 0⟩, ⟨4, 4, .wo, 0⟩]⟩
  | .HP_REF_CTL => ⟨0x20004, 8, 0x1000, 1, 0x0, [⟨0, 0, .rwd, 0⟩, ⟨7, 4, .rwd, 0xa⟩, ⟨10, 8, .rwd, 3⟩]⟩
  | .HP_TX_EQ => ⟨0x20008, 8, 0x1000, 1, 0x0, [⟨3, 0, .rwd, 0⟩, ⟨8, 4, .rwd, 0⟩, ⟨14, 9, .rwd, 0⟩]⟩
  | .HP_RX_EQ_STAT => ⟨0x2000c, 8, 0x1000, 1, 0x0, [⟨3, 0, .ro, 0⟩, ⟨11, 4, .ro, 0⟩, ⟨12, 12, .ro, 0⟩]⟩
  | .HP_LINK_STAT => ⟨0x20010, 8, 0x1000, 1, 0x0, [⟨2, 0, .ro, 0⟩, ⟨3, 3, .ro, 0⟩, ⟨4, 4, .ro, 0⟩, ⟨5, 5, .ro, 0⟩, ⟨6, 6, .ro, 0⟩, ⟨7, 7, .ro, 0⟩, ⟨31, 16, .rc, 0⟩]⟩
  | .HP_TEST_CTL => ⟨0x20014, 8, 0x1000, 1, 0x0, [⟨1, 0, .rwd, 0⟩, ⟨2, 2, .rwd, 0⟩, ⟨3, 3, .rwd, 0⟩, ⟨15, 8, .rwd, 0xa⟩]⟩
  | .HP_MAC_LO => ⟨0x20018, 8, 0x1000, 1, 0x0, [⟨31, 0, .ro, 0⟩]⟩
  | .HP_MAC_HI => ⟨0x2001c, 8, 0x1000, 1, 0x0, [⟨15, 0, .ro, 0⟩]⟩
  | .HP_IPV4 => ⟨0x20020, 8, 0x1000, 1, 0x0, [⟨31, 0, .rwd, 0⟩]⟩
  | .HP_VLAN => ⟨0x20024, 8, 0x1000, 1, 0x0, [⟨11, 0, .rwd, 0⟩, ⟨14, 12, .rwd, 0⟩, ⟨15, 15, .rwd, 0⟩]⟩
  | .HP_RX_FRAMES => ⟨0x20040, 8, 0x1000, 1, 0x0, [⟨31, 0, .rc, 0⟩]⟩
  | .HP_RX_FCS_ERR => ⟨0x20044, 8, 0x1000, 1, 0x0, [⟨31, 0, .rc, 0⟩]⟩
  | .HP_RX_DROP => ⟨0x20048, 8, 0x1000, 1, 0x0, [⟨31, 0, .rc, 0⟩]⟩
  | .HP_TX_FRAMES => ⟨0x2004c, 8, 0x1000, 1, 0x0, [⟨31, 0, .rc, 0⟩]⟩
  | .HP_TX_DROP => ⟨0x20050, 8, 0x1000, 1, 0x0, [⟨31, 0, .rc, 0⟩]⟩
  | .HP_FEC_CORR => ⟨0x20054, 8, 0x1000, 1, 0x0, [⟨31, 0, .rc, 0⟩]⟩
  | .HP_FEC_UNCORR => ⟨0x20058, 8, 0x1000, 1, 0x0, [⟨31, 0, .rc, 0⟩]⟩
  | .HP_PRBS_ERR => ⟨0x2005c, 8, 0x1000, 1, 0x0, [⟨31, 0, .rc, 0⟩]⟩
  | .OWN_CTL => ⟨0x40000, 1, 0x0, 1, 0x0, [⟨15, 0, .rwd, 0x88b5⟩, ⟨16, 16, .rwd, 1⟩, ⟨17, 17, .rwd, 1⟩]⟩
  | .OWN_UDP => ⟨0x40004, 1, 0x0, 1, 0x0, [⟨15, 0, .rwd, 0xb9f0⟩]⟩
  | .OWN_DEV_OWNER => ⟨0x40008, 1, 0x0, 1, 0x0, [⟨15, 0, .ro, 0xffff⟩, ⟨16, 16, .ro, 0⟩]⟩
  | .OWN_DROP => ⟨0x40010, 1, 0x0, 1, 0x0, [⟨31, 0, .rc, 0⟩]⟩
  | .OWN_EVENT_DROP => ⟨0x40014, 1, 0x0, 1, 0x0, [⟨31, 0, .rc, 0⟩]⟩
  | .OWN_STALL_OWNER => ⟨0x40100, 16, 0x4, 1, 0x0, [⟨15, 0, .ro, 0xffff⟩, ⟨16, 16, .ro, 0⟩]⟩
  | .OWN_SESSION => ⟨0x40200, 32, 0x4, 1, 0x0, [⟨15, 0, .ro, 0xffff⟩, ⟨17, 16, .ro, 0⟩, ⟨20, 18, .ro, 0⟩, ⟨21, 21, .ro, 0⟩, ⟨31, 22, .ro, 0⟩]⟩
  | .OWN_MEMWIN_BASE => ⟨0x40300, 16, 0x8, 1, 0x0, [⟨19, 0, .rwd, 0⟩]⟩
  | .OWN_MEMWIN_LIMIT => ⟨0x40304, 16, 0x8, 1, 0x0, [⟨19, 0, .rwd, 0⟩]⟩
  | .STL_SEQ_CTL => ⟨0x100000, 16, 0x10000, 1, 0x0, [⟨0, 0, .rw, 0⟩, ⟨1, 1, .rw, 0⟩]⟩
  | .STL_SEQ_STAT => ⟨0x100004, 16, 0x10000, 1, 0x0, [⟨2, 0, .ro, 0⟩, ⟨5, 3, .ro, 0⟩, ⟨7, 7, .ro, 0⟩, ⟨11, 8, .ro, 0⟩, ⟨12, 12, .w1c, 0⟩, ⟨13, 13, .w1c, 0⟩, ⟨14, 14, .ro, 0⟩]⟩
  | .STL_SEQ_ENTRY => ⟨0x100008, 16, 0x10000, 1, 0x0, [⟨15, 0, .ro, 0⟩, ⟨31, 16, .ro, 0⟩]⟩
  | .STL_SEQ_TABLE_LO => ⟨0x100010, 16, 0x10000, 1, 0x0, [⟨31, 0, .ro, 0⟩]⟩
  | .STL_SEQ_TABLE_HI => ⟨0x100014, 16, 0x10000, 1, 0x0, [⟨31, 0, .ro, 0⟩]⟩
  | .STL_SEQ_COUNT => ⟨0x100018, 16, 0x10000, 1, 0x0, [⟨16, 0, .ro, 0⟩]⟩
  | .STL_LOAD_ERR => ⟨0x10001c, 16, 0x10000, 1, 0x0, [⟨15, 0, .ro, 0⟩, ⟨19, 16, .ro, 0⟩]⟩
  | .STL_VEC_LO => ⟨0x100020, 16, 0x10000, 1, 0x0, [⟨31, 0, .ro, 0⟩]⟩
  | .STL_VEC_HI => ⟨0x100024, 16, 0x10000, 1, 0x0, [⟨31, 0, .ro, 0⟩]⟩
  | .STL_FLAGS => ⟨0x100028, 16, 0x10000, 1, 0x0, [⟨7, 0, .rw, 0⟩, ⟨15, 8, .ro, 0⟩, ⟨19, 16, .ro, 0⟩, ⟨20, 20, .ro, 0⟩, ⟨21, 21, .ro, 0⟩]⟩
  | .STL_STACK_PTR => ⟨0x10002c, 16, 0x10000, 1, 0x0, [⟨4, 0, .ro, 0⟩, ⟨11, 8, .ro, 0⟩]⟩
  | .STL_HOP_CTL => ⟨0x100400, 16, 0x10000, 1, 0x0, [⟨6, 0, .rwd, 0⟩]⟩
  | .STL_HOP_STAT => ⟨0x100404, 16, 0x10000, 1, 0x0, [⟨18, 0, .ro, 0⟩, ⟨19, 19, .ro, 0⟩, ⟨20, 20, .ro, 0⟩, ⟨21, 21, .ro, 0⟩]⟩
  | .STL_HOP_RESERVE => ⟨0x100408, 16, 0x10000, 1, 0x0, [⟨18, 0, .ro, 0⟩]⟩
  | .STL_LEAT_RESV => ⟨0x10040c, 16, 0x10000, 1, 0x0, [⟨11, 0, .rwd, 0⟩]⟩
  | .STL_LEAT_CTL => ⟨0x100410, 16, 0x10000, 1, 0x0, [⟨6, 0, .rw, 0x19⟩]⟩
  | .STL_LEAT_PANIC => ⟨0x100414, 16, 0x10000, 1, 0x0, [⟨31, 0, .rc, 0⟩]⟩
  | .STL_LEAT_MINLVL => ⟨0x100418, 16, 0x10000, 1, 0x0, [⟨18, 0, .ro, 0⟩]⟩
  | .STL_STARVE_LINE_LO => ⟨0x10041c, 16, 0x10000, 1, 0x0, [⟨31, 0, .ro, 0⟩]⟩
  | .STL_STARVE_LINE_HI => ⟨0x100420, 16, 0x10000, 1, 0x0, [⟨7, 0, .ro, 0⟩]⟩
  | .STL_STARVE_VEC_LO => ⟨0x100424, 16, 0x10000, 1, 0x0, [⟨31, 0, .ro, 0⟩]⟩
  | .STL_STARVE_VEC_HI => ⟨0x100428, 16, 0x10000, 1, 0x0, [⟨31, 0, .ro, 0⟩]⟩
  | .STL_LEAT_REQ => ⟨0x10042c, 16, 0x10000, 1, 0x0, [⟨11, 0, .ro, 0⟩]⟩
  | .STL_FAIL_LOG_CTL => ⟨0x100500, 16, 0x10000, 1, 0x0, [⟨14, 0, .rw, 0x40⟩, ⟨15, 15, .rw, 0⟩, ⟨16, 16, .ro, 0⟩]⟩
  | .STL_FAIL_LOG_MAX => ⟨0x100504, 16, 0x10000, 1, 0x0, [⟨31, 0, .rw, 0⟩]⟩
  | .STL_FAIL_LOG_CNT => ⟨0x100508, 16, 0x10000, 1, 0x0, [⟨31, 0, .ro, 0⟩]⟩
  | .STL_FAIL_LOG_DROP => ⟨0x10050c, 16, 0x10000, 1, 0x0, [⟨31, 0, .ro, 0⟩]⟩
  | .STL_FIRST_FAIL_LO => ⟨0x100510, 16, 0x10000, 1, 0x0, [⟨31, 0, .ro, 0xffffffff⟩]⟩
  | .STL_FIRST_FAIL_HI => ⟨0x100514, 16, 0x10000, 1, 0x0, [⟨31, 0, .ro, 0xffffffff⟩]⟩
  | .STL_FIRST_FAIL_CH => ⟨0x100518, 16, 0x10000, 1, 0x0, [⟨6, 0, .ro, 0⟩, ⟨7, 7, .ro, 0⟩]⟩
  | .STL_FAIL_VEC => ⟨0x10051c, 16, 0x10000, 1, 0x0, [⟨31, 0, .ro, 0⟩]⟩
  | .STL_MATCH_CTL => ⟨0x100520, 16, 0x10000, 1, 0x0, [⟨8, 0, .rw, 1⟩]⟩
  | .STL_STACK_A => ⟨0x100040, 16, 0x10000, 16, 0x8, [⟨15, 0, .ro, 0⟩, ⟨17, 16, .ro, 0⟩]⟩
  | .STL_STACK_B => ⟨0x100044, 16, 0x10000, 16, 0x8, [⟨31, 0, .ro, 0⟩]⟩
  | .STL_HALT => ⟨0x1000c0, 16, 0x10000, 8, 0x4, [⟨1, 0, .rw, 0⟩, ⟨3, 2, .rw, 0⟩, ⟨5, 4, .rw, 0⟩, ⟨7, 6, .rw, 0⟩, ⟨9, 8, .rw, 0⟩, ⟨11, 10, .rw, 0⟩, ⟨13, 12, .rw, 0⟩, ⟨15, 14, .rw, 0⟩, ⟨17, 16, .rw, 0⟩, ⟨19, 18, .rw, 0⟩, ⟨21, 20, .rw, 0⟩, ⟨23, 22, .rw, 0⟩, ⟨25, 24, .rw, 0⟩, ⟨27, 26, .rw, 0⟩, ⟨29, 28, .rw, 0⟩, ⟨31, 30, .rw, 0⟩]⟩
  | .STL_TS_PERIOD => ⟨0x100200, 16, 0x10000, 64, 0x4, [⟨31, 0, .rw, 0xfa0⟩]⟩
  | .CHN_TG_CTL => ⟨0x300000, 128, 0x100, 1, 0x0, [⟨0, 0, .rw, 0⟩]⟩
  | .CHN_DRV_SKEW => ⟨0x300004, 128, 0x100, 1, 0x0, [⟨15, 0, .rw, 0⟩]⟩
  | .CHN_CMP_SKEW => ⟨0x300008, 128, 0x100, 1, 0x0, [⟨15, 0, .rw, 0⟩]⟩
  | .CHN_FR_INC_LO => ⟨0x30000c, 128, 0x100, 1, 0x0, [⟨31, 0, .rw, 0⟩]⟩
  | .CHN_FR_INC_HI => ⟨0x300010, 128, 0x100, 1, 0x0, [⟨15, 0, .rw, 0⟩]⟩
  | .CHN_TG_STAT => ⟨0x300014, 128, 0x100, 1, 0x0, [⟨0, 0, .w1c, 0⟩, ⟨1, 1, .w1c, 0⟩, ⟨2, 2, .w1c, 0⟩]⟩
  | .CHN_CMP_CTL => ⟨0x300020, 128, 0x100, 1, 0x0, [⟨0, 0, .rw, 0⟩, ⟨1, 1, .rw, 0⟩, ⟨2, 2, .rw, 0⟩]⟩
  | .CHN_CMP_STAT => ⟨0x300024, 128, 0x100, 1, 0x0, [⟨0, 0, .w1c, 0⟩, ⟨1, 1, .w1c, 0⟩, ⟨2, 2, .w1c, 0⟩, ⟨3, 3, .w1c, 0⟩, ⟨4, 4, .w1c, 0⟩]⟩
  | .CHN_FAIL_CNT => ⟨0x300028, 128, 0x100, 1, 0x0, [⟨31, 0, .ro, 0⟩]⟩
  | .CHN_EQ_CTL => ⟨0x300030, 128, 0x100, 1, 0x0, [⟨3, 0, .rw, 0⟩, ⟨7, 4, .rw, 0⟩, ⟨8, 8, .rw, 1⟩, ⟨9, 9, .rw, 0⟩]⟩
  | .CHN_EQ_STAT => ⟨0x300034, 128, 0x100, 1, 0x0, [⟨3, 0, .ro, 0⟩, ⟨7, 4, .ro, 0⟩, ⟨8, 8, .ro, 0⟩, ⟨9, 9, .ro, 0⟩, ⟨10, 10, .w1c, 0⟩, ⟨11, 11, .w1c, 0⟩]⟩
  | .CHN_EQ_WIN => ⟨0x300038, 128, 0x100, 1, 0x0, [⟨12, 0, .ro, 0⟩, ⟨28, 16, .ro, 0⟩]⟩
  | .WFT_WORD => ⟨0x400000, 128, 0x8000, 8192, 0x4, [⟨31, 0, .rw, 0⟩]⟩
  | .FRM_TX_CTL => ⟨0x800000, 16, 0x1000, 1, 0x0, [⟨0, 0, .rw, 0⟩, ⟨3, 1, .rw, 0⟩]⟩
  | .FRM_RX_CTL => ⟨0x800004, 16, 0x1000, 1, 0x0, [⟨0, 0, .rw, 0⟩, ⟨3, 1, .rw, 0⟩, ⟨4, 4, .rw, 0⟩, ⟨5, 5, .rw, 1⟩, ⟨6, 6, .rw, 0⟩, ⟨9, 8, .rw, 3⟩, ⟨12, 10, .rw, 4⟩, ⟨13, 13, .rw, 0⟩, ⟨14, 14, .rw, 0⟩, ⟨15, 15, .rw, 1⟩]⟩
  | .FRM_STAT => ⟨0x800008, 16, 0x1000, 1, 0x0, [⟨0, 0, .ro, 0⟩, ⟨1, 1, .ro, 0⟩, ⟨2, 2, .ro, 0⟩, ⟨3, 3, .ro, 0⟩, ⟨4, 4, .ro, 0⟩, ⟨5, 5, .w1c, 0⟩, ⟨6, 6, .w1c, 0⟩, ⟨7, 7, .w1c, 0⟩]⟩
  | .FRM_DISP_ERR => ⟨0x80000c, 16, 0x1000, 1, 0x0, [⟨31, 0, .rc, 0⟩]⟩
  | .FRM_CODE_ERR => ⟨0x800010, 16, 0x1000, 1, 0x0, [⟨31, 0, .rc, 0⟩]⟩
  | .FRM_MISALIGN => ⟨0x800014, 16, 0x1000, 1, 0x0, [⟨31, 0, .rc, 0⟩]⟩
  | .ACQ_CTL => ⟨0x900000, 16, 0x100, 1, 0x0, [⟨0, 0, .rw, 0⟩, ⟨1, 1, .ro, 0⟩, ⟨2, 2, .ro, 0⟩, ⟨3, 3, .w1c, 0⟩]⟩
  | .ACQ_RESV => ⟨0x900004, 16, 0x100, 1, 0x0, [⟨11, 0, .rwd, 0⟩]⟩
  | .ACQ_REQ => ⟨0x900008, 16, 0x100, 1, 0x0, [⟨11, 0, .ro, 0⟩]⟩
  | .ACQ_TRIG_CTL => ⟨0x90000c, 16, 0x100, 1, 0x0, [⟨3, 0, .rw, 0⟩, ⟨7, 4, .rw, 0⟩]⟩
  | .ACQ_SOFT => ⟨0x900010, 16, 0x100, 1, 0x0, [⟨0, 0, .wo, 0⟩]⟩
  | .ACQ_AUTO => ⟨0x900014, 16, 0x100, 1, 0x0, [⟨25, 0, .rw, 0xf4240⟩, ⟨31, 31, .rw, 0⟩]⟩
  | .ACQ_WIN_CTL => ⟨0x900018, 16, 0x100, 1, 0x0, [⟨4, 0, .rw, 0⟩, ⟨5, 5, .rw, 0⟩, ⟨6, 6, .rw, 1⟩, ⟨7, 7, .rw, 0⟩, ⟨22, 8, .rw, 0x40⟩]⟩
  | .ACQ_RING_BASE => ⟨0x90001c, 16, 0x100, 1, 0x0, [⟨19, 0, .rw, 0⟩]⟩
  | .ACQ_WIN_PRE => ⟨0x900020, 16, 0x100, 1, 0x0, [⟨31, 0, .rw, 0⟩]⟩
  | .ACQ_WIN_POST => ⟨0x900024, 16, 0x100, 1, 0x0, [⟨31, 0, .rw, 1⟩]⟩
  | .ACQ_WIN_STAT => ⟨0x900028, 16, 0x100, 1, 0x0, [⟨2, 0, .ro, 0⟩, ⟨3, 3, .ro, 0⟩, ⟨4, 4, .ro, 0⟩, ⟨5, 5, .ro, 0⟩, ⟨6, 6, .ro, 0⟩, ⟨7, 7, .w1c, 0⟩, ⟨31, 16, .ro, 0⟩]⟩
  | .ACQ_WIN_PRE_ACT => ⟨0x90002c, 16, 0x100, 1, 0x0, [⟨31, 0, .ro, 0⟩]⟩
  | .ACQ_WIN_POST_ACT => ⟨0x900030, 16, 0x100, 1, 0x0, [⟨31, 0, .ro, 0⟩]⟩
  | .ACQ_WIN_TRIG_LO => ⟨0x900034, 16, 0x100, 1, 0x0, [⟨31, 0, .ro, 0⟩]⟩
  | .ACQ_WIN_TRIG_HI => ⟨0x900038, 16, 0x100, 1, 0x0, [⟨31, 0, .ro, 0⟩]⟩
  | .ACQ_WPOS_LO => ⟨0x90003c, 16, 0x100, 1, 0x0, [⟨31, 0, .ro, 0⟩]⟩
  | .ACQ_WPOS_HI => ⟨0x900040, 16, 0x100, 1, 0x0, [⟨31, 0, .ro, 0⟩]⟩
  | .ACQ_TRIG_IGN => ⟨0x900044, 16, 0x100, 1, 0x0, [⟨31, 0, .ro, 0⟩]⟩
  | .ACQ_SHAPED => ⟨0x900048, 16, 0x100, 1, 0x0, [⟨31, 0, .ro, 0⟩]⟩
  | .ACQ_DISC => ⟨0x90004c, 16, 0x100, 1, 0x0, [⟨31, 0, .ro, 0⟩]⟩
  | .ACQ_LOST => ⟨0x900050, 16, 0x100, 1, 0x0, [⟨31, 0, .ro, 0⟩]⟩
  | .ACQ_GAPS => ⟨0x900054, 16, 0x100, 1, 0x0, [⟨31, 0, .ro, 0⟩]⟩
  | .ACQ_WIN_FIRST_LO => ⟨0x900058, 16, 0x100, 1, 0x0, [⟨31, 0, .ro, 0⟩]⟩
  | .ACQ_WIN_FIRST_HI => ⟨0x90005c, 16, 0x100, 1, 0x0, [⟨31, 0, .ro, 0⟩]⟩
  | .ACQ_ROUTE => ⟨0x900060, 16, 0x100, 8, 0x4, [⟨14, 0, .rw, 0⟩, ⟨15, 15, .rw, 1⟩]⟩
  | .ACQ_TRIGOUT => ⟨0x901000, 4, 0x4, 1, 0x0, [⟨0, 0, .rwd, 0⟩, ⟨4, 1, .rwd, 0⟩, ⟨5, 5, .rwd, 0⟩]⟩
  | .ACQ_RWD_FLOOR => ⟨0x902000, 512, 0x4, 1, 0x0, [⟨31, 0, .ro, 0⟩]⟩
  | .TIM_ASSIGN => ⟨0xa00000, 16, 0x100, 1, 0x0, [⟨3, 0, .rwd, 0⟩, ⟨4, 4, .rwd, 0⟩]⟩
  | .TIM_CTL => ⟨0xa00004, 16, 0x100, 1, 0x0, [⟨0, 0, .rw, 0⟩, ⟨1, 1, .rw, 0⟩, ⟨3, 2, .rw, 0⟩, ⟨6, 4, .rw, 0⟩, ⟨7, 7, .rw, 1⟩, ⟨15, 8, .rw, 1⟩]⟩
  | .TIM_START_SRC => ⟨0xa00008, 16, 0x100, 1, 0x0, [⟨1, 0, .rw, 0⟩, ⟨8, 4, .rw, 0⟩, ⟨12, 12, .rw, 0⟩]⟩
  | .TIM_STOP_SRC => ⟨0xa0000c, 16, 0x100, 1, 0x0, [⟨1, 0, .rw, 0⟩, ⟨8, 4, .rw, 0⟩, ⟨12, 12, .rw, 0⟩]⟩
  | .TIM_TIMEOUT => ⟨0xa00010, 16, 0x100, 1, 0x0, [⟨25, 0, .rw, 0⟩]⟩
  | .TIM_ARM => ⟨0xa00014, 16, 0x100, 1, 0x0, [⟨0, 0, .wo, 0⟩]⟩
  | .TIM_STAT => ⟨0xa00018, 16, 0x100, 1, 0x0, [⟨2, 0, .ro, 0⟩, ⟨3, 3, .ro, 0⟩, ⟨4, 4, .w1c, 0⟩, ⟨5, 5, .w1c, 0⟩, ⟨6, 6, .w1c, 0⟩, ⟨7, 7, .ro, 0⟩]⟩
  | .TIM_START_C_LO => ⟨0xa00020, 16, 0x100, 1, 0x0, [⟨31, 0, .ro, 0⟩]⟩
  | .TIM_START_C_HI => ⟨0xa00024, 16, 0x100, 1, 0x0, [⟨15, 0, .ro, 0⟩]⟩
  | .TIM_START_F => ⟨0xa00028, 16, 0x100, 1, 0x0, [⟨11, 0, .ro, 0⟩]⟩
  | .TIM_STOP_C_LO => ⟨0xa0002c, 16, 0x100, 1, 0x0, [⟨31, 0, .ro, 0⟩]⟩
  | .TIM_STOP_C_HI => ⟨0xa00030, 16, 0x100, 1, 0x0, [⟨15, 0, .ro, 0⟩]⟩
  | .TIM_STOP_F => ⟨0xa00034, 16, 0x100, 1, 0x0, [⟨11, 0, .ro, 0⟩]⟩
  | .TIM_RESULT_LO => ⟨0xa00038, 16, 0x100, 1, 0x0, [⟨31, 0, .ro, 0⟩]⟩
  | .TIM_RESULT_HI => ⟨0xa0003c, 16, 0x100, 1, 0x0, [⟨31, 0, .ro, 0⟩]⟩
  | .TIM_COUNT => ⟨0xa00040, 16, 0x100, 1, 0x0, [⟨31, 0, .rc, 0⟩]⟩
  | .TIM_MISS => ⟨0xa00044, 16, 0x100, 1, 0x0, [⟨31, 0, .rc, 0⟩]⟩
  | .FLT_ASSIGN => ⟨0xb00000, 16, 0x1000, 1, 0x0, [⟨3, 0, .rwd, 0⟩, ⟨4, 4, .rwd, 0⟩]⟩
  | .FLT_CTL => ⟨0xb00004, 16, 0x1000, 1, 0x0, [⟨0, 0, .rw, 0⟩, ⟨1, 1, .rw, 0⟩, ⟨2, 2, .rw, 0⟩, ⟨10, 4, .rw, 0⟩, ⟨15, 11, .rw, 1⟩, ⟨25, 16, .rw, 1⟩]⟩
  | .FLT_CIC => ⟨0xb0000c, 16, 0x1000, 1, 0x0, [⟨2, 0, .rw, 1⟩, ⟨18, 8, .rw, 8⟩, ⟨25, 19, .rw, 3⟩]⟩
  | .FLT_HB_CTL => ⟨0xb00010, 16, 0x1000, 1, 0x0, [⟨2, 0, .rw, 7⟩]⟩
  | .FLT_FIR_CTL => ⟨0xb00014, 16, 0x1000, 1, 0x0, [⟨7, 0, .rw, 1⟩, ⟨12, 8, .rw, 1⟩]⟩
  | .FLT_DC => ⟨0xb00018, 16, 0x1000, 1, 0x0, [⟨4, 0, .rw, 0⟩, ⟨5, 5, .rw, 0⟩]⟩
  | .FLT_SYNC => ⟨0xb0001c, 16, 0x1000, 1, 0x0, [⟨0, 0, .rw, 0⟩, ⟨3, 1, .rw, 0⟩]⟩
  | .FLT_STAT => ⟨0xb00020, 16, 0x1000, 1, 0x0, [⟨0, 0, .w1c, 0⟩, ⟨1, 1, .w1c, 0⟩, ⟨2, 2, .w1c, 0⟩, ⟨3, 3, .w1c, 0⟩, ⟨4, 4, .w1c, 0⟩, ⟨5, 5, .w1c, 0⟩, ⟨6, 6, .ro, 0⟩, ⟨7, 7, .w1c, 0⟩, ⟨8, 8, .w1c, 0⟩]⟩
  | .FLT_GDELAY => ⟨0xb00024, 16, 0x1000, 1, 0x0, [⟨22, 0, .ro, 0x1f7⟩]⟩
  | .FLT_SETTLE => ⟨0xb00028, 16, 0x1000, 1, 0x0, [⟨22, 0, .ro, 0x3f⟩]⟩
  | .FLT_DECIM => ⟨0xb0002c, 16, 0x1000, 1, 0x0, [⟨17, 0, .ro, 8⟩]⟩
  | .FLT_DC_M_LO => ⟨0xb00030, 16, 0x1000, 1, 0x0, [⟨31, 0, .ro, 0⟩]⟩
  | .FLT_DC_M_HI => ⟨0xb00034, 16, 0x1000, 1, 0x0, [⟨23, 0, .ro, 0⟩]⟩
  | .FLT_OUT_CNT => ⟨0xb00038, 16, 0x1000, 1, 0x0, [⟨31, 0, .rc, 0⟩]⟩
  | .FLT_COMP => ⟨0xb00100, 16, 0x1000, 32, 0x4, [⟨23, 0, .rw, 0⟩]⟩
  | .FLT_HB => ⟨0xb00200, 16, 0x1000, 24, 0x4, [⟨23, 0, .rw, 0⟩]⟩
  | .FLT_FIR => ⟨0xb00400, 16, 0x1000, 128, 0x4, [⟨23, 0, .rw, 0⟩]⟩
  | .QM_CFG => ⟨0x1000000, 32768, 0x20, 1, 0x0, [⟨0, 0, .rw, 0⟩, ⟨5, 1, .rw, 0⟩, ⟨10, 6, .rw, 0⟩, ⟨11, 11, .rw, 0⟩, ⟨12, 12, .rw, 0⟩, ⟨13, 13, .wo, 0⟩]⟩
  | .QM_SPILL => ⟨0x1000004, 32768, 0x20, 1, 0x0, [⟨27, 0, .rw, 0⟩]⟩
  | .QM_DEPTH => ⟨0x1000008, 32768, 0x20, 1, 0x0, [⟨24, 0, .ro, 0⟩]⟩
  | .QM_PKTS => ⟨0x100000c, 32768, 0x20, 1, 0x0, [⟨23, 0, .ro, 0⟩]⟩
  | .QM_RETAIN => ⟨0x1000010, 32768, 0x20, 1, 0x0, [⟨24, 0, .ro, 0⟩]⟩
  | .QM_STAT => ⟨0x1000014, 32768, 0x20, 1, 0x0, [⟨0, 0, .w1c, 0⟩, ⟨1, 1, .ro, 0⟩, ⟨2, 2, .w1c, 0⟩, ⟨3, 3, .ro, 0⟩, ⟨4, 4, .w1c, 0⟩]⟩
  | .QM_REFUSED => ⟨0x1000018, 32768, 0x20, 1, 0x0, [⟨31, 0, .rc, 0⟩]⟩
  | .QM_FLUSHED => ⟨0x100001c, 32768, 0x20, 1, 0x0, [⟨31, 0, .rc, 0⟩]⟩
  | .YRD_CTL => ⟨0x1200000, 1, 0x0, 1, 0x0, [⟨19, 0, .rwd, 0x2710⟩]⟩
  | .YRD_STAT => ⟨0x1200004, 1, 0x0, 1, 0x0, [⟨1, 0, .ro, 0⟩, ⟨24, 8, .ro, 0⟩]⟩
  | .YRD_USE => ⟨0x1200008, 1, 0x0, 1, 0x0, [⟨16, 0, .ro, 0⟩, ⟨31, 17, .ro, 0⟩]⟩
  | .YRD_LOAD_WIN => ⟨0x120000c, 1, 0x0, 1, 0x0, [⟨19, 0, .rwd, 0x3e8⟩]⟩
  | .YRD_REFUSED => ⟨0x1200010, 1, 0x0, 1, 0x0, [⟨31, 0, .rc, 0⟩]⟩
  | .YRD_OPSTAT => ⟨0x1200044, 5, 0x4, 1, 0x0, [⟨31, 0, .rc, 0⟩]⟩
  | .YRD_CORE_LOAD => ⟨0x1200100, 32, 0x4, 1, 0x0, [⟨10, 0, .ro, 0⟩, ⟨11, 11, .ro, 0⟩, ⟨31, 12, .ro, 0⟩]⟩
  | .YRD_HIST_SEL => ⟨0x1200200, 16, 0x4, 1, 0x0, [⟨11, 0, .rwd, 0⟩, ⟨21, 12, .rwd, 0⟩, ⟨22, 22, .rwd, 0⟩, ⟨23, 23, .rwd, 0⟩, ⟨31, 24, .rwd, 0⟩]⟩
  | .YRD_HIST => ⟨0x1200400, 16, 0x40, 16, 0x4, [⟨31, 0, .rc, 0⟩]⟩
  | .YRD_QWATCH_SEL => ⟨0x1200800, 16, 0x8, 1, 0x0, [⟨14, 0, .rwd, 0⟩, ⟨15, 15, .rwd, 0⟩]⟩
  | .YRD_QWATCH_MAX => ⟨0x1200804, 16, 0x8, 1, 0x0, [⟨24, 0, .rc, 0⟩]⟩
  | .YRD_FLOW => ⟨0x1201000, 1024, 0x4, 1, 0x0, [⟨12, 0, .ro, 0⟩, ⟨13, 13, .ro, 0⟩]⟩
  | .MC_CFG => ⟨0x1400000, 6, 0x10000, 1, 0x0, [⟨1, 0, .rwd, 0⟩, ⟨2, 2, .rwd, 0⟩, ⟨4, 3, .rwd, 0⟩, ⟨5, 5, .rwd, 0⟩, ⟨7, 6, .rwd, 0⟩, ⟨8, 8, .rwd, 0⟩]⟩
  | .MC_STAT => ⟨0x1400004, 6, 0x10000, 1, 0x0, [⟨0, 0, .ro, 0⟩, ⟨1, 1, .ro, 0⟩, ⟨2, 2, .ro, 0⟩, ⟨3, 3, .ro, 0⟩, ⟨5, 4, .ro, 0⟩, ⟨6, 6, .ro, 0⟩, ⟨8, 7, .ro, 0⟩, ⟨12, 9, .ro, 0⟩, ⟨16, 13, .ro, 0⟩, ⟨17, 17, .ro, 0⟩]⟩
  | .MC_TEMP => ⟨0x1400008, 6, 0x10000, 1, 0x0, [⟨1, 0, .ro, 0⟩, ⟨4, 2, .ro, 0⟩, ⟨5, 5, .ro, 0⟩, ⟨9, 8, .ro, 0⟩, ⟨12, 10, .ro, 0⟩, ⟨13, 13, .ro, 0⟩, ⟨17, 16, .ro, 0⟩, ⟨20, 18, .ro, 0⟩, ⟨21, 21, .ro, 0⟩, ⟨25, 24, .ro, 0⟩, ⟨28, 26, .ro, 0⟩, ⟨29, 29, .ro, 0⟩]⟩
  | .MC_CE_CNT => ⟨0x140000c, 6, 0x10000, 1, 0x0, [⟨31, 0, .rc, 0⟩]⟩
  | .MC_UE_CNT => ⟨0x1400010, 6, 0x10000, 1, 0x0, [⟨31, 0, .rc, 0⟩]⟩
  | .MC_UE_ADDR_LO => ⟨0x1400014, 6, 0x10000, 1, 0x0, [⟨31, 0, .ro, 0⟩]⟩
  | .MC_UE_ADDR_HI => ⟨0x1400018, 6, 0x10000, 1, 0x0, [⟨7, 0, .ro, 0⟩, ⟨8, 8, .w1c, 0⟩]⟩
  | .MC_THROTTLE => ⟨0x140001c, 6, 0x10000, 1, 0x0, [⟨31, 0, .rc, 0⟩]⟩
  | .MC_NBR_REF => ⟨0x1400020, 6, 0x10000, 1, 0x0, [⟨31, 0, .rc, 0⟩]⟩
  | .MC_URGENT => ⟨0x1400024, 6, 0x10000, 1, 0x0, [⟨31, 0, .rc, 0⟩]⟩
  | .MC_MIG_PTR_LO => ⟨0x1400028, 6, 0x10000, 1, 0x0, [⟨31, 0, .ro, 0⟩]⟩
  | .MC_MIG_PTR_HI => ⟨0x140002c, 6, 0x10000, 1, 0x0, [⟨7, 0, .ro, 0⟩]⟩
  | .MC_SYS_CFG => ⟨0x14f0000, 1, 0x0, 1, 0x0, [⟨1, 0, .rwd, 0⟩]⟩
  | .MC_SYS_REF => ⟨0x14f0004, 1, 0x0, 1, 0x0, [⟨0, 0, .rwd, 0⟩, ⟨7, 1, .rwd, 0x55⟩, ⟨17, 8, .rwd, 4⟩]⟩
  | .MC_SYS_PWR => ⟨0x14f0008, 1, 0x0, 1, 0x0, [⟨9, 0, .rwd, 0xa⟩, ⟨10, 10, .rwd, 1⟩, ⟨27, 11, .rwd, 0x2710⟩]⟩
  | .MC_SYS_RD => ⟨0x14f000c, 1, 0x0, 1, 0x0, [⟨15, 0, .rwd, 0x1000⟩, ⟨20, 16, .rwd, 0xc⟩, ⟨21, 21, .rwd, 1⟩]⟩
  | .MC_SYS_ECC => ⟨0x14f0010, 1, 0x0, 1, 0x0, [⟨0, 0, .rwd, 1⟩, ⟨1, 1, .rwd, 1⟩]⟩
  | .MC_SYS_STAT => ⟨0x14f0014, 1, 0x0, 1, 0x0, [⟨1, 0, .ro, 0⟩, ⟨7, 2, .ro, 0⟩, ⟨13, 8, .ro, 0⟩, ⟨16, 14, .ro, 0⟩]⟩
  | .MC_SYS_PEAK => ⟨0x14f0018, 1, 0x0, 1, 0x0, [⟨11, 0, .ro, 0⟩, ⟨23, 12, .ro, 0⟩]⟩
  | .MC_SYS_SIZE => ⟨0x14f001c, 1, 0x0, 1, 0x0, [⟨19, 0, .ro, 0⟩]⟩
  | .TB_STAT => ⟨0x1600000, 1, 0x0, 1, 0x0, [⟨0, 0, .ro, 0⟩, ⟨1, 1, .ro, 0⟩, ⟨2, 2, .ro, 0⟩, ⟨5, 3, .ro, 0⟩]⟩
  | .TB_CNT_LO => ⟨0x1600004, 1, 0x0, 1, 0x0, [⟨31, 0, .ro, 0⟩]⟩
  | .TB_CNT_HI => ⟨0x1600008, 1, 0x0, 1, 0x0, [⟨31, 0, .ro, 0⟩]⟩
  | .TB_OFS_SEC_LO => ⟨0x160000c, 1, 0x0, 1, 0x0, [⟨31, 0, .ro, 0⟩]⟩
  | .TB_OFS_SEC_HI => ⟨0x1600010, 1, 0x0, 1, 0x0, [⟨15, 0, .ro, 0⟩]⟩
  | .TB_OFS_NS => ⟨0x1600014, 1, 0x0, 1, 0x0, [⟨29, 0, .ro, 0⟩]⟩
  | .TB_OFS_SUBNS => ⟨0x1600018, 1, 0x0, 1, 0x0, [⟨15, 0, .ro, 0⟩]⟩
  | .TB_RATE_LO => ⟨0x160001c, 1, 0x0, 1, 0x0, [⟨31, 0, .rwd, 0⟩]⟩
  | .TB_RATE_HI => ⟨0x1600020, 1, 0x0, 1, 0x0, [⟨31, 0, .rwd, 0⟩]⟩
  | .TB_TSQ_STAT => ⟨0x1600024, 1, 0x0, 1, 0x0, [⟨7, 0, .ro, 0⟩]⟩
  | .TB_PTP_OFS => ⟨0x1600028, 1, 0x0, 1, 0x0, [⟨31, 0, .ro, 0⟩]⟩
  | .TB_PTP_DLY => ⟨0x160002c, 1, 0x0, 1, 0x0, [⟨31, 0, .ro, 0⟩]⟩
  | .TB_SYNC_CTL => ⟨0x1600800, 1, 0x0, 1, 0x0, [⟨0, 0, .rwd, 0⟩, ⟨1, 1, .wo, 0⟩, ⟨2, 2, .rwd, 0⟩, ⟨3, 3, .rwd, 0⟩, ⟨14, 8, .rwd, 0⟩]⟩
  | .TB_SYNC_TRIM => ⟨0x1600804, 1, 0x0, 1, 0x0, [⟨13, 0, .rwd, 0⟩]⟩
  | .TB_SYNC_STAT => ⟨0x1600808, 1, 0x0, 1, 0x0, [⟨0, 0, .ro, 0⟩, ⟨1, 1, .w1c, 0⟩, ⟨2, 2, .w1c, 0⟩]⟩
  | .TB_SYNC_MEAS => ⟨0x160080c, 1, 0x0, 1, 0x0, [⟨15, 0, .ro, 0⟩, ⟨20, 16, .ro, 0⟩]⟩
  | .TB_SYNC_CNT_LO => ⟨0x1600810, 1, 0x0, 1, 0x0, [⟨31, 0, .ro, 0⟩]⟩
  | .TB_SYNC_CNT_HI => ⟨0x1600814, 1, 0x0, 1, 0x0, [⟨31, 0, .ro, 0⟩]⟩
  | .TB_SYNC_COUNT => ⟨0x1600818, 1, 0x0, 1, 0x0, [⟨31, 0, .rc, 0⟩]⟩
  | .TB_PTP_CTL => ⟨0x1600100, 8, 0x4, 1, 0x0, [⟨1, 0, .rwd, 0⟩, ⟨9, 2, .rwd, 0⟩, ⟨17, 10, .rwd, 0x80⟩, ⟨21, 18, .rwd, 0⟩]⟩
  | .TB_ALARM_STAT => ⟨0x1600200, 16, 0x4, 1, 0x0, [⟨0, 0, .ro, 0⟩, ⟨1, 1, .ro, 0⟩, ⟨2, 2, .w1c, 0⟩, ⟨15, 8, .ro, 0⟩, ⟨31, 16, .ro, 0⟩]⟩
  | .CAL_STAT => ⟨0x1700000, 1, 0x0, 1, 0x0, [⟨0, 0, .ro, 0⟩, ⟨2, 1, .ro, 0⟩, ⟨9, 3, .ro, 0⟩, ⟨10, 10, .ro, 0⟩]⟩
  | .CAL_SEL => ⟨0x1700100, 128, 0x4, 1, 0x0, [⟨1, 0, .ro, 0⟩, ⟨3, 2, .ro, 0⟩, ⟨5, 4, .ro, 0⟩, ⟨9, 8, .ro, 0⟩, ⟨11, 10, .ro, 0⟩, ⟨13, 12, .ro, 0⟩]⟩
  | .CAL_TVC_SEL => ⟨0x1700300, 16, 0x4, 1, 0x0, [⟨1, 0, .ro, 0⟩, ⟨3, 2, .ro, 0⟩]⟩
  | .CAL_SYNC_SEL => ⟨0x1700340, 1, 0x0, 1, 0x0, [⟨0, 0, .ro, 0⟩, ⟨2, 1, .ro, 0⟩]⟩
  | .FLC_STAT => ⟨0x1800000, 1, 0x0, 1, 0x0, [⟨0, 0, .ro, 0⟩, ⟨1, 1, .w1c, 0⟩, ⟨2, 2, .ro, 0⟩]⟩
  | .FLC_FIRST => ⟨0x1800004, 1, 0x0, 1, 0x0, [⟨7, 0, .ro, 0⟩, ⟨8, 8, .w1c, 0⟩, ⟨9, 9, .ro, 0⟩, ⟨10, 10, .ro, 0⟩, ⟨13, 11, .ro, 0⟩]⟩
  | .FLC_FIRST_TAG_LO => ⟨0x1800008, 1, 0x0, 1, 0x0, [⟨31, 0, .ro, 0⟩]⟩
  | .FLC_FIRST_TAG_HI => ⟨0x180000c, 1, 0x0, 1, 0x0, [⟨31, 0, .ro, 0⟩]⟩
  | .FLC_FIRST_DETAIL => ⟨0x1800010, 1, 0x0, 1, 0x0, [⟨15, 0, .ro, 0⟩]⟩
  | .FLC_SHADOW => ⟨0x1800014, 1, 0x0, 1, 0x0, [⟨9, 0, .rwd, 0xa⟩]⟩
  | .FLC_SEC_CNT => ⟨0x1800018, 1, 0x0, 1, 0x0, [⟨31, 0, .rc, 0⟩]⟩
  | .FLC_INJECT => ⟨0x180001c, 1, 0x0, 1, 0x0, [⟨7, 0, .ro, 0⟩, ⟨8, 8, .ro, 0⟩]⟩
  | .FLC_EVT_SUPP => ⟨0x1800020, 1, 0x0, 1, 0x0, [⟨31, 0, .rc, 0⟩]⟩
  | .FLC_LIVE => ⟨0x1800100, 8, 0x4, 1, 0x0, [⟨31, 0, .ro, 0⟩]⟩
  | .FLC_STICKY => ⟨0x1800120, 8, 0x4, 1, 0x0, [⟨31, 0, .w1c, 0⟩]⟩
  | .FLC_SEC => ⟨0x1800140, 8, 0x4, 1, 0x0, [⟨31, 0, .w1c, 0⟩]⟩
  | .FLC_WIRE => ⟨0x1800160, 8, 0x4, 1, 0x0, [⟨31, 0, .ro, 0⟩]⟩
  | .FLC_REACT => ⟨0x1800200, 32, 0x4, 1, 0x0, [⟨2, 0, .rwd, 0⟩, ⟨6, 4, .rwd, 0⟩, ⟨10, 8, .rwd, 0⟩, ⟨14, 12, .rwd, 0⟩, ⟨18, 16, .rwd, 0⟩, ⟨22, 20, .rwd, 0⟩, ⟨26, 24, .rwd, 0⟩, ⟨30, 28, .rwd, 0⟩]⟩
  | .PES_CFG => ⟨0x1900000, 4, 0x1000, 1, 0x0, [⟨0, 0, .rwd, 1⟩, ⟨1, 1, .rwd, 0⟩, ⟨9, 2, .rwd, 0x10⟩]⟩
  | .PES_STAT => ⟨0x1900004, 4, 0x1000, 1, 0x0, [⟨2, 0, .ro, 0⟩, ⟨3, 3, .ro, 0⟩, ⟨11, 4, .ro, 0⟩, ⟨19, 12, .ro, 0⟩]⟩
  | .PES_CS_ASSIGN => ⟨0x1900020, 4, 0x1000, 8, 0x4, [⟨3, 0, .rwd, 0⟩, ⟨4, 4, .rwd, 0⟩]⟩
  | .PES_XFER => ⟨0x1900040, 4, 0x1000, 8, 0x4, [⟨7, 0, .rw, 1⟩, ⟨8, 8, .rw, 0⟩, ⟨16, 16, .wo, 0⟩, ⟨17, 17, .ro, 0⟩, ⟨18, 18, .w1c, 0⟩]⟩
  | .PES_TX => ⟨0x1900400, 4, 0x1000, 256, 0x4, [⟨31, 0, .rw, 0⟩]⟩
  | .PES_RX => ⟨0x1900800, 4, 0x1000, 256, 0x4, [⟨31, 0, .ro, 0⟩]⟩
  | .TCK_WORD => ⟨0x1f00000, 32768, 0x4, 1, 0x0, [⟨31, 0, .ro, 0⟩]⟩

/-- Register kinds, piece 0. -/
def regKinds0 : List R :=
  [.DEV_ID, .DEV_STEP, .DEV_STRAP, .DEV_SERIAL_LO, .DEV_SERIAL_HI, .DEV_MAC_LO, .DEV_MAC_HI, .DEV_TEMP,
   .DEV_MGMT, .DEV_PART, .DEV_MKR_DLY, .PCR_SUPPLY_STAT, .PCR_SUPPLY_CTL, .PCR_RAIL_STAT, .PCR_CLK_STAT,
   .PCR_RESET_CAUSE, .PCR_RESET_CTL, .PCR_BLOCK_RST, .PCR_SERVICE, .PCR_BOOT_STAT, .HP_PORT_CTL,
   .HP_REF_CTL, .HP_TX_EQ, .HP_RX_EQ_STAT, .HP_LINK_STAT, .HP_TEST_CTL, .HP_MAC_LO, .HP_MAC_HI,
   .HP_IPV4, .HP_VLAN, .HP_RX_FRAMES, .HP_RX_FCS_ERR, .HP_RX_DROP, .HP_TX_FRAMES, .HP_TX_DROP,
   .HP_FEC_CORR, .HP_FEC_UNCORR, .HP_PRBS_ERR, .OWN_CTL, .OWN_UDP]

/-- Register kinds, piece 1. -/
def regKinds1 : List R :=
  [.OWN_DEV_OWNER, .OWN_DROP, .OWN_EVENT_DROP, .OWN_STALL_OWNER, .OWN_SESSION, .OWN_MEMWIN_BASE,
   .OWN_MEMWIN_LIMIT, .STL_SEQ_CTL, .STL_SEQ_STAT, .STL_SEQ_ENTRY, .STL_SEQ_TABLE_LO, .STL_SEQ_TABLE_HI,
   .STL_SEQ_COUNT, .STL_LOAD_ERR, .STL_VEC_LO, .STL_VEC_HI, .STL_FLAGS, .STL_STACK_PTR, .STL_HOP_CTL,
   .STL_HOP_STAT, .STL_HOP_RESERVE, .STL_LEAT_RESV, .STL_LEAT_CTL, .STL_LEAT_PANIC, .STL_LEAT_MINLVL,
   .STL_STARVE_LINE_LO, .STL_STARVE_LINE_HI, .STL_STARVE_VEC_LO, .STL_STARVE_VEC_HI, .STL_LEAT_REQ,
   .STL_FAIL_LOG_CTL, .STL_FAIL_LOG_MAX, .STL_FAIL_LOG_CNT, .STL_FAIL_LOG_DROP, .STL_FIRST_FAIL_LO,
   .STL_FIRST_FAIL_HI, .STL_FIRST_FAIL_CH, .STL_FAIL_VEC, .STL_MATCH_CTL, .STL_STACK_A]

/-- Register kinds, piece 2. -/
def regKinds2 : List R :=
  [.STL_STACK_B, .STL_HALT, .STL_TS_PERIOD, .CHN_TG_CTL, .CHN_DRV_SKEW, .CHN_CMP_SKEW, .CHN_FR_INC_LO,
   .CHN_FR_INC_HI, .CHN_TG_STAT, .CHN_CMP_CTL, .CHN_CMP_STAT, .CHN_FAIL_CNT, .CHN_EQ_CTL, .CHN_EQ_STAT,
   .CHN_EQ_WIN, .WFT_WORD, .FRM_TX_CTL, .FRM_RX_CTL, .FRM_STAT, .FRM_DISP_ERR, .FRM_CODE_ERR,
   .FRM_MISALIGN, .ACQ_CTL, .ACQ_RESV, .ACQ_REQ, .ACQ_TRIG_CTL, .ACQ_SOFT, .ACQ_AUTO, .ACQ_WIN_CTL,
   .ACQ_RING_BASE, .ACQ_WIN_PRE, .ACQ_WIN_POST, .ACQ_WIN_STAT, .ACQ_WIN_PRE_ACT, .ACQ_WIN_POST_ACT,
   .ACQ_WIN_TRIG_LO, .ACQ_WIN_TRIG_HI, .ACQ_WPOS_LO, .ACQ_WPOS_HI, .ACQ_TRIG_IGN]

/-- Register kinds, piece 3. -/
def regKinds3 : List R :=
  [.ACQ_SHAPED, .ACQ_DISC, .ACQ_LOST, .ACQ_GAPS, .ACQ_WIN_FIRST_LO, .ACQ_WIN_FIRST_HI, .ACQ_ROUTE,
   .ACQ_TRIGOUT, .ACQ_RWD_FLOOR, .TIM_ASSIGN, .TIM_CTL, .TIM_START_SRC, .TIM_STOP_SRC, .TIM_TIMEOUT,
   .TIM_ARM, .TIM_STAT, .TIM_START_C_LO, .TIM_START_C_HI, .TIM_START_F, .TIM_STOP_C_LO, .TIM_STOP_C_HI,
   .TIM_STOP_F, .TIM_RESULT_LO, .TIM_RESULT_HI, .TIM_COUNT, .TIM_MISS, .FLT_ASSIGN, .FLT_CTL, .FLT_CIC,
   .FLT_HB_CTL, .FLT_FIR_CTL, .FLT_DC, .FLT_SYNC, .FLT_STAT, .FLT_GDELAY, .FLT_SETTLE, .FLT_DECIM,
   .FLT_DC_M_LO, .FLT_DC_M_HI, .FLT_OUT_CNT]

/-- Register kinds, piece 4. -/
def regKinds4 : List R :=
  [.FLT_COMP, .FLT_HB, .FLT_FIR, .QM_CFG, .QM_SPILL, .QM_DEPTH, .QM_PKTS, .QM_RETAIN, .QM_STAT,
   .QM_REFUSED, .QM_FLUSHED, .YRD_CTL, .YRD_STAT, .YRD_USE, .YRD_LOAD_WIN, .YRD_REFUSED, .YRD_OPSTAT,
   .YRD_CORE_LOAD, .YRD_HIST_SEL, .YRD_HIST, .YRD_QWATCH_SEL, .YRD_QWATCH_MAX, .YRD_FLOW, .MC_CFG,
   .MC_STAT, .MC_TEMP, .MC_CE_CNT, .MC_UE_CNT, .MC_UE_ADDR_LO, .MC_UE_ADDR_HI, .MC_THROTTLE,
   .MC_NBR_REF, .MC_URGENT, .MC_MIG_PTR_LO, .MC_MIG_PTR_HI, .MC_SYS_CFG, .MC_SYS_REF, .MC_SYS_PWR,
   .MC_SYS_RD, .MC_SYS_ECC]

/-- Register kinds, piece 5. -/
def regKinds5 : List R :=
  [.MC_SYS_STAT, .MC_SYS_PEAK, .MC_SYS_SIZE, .TB_STAT, .TB_CNT_LO, .TB_CNT_HI, .TB_OFS_SEC_LO,
   .TB_OFS_SEC_HI, .TB_OFS_NS, .TB_OFS_SUBNS, .TB_RATE_LO, .TB_RATE_HI, .TB_TSQ_STAT, .TB_PTP_OFS,
   .TB_PTP_DLY, .TB_SYNC_CTL, .TB_SYNC_TRIM, .TB_SYNC_STAT, .TB_SYNC_MEAS, .TB_SYNC_CNT_LO,
   .TB_SYNC_CNT_HI, .TB_SYNC_COUNT, .TB_PTP_CTL, .TB_ALARM_STAT, .CAL_STAT, .CAL_SEL, .CAL_TVC_SEL,
   .CAL_SYNC_SEL, .FLC_STAT, .FLC_FIRST, .FLC_FIRST_TAG_LO, .FLC_FIRST_TAG_HI, .FLC_FIRST_DETAIL,
   .FLC_SHADOW, .FLC_SEC_CNT, .FLC_INJECT, .FLC_EVT_SUPP, .FLC_LIVE, .FLC_STICKY, .FLC_SEC]

/-- Register kinds, piece 6. -/
def regKinds6 : List R :=
  [.FLC_WIRE, .FLC_REACT, .PES_CFG, .PES_STAT, .PES_CS_ASSIGN, .PES_XFER, .PES_TX, .PES_RX, .TCK_WORD]

/-- Every register kind. -/
def regKinds : List R := regKinds0 ++ regKinds1 ++ regKinds2 ++ regKinds3 ++ regKinds4 ++ regKinds5 ++ regKinds6

/-- The address of instance (i, j) of a register kind. -/
def R.addr (r : R) (i j : Nat := 0) : Nat := r.row.base + i * r.row.s1 + j * r.row.s2

/-- The instance of `row` that lies at address `a`, if one does. -/
def rowAt (row : RegRow) (a : Nat) : Option (Nat × Nat) :=
  if a < row.base then none
  else
    let d := a - row.base
    let i := if row.n1 = 1 then 0 else d / row.s1
    let e := d - i * row.s1
    let j := if row.n2 = 1 then 0 else e / row.s2
    if i < row.n1 ∧ j < row.n2 ∧ e = j * row.s2 then some (i, j) else none

/-- The register kind and instance assigned to address `a`, searching `l`. -/
def regAtIn : List R → Nat → Option (R × Nat × Nat)
  | [], _ => none
  | r :: t, a =>
    match rowAt r.row a with
    | some (i, j) => some (r, i, j)
    | none => regAtIn t a

/-- The register kind and instance assigned to address `a` (R498, R505). -/
def regAt (a : Nat) : Option (R × Nat × Nat) := regAtIn regKinds a

/-- One field of a register kind, named for use in the meanings. -/
structure FRef where
  reg : R
  hi : Nat
  lo : Nat
  deriving DecidableEq, Repr

abbrev F.DEV_ID.id : FRef := ⟨.DEV_ID, 31, 0⟩
abbrev F.DEV_STEP.minor : FRef := ⟨.DEV_STEP, 3, 0⟩
abbrev F.DEV_STEP.major : FRef := ⟨.DEV_STEP, 7, 4⟩
abbrev F.DEV_STEP.package : FRef := ⟨.DEV_STEP, 15, 8⟩
abbrev F.DEV_STRAP.i2ca : FRef := ⟨.DEV_STRAP, 2, 0⟩
abbrev F.DEV_STRAP.hlrate : FRef := ⟨.DEV_STRAP, 3, 3⟩
abbrev F.DEV_STRAP.refmode : FRef := ⟨.DEV_STRAP, 4, 4⟩
abbrev F.DEV_STRAP.mgmt : FRef := ⟨.DEV_STRAP, 5, 5⟩
abbrev F.DEV_STRAP.nodram : FRef := ⟨.DEV_STRAP, 6, 6⟩
abbrev F.DEV_STRAP.rsvd : FRef := ⟨.DEV_STRAP, 7, 7⟩
abbrev F.DEV_SERIAL_LO.serial_lo : FRef := ⟨.DEV_SERIAL_LO, 31, 0⟩
abbrev F.DEV_SERIAL_HI.serial_hi : FRef := ⟨.DEV_SERIAL_HI, 31, 0⟩
abbrev F.DEV_MAC_LO.mac_lo : FRef := ⟨.DEV_MAC_LO, 31, 0⟩
abbrev F.DEV_MAC_HI.mac_hi : FRef := ⟨.DEV_MAC_HI, 15, 0⟩
abbrev F.DEV_TEMP.tj_sys : FRef := ⟨.DEV_TEMP, 7, 0⟩
abbrev F.DEV_TEMP.tj_tim : FRef := ⟨.DEV_TEMP, 15, 8⟩
abbrev F.DEV_TEMP.tim_valid : FRef := ⟨.DEV_TEMP, 16, 16⟩
abbrev F.DEV_MGMT.slots : FRef := ⟨.DEV_MGMT, 31, 0⟩
abbrev F.DEV_PART.octets : FRef := ⟨.DEV_PART, 15, 0⟩
abbrev F.DEV_PART.mkr_out : FRef := ⟨.DEV_PART, 23, 16⟩
abbrev F.DEV_MKR_DLY.delay : FRef := ⟨.DEV_MKR_DLY, 13, 0⟩
abbrev F.PCR_SUPPLY_STAT.vmain_ok : FRef := ⟨.PCR_SUPPLY_STAT, 0, 0⟩
abbrev F.PCR_SUPPLY_STAT.vaux_ok : FRef := ⟨.PCR_SUPPLY_STAT, 1, 1⟩
abbrev F.PCR_SUPPLY_STAT.on_vaux : FRef := ⟨.PCR_SUPPLY_STAT, 2, 2⟩
abbrev F.PCR_SUPPLY_STAT.vmain_v : FRef := ⟨.PCR_SUPPLY_STAT, 15, 8⟩
abbrev F.PCR_SUPPLY_STAT.vaux_v : FRef := ⟨.PCR_SUPPLY_STAT, 23, 16⟩
abbrev F.PCR_SUPPLY_STAT.switch_count : FRef := ⟨.PCR_SUPPLY_STAT, 31, 24⟩
abbrev F.PCR_SUPPLY_CTL.return_hold : FRef := ⟨.PCR_SUPPLY_CTL, 0, 0⟩
abbrev F.PCR_SUPPLY_CTL.force_return : FRef := ⟨.PCR_SUPPLY_CTL, 1, 1⟩
abbrev F.PCR_SUPPLY_CTL.return_delay : FRef := ⟨.PCR_SUPPLY_CTL, 23, 16⟩
abbrev F.PCR_RAIL_STAT.rail_ok : FRef := ⟨.PCR_RAIL_STAT, 6, 0⟩
abbrev F.PCR_RAIL_STAT.rail_fault : FRef := ⟨.PCR_RAIL_STAT, 14, 8⟩
abbrev F.PCR_CLK_STAT.refclk_present : FRef := ⟨.PCR_CLK_STAT, 0, 0⟩
abbrev F.PCR_CLK_STAT.root_lock : FRef := ⟨.PCR_CLK_STAT, 1, 1⟩
abbrev F.PCR_CLK_STAT.mc_pll_lock : FRef := ⟨.PCR_CLK_STAT, 13, 8⟩
abbrev F.PCR_CLK_STAT.hl_pll_lock : FRef := ⟨.PCR_CLK_STAT, 23, 16⟩
abbrev F.PCR_CLK_STAT.refclk_lost : FRef := ⟨.PCR_CLK_STAT, 24, 24⟩
abbrev F.PCR_RESET_CAUSE.cold_porst : FRef := ⟨.PCR_RESET_CAUSE, 0, 0⟩
abbrev F.PCR_RESET_CAUSE.cold_supply : FRef := ⟨.PCR_RESET_CAUSE, 1, 1⟩
abbrev F.PCR_RESET_CAUSE.warm_pin : FRef := ⟨.PCR_RESET_CAUSE, 2, 2⟩
abbrev F.PCR_RESET_CAUSE.warm_cmd : FRef := ⟨.PCR_RESET_CAUSE, 3, 3⟩
abbrev F.PCR_RESET_CAUSE.warm_fault : FRef := ⟨.PCR_RESET_CAUSE, 4, 4⟩
abbrev F.PCR_RESET_CAUSE.warm_clock : FRef := ⟨.PCR_RESET_CAUSE, 5, 5⟩
abbrev F.PCR_RESET_CAUSE.boot_fallback : FRef := ⟨.PCR_RESET_CAUSE, 6, 6⟩
abbrev F.PCR_RESET_CAUSE.migration_resumed : FRef := ⟨.PCR_RESET_CAUSE, 7, 7⟩
abbrev F.PCR_RESET_CTL.warm : FRef := ⟨.PCR_RESET_CTL, 0, 0⟩
abbrev F.PCR_RESET_CTL.cold : FRef := ⟨.PCR_RESET_CTL, 1, 1⟩
abbrev F.PCR_RESET_CTL.key : FRef := ⟨.PCR_RESET_CTL, 31, 16⟩
abbrev F.PCR_BLOCK_RST.hl : FRef := ⟨.PCR_BLOCK_RST, 7, 0⟩
abbrev F.PCR_BLOCK_RST.mc : FRef := ⟨.PCR_BLOCK_RST, 13, 8⟩
abbrev F.PCR_BLOCK_RST.qm : FRef := ⟨.PCR_BLOCK_RST, 14, 14⟩
abbrev F.PCR_BLOCK_RST.yrd : FRef := ⟨.PCR_BLOCK_RST, 15, 15⟩
abbrev F.PCR_BLOCK_RST.acq : FRef := ⟨.PCR_BLOCK_RST, 16, 16⟩
abbrev F.PCR_BLOCK_RST.flt : FRef := ⟨.PCR_BLOCK_RST, 17, 17⟩
abbrev F.PCR_BLOCK_RST.tim : FRef := ⟨.PCR_BLOCK_RST, 18, 18⟩
abbrev F.PCR_BLOCK_RST.frm : FRef := ⟨.PCR_BLOCK_RST, 19, 19⟩
abbrev F.PCR_BLOCK_RST.cal : FRef := ⟨.PCR_BLOCK_RST, 20, 20⟩
abbrev F.PCR_SERVICE.level : FRef := ⟨.PCR_SERVICE, 1, 0⟩
abbrev F.PCR_SERVICE.timing_die_ok : FRef := ⟨.PCR_SERVICE, 2, 2⟩
abbrev F.PCR_SERVICE.mc_trained : FRef := ⟨.PCR_SERVICE, 8, 3⟩
abbrev F.PCR_SERVICE.hl_up : FRef := ⟨.PCR_SERVICE, 16, 9⟩
abbrev F.PCR_SERVICE.ready : FRef := ⟨.PCR_SERVICE, 17, 17⟩
abbrev F.PCR_BOOT_STAT.active_slot : FRef := ⟨.PCR_BOOT_STAT, 0, 0⟩
abbrev F.PCR_BOOT_STAT.slot_a_valid : FRef := ⟨.PCR_BOOT_STAT, 1, 1⟩
abbrev F.PCR_BOOT_STAT.slot_b_valid : FRef := ⟨.PCR_BOOT_STAT, 2, 2⟩
abbrev F.PCR_BOOT_STAT.fallback : FRef := ⟨.PCR_BOOT_STAT, 3, 3⟩
abbrev F.PCR_BOOT_STAT.build : FRef := ⟨.PCR_BOOT_STAT, 31, 16⟩
abbrev F.HP_PORT_CTL.enable : FRef := ⟨.HP_PORT_CTL, 0, 0⟩
abbrev F.HP_PORT_CTL.rate : FRef := ⟨.HP_PORT_CTL, 1, 1⟩
abbrev F.HP_PORT_CTL.ref_mode : FRef := ⟨.HP_PORT_CTL, 2, 2⟩
abbrev F.HP_PORT_CTL.fec_en : FRef := ⟨.HP_PORT_CTL, 3, 3⟩
abbrev F.HP_PORT_CTL.restart : FRef := ⟨.HP_PORT_CTL, 4, 4⟩
abbrev F.HP_REF_CTL.ssc_en : FRef := ⟨.HP_REF_CTL, 0, 0⟩
abbrev F.HP_REF_CTL.ssc_depth : FRef := ⟨.HP_REF_CTL, 7, 4⟩
abbrev F.HP_REF_CTL.ssc_freq : FRef := ⟨.HP_REF_CTL, 10, 8⟩
abbrev F.HP_TX_EQ.pre : FRef := ⟨.HP_TX_EQ, 3, 0⟩
abbrev F.HP_TX_EQ.post : FRef := ⟨.HP_TX_EQ, 8, 4⟩
abbrev F.HP_TX_EQ.swing : FRef := ⟨.HP_TX_EQ, 14, 9⟩
abbrev F.HP_RX_EQ_STAT.ctle : FRef := ⟨.HP_RX_EQ_STAT, 3, 0⟩
abbrev F.HP_RX_EQ_STAT.dfe1 : FRef := ⟨.HP_RX_EQ_STAT, 11, 4⟩
abbrev F.HP_RX_EQ_STAT.adapted : FRef := ⟨.HP_RX_EQ_STAT, 12, 12⟩
abbrev F.HP_LINK_STAT.state : FRef := ⟨.HP_LINK_STAT, 2, 0⟩
abbrev F.HP_LINK_STAT.block_lock : FRef := ⟨.HP_LINK_STAT, 3, 3⟩
abbrev F.HP_LINK_STAT.hi_ber : FRef := ⟨.HP_LINK_STAT, 4, 4⟩
abbrev F.HP_LINK_STAT.local_fault : FRef := ⟨.HP_LINK_STAT, 5, 5⟩
abbrev F.HP_LINK_STAT.remote_fault : FRef := ⟨.HP_LINK_STAT, 6, 6⟩
abbrev F.HP_LINK_STAT.fec_lock : FRef := ⟨.HP_LINK_STAT, 7, 7⟩
abbrev F.HP_LINK_STAT.link_changes : FRef := ⟨.HP_LINK_STAT, 31, 16⟩
abbrev F.HP_TEST_CTL.loop : FRef := ⟨.HP_TEST_CTL, 1, 0⟩
abbrev F.HP_TEST_CTL.prbs_gen : FRef := ⟨.HP_TEST_CTL, 2, 2⟩
abbrev F.HP_TEST_CTL.prbs_chk : FRef := ⟨.HP_TEST_CTL, 3, 3⟩
abbrev F.HP_TEST_CTL.loop_timeout : FRef := ⟨.HP_TEST_CTL, 15, 8⟩
abbrev F.HP_MAC_LO.mac_lo : FRef := ⟨.HP_MAC_LO, 31, 0⟩
abbrev F.HP_MAC_HI.mac_hi : FRef := ⟨.HP_MAC_HI, 15, 0⟩
abbrev F.HP_IPV4.addr : FRef := ⟨.HP_IPV4, 31, 0⟩
abbrev F.HP_VLAN.vid : FRef := ⟨.HP_VLAN, 11, 0⟩
abbrev F.HP_VLAN.pcp : FRef := ⟨.HP_VLAN, 14, 12⟩
abbrev F.HP_VLAN.tag_en : FRef := ⟨.HP_VLAN, 15, 15⟩
abbrev F.HP_RX_FRAMES.count : FRef := ⟨.HP_RX_FRAMES, 31, 0⟩
abbrev F.HP_RX_FCS_ERR.count : FRef := ⟨.HP_RX_FCS_ERR, 31, 0⟩
abbrev F.HP_RX_DROP.count : FRef := ⟨.HP_RX_DROP, 31, 0⟩
abbrev F.HP_TX_FRAMES.count : FRef := ⟨.HP_TX_FRAMES, 31, 0⟩
abbrev F.HP_TX_DROP.count : FRef := ⟨.HP_TX_DROP, 31, 0⟩
abbrev F.HP_FEC_CORR.count : FRef := ⟨.HP_FEC_CORR, 31, 0⟩
abbrev F.HP_FEC_UNCORR.count : FRef := ⟨.HP_FEC_UNCORR, 31, 0⟩
abbrev F.HP_PRBS_ERR.count : FRef := ⟨.HP_PRBS_ERR, 31, 0⟩
abbrev F.OWN_CTL.ethertype : FRef := ⟨.OWN_CTL, 15, 0⟩
abbrev F.OWN_CTL.eth_en : FRef := ⟨.OWN_CTL, 16, 16⟩
abbrev F.OWN_CTL.udp_en : FRef := ⟨.OWN_CTL, 17, 17⟩
abbrev F.OWN_UDP.port : FRef := ⟨.OWN_UDP, 15, 0⟩
abbrev F.OWN_DEV_OWNER.session : FRef := ⟨.OWN_DEV_OWNER, 15, 0⟩
abbrev F.OWN_DEV_OWNER.electing : FRef := ⟨.OWN_DEV_OWNER, 16, 16⟩
abbrev F.OWN_DROP.count : FRef := ⟨.OWN_DROP, 31, 0⟩
abbrev F.OWN_EVENT_DROP.count : FRef := ⟨.OWN_EVENT_DROP, 31, 0⟩
abbrev F.OWN_STALL_OWNER.session : FRef := ⟨.OWN_STALL_OWNER, 15, 0⟩
abbrev F.OWN_STALL_OWNER.electing : FRef := ⟨.OWN_STALL_OWNER, 16, 16⟩
abbrev F.OWN_SESSION.handle : FRef := ⟨.OWN_SESSION, 15, 0⟩
abbrev F.OWN_SESSION.state : FRef := ⟨.OWN_SESSION, 17, 16⟩
abbrev F.OWN_SESSION.lane : FRef := ⟨.OWN_SESSION, 20, 18⟩
abbrev F.OWN_SESSION.udp : FRef := ⟨.OWN_SESSION, 21, 21⟩
abbrev F.OWN_SESSION.lease_left : FRef := ⟨.OWN_SESSION, 31, 22⟩
abbrev F.OWN_MEMWIN_BASE.base_mib : FRef := ⟨.OWN_MEMWIN_BASE, 19, 0⟩
abbrev F.OWN_MEMWIN_LIMIT.limit_mib : FRef := ⟨.OWN_MEMWIN_LIMIT, 19, 0⟩
abbrev F.STL_SEQ_CTL.timeout_halt : FRef := ⟨.STL_SEQ_CTL, 0, 0⟩
abbrev F.STL_SEQ_CTL.fail_scope : FRef := ⟨.STL_SEQ_CTL, 1, 1⟩
abbrev F.STL_SEQ_STAT.state : FRef := ⟨.STL_SEQ_STAT, 2, 0⟩
abbrev F.STL_SEQ_STAT.cause : FRef := ⟨.STL_SEQ_STAT, 5, 3⟩
abbrev F.STL_SEQ_STAT.fault_hold : FRef := ⟨.STL_SEQ_STAT, 7, 7⟩
abbrev F.STL_SEQ_STAT.seq_err : FRef := ⟨.STL_SEQ_STAT, 11, 8⟩
abbrev F.STL_SEQ_STAT.waitc_timeout : FRef := ⟨.STL_SEQ_STAT, 12, 12⟩
abbrev F.STL_SEQ_STAT.start_missed : FRef := ⟨.STL_SEQ_STAT, 13, 13⟩
abbrev F.STL_SEQ_STAT.table_loaded : FRef := ⟨.STL_SEQ_STAT, 14, 14⟩
abbrev F.STL_SEQ_ENTRY.entry : FRef := ⟨.STL_SEQ_ENTRY, 15, 0⟩
abbrev F.STL_SEQ_ENTRY.next : FRef := ⟨.STL_SEQ_ENTRY, 31, 16⟩
abbrev F.STL_SEQ_TABLE_LO.addr_lo : FRef := ⟨.STL_SEQ_TABLE_LO, 31, 0⟩
abbrev F.STL_SEQ_TABLE_HI.addr_hi : FRef := ⟨.STL_SEQ_TABLE_HI, 31, 0⟩
abbrev F.STL_SEQ_COUNT.entries : FRef := ⟨.STL_SEQ_COUNT, 16, 0⟩
abbrev F.STL_LOAD_ERR.entry : FRef := ⟨.STL_LOAD_ERR, 15, 0⟩
abbrev F.STL_LOAD_ERR.reason : FRef := ⟨.STL_LOAD_ERR, 19, 16⟩
abbrev F.STL_VEC_LO.vector_lo : FRef := ⟨.STL_VEC_LO, 31, 0⟩
abbrev F.STL_VEC_HI.vector_hi : FRef := ⟨.STL_VEC_HI, 31, 0⟩
abbrev F.STL_FLAGS.hostflag : FRef := ⟨.STL_FLAGS, 7, 0⟩
abbrev F.STL_FLAGS.yardflag : FRef := ⟨.STL_FLAGS, 15, 8⟩
abbrev F.STL_FLAGS.trig_latch : FRef := ⟨.STL_FLAGS, 19, 16⟩
abbrev F.STL_FLAGS.fail_latch : FRef := ⟨.STL_FLAGS, 20, 20⟩
abbrev F.STL_FLAGS.match : FRef := ⟨.STL_FLAGS, 21, 21⟩
abbrev F.STL_STACK_PTR.depth : FRef := ⟨.STL_STACK_PTR, 4, 0⟩
abbrev F.STL_STACK_PTR.loop_depth : FRef := ⟨.STL_STACK_PTR, 11, 8⟩
abbrev F.STL_HOP_CTL.units : FRef := ⟨.STL_HOP_CTL, 6, 0⟩
abbrev F.STL_HOP_STAT.level : FRef := ⟨.STL_HOP_STAT, 18, 0⟩
abbrev F.STL_HOP_STAT.panic : FRef := ⟨.STL_HOP_STAT, 19, 19⟩
abbrev F.STL_HOP_STAT.resident : FRef := ⟨.STL_HOP_STAT, 20, 20⟩
abbrev F.STL_HOP_STAT.prefilled : FRef := ⟨.STL_HOP_STAT, 21, 21⟩
abbrev F.STL_HOP_RESERVE.reserve : FRef := ⟨.STL_HOP_RESERVE, 18, 0⟩
abbrev F.STL_LEAT_RESV.resv : FRef := ⟨.STL_LEAT_RESV, 11, 0⟩
abbrev F.STL_LEAT_CTL.panic_pct : FRef := ⟨.STL_LEAT_CTL, 6, 0⟩
abbrev F.STL_LEAT_PANIC.count : FRef := ⟨.STL_LEAT_PANIC, 31, 0⟩
abbrev F.STL_LEAT_MINLVL.min_level : FRef := ⟨.STL_LEAT_MINLVL, 18, 0⟩
abbrev F.STL_STARVE_LINE_LO.line_lo : FRef := ⟨.STL_STARVE_LINE_LO, 31, 0⟩
abbrev F.STL_STARVE_LINE_HI.line_hi : FRef := ⟨.STL_STARVE_LINE_HI, 7, 0⟩
abbrev F.STL_STARVE_VEC_LO.vec_lo : FRef := ⟨.STL_STARVE_VEC_LO, 31, 0⟩
abbrev F.STL_STARVE_VEC_HI.vec_hi : FRef := ⟨.STL_STARVE_VEC_HI, 31, 0⟩
abbrev F.STL_LEAT_REQ.req : FRef := ⟨.STL_LEAT_REQ, 11, 0⟩
abbrev F.STL_FAIL_LOG_CTL.queue : FRef := ⟨.STL_FAIL_LOG_CTL, 14, 0⟩
abbrev F.STL_FAIL_LOG_CTL.en : FRef := ⟨.STL_FAIL_LOG_CTL, 15, 15⟩
abbrev F.STL_FAIL_LOG_CTL.limit_hit : FRef := ⟨.STL_FAIL_LOG_CTL, 16, 16⟩
abbrev F.STL_FAIL_LOG_MAX.max : FRef := ⟨.STL_FAIL_LOG_MAX, 31, 0⟩
abbrev F.STL_FAIL_LOG_CNT.count : FRef := ⟨.STL_FAIL_LOG_CNT, 31, 0⟩
abbrev F.STL_FAIL_LOG_DROP.count : FRef := ⟨.STL_FAIL_LOG_DROP, 31, 0⟩
abbrev F.STL_FIRST_FAIL_LO.vec_lo : FRef := ⟨.STL_FIRST_FAIL_LO, 31, 0⟩
abbrev F.STL_FIRST_FAIL_HI.vec_hi : FRef := ⟨.STL_FIRST_FAIL_HI, 31, 0⟩
abbrev F.STL_FIRST_FAIL_CH.channel : FRef := ⟨.STL_FIRST_FAIL_CH, 6, 0⟩
abbrev F.STL_FIRST_FAIL_CH.valid : FRef := ⟨.STL_FIRST_FAIL_CH, 7, 7⟩
abbrev F.STL_FAIL_VEC.count : FRef := ⟨.STL_FAIL_VEC, 31, 0⟩
abbrev F.STL_MATCH_CTL.run : FRef := ⟨.STL_MATCH_CTL, 8, 0⟩
abbrev F.STL_STACK_A.ret_entry : FRef := ⟨.STL_STACK_A, 15, 0⟩
abbrev F.STL_STACK_A.kind : FRef := ⟨.STL_STACK_A, 17, 16⟩
abbrev F.STL_STACK_B.left : FRef := ⟨.STL_STACK_B, 31, 0⟩
abbrev F.STL_HALT.halt0 : FRef := ⟨.STL_HALT, 1, 0⟩
abbrev F.STL_HALT.halt1 : FRef := ⟨.STL_HALT, 3, 2⟩
abbrev F.STL_HALT.halt2 : FRef := ⟨.STL_HALT, 5, 4⟩
abbrev F.STL_HALT.halt3 : FRef := ⟨.STL_HALT, 7, 6⟩
abbrev F.STL_HALT.halt4 : FRef := ⟨.STL_HALT, 9, 8⟩
abbrev F.STL_HALT.halt5 : FRef := ⟨.STL_HALT, 11, 10⟩
abbrev F.STL_HALT.halt6 : FRef := ⟨.STL_HALT, 13, 12⟩
abbrev F.STL_HALT.halt7 : FRef := ⟨.STL_HALT, 15, 14⟩
abbrev F.STL_HALT.halt8 : FRef := ⟨.STL_HALT, 17, 16⟩
abbrev F.STL_HALT.halt9 : FRef := ⟨.STL_HALT, 19, 18⟩
abbrev F.STL_HALT.halt10 : FRef := ⟨.STL_HALT, 21, 20⟩
abbrev F.STL_HALT.halt11 : FRef := ⟨.STL_HALT, 23, 22⟩
abbrev F.STL_HALT.halt12 : FRef := ⟨.STL_HALT, 25, 24⟩
abbrev F.STL_HALT.halt13 : FRef := ⟨.STL_HALT, 27, 26⟩
abbrev F.STL_HALT.halt14 : FRef := ⟨.STL_HALT, 29, 28⟩
abbrev F.STL_HALT.halt15 : FRef := ⟨.STL_HALT, 31, 30⟩
abbrev F.STL_TS_PERIOD.period : FRef := ⟨.STL_TS_PERIOD, 31, 0⟩
abbrev F.CHN_TG_CTL.mode : FRef := ⟨.CHN_TG_CTL, 0, 0⟩
abbrev F.CHN_DRV_SKEW.skew : FRef := ⟨.CHN_DRV_SKEW, 15, 0⟩
abbrev F.CHN_CMP_SKEW.skew : FRef := ⟨.CHN_CMP_SKEW, 15, 0⟩
abbrev F.CHN_FR_INC_LO.inc_lo : FRef := ⟨.CHN_FR_INC_LO, 31, 0⟩
abbrev F.CHN_FR_INC_HI.inc_hi : FRef := ⟨.CHN_FR_INC_HI, 15, 0⟩
abbrev F.CHN_TG_STAT.late_event : FRef := ⟨.CHN_TG_STAT, 0, 0⟩
abbrev F.CHN_TG_STAT.pair_ignored : FRef := ⟨.CHN_TG_STAT, 1, 1⟩
abbrev F.CHN_TG_STAT.fr_clip : FRef := ⟨.CHN_TG_STAT, 2, 2⟩
abbrev F.CHN_CMP_CTL.mask : FRef := ⟨.CHN_CMP_CTL, 0, 0⟩
abbrev F.CHN_CMP_CTL.inv_h : FRef := ⟨.CHN_CMP_CTL, 1, 1⟩
abbrev F.CHN_CMP_CTL.inv_l : FRef := ⟨.CHN_CMP_CTL, 2, 2⟩
abbrev F.CHN_CMP_STAT.inconsistent : FRef := ⟨.CHN_CMP_STAT, 0, 0⟩
abbrev F.CHN_CMP_STAT.reopen : FRef := ⟨.CHN_CMP_STAT, 1, 1⟩
abbrev F.CHN_CMP_STAT.orphan_close : FRef := ⟨.CHN_CMP_STAT, 2, 2⟩
abbrev F.CHN_CMP_STAT.empty_window : FRef := ⟨.CHN_CMP_STAT, 3, 3⟩
abbrev F.CHN_CMP_STAT.window_cut : FRef := ⟨.CHN_CMP_STAT, 4, 4⟩
abbrev F.CHN_FAIL_CNT.count : FRef := ⟨.CHN_FAIL_CNT, 31, 0⟩
abbrev F.CHN_EQ_CTL.trained_h : FRef := ⟨.CHN_EQ_CTL, 3, 0⟩
abbrev F.CHN_EQ_CTL.trained_l : FRef := ⟨.CHN_EQ_CTL, 7, 4⟩
abbrev F.CHN_EQ_CTL.adapt_en : FRef := ⟨.CHN_EQ_CTL, 8, 8⟩
abbrev F.CHN_EQ_CTL.train : FRef := ⟨.CHN_EQ_CTL, 9, 9⟩
abbrev F.CHN_EQ_STAT.code_h : FRef := ⟨.CHN_EQ_STAT, 3, 0⟩
abbrev F.CHN_EQ_STAT.code_l : FRef := ⟨.CHN_EQ_STAT, 7, 4⟩
abbrev F.CHN_EQ_STAT.frozen_h : FRef := ⟨.CHN_EQ_STAT, 8, 8⟩
abbrev F.CHN_EQ_STAT.frozen_l : FRef := ⟨.CHN_EQ_STAT, 9, 9⟩
abbrev F.CHN_EQ_STAT.bound_h : FRef := ⟨.CHN_EQ_STAT, 10, 10⟩
abbrev F.CHN_EQ_STAT.bound_l : FRef := ⟨.CHN_EQ_STAT, 11, 11⟩
abbrev F.CHN_EQ_WIN.trans_h : FRef := ⟨.CHN_EQ_WIN, 12, 0⟩
abbrev F.CHN_EQ_WIN.trans_l : FRef := ⟨.CHN_EQ_WIN, 28, 16⟩
abbrev F.WFT_WORD.word : FRef := ⟨.WFT_WORD, 31, 0⟩
abbrev F.FRM_TX_CTL.en : FRef := ⟨.FRM_TX_CTL, 0, 0⟩
abbrev F.FRM_TX_CTL.ch : FRef := ⟨.FRM_TX_CTL, 3, 1⟩
abbrev F.FRM_RX_CTL.en : FRef := ⟨.FRM_RX_CTL, 0, 0⟩
abbrev F.FRM_RX_CTL.ch : FRef := ⟨.FRM_RX_CTL, 3, 1⟩
abbrev F.FRM_RX_CTL.k28_1 : FRef := ⟨.FRM_RX_CTL, 4, 4⟩
abbrev F.FRM_RX_CTL.k28_5 : FRef := ⟨.FRM_RX_CTL, 5, 5⟩
abbrev F.FRM_RX_CTL.k28_7 : FRef := ⟨.FRM_RX_CTL, 6, 6⟩
abbrev F.FRM_RX_CTL.acq : FRef := ⟨.FRM_RX_CTL, 9, 8⟩
abbrev F.FRM_RX_CTL.loss : FRef := ⟨.FRM_RX_CTL, 12, 10⟩
abbrev F.FRM_RX_CTL.cap_en : FRef := ⟨.FRM_RX_CTL, 13, 13⟩
abbrev F.FRM_RX_CTL.drop_idle : FRef := ⟨.FRM_RX_CTL, 14, 14⟩
abbrev F.FRM_RX_CTL.err_latch : FRef := ⟨.FRM_RX_CTL, 15, 15⟩
abbrev F.FRM_STAT.aligned : FRef := ⟨.FRM_STAT, 0, 0⟩
abbrev F.FRM_STAT.rd_rx : FRef := ⟨.FRM_STAT, 1, 1⟩
abbrev F.FRM_STAT.rd_tx : FRef := ⟨.FRM_STAT, 2, 2⟩
abbrev F.FRM_STAT.idle : FRef := ⟨.FRM_STAT, 3, 3⟩
abbrev F.FRM_STAT.mode_idle : FRef := ⟨.FRM_STAT, 4, 4⟩
abbrev F.FRM_STAT.tx_bad_k : FRef := ⟨.FRM_STAT, 5, 5⟩
abbrev F.FRM_STAT.no_strobe : FRef := ⟨.FRM_STAT, 6, 6⟩
abbrev F.FRM_STAT.lost_align : FRef := ⟨.FRM_STAT, 7, 7⟩
abbrev F.FRM_DISP_ERR.count : FRef := ⟨.FRM_DISP_ERR, 31, 0⟩
abbrev F.FRM_CODE_ERR.count : FRef := ⟨.FRM_CODE_ERR, 31, 0⟩
abbrev F.FRM_MISALIGN.count : FRef := ⟨.FRM_MISALIGN, 31, 0⟩
abbrev F.ACQ_CTL.normal : FRef := ⟨.ACQ_CTL, 0, 0⟩
abbrev F.ACQ_CTL.mode : FRef := ⟨.ACQ_CTL, 1, 1⟩
abbrev F.ACQ_CTL.reserved_run : FRef := ⟨.ACQ_CTL, 2, 2⟩
abbrev F.ACQ_CTL.overrun : FRef := ⟨.ACQ_CTL, 3, 3⟩
abbrev F.ACQ_RESV.resv : FRef := ⟨.ACQ_RESV, 11, 0⟩
abbrev F.ACQ_REQ.req : FRef := ⟨.ACQ_REQ, 11, 0⟩
abbrev F.ACQ_TRIG_CTL.src : FRef := ⟨.ACQ_TRIG_CTL, 3, 0⟩
abbrev F.ACQ_TRIG_CTL.index : FRef := ⟨.ACQ_TRIG_CTL, 7, 4⟩
abbrev F.ACQ_SOFT.trig : FRef := ⟨.ACQ_SOFT, 0, 0⟩
abbrev F.ACQ_AUTO.timeout : FRef := ⟨.ACQ_AUTO, 25, 0⟩
abbrev F.ACQ_AUTO.en : FRef := ⟨.ACQ_AUTO, 31, 31⟩
abbrev F.ACQ_WIN_CTL.size : FRef := ⟨.ACQ_WIN_CTL, 4, 0⟩
abbrev F.ACQ_WIN_CTL.rearm : FRef := ⟨.ACQ_WIN_CTL, 5, 5⟩
abbrev F.ACQ_WIN_CTL.arm_at_start : FRef := ⟨.ACQ_WIN_CTL, 6, 6⟩
abbrev F.ACQ_WIN_CTL.note_en : FRef := ⟨.ACQ_WIN_CTL, 7, 7⟩
abbrev F.ACQ_WIN_CTL.note_q : FRef := ⟨.ACQ_WIN_CTL, 22, 8⟩
abbrev F.ACQ_RING_BASE.base_mib : FRef := ⟨.ACQ_RING_BASE, 19, 0⟩
abbrev F.ACQ_WIN_PRE.pre : FRef := ⟨.ACQ_WIN_PRE, 31, 0⟩
abbrev F.ACQ_WIN_POST.post : FRef := ⟨.ACQ_WIN_POST, 31, 0⟩
abbrev F.ACQ_WIN_STAT.state : FRef := ⟨.ACQ_WIN_STAT, 2, 0⟩
abbrev F.ACQ_WIN_STAT.trig_lost : FRef := ⟨.ACQ_WIN_STAT, 3, 3⟩
abbrev F.ACQ_WIN_STAT.pre_cut : FRef := ⟨.ACQ_WIN_STAT, 4, 4⟩
abbrev F.ACQ_WIN_STAT.cut : FRef := ⟨.ACQ_WIN_STAT, 5, 5⟩
abbrev F.ACQ_WIN_STAT.auto : FRef := ⟨.ACQ_WIN_STAT, 6, 6⟩
abbrev F.ACQ_WIN_STAT.note_lost : FRef := ⟨.ACQ_WIN_STAT, 7, 7⟩
abbrev F.ACQ_WIN_STAT.seq : FRef := ⟨.ACQ_WIN_STAT, 31, 16⟩
abbrev F.ACQ_WIN_PRE_ACT.count : FRef := ⟨.ACQ_WIN_PRE_ACT, 31, 0⟩
abbrev F.ACQ_WIN_POST_ACT.count : FRef := ⟨.ACQ_WIN_POST_ACT, 31, 0⟩
abbrev F.ACQ_WIN_TRIG_LO.pos_lo : FRef := ⟨.ACQ_WIN_TRIG_LO, 31, 0⟩
abbrev F.ACQ_WIN_TRIG_HI.pos_hi : FRef := ⟨.ACQ_WIN_TRIG_HI, 31, 0⟩
abbrev F.ACQ_WPOS_LO.pos_lo : FRef := ⟨.ACQ_WPOS_LO, 31, 0⟩
abbrev F.ACQ_WPOS_HI.pos_hi : FRef := ⟨.ACQ_WPOS_HI, 31, 0⟩
abbrev F.ACQ_TRIG_IGN.count : FRef := ⟨.ACQ_TRIG_IGN, 31, 0⟩
abbrev F.ACQ_SHAPED.count : FRef := ⟨.ACQ_SHAPED, 31, 0⟩
abbrev F.ACQ_DISC.count : FRef := ⟨.ACQ_DISC, 31, 0⟩
abbrev F.ACQ_LOST.count : FRef := ⟨.ACQ_LOST, 31, 0⟩
abbrev F.ACQ_GAPS.count : FRef := ⟨.ACQ_GAPS, 31, 0⟩
abbrev F.ACQ_WIN_FIRST_LO.pos_lo : FRef := ⟨.ACQ_WIN_FIRST_LO, 31, 0⟩
abbrev F.ACQ_WIN_FIRST_HI.pos_hi : FRef := ⟨.ACQ_WIN_FIRST_HI, 31, 0⟩
abbrev F.ACQ_ROUTE.queue : FRef := ⟨.ACQ_ROUTE, 14, 0⟩
abbrev F.ACQ_ROUTE.keep : FRef := ⟨.ACQ_ROUTE, 15, 15⟩
abbrev F.ACQ_TRIGOUT.en : FRef := ⟨.ACQ_TRIGOUT, 0, 0⟩
abbrev F.ACQ_TRIGOUT.stall : FRef := ⟨.ACQ_TRIGOUT, 4, 1⟩
abbrev F.ACQ_TRIGOUT.event : FRef := ⟨.ACQ_TRIGOUT, 5, 5⟩
abbrev F.ACQ_RWD_FLOOR.floor : FRef := ⟨.ACQ_RWD_FLOOR, 31, 0⟩
abbrev F.TIM_ASSIGN.stall : FRef := ⟨.TIM_ASSIGN, 3, 0⟩
abbrev F.TIM_ASSIGN.assigned : FRef := ⟨.TIM_ASSIGN, 4, 4⟩
abbrev F.TIM_CTL.en : FRef := ⟨.TIM_CTL, 0, 0⟩
abbrev F.TIM_CTL.repeat_ : FRef := ⟨.TIM_CTL, 1, 1⟩
abbrev F.TIM_CTL.gate_src : FRef := ⟨.TIM_CTL, 3, 2⟩
abbrev F.TIM_CTL.gate_idx : FRef := ⟨.TIM_CTL, 6, 4⟩
abbrev F.TIM_CTL.deskew_en : FRef := ⟨.TIM_CTL, 7, 7⟩
abbrev F.TIM_CTL.stop_count : FRef := ⟨.TIM_CTL, 15, 8⟩
abbrev F.TIM_START_SRC.src : FRef := ⟨.TIM_START_SRC, 1, 0⟩
abbrev F.TIM_START_SRC.index : FRef := ⟨.TIM_START_SRC, 8, 4⟩
abbrev F.TIM_START_SRC.edge : FRef := ⟨.TIM_START_SRC, 12, 12⟩
abbrev F.TIM_STOP_SRC.src : FRef := ⟨.TIM_STOP_SRC, 1, 0⟩
abbrev F.TIM_STOP_SRC.index : FRef := ⟨.TIM_STOP_SRC, 8, 4⟩
abbrev F.TIM_STOP_SRC.edge : FRef := ⟨.TIM_STOP_SRC, 12, 12⟩
abbrev F.TIM_TIMEOUT.timeout : FRef := ⟨.TIM_TIMEOUT, 25, 0⟩
abbrev F.TIM_ARM.arm : FRef := ⟨.TIM_ARM, 0, 0⟩
abbrev F.TIM_STAT.state : FRef := ⟨.TIM_STAT, 2, 0⟩
abbrev F.TIM_STAT.done : FRef := ⟨.TIM_STAT, 3, 3⟩
abbrev F.TIM_STAT.timeout : FRef := ⟨.TIM_STAT, 4, 4⟩
abbrev F.TIM_STAT.ovf : FRef := ⟨.TIM_STAT, 5, 5⟩
abbrev F.TIM_STAT.cut : FRef := ⟨.TIM_STAT, 6, 6⟩
abbrev F.TIM_STAT.sync_meas : FRef := ⟨.TIM_STAT, 7, 7⟩
abbrev F.TIM_START_C_LO.c_lo : FRef := ⟨.TIM_START_C_LO, 31, 0⟩
abbrev F.TIM_START_C_HI.c_hi : FRef := ⟨.TIM_START_C_HI, 15, 0⟩
abbrev F.TIM_START_F.f : FRef := ⟨.TIM_START_F, 11, 0⟩
abbrev F.TIM_STOP_C_LO.c_lo : FRef := ⟨.TIM_STOP_C_LO, 31, 0⟩
abbrev F.TIM_STOP_C_HI.c_hi : FRef := ⟨.TIM_STOP_C_HI, 15, 0⟩
abbrev F.TIM_STOP_F.f : FRef := ⟨.TIM_STOP_F, 11, 0⟩
abbrev F.TIM_RESULT_LO.n_lo : FRef := ⟨.TIM_RESULT_LO, 31, 0⟩
abbrev F.TIM_RESULT_HI.n_hi : FRef := ⟨.TIM_RESULT_HI, 31, 0⟩
abbrev F.TIM_COUNT.count : FRef := ⟨.TIM_COUNT, 31, 0⟩
abbrev F.TIM_MISS.count : FRef := ⟨.TIM_MISS, 31, 0⟩
abbrev F.FLT_ASSIGN.stall : FRef := ⟨.FLT_ASSIGN, 3, 0⟩
abbrev F.FLT_ASSIGN.assigned : FRef := ⟨.FLT_ASSIGN, 4, 4⟩
abbrev F.FLT_CTL.en : FRef := ⟨.FLT_CTL, 0, 0⟩
abbrev F.FLT_CTL.input : FRef := ⟨.FLT_CTL, 1, 1⟩
abbrev F.FLT_CTL.fmt : FRef := ⟨.FLT_CTL, 2, 2⟩
abbrev F.FLT_CTL.ch : FRef := ⟨.FLT_CTL, 10, 4⟩
abbrev F.FLT_CTL.width : FRef := ⟨.FLT_CTL, 15, 11⟩
abbrev F.FLT_CTL.div : FRef := ⟨.FLT_CTL, 25, 16⟩
abbrev F.FLT_CIC.order : FRef := ⟨.FLT_CIC, 2, 0⟩
abbrev F.FLT_CIC.dec : FRef := ⟨.FLT_CIC, 18, 8⟩
abbrev F.FLT_CIC.shift : FRef := ⟨.FLT_CIC, 25, 19⟩
abbrev F.FLT_HB_CTL.bypass : FRef := ⟨.FLT_HB_CTL, 2, 0⟩
abbrev F.FLT_FIR_CTL.taps : FRef := ⟨.FLT_FIR_CTL, 7, 0⟩
abbrev F.FLT_FIR_CTL.dec : FRef := ⟨.FLT_FIR_CTL, 12, 8⟩
abbrev F.FLT_DC.k : FRef := ⟨.FLT_DC, 4, 0⟩
abbrev F.FLT_DC.freeze : FRef := ⟨.FLT_DC, 5, 5⟩
abbrev F.FLT_SYNC.mkr_en : FRef := ⟨.FLT_SYNC, 0, 0⟩
abbrev F.FLT_SYNC.mkr_idx : FRef := ⟨.FLT_SYNC, 3, 1⟩
abbrev F.FLT_STAT.sat_cic : FRef := ⟨.FLT_STAT, 0, 0⟩
abbrev F.FLT_STAT.sat_comp : FRef := ⟨.FLT_STAT, 1, 1⟩
abbrev F.FLT_STAT.sat_hb : FRef := ⟨.FLT_STAT, 2, 2⟩
abbrev F.FLT_STAT.sat_fir : FRef := ⟨.FLT_STAT, 3, 3⟩
abbrev F.FLT_STAT.sat_dc : FRef := ⟨.FLT_STAT, 4, 4⟩
abbrev F.FLT_STAT.no_strobe : FRef := ⟨.FLT_STAT, 5, 5⟩
abbrev F.FLT_STAT.settling : FRef := ⟨.FLT_STAT, 6, 6⟩
abbrev F.FLT_STAT.src_err : FRef := ⟨.FLT_STAT, 7, 7⟩
abbrev F.FLT_STAT.rate_err : FRef := ⟨.FLT_STAT, 8, 8⟩
abbrev F.FLT_GDELAY.gd2 : FRef := ⟨.FLT_GDELAY, 22, 0⟩
abbrev F.FLT_SETTLE.s : FRef := ⟨.FLT_SETTLE, 22, 0⟩
abbrev F.FLT_DECIM.dt : FRef := ⟨.FLT_DECIM, 17, 0⟩
abbrev F.FLT_DC_M_LO.m_lo : FRef := ⟨.FLT_DC_M_LO, 31, 0⟩
abbrev F.FLT_DC_M_HI.m_hi : FRef := ⟨.FLT_DC_M_HI, 23, 0⟩
abbrev F.FLT_OUT_CNT.count : FRef := ⟨.FLT_OUT_CNT, 31, 0⟩
abbrev F.FLT_COMP.coef : FRef := ⟨.FLT_COMP, 23, 0⟩
abbrev F.FLT_HB.coef : FRef := ⟨.FLT_HB, 23, 0⟩
abbrev F.FLT_FIR.coef : FRef := ⟨.FLT_FIR, 23, 0⟩
abbrev F.QM_CFG.en : FRef := ⟨.QM_CFG, 0, 0⟩
abbrev F.QM_CFG.size : FRef := ⟨.QM_CFG, 5, 1⟩
abbrev F.QM_CFG.onchip : FRef := ⟨.QM_CFG, 10, 6⟩
abbrev F.QM_CFG.spill_en : FRef := ⟨.QM_CFG, 11, 11⟩
abbrev F.QM_CFG.consumer : FRef := ⟨.QM_CFG, 12, 12⟩
abbrev F.QM_CFG.flush : FRef := ⟨.QM_CFG, 13, 13⟩
abbrev F.QM_SPILL.base : FRef := ⟨.QM_SPILL, 27, 0⟩
abbrev F.QM_DEPTH.depth : FRef := ⟨.QM_DEPTH, 24, 0⟩
abbrev F.QM_PKTS.packets : FRef := ⟨.QM_PKTS, 23, 0⟩
abbrev F.QM_RETAIN.retained : FRef := ⟨.QM_RETAIN, 24, 0⟩
abbrev F.QM_STAT.parity_err : FRef := ⟨.QM_STAT, 0, 0⟩
abbrev F.QM_STAT.spill_active : FRef := ⟨.QM_STAT, 1, 1⟩
abbrev F.QM_STAT.spill_wait : FRef := ⟨.QM_STAT, 2, 2⟩
abbrev F.QM_STAT.stream_open : FRef := ⟨.QM_STAT, 3, 3⟩
abbrev F.QM_STAT.pkt_limit : FRef := ⟨.QM_STAT, 4, 4⟩
abbrev F.QM_REFUSED.count : FRef := ⟨.QM_REFUSED, 31, 0⟩
abbrev F.QM_FLUSHED.count : FRef := ⟨.QM_FLUSHED, 31, 0⟩
abbrev F.YRD_CTL.op_limit : FRef := ⟨.YRD_CTL, 19, 0⟩
abbrev F.YRD_STAT.state : FRef := ⟨.YRD_STAT, 1, 0⟩
abbrev F.YRD_STAT.ready : FRef := ⟨.YRD_STAT, 24, 8⟩
abbrev F.YRD_USE.slots : FRef := ⟨.YRD_USE, 16, 0⟩
abbrev F.YRD_USE.live : FRef := ⟨.YRD_USE, 31, 17⟩
abbrev F.YRD_LOAD_WIN.win : FRef := ⟨.YRD_LOAD_WIN, 19, 0⟩
abbrev F.YRD_REFUSED.count : FRef := ⟨.YRD_REFUSED, 31, 0⟩
abbrev F.YRD_OPSTAT.count : FRef := ⟨.YRD_OPSTAT, 31, 0⟩
abbrev F.YRD_CORE_LOAD.busy : FRef := ⟨.YRD_CORE_LOAD, 10, 0⟩
abbrev F.YRD_CORE_LOAD.asleep : FRef := ⟨.YRD_CORE_LOAD, 11, 11⟩
abbrev F.YRD_CORE_LOAD.ops : FRef := ⟨.YRD_CORE_LOAD, 31, 12⟩
abbrev F.YRD_HIST_SEL.template : FRef := ⟨.YRD_HIST_SEL, 11, 0⟩
abbrev F.YRD_HIST_SEL.op : FRef := ⟨.YRD_HIST_SEL, 21, 12⟩
abbrev F.YRD_HIST_SEL.by_service : FRef := ⟨.YRD_HIST_SEL, 22, 22⟩
abbrev F.YRD_HIST_SEL.en : FRef := ⟨.YRD_HIST_SEL, 23, 23⟩
abbrev F.YRD_HIST_SEL.service : FRef := ⟨.YRD_HIST_SEL, 31, 24⟩
abbrev F.YRD_HIST.count : FRef := ⟨.YRD_HIST, 31, 0⟩
abbrev F.YRD_QWATCH_SEL.queue : FRef := ⟨.YRD_QWATCH_SEL, 14, 0⟩
abbrev F.YRD_QWATCH_SEL.en : FRef := ⟨.YRD_QWATCH_SEL, 15, 15⟩
abbrev F.YRD_QWATCH_MAX.max : FRef := ⟨.YRD_QWATCH_MAX, 24, 0⟩
abbrev F.YRD_FLOW.outstanding : FRef := ⟨.YRD_FLOW, 12, 0⟩
abbrev F.YRD_FLOW.full : FRef := ⟨.YRD_FLOW, 13, 13⟩
abbrev F.MC_CFG.ranks : FRef := ⟨.MC_CFG, 1, 0⟩
abbrev F.MC_CFG.width : FRef := ⟨.MC_CFG, 2, 2⟩
abbrev F.MC_CFG.density : FRef := ⟨.MC_CFG, 4, 3⟩
abbrev F.MC_CFG.spare_en : FRef := ⟨.MC_CFG, 5, 5⟩
abbrev F.MC_CFG.spare_rank : FRef := ⟨.MC_CFG, 7, 6⟩
abbrev F.MC_CFG.enable : FRef := ⟨.MC_CFG, 8, 8⟩
abbrev F.MC_STAT.in_set : FRef := ⟨.MC_STAT, 0, 0⟩
abbrev F.MC_STAT.in_service : FRef := ⟨.MC_STAT, 1, 1⟩
abbrev F.MC_STAT.retraining : FRef := ⟨.MC_STAT, 2, 2⟩
abbrev F.MC_STAT.spare_used : FRef := ⟨.MC_STAT, 3, 3⟩
abbrev F.MC_STAT.spare_rank : FRef := ⟨.MC_STAT, 5, 4⟩
abbrev F.MC_STAT.retired_valid : FRef := ⟨.MC_STAT, 6, 6⟩
abbrev F.MC_STAT.retired_rank : FRef := ⟨.MC_STAT, 8, 7⟩
abbrev F.MC_STAT.self_refresh : FRef := ⟨.MC_STAT, 12, 9⟩
abbrev F.MC_STAT.power_down : FRef := ⟨.MC_STAT, 16, 13⟩
abbrev F.MC_STAT.panic : FRef := ⟨.MC_STAT, 17, 17⟩
abbrev F.MC_TEMP.rate0 : FRef := ⟨.MC_TEMP, 1, 0⟩
abbrev F.MC_TEMP.debt0 : FRef := ⟨.MC_TEMP, 4, 2⟩
abbrev F.MC_TEMP.hot0 : FRef := ⟨.MC_TEMP, 5, 5⟩
abbrev F.MC_TEMP.rate1 : FRef := ⟨.MC_TEMP, 9, 8⟩
abbrev F.MC_TEMP.debt1 : FRef := ⟨.MC_TEMP, 12, 10⟩
abbrev F.MC_TEMP.hot1 : FRef := ⟨.MC_TEMP, 13, 13⟩
abbrev F.MC_TEMP.rate2 : FRef := ⟨.MC_TEMP, 17, 16⟩
abbrev F.MC_TEMP.debt2 : FRef := ⟨.MC_TEMP, 20, 18⟩
abbrev F.MC_TEMP.hot2 : FRef := ⟨.MC_TEMP, 21, 21⟩
abbrev F.MC_TEMP.rate3 : FRef := ⟨.MC_TEMP, 25, 24⟩
abbrev F.MC_TEMP.debt3 : FRef := ⟨.MC_TEMP, 28, 26⟩
abbrev F.MC_TEMP.hot3 : FRef := ⟨.MC_TEMP, 29, 29⟩
abbrev F.MC_CE_CNT.count : FRef := ⟨.MC_CE_CNT, 31, 0⟩
abbrev F.MC_UE_CNT.count : FRef := ⟨.MC_UE_CNT, 31, 0⟩
abbrev F.MC_UE_ADDR_LO.addr_lo : FRef := ⟨.MC_UE_ADDR_LO, 31, 0⟩
abbrev F.MC_UE_ADDR_HI.addr_hi : FRef := ⟨.MC_UE_ADDR_HI, 7, 0⟩
abbrev F.MC_UE_ADDR_HI.valid : FRef := ⟨.MC_UE_ADDR_HI, 8, 8⟩
abbrev F.MC_THROTTLE.count : FRef := ⟨.MC_THROTTLE, 31, 0⟩
abbrev F.MC_NBR_REF.count : FRef := ⟨.MC_NBR_REF, 31, 0⟩
abbrev F.MC_URGENT.count : FRef := ⟨.MC_URGENT, 31, 0⟩
abbrev F.MC_MIG_PTR_LO.w_lo : FRef := ⟨.MC_MIG_PTR_LO, 31, 0⟩
abbrev F.MC_MIG_PTR_HI.w_hi : FRef := ⟨.MC_MIG_PTR_HI, 7, 0⟩
abbrev F.MC_SYS_CFG.rate : FRef := ⟨.MC_SYS_CFG, 1, 0⟩
abbrev F.MC_SYS_REF.policy : FRef := ⟨.MC_SYS_REF, 0, 0⟩
abbrev F.MC_SYS_REF.thresh : FRef := ⟨.MC_SYS_REF, 7, 1⟩
abbrev F.MC_SYS_REF.poll : FRef := ⟨.MC_SYS_REF, 17, 8⟩
abbrev F.MC_SYS_PWR.pd_timer : FRef := ⟨.MC_SYS_PWR, 9, 0⟩
abbrev F.MC_SYS_PWR.sr_en : FRef := ⟨.MC_SYS_PWR, 10, 10⟩
abbrev F.MC_SYS_PWR.sr_timer : FRef := ⟨.MC_SYS_PWR, 27, 11⟩
abbrev F.MC_SYS_RD.act_limit : FRef := ⟨.MC_SYS_RD, 15, 0⟩
abbrev F.MC_SYS_RD.p : FRef := ⟨.MC_SYS_RD, 20, 16⟩
abbrev F.MC_SYS_RD.en : FRef := ⟨.MC_SYS_RD, 21, 21⟩
abbrev F.MC_SYS_ECC.auto_retire : FRef := ⟨.MC_SYS_ECC, 0, 0⟩
abbrev F.MC_SYS_ECC.ce_wb : FRef := ⟨.MC_SYS_ECC, 1, 1⟩
abbrev F.MC_SYS_STAT.rate_act : FRef := ⟨.MC_SYS_STAT, 1, 0⟩
abbrev F.MC_SYS_STAT.set_ : FRef := ⟨.MC_SYS_STAT, 7, 2⟩
abbrev F.MC_SYS_STAT.in_service : FRef := ⟨.MC_SYS_STAT, 13, 8⟩
abbrev F.MC_SYS_STAT.n : FRef := ⟨.MC_SYS_STAT, 16, 14⟩
abbrev F.MC_SYS_PEAK.peak : FRef := ⟨.MC_SYS_PEAK, 11, 0⟩
abbrev F.MC_SYS_PEAK.rt_limit : FRef := ⟨.MC_SYS_PEAK, 23, 12⟩
abbrev F.MC_SYS_SIZE.installed : FRef := ⟨.MC_SYS_SIZE, 19, 0⟩
abbrev F.TB_STAT.valid : FRef := ⟨.TB_STAT, 0, 0⟩
abbrev F.TB_STAT.locked : FRef := ⟨.TB_STAT, 1, 1⟩
abbrev F.TB_STAT.holdover : FRef := ⟨.TB_STAT, 2, 2⟩
abbrev F.TB_STAT.servo_port : FRef := ⟨.TB_STAT, 5, 3⟩
abbrev F.TB_CNT_LO.cnt_lo : FRef := ⟨.TB_CNT_LO, 31, 0⟩
abbrev F.TB_CNT_HI.cnt_hi : FRef := ⟨.TB_CNT_HI, 31, 0⟩
abbrev F.TB_OFS_SEC_LO.sec_lo : FRef := ⟨.TB_OFS_SEC_LO, 31, 0⟩
abbrev F.TB_OFS_SEC_HI.sec_hi : FRef := ⟨.TB_OFS_SEC_HI, 15, 0⟩
abbrev F.TB_OFS_NS.ns : FRef := ⟨.TB_OFS_NS, 29, 0⟩
abbrev F.TB_OFS_SUBNS.subns : FRef := ⟨.TB_OFS_SUBNS, 15, 0⟩
abbrev F.TB_RATE_LO.rate_lo : FRef := ⟨.TB_RATE_LO, 31, 0⟩
abbrev F.TB_RATE_HI.rate_hi : FRef := ⟨.TB_RATE_HI, 31, 0⟩
abbrev F.TB_TSQ_STAT.overflow : FRef := ⟨.TB_TSQ_STAT, 7, 0⟩
abbrev F.TB_PTP_OFS.offset : FRef := ⟨.TB_PTP_OFS, 31, 0⟩
abbrev F.TB_PTP_DLY.delay : FRef := ⟨.TB_PTP_DLY, 31, 0⟩
abbrev F.TB_SYNC_CTL.master : FRef := ⟨.TB_SYNC_CTL, 0, 0⟩
abbrev F.TB_SYNC_CTL.emit : FRef := ⟨.TB_SYNC_CTL, 1, 1⟩
abbrev F.TB_SYNC_CTL.meas_en : FRef := ⟨.TB_SYNC_CTL, 2, 2⟩
abbrev F.TB_SYNC_CTL.in_en : FRef := ⟨.TB_SYNC_CTL, 3, 3⟩
abbrev F.TB_SYNC_CTL.out_dly : FRef := ⟨.TB_SYNC_CTL, 14, 8⟩
abbrev F.TB_SYNC_TRIM.trim : FRef := ⟨.TB_SYNC_TRIM, 13, 0⟩
abbrev F.TB_SYNC_STAT.sampler : FRef := ⟨.TB_SYNC_STAT, 0, 0⟩
abbrev F.TB_SYNC_STAT.disagree : FRef := ⟨.TB_SYNC_STAT, 1, 1⟩
abbrev F.TB_SYNC_STAT.short : FRef := ⟨.TB_SYNC_STAT, 2, 2⟩
abbrev F.TB_SYNC_MEAS.m_mean : FRef := ⟨.TB_SYNC_MEAS, 15, 0⟩
abbrev F.TB_SYNC_MEAS.n : FRef := ⟨.TB_SYNC_MEAS, 20, 16⟩
abbrev F.TB_SYNC_CNT_LO.cnt_lo : FRef := ⟨.TB_SYNC_CNT_LO, 31, 0⟩
abbrev F.TB_SYNC_CNT_HI.cnt_hi : FRef := ⟨.TB_SYNC_CNT_HI, 31, 0⟩
abbrev F.TB_SYNC_COUNT.count : FRef := ⟨.TB_SYNC_COUNT, 31, 0⟩
abbrev F.TB_PTP_CTL.role : FRef := ⟨.TB_PTP_CTL, 1, 0⟩
abbrev F.TB_PTP_CTL.domain : FRef := ⟨.TB_PTP_CTL, 9, 2⟩
abbrev F.TB_PTP_CTL.priority1 : FRef := ⟨.TB_PTP_CTL, 17, 10⟩
abbrev F.TB_PTP_CTL.log_sync : FRef := ⟨.TB_PTP_CTL, 21, 18⟩
abbrev F.TB_ALARM_STAT.armed : FRef := ⟨.TB_ALARM_STAT, 0, 0⟩
abbrev F.TB_ALARM_STAT.periodic : FRef := ⟨.TB_ALARM_STAT, 1, 1⟩
abbrev F.TB_ALARM_STAT.invalid : FRef := ⟨.TB_ALARM_STAT, 2, 2⟩
abbrev F.TB_ALARM_STAT.action : FRef := ⟨.TB_ALARM_STAT, 15, 8⟩
abbrev F.TB_ALARM_STAT.skipped : FRef := ⟨.TB_ALARM_STAT, 31, 16⟩
abbrev F.CAL_STAT.busy : FRef := ⟨.CAL_STAT, 0, 0⟩
abbrev F.CAL_STAT.kind : FRef := ⟨.CAL_STAT, 2, 1⟩
abbrev F.CAL_STAT.percent : FRef := ⟨.CAL_STAT, 9, 3⟩
abbrev F.CAL_STAT.uncommitted : FRef := ⟨.CAL_STAT, 10, 10⟩
abbrev F.CAL_SEL.drv_bank : FRef := ⟨.CAL_SEL, 1, 0⟩
abbrev F.CAL_SEL.den_bank : FRef := ⟨.CAL_SEL, 3, 2⟩
abbrev F.CAL_SEL.cmp_bank : FRef := ⟨.CAL_SEL, 5, 4⟩
abbrev F.CAL_SEL.drv_state : FRef := ⟨.CAL_SEL, 9, 8⟩
abbrev F.CAL_SEL.den_state : FRef := ⟨.CAL_SEL, 11, 10⟩
abbrev F.CAL_SEL.cmp_state : FRef := ⟨.CAL_SEL, 13, 12⟩
abbrev F.CAL_TVC_SEL.cap : FRef := ⟨.CAL_TVC_SEL, 1, 0⟩
abbrev F.CAL_TVC_SEL.state : FRef := ⟨.CAL_TVC_SEL, 3, 2⟩
abbrev F.CAL_SYNC_SEL.sampler : FRef := ⟨.CAL_SYNC_SEL, 0, 0⟩
abbrev F.CAL_SYNC_SEL.state : FRef := ⟨.CAL_SYNC_SEL, 2, 1⟩
abbrev F.FLC_STAT.alarm : FRef := ⟨.FLC_STAT, 0, 0⟩
abbrev F.FLC_STAT.q_lost : FRef := ⟨.FLC_STAT, 1, 1⟩
abbrev F.FLC_STAT.shadow : FRef := ⟨.FLC_STAT, 2, 2⟩
abbrev F.FLC_FIRST.source : FRef := ⟨.FLC_FIRST, 7, 0⟩
abbrev F.FLC_FIRST.valid : FRef := ⟨.FLC_FIRST, 8, 8⟩
abbrev F.FLC_FIRST.overflow : FRef := ⟨.FLC_FIRST, 9, 9⟩
abbrev F.FLC_FIRST.injected : FRef := ⟨.FLC_FIRST, 10, 10⟩
abbrev F.FLC_FIRST.reaction : FRef := ⟨.FLC_FIRST, 13, 11⟩
abbrev F.FLC_FIRST_TAG_LO.tag_lo : FRef := ⟨.FLC_FIRST_TAG_LO, 31, 0⟩
abbrev F.FLC_FIRST_TAG_HI.tag_hi : FRef := ⟨.FLC_FIRST_TAG_HI, 31, 0⟩
abbrev F.FLC_FIRST_DETAIL.detail : FRef := ⟨.FLC_FIRST_DETAIL, 15, 0⟩
abbrev F.FLC_SHADOW.time : FRef := ⟨.FLC_SHADOW, 9, 0⟩
abbrev F.FLC_SEC_CNT.count : FRef := ⟨.FLC_SEC_CNT, 31, 0⟩
abbrev F.FLC_INJECT.source : FRef := ⟨.FLC_INJECT, 7, 0⟩
abbrev F.FLC_INJECT.pending : FRef := ⟨.FLC_INJECT, 8, 8⟩
abbrev F.FLC_EVT_SUPP.count : FRef := ⟨.FLC_EVT_SUPP, 31, 0⟩
abbrev F.FLC_LIVE.live : FRef := ⟨.FLC_LIVE, 31, 0⟩
abbrev F.FLC_STICKY.sticky : FRef := ⟨.FLC_STICKY, 31, 0⟩
abbrev F.FLC_SEC.sec : FRef := ⟨.FLC_SEC, 31, 0⟩
abbrev F.FLC_WIRE.wire : FRef := ⟨.FLC_WIRE, 31, 0⟩
abbrev F.FLC_REACT.react0 : FRef := ⟨.FLC_REACT, 2, 0⟩
abbrev F.FLC_REACT.react1 : FRef := ⟨.FLC_REACT, 6, 4⟩
abbrev F.FLC_REACT.react2 : FRef := ⟨.FLC_REACT, 10, 8⟩
abbrev F.FLC_REACT.react3 : FRef := ⟨.FLC_REACT, 14, 12⟩
abbrev F.FLC_REACT.react4 : FRef := ⟨.FLC_REACT, 18, 16⟩
abbrev F.FLC_REACT.react5 : FRef := ⟨.FLC_REACT, 22, 20⟩
abbrev F.FLC_REACT.react6 : FRef := ⟨.FLC_REACT, 26, 24⟩
abbrev F.FLC_REACT.react7 : FRef := ⟨.FLC_REACT, 30, 28⟩
abbrev F.PES_CFG.en : FRef := ⟨.PES_CFG, 0, 0⟩
abbrev F.PES_CFG.mode : FRef := ⟨.PES_CFG, 1, 1⟩
abbrev F.PES_CFG.div : FRef := ⟨.PES_CFG, 9, 2⟩
abbrev F.PES_STAT.cs : FRef := ⟨.PES_STAT, 2, 0⟩
abbrev F.PES_STAT.active : FRef := ⟨.PES_STAT, 3, 3⟩
abbrev F.PES_STAT.pending : FRef := ⟨.PES_STAT, 11, 4⟩
abbrev F.PES_STAT.held : FRef := ⟨.PES_STAT, 19, 12⟩
abbrev F.PES_CS_ASSIGN.stall : FRef := ⟨.PES_CS_ASSIGN, 3, 0⟩
abbrev F.PES_CS_ASSIGN.assigned : FRef := ⟨.PES_CS_ASSIGN, 4, 4⟩
abbrev F.PES_XFER.len : FRef := ⟨.PES_XFER, 7, 0⟩
abbrev F.PES_XFER.hold : FRef := ⟨.PES_XFER, 8, 8⟩
abbrev F.PES_XFER.start : FRef := ⟨.PES_XFER, 16, 16⟩
abbrev F.PES_XFER.busy : FRef := ⟨.PES_XFER, 17, 17⟩
abbrev F.PES_XFER.done : FRef := ⟨.PES_XFER, 18, 18⟩
abbrev F.PES_TX.data : FRef := ⟨.PES_TX, 31, 0⟩
abbrev F.PES_RX.data : FRef := ⟨.PES_RX, 31, 0⟩
abbrev F.TCK_WORD.word : FRef := ⟨.TCK_WORD, 31, 0⟩

end Sys2Proof.Machine
end

