-- ==== Sys2Proof/Machine/State.lean ====
section
/-! DEFINITION. The state of the part as plain data, its faults and refusals, and the state after reset. Registers are
held in one sparse register file keyed by address; what the spec gives the part beside its registers (sessions, queues,
stalls at run time, DRAM, the tack store, timers, pins) stands in the structures of this file. -/

namespace Sys2Proof.Machine

open Sys2Proof

/-- No command of this part ends in a fault: every outcome the spec gives is a reply, an event, a report to the fault
collector or a change of state. The one constructor keeps the type closed and inhabited and is raised by no meaning. -/
inductive Fault where
  /-- Raised by no meaning; safe. -/
  | none
  deriving DecidableEq, Repr

/-- Why a command has no meaning. -/
inductive Refusal where
  /-- Raised by `exec` for a command that is not modelled yet, with its mnemonic; safe. -/
  | notModelled (mnemonic : String)
  deriving DecidableEq, Repr

/-! ### What the part sends -/

/-- The DCP message types that the part sends (R105). -/
inductive MsgType where
  | reply | event | stream
  deriving DecidableEq, Repr

/-- A DCP message of the part: the header of R105 and the parameters. -/
structure Msg where
  type : MsgType
  retry : Bool
  session : BitVec 16
  seq : BitVec 32
  target : BitVec 8
  opcode : BitVec 16
  status : BitVec 16
  params : List Byte
  deriving DecidableEq, Repr

/-- The IPv4 header fields that the part sets in a datagram (R104). -/
structure IpOut where
  src : BitVec 32
  dontFragment : Bool
  ttl : Byte
  deriving DecidableEq, Repr

/-- What carries a sent DCP message: a frame with an EtherType, or a UDP datagram with its source port and checksum (R102,
R104). -/
inductive Carrier where
  | eth (ethertype : BitVec 16)
  | udp (ip : IpOut) (port : BitVec 16) (checksum : BitVec 16)
  deriving DecidableEq, Repr

/-- A frame that left the part on a host lane, each with the 802.1Q tag that it carries, if it does (R91). `relayed` is a
received frame that the far-end loop retransmits to the partner (R98). -/
inductive Sent where
  | dcp (bind : Binding) (vlan : Option (BitVec 16)) (by_ : Carrier) (m : Msg)
  | arp (lane : LaneIx) (vlan : Option (BitVec 16)) (toMac : BitVec 48) (ourMac : BitVec 48) (ourIp : BitVec 32)
  | echo (lane : LaneIx) (vlan : Option (BitVec 16)) (toMac : BitVec 48) (ip : IpOut) (payload : List Byte)
  | ptp (lane : LaneIx) (vlan : Option (BitVec 16)) (ip : Option (IpOut × BitVec 16)) (kind : BitVec 4) (domain : BitVec 8)
    (seqId : BitVec 16) (time : Nat) (priority1 : Option (BitVec 8))
  | relayed (lane : LaneIx) (frame : Instr)
  deriving DecidableEq, Repr

/-! ### Sessions, ownership and operations -/

/-- An access to DRAM by a DCP command that is held because its controller retrains (R412). -/
inductive MemAcc where
  | read (a n : Nat) | write (a n : Nat) (data : List Byte) | load (st a n : Nat)
  deriving DecidableEq, Repr

/-- A reply that waits for something else (R112, R121, R130, R181). -/
inductive WaitKind where
  | claim (r : Nat) | start (s : Nat) | stop (s : Nat) | stallReset (s : Nat) | mem (deadline : Nat) (acc : MemAcc)
  deriving DecidableEq, Repr

/-- The command whose reply waits. -/
structure Waiting where
  kind : WaitKind
  opcode : BitVec 16
  seq : BitVec 32
  target : BitVec 8
  deriving DecidableEq, Repr

/-- One session (R108–R115). Times are in SCLK cycles of `State.now`. -/
structure Session where
  gen : Nat
  expired : Bool
  client : BitVec 64
  bind : Binding
  leaseMs : Nat
  leaseEnd : Nat
  expiredAt : Nat
  nextSeq : BitVec 32
  helloSeq : BitVec 32
  helloOnly : Bool
  cache : List Msg
  evSeq : BitVec 32
  wait : Option Waiting
  deriving DecidableEq, Repr

/-- An open election (R120, R121): when it closes and the claims as (slot, priority). -/
structure Election where
  closeAt : Nat
  claims : List (Nat × Nat)
  deriving DecidableEq, Repr

/-- What a long operation does when it ends. -/
inductive OpKind where
  | fill (addr len : Nat) (pattern : BitVec 64)
  | copy (src dst len : Nat)
  | calRun (target : BitVec 8) (items : BitVec 32) (chans : List Nat)
  | calCommit (target : BitVec 8)
  | selftest (target : BitVec 8) (tests : BitVec 32)
  | yardLoad (kind slot image len : Nat)
  | quiesce (base : Nat)
  | fwVerify
  | scrub (mcs : List Nat)
  | migrate (m rank : Nat)
  deriving DecidableEq, Repr

/-- One operation record (R125). -/
structure OpRec where
  slot : Nat
  gen : Nat
  opcode : BitVec 16
  kind : OpKind
  done : Bool
  status : BitVec 16
  result : BitVec 64
  doneAt : Nat
  startAt : Nat
  deriving DecidableEq, Repr

/-! ### Faults -/

/-- A detector's report to the fault collector: source, detail, whether an injection made it, and the stall that the
source column of R472 cannot name by itself. -/
structure Report where
  src : Nat
  detail : Nat
  inj : Bool
  stall : Option Nat
  deriving DecidableEq, Repr

/-- A shadow (R486): the reset block, and the end of the shadow once the reset is complete. -/
structure Shadow where
  blk : Blk
  endsAt : Option Nat
  deriving DecidableEq, Repr

/-! ### Queues and streams -/

/-- A queue word (R355); its parity bit is right unless a pop finds otherwise (R372). -/
structure QWord where
  data : BitVec 64
  last : Bool
  poison : Bool
  deriving DecidableEq, Repr

/-- A queue's contents: the words on-chip, oldest first; the words behind them in the spill region, whose end marks are
kept apart (R373, R375); the packet counter; the retained words; whether the on-chip room has been below the limit of
R300 since it last rose above it; and whether another source wrote the spill region (R496). -/
structure QState where
  words : List QWord := []
  spillEnds : List Bool := []
  spillRd : Nat := 0
  pkts : Nat := 0
  retained : Nat := 0
  low : Bool := false
  spillBad : Bool := false
  deriving DecidableEq, Repr

/-- A frame of a stream that was sent and may be sent again: sequence, payload, words of a tailrace queue it retains. -/
structure SentFrame where
  seq : BitVec 32
  payload : List Byte
  nwords : Nat
  deriving DecidableEq, Repr

/-- One open stream (R133–R137). `buf` holds popped words not yet sent. -/
structure Stream where
  slot : Nat
  gen : Nat
  target : BitVec 8
  maxPayload : Nat
  flushUs : Nat
  next : BitVec 32 := 0
  ack : BitVec 32 := 0
  limit : BitVec 32
  floor : BitVec 32 := 0
  buf : List QWord := []
  firstAt : Nat := 0
  resend : Option (BitVec 32) := none
  frames : List SentFrame := []
  deriving DecidableEq, Repr

/-! ### Stalls at run time -/

/-- A sequence-table entry as read (R148). -/
abbrev SeqEnt := BitVec 128

/-- A stack frame (R167). -/
structure Frame where
  loop : Bool
  ret : Nat
  left : Nat
  deriving DecidableEq, Repr

/-- One play of a segment on the path: its number, the entry, the stack as the played vectors reach it, the SETF pairs
that take effect at its first vector, the number of this play of a WAITC, the play that requested its lines, and, for a
resident loop's later passes, that its lines are resident and whether this is their last play (R199, R200). -/
structure Play where
  pid : Nat
  idx : Nat
  ent : SeqEnt
  stack : List Frame
  setf : List (Nat × Nat)
  waitc : Nat
  lineOf : Nat
  resident : Bool
  lastUse : Bool
  deriving DecidableEq, Repr

/-- The path ahead: single plays, and the remaining passes of a resident loop (R540), whose frame is number `depth`. -/
inductive PathItem where
  | play (p : Play)
  | again (depth : Nat) (body : List Play) (left : Nat)
  deriving DecidableEq, Repr

/-- Where the lookahead stands: going on, at a conditional entry not yet decided, or ended by HALT or the end of the
table, by a sequence error with its code, or by a poisoned entry (R158–R162, R170, R429). -/
inductive LaMode where
  | going | undecided (pid : Nat) | halted | seqErr (code : Nat) | poisoned
  deriving DecidableEq, Repr

/-- A resident loop whose first pass the lookahead is walking: depth of its frame, passes, SETF pairs pending before the
loop, entries of the run after LOOP, and the plays of the pass in order, those already played included. -/
structure ResWalk where
  depth : Nat
  count : Nat
  preSetf : Nat
  headRun : Nat
  plays : List Play
  deriving DecidableEq, Repr

/-- The lookahead (R159–R162): next entry, its copy of the stack, length of the present zero-time run, pending SETF
pairs, plays of the present WAITC. -/
structure Look where
  idx : Nat := 0
  stack : List Frame := []
  run : Nat := 0
  setf : List (Nat × Nat) := []
  waitc : Nat := 0
  mode : LaMode := .going
  res : Option ResWalk := none
  deriving DecidableEq, Repr

/-- A staged lead block (R160, R161): the play it begins, its entry, and the paths, as the decisions to come, that lead to
it. -/
structure Lead where
  pid : Nat
  idx : Nat
  paths : List (List Bool)
  deriving DecidableEq, Repr

/-- A sequence-table entry that the lookahead keeps (R151): the decisions to come on the path that it was read for, its index,
and what was read. -/
structure Kept where
  path : List Bool
  idx : Nat
  ent : SeqEnt
  bad : Bool
  deriving DecidableEq, Repr

/-- Line requests that wait for a credit: the lines `from` to `upto` − 1 of a play, the first line's index. -/
structure LineRange where
  pid : Nat
  base : Nat
  from_ : Nat
  upto : Nat
  deriving DecidableEq, Repr

/-- A line requested and not yet arrived; `dead` when it was released or belongs to an earlier run, `lost` when a block
reset of its controller discarded the request: it then holds no credit and never arrives (R61). -/
structure LineReq where
  pid : Nat
  off : Nat
  line : Nat
  dead : Bool
  lost : Bool := false
  deriving DecidableEq, Repr

/-- A line held in the share. -/
structure HeldLine where
  pid : Nat
  off : Nat
  line : Nat
  data : BitVec 512
  poison : Bool
  resident : Bool
  deriving DecidableEq, Repr

/-- When a stop takes effect: the first boundary at or after an instant, the boundary before a vector, or the end of the
first segment that begins at or after a vector. -/
inductive StopAt where
  | atTime (t : Nat) | beforeVec (v : Nat) | segEnd (first : Nat)
  deriving DecidableEq, Repr

/-- A stop that has arisen and not taken effect: cause of R131 (6: the stall reset of R181). -/
structure PendStop where
  cause : Nat
  at_ : StopAt
  deriving DecidableEq, Repr

/-- Start sources (R173). -/
structure StartSrc where
  source : Nat
  index : Nat
  deriving DecidableEq, Repr

/-- The window of a WINDOW run (R312, R313); `armed` when ARM came before the start event (R316). -/
structure Win where
  preWritten : Nat := 0
  postWritten : Nat := 0
  trigPos : Nat := 0
  markSeen : Bool := false
  auto : Bool := false
  armed : Bool := false
  rearmAt : Nat := 0
  deriving DecidableEq, Repr

/-- A match candidate whose judgements are not all complete (R267, R268). -/
structure Cand where
  vec : Nat
  pid : Nat
  ok : Bool
  deriving DecidableEq, Repr

/-- A stall at run time; `t0s` holds T0 of the last 256 vectors, newest first, and of those from
which a decimation chain is still to take a sample; `lastTrig` and `lastCode` the SCLK cycle and the
source code of the last trigger; `past` the queues that took its records. Instants are in units of 0.25 ps of the time line
of `State.now` (2,500 units an SCLK cycle). -/
structure Stall where
  mode : Nat := 0
  src : StartSrc := ⟨0, 0⟩
  firstEntry : Nat := 0
  octets : List Nat := []
  look : Look := {}
  path : List PathItem := []
  cur : Option Play := none
  nextPid : Nat := 0
  leads : List Lead := []
  kept : List Kept := []
  waiting : List LineRange := []
  inflight : List LineReq := []
  held : List HeldLine := []
  prefilled : Bool := false
  panic : Bool := false
  startAt : Option Nat := none
  epoch : Nat := 0
  epochCnt : BitVec 64 := 0
  vec : Option Nat := none
  vcount : BitVec 64 := 0
  t0 : Nat := 0
  tNext : Nat := 0
  prevT0 : Nat := 0
  segFirst : Nat := 0
  lastRun : Option Nat := none
  stack : List Frame := []
  stops : List PendStop := []
  starved : Bool := false
  tableDirty : Bool := false
  decided : Bool := false
  next : Nat := 0
  failAt : List Nat := []
  trigAt : List (Nat × Nat) := []
  matchRun : Nat := 0
  matchAt : Option Nat := none
  cands : List Cand := []
  failVecs : List Nat := []
  markers : BitVec 8 := 0
  timePairs : Nat := 0
  autoFrom : Nat := 0
  lastTrig : Option Nat := none
  lastCode : Nat := 0
  win : Win := {}
  pinSafe : Bool := false
  stopT : Nat := 0
  shaped : List Nat := []
  shapeIv : Nat := 0
  t0s : List (Nat × Nat) := []
  past : List Nat := []
  deriving DecidableEq, Repr

/-! ### Channels and framers -/

/-- A placed drive event: its instant and what it sets (none: unchanged). -/
structure DrvEdge where
  at_ : Nat
  bound : Nat
  drv : Option Bool
  den : Option Bool
  deriving DecidableEq, Repr

/-- A placed compare event: instant with and without skew, mode of R218, word, vector and its T0, play, expectation,
flags of word 6. -/
structure CmpEvt where
  at_ : Nat
  bound : Nat
  mode : Nat
  word : Nat
  vec : Nat
  t0 : Nat
  pid : Nat
  expect : Nat
  matchEn : Bool
  noRec : Bool
  undef : Bool
  deriving DecidableEq, Repr

/-- An open window (R254). -/
structure OpenWin where
  evt : CmpEvt
  k0 : Nat
  deriving DecidableEq, Repr

/-- A channel at run time. The levels are what the drive events, halt states and clock edges last set (R182); `undef`
says that DRV and DEN are undefined since two events closer than 70 ps (R247) or a table write (R249), and holds the free
levels; `undefTo` is the instant from which they are defined again after a halt state, `undefHold` says that the vector in play
is one of R249, and `undefVecs` are the vectors whose results are undefined (R248, R249) and not complete. `grid` holds the changes of the sampled comparator state, newest first, and bit i of `caps` the edge_cap flag of
the entry used i vectors ago (R293). -/
structure Chan where
  drv : Bool := false
  den : Bool := false
  undef : Option (Bool × Bool) := none
  undefTo : Option Nat := none
  undefHold : Bool := false
  undefVecs : List Nat := []
  lastEdge : Option Nat := none
  edges : List DrvEdge := []
  dirtyUntil : Nat := 0
  cmp : List CmpEvt := []
  win : Option OpenWin := none
  vfail : List Nat := []
  grid : List (Nat × Nat) := []
  caps : Nat := 0
  frReset : Nat := 0
  frInc : Nat := 0
  frN : Nat := 0
  eqWin : Nat := 0
  deriving DecidableEq, Repr

/-- A framer at run time (R274–R284). `txChar` is the character being encoded with its group; `rx` are the strobed bits
of the receive channel by vector number; `t0s` the T0 of recent vectors; `pos` the next stream bit to decode; `bits` the
last ten bits decoded, oldest first; `commas` the consecutive commas of each alignment; `recChars` and `held` hold characters
with their T0; `locks` the changes of alignment with their instants, newest first. -/
structure Framer where
  txChar : Option (Nat × Nat) := none
  rx : List (Nat × Bool) := []
  t0s : List (Nat × Nat) := []
  pos : Nat := 0
  bits : List Bool := []
  align : Option Nat := none
  commas : List (Nat × Nat) := []
  score : Nat := 0
  good : Nat := 0
  recChars : List (Nat × Nat) := []
  held : Option (Nat × Nat) := none
  lastChar : Option (Nat × Nat) := none
  idleSeen : Bool := false
  locks : List (Nat × Bool) := []
  deriving DecidableEq, Repr

/-! ### Acquisition -/

/-- A record before it is laid out (R288). -/
structure Rec where
  type : Nat
  flags : Nat
  stall : Nat
  chan : Nat
  detail : Nat
  tag : Nat
  payload : Nat
  deriving DecidableEq, Repr

/-- A loss run of a destination (R302); `afterTime` says that a TIME pair waited for the destination when it began, so that its
GAP pair follows that pair (R492). -/
structure LossRun where
  cause : Nat
  count : Nat
  first : Nat
  last : Nat
  chan : Option Nat
  afterTime : Bool := false
  deriving DecidableEq, Repr

/-! ### DRAM -/

/-- A running migration (R432): controller, rank, spare, watermark, paused by a block reset. -/
structure Mig where
  m : Nat
  rank : Nat
  spare : Nat
  w : Nat
  paused : Bool
  deriving DecidableEq, Repr

/-- The controllers' configuration in use since the last cold start (R406, R407). -/
structure DramUse where
  cfg : List (BitVec 32) := []
  rate : Nat := 0
  set : List Nat := []
  deriving DecidableEq, Repr

/-- One bank's tracker (R425). -/
structure Tracker where
  rows : List (Nat × Nat) := []
  overflowed : Bool := false
  throttled : List (Nat × Nat) := []
  deriving DecidableEq, Repr

/-- A rank's timers: when its last refresh interval came due or the interval timer was restarted, and when its last request
came (R419, R422–R424). -/
structure RankTimes where
  ref : Nat := 0
  req : Nat := 0
  deriving DecidableEq, Repr

/-- A controller's timers: its last MR4 poll, and the start of its row-disturbance window (R420, R425). -/
structure McTimes where
  poll : Nat := 0
  win : Nat := 0
  deriving DecidableEq, Repr

/-- The last write of a DRAM word: its source, when it was made, and whether the content is undefined because a source that
R417 does not order with it wrote the word at the same time (R495). -/
structure Wrote where
  src : Nat := 0
  at_ : Nat := 0
  undef : Bool := false
  deriving DecidableEq, Repr

/-- A write in a stall's DRAM write buffer: its address, its bytes, when it was issued, and whether it is a ring write rather
than a spill write (R413). -/
structure BufWrite where
  addr : Nat
  bytes : List Byte
  at_ : Nat
  ring : Bool
  deriving DecidableEq, Repr

/-! ### Time-interval units, decimation chains, time base -/

/-- A time-interval unit at run time (R324–R331); `openAt` is the instant of the gate's last opening in units of 0.25 ps. -/
structure Tim where
  gateOpen : Bool := false
  openAt : Nat := 0
  cs : Nat := 0
  fs : Nat := 0
  startT : Nat := 0
  stops : Nat := 0
  deadAt : Nat := 0
  started : Bool := false
  doneAt : Nat := 0
  deriving DecidableEq, Repr

/-- A decimation chain's state (R341, R345). Histories hold the newest value first; `resets` are the vectors of the
synchronising resets whose samples are still to come. -/
structure Flt where
  v0 : Nat := 0
  s : Nat := 0
  n : Nat := 0
  acc : List Nat := [0, 0, 0, 0, 0, 0]
  last : List Nat := [0, 0, 0, 0, 0, 0]
  comp : List Int := []
  hb0 : List Int := []
  hb1 : List Int := []
  hb2 : List Int := []
  k0 : Nat := 0
  k1 : Nat := 0
  k2 : Nat := 0
  fir : List Int := []
  kf : Nat := 0
  m : Int := 0
  satd : Bool := false
  resets : List Nat := []
  deriving DecidableEq, Repr

/-- A time alarm (R451–R453). Times in 2^−16 ns; `late` when τ had passed at ALARM_SET, which was executed in cycle
`setAt`. -/
structure Alarm where
  tau : Nat
  period : Nat
  action : Nat
  setAt : Nat
  late : Bool
  deriving DecidableEq, Repr

/-- Where an exchange with a master stands (R447): none, Follow_Up awaited, Delay_Resp awaited. -/
inductive PtpWait where
  | none | followUp | delayResp
  deriving DecidableEq, Repr

/-- An IEEE 1588 port's exchange and servo (R446, R447): whether a master is chosen, the times t1 (2^−16 ns) and the stamps
t2 and t3, the sequence numbers, the consecutive close offsets, and whether the exchange runs over UDP (R446). -/
structure Ptp where
  udp : Bool := false
  master : Bool := false
  wait : PtpWait := .none
  t1 : Nat := 0
  t2 : BitVec 64 := 0
  t3 : BitVec 64 := 0
  close : Nat := 0
  seqId : BitVec 16 := 0
  deriving DecidableEq, Repr

/-! ### The Yard -/

/-- An output of an operation held for release or made at once (R393, R395). -/
inductive YOut where
  | push (q : Nat) (words : List QWord) | flag (mask value : BitVec 8)
  deriving DecidableEq, Repr

/-- An operation of an instance (R387, R388): dependence counter, status once ended, core while it runs, and when it
became ready. -/
structure YOp where
  counter : Nat
  status : Option Nat := none
  core : Option Nat := none
  readyAt : Option Nat := none
  deriving DecidableEq, Repr

/-- An instance that is live or not yet released (R385, R394): number, template slot, flow with its sequence number,
parameter block, the template's stall and report queue, operations, and what its result operation holds for release. -/
structure Inst where
  num : BitVec 32
  tmpl : Nat
  flow : Option (Nat × Nat)
  params : List Byte
  stall : Nat
  report : Nat
  ops : List YOp
  held : List YOut := []
  ended : Bool := false
  deriving DecidableEq, Repr

/-- A core at run time (R389, R402): the operation it runs as (instance number, index), when it started, the words that a
vendor service popped, whether fewer packets were present than it asked for, whether a push was refused, and the runs of the
last two seconds. -/
structure Core where
  work : Option (BitVec 32 × Nat) := none
  asleep : Bool := false
  startAt : Nat := 0
  input : List QWord := []
  short : Bool := false
  full : Bool := false
  log : List (Nat × Nat) := []
  deriving DecidableEq, Repr

/-- An ordered flow (R394): next sequence number, and the next to release. -/
structure Flow where
  next : Nat := 0
  rel : Nat := 0
  deriving DecidableEq, Repr

/-! ### Calibration and self-test -/

/-- The calibration state of one element (R461): state, selected candidate, seconds and junction temperature of the
measurement, residuals by candidate, the correction codes in use (R462), and whether these differ from the tack store. -/
structure CalElem where
  state : Nat := 0
  sel : Nat := 0
  sec : Nat := 0
  tj : BitVec 8 := 0
  resid : List (List (BitVec 16)) := []
  codes : List (BitVec 16) := []
  dirty : Bool := false
  deriving DecidableEq, Repr

/-! ### Serial masters, management target -/

/-- One requested SPI transfer (R510). -/
structure PesXfer where
  cs : Nat
  len : Nat
  hold : Bool
  tx : List Byte
  deriving DecidableEq, Repr

/-- One SPI master (R511): transfers in order, the first running when `running`. -/
structure Pes where
  queue : List PesXfer := []
  running : Bool := false
  deriving DecidableEq, Repr

/-- The management target (R514–R516): the message partly received, those waiting to be read and how much of the oldest has
been read, the last fragment, what the last read put on the bus, and the bus address of the controller's last block write. -/
structure Mgt where
  inPart : Option (List Byte) := none
  out : List Msg := []
  pos : Nat := 0
  last : Option (List Byte) := none
  bus : List Byte := []
  to_ : Option (BitVec 7) := none
  deriving DecidableEq, Repr

/-! ### Lanes, pins, phases -/

/-- A host lane at run time: settings in use (enable, rate, ref_mode, fec_en, and HP_REF_CTL), when a changed setting
applies and whether a write of HP_PORT_CTL is among the changes, when a test loop ends, since when every condition of UP has
held, and whether a signal is detected. -/
structure Lane where
  eff : Nat := 0
  ref : Nat := 0
  applyAt : Option Nat := none
  ownApply : Bool := false
  loopEnd : Option Nat := none
  okSince : Option Nat := none
  signal : Bool := false
  deriving DecidableEq, Repr

/-- A pulse on an output: its rising and falling instants in SCLK cycles, for SYNC_OUT in root cycles of 1/8 SCLK cycle. -/
structure Pulse where
  riseAt : Option Nat := none
  fallAt : Option Nat := none
  high : Bool := false
  deriving DecidableEq, Repr

/-- Where the part stands between power-up and service (R63–R69). -/
inductive Phase where
  | coldHold | coldRails | coldUp | ready | warmHold | warmUp | bootRom | strapStop
  deriving DecidableEq, Repr

/-- Which output groups are driven rather than high-impedance, and the levels of those that no other field holds (R26–R28):
the outputs of the control core and of the timing die; the controllers MCm whose DDR5 outputs are driven, with the levels of
CSx_L and RESET_L, while CA, CK, DQ and DQS carry what the DDR5 protocol requires; the level of each PESPIj_MOSI between
transfers; and the lanes HLk whose transmitters have left high impedance. -/
structure Drive where
  ctl : Bool := false
  tim : Bool := false
  ddr : BitVec 6 := 0
  ddrCs : BitVec 6 := 0
  ddrReset : BitVec 6 := 0
  mosi : BitVec 4 := 0
  host : BitVec 8 := 0
  deriving DecidableEq, Repr

/-- The controller states of the test access port (IEEE 1149.1, R44). -/
inductive TapState where
  | testLogicReset | runTestIdle | selectDr | captureDr | shiftDr | exit1Dr | pauseDr | exit2Dr | updateDr | selectIr
  | captureIr | shiftIr | exit1Ir | pauseIr | exit2Ir | updateIr
  deriving DecidableEq, Repr

/-- The test access port (R44): whether JTAG_TRST_L is low, the state of its controller, and the cells of the boundary-scan
register. No command of the table clocks the port, so only JTAG_TRST_L changes it (log 75). -/
structure Tap where
  trst : Bool := true
  state : TapState := .testLogicReset
  scan : List Bool := []
  deriving DecidableEq, Repr

/-- A reset that was accepted and begins later (R78, R482). -/
inductive ResetKind where
  | cold | warm (c : WarmCause)
  deriving DecidableEq, Repr

/-- The whole part. -/
structure State where
  pending : List Instr := []
  held : List Instr := []
  resuming : Bool := false
  out : List Sent := []
  now : Nat := 0
  cnt : BitVec 64 := 0
  freeCtr : Nat := 0
  phase : Phase := .coldHold
  startIn : Option StartIn := none
  drive : Drive := {}
  resetAt : Option (Nat × ResetKind) := none
  everReady : Bool := false
  vmainAt : Nat := 0
  clockStopped : Bool := false
  regs : SMap Word := []
  latch : SMap (Option Word) := []
  sess : SMap (Option Session) := []
  slotGen : SMap Nat := []
  owner : SMap (Option Nat) := []
  elect : SMap (Option Election) := []
  ops : SMap (Option OpRec) := []
  ownEff : Word × Word := (0x000388b5, 47600)
  ownAt : Option Nat := none
  lanes : SMap Lane := []
  reports : List Report := []
  condOn : SMap Bool := []
  condDet : SMap Nat := []
  shadows : List Shadow := []
  lastEvt : SMap (Option Nat) := []
  seenAt : SMap (Option Nat) := []
  rst : List Blk := []
  stalls : SMap Stall := []
  chans : SMap Chan := []
  framers : SMap Framer := []
  queues : SMap QState := []
  streams : SMap (Option Stream) := []
  srcBuf : SMap (List Rec) := []
  loss : SMap (Option LossRun) := []
  lossOld : SMap (Option LossRun) := []
  timePend : SMap (List QWord) := []
  wbuf : SMap (List BufWrite) := []
  mem : List Host.Cell := []
  psn : SMap Byte := []
  err : SMap Cells := []
  inited : SMap Bool := []
  wrote : SMap Wrote := []
  shares : SMap (Nat × Nat) := []
  dram : DramUse := {}
  mig : Option Mig := none
  migWait : SMap (Option Nat) := []
  track : SMap Tracker := []
  mr4 : SMap Nat := []
  rankT : SMap RankTimes := []
  mcT : SMap McTimes := []
  dead : SMap Bool := []
  scrubOp : Option (Nat × Nat × List Nat) := none
  retrain : SMap Bool := []
  bufPanic : SMap Bool := []
  tack : SMap Byte := []
  tims : SMap Tim := []
  flts : SMap Flt := []
  fltBits : SMap (List (Nat × Bool)) := []
  ofs : Nat := 0
  rate : Int := 0
  rateLo : Word := 0
  alarms : SMap (Option Alarm) := []
  ptp : SMap Ptp := []
  tmpl : SMap (List Byte) := []
  mods : SMap (List Byte) := []
  trigPend : SMap Nat := []
  due : List Nat := []
  insts : List Inst := []
  nextInst : BitVec 32 := 0
  flows : SMap Flow := []
  ystate : SMap Byte := []
  cores : SMap Core := []
  yflags : SMap (List (Nat × BitVec 8 × BitVec 8)) := []
  yended : Nat := 0
  cal : SMap CalElem := []
  calOp : Option Nat := none
  tests : SMap (Option TestFinding) := []
  pes : SMap Pes := []
  mgt : Mgt := {}
  trigIn : BitVec 4 := 0
  mkr : BitVec 8 := 0
  mkrEdges : List (Nat × Nat × Bool) := []
  mkrLog : List (Nat × Nat × Bool) := []
  trigOut : SMap Pulse := []
  tout : SMap Pulse := []
  toutLvl : BitVec 4 := 0
  syncOut : Pulse := {}
  syncDue : List Nat := []
  syncMs : List Nat := []
  syncFell : Option Nat := none
  syncFrom : Nat := 0
  syncLast : Option (Nat × Bool) := none
  tap : Tap := {}
  wrstLow : Bool := false
  fwWritten : BitVec 2 := 0
  deriving DecidableEq, Repr

/-- The bytes of the tack store at the outset: DEV_ID (R508, R517), and the saved DRAM configuration record (R518), taken as six
controllers of four x8 ranks of 32 Gbit devices without a spare at 6,400 MT/s, the figures of R22 (log 5). Its CRC-32
stands in the last four bytes. -/
def initialTack : List (Nat × Byte) :=
  [(0, 0x28), (1, 1), (2, 0x44), (3, 0x4e), (0x10400, 2), (0x10404, 0x13), (0x10405, 1), (0x10408, 0x13), (0x10409, 1), (0x1040c, 0x13), (0x1040d, 1),
   (0x10410, 0x13), (0x10411, 1), (0x10414, 0x13), (0x10415, 1), (0x10418, 0x13), (0x10419, 1),
   (0x1043c, 0x56), (0x1043d, 0x7d), (0x1043e, 0x88), (0x1043f, 0x78)]

/-- The part held in cold reset: every register at its Reset-column value, outputs high-impedance, no session, no stall,
nothing in DRAM, an empty queue of commands (R26, R56, R57). -/
def State.reset : State := { tack := initialTack, clockStopped := true }

end Sys2Proof.Machine
end

