-- ==== Sys2Proof/Machine/Upd.lean ====
section
/-! DEFINITION. The update of each field of the state by name. Every meaning changes the state through these, so that each
update has its laws (Sys2Proof/Laws/State.lean) and none has to be unfolded. -/

namespace Sys2Proof.Machine

open Sys2Proof

variable (s : State)

/-- The state with a new `pending`. -/
def State.withPending (v : List Instr) : State := { s with pending := v }
/-- The state with a new `held`. -/
def State.withHeld (v : List Instr) : State := { s with held := v }
/-- The state with a new `resuming`. -/
def State.withResuming (v : Bool) : State := { s with resuming := v }
/-- The state with a new `out`. -/
def State.withOut (v : List Sent) : State := { s with out := v }
/-- The state with a new `now`. -/
def State.withNow (v : Nat) : State := { s with now := v }
/-- The state with a new `cnt`. -/
def State.withCnt (v : BitVec 64) : State := { s with cnt := v }
/-- The state with a new `freeCtr`. -/
def State.withFreeCtr (v : Nat) : State := { s with freeCtr := v }
/-- The state with a new `phase`. -/
def State.withPhase (v : Phase) : State := { s with phase := v }
/-- The state with a new `startIn`. -/
def State.withStartIn (v : Option StartIn) : State := { s with startIn := v }
/-- The state with a new `drive`. -/
def State.withDrive (v : Drive) : State := { s with drive := v }
/-- The state with a new `resetAt`. -/
def State.withResetAt (v : Option (Nat × ResetKind)) : State := { s with resetAt := v }
/-- The state with a new `everReady`. -/
def State.withEverReady (v : Bool) : State := { s with everReady := v }
/-- The state with a new `vmainAt`. -/
def State.withVmainAt (v : Nat) : State := { s with vmainAt := v }
/-- The state with a new `clockStopped`. -/
def State.withClockStopped (v : Bool) : State := { s with clockStopped := v }
/-- The state with a new `regs`. -/
def State.withRegs (v : SMap Word) : State := { s with regs := v }
/-- The state with a new `latch`. -/
def State.withLatch (v : SMap (Option Word)) : State := { s with latch := v }
/-- The state with a new `sess`. -/
def State.withSess (v : SMap (Option Session)) : State := { s with sess := v }
/-- The state with a new `slotGen`. -/
def State.withSlotGen (v : SMap Nat) : State := { s with slotGen := v }
/-- The state with a new `owner`. -/
def State.withOwner (v : SMap (Option Nat)) : State := { s with owner := v }
/-- The state with a new `elect`. -/
def State.withElect (v : SMap (Option Election)) : State := { s with elect := v }
/-- The state with a new `ops`. -/
def State.withOps (v : SMap (Option OpRec)) : State := { s with ops := v }
/-- The state with a new `ownEff`. -/
def State.withOwnEff (v : Word × Word) : State := { s with ownEff := v }
/-- The state with a new `ownAt`. -/
def State.withOwnAt (v : Option Nat) : State := { s with ownAt := v }
/-- The state with a new `lanes`. -/
def State.withLanes (v : SMap Lane) : State := { s with lanes := v }
/-- The state with a new `reports`. -/
def State.withReports (v : List Report) : State := { s with reports := v }
/-- The state with a new `condOn`. -/
def State.withCondOn (v : SMap Bool) : State := { s with condOn := v }
/-- The state with a new `condDet`. -/
def State.withCondDet (v : SMap Nat) : State := { s with condDet := v }
/-- The state with a new `shadows`. -/
def State.withShadows (v : List Shadow) : State := { s with shadows := v }
/-- The state with a new `lastEvt`. -/
def State.withLastEvt (v : SMap (Option Nat)) : State := { s with lastEvt := v }
/-- The state with a new `seenAt`. -/
def State.withSeenAt (v : SMap (Option Nat)) : State := { s with seenAt := v }
/-- The state with a new `rst`. -/
def State.withRst (v : List Blk) : State := { s with rst := v }
/-- The state with a new `stalls`. -/
def State.withStalls (v : SMap Stall) : State := { s with stalls := v }
/-- The state with a new `chans`. -/
def State.withChans (v : SMap Chan) : State := { s with chans := v }
/-- The state with a new `framers`. -/
def State.withFramers (v : SMap Framer) : State := { s with framers := v }
/-- The state with a new `queues`. -/
def State.withQueues (v : SMap QState) : State := { s with queues := v }
/-- The state with a new `streams`. -/
def State.withStreams (v : SMap (Option Stream)) : State := { s with streams := v }
/-- The state with a new `srcBuf`. -/
def State.withSrcBuf (v : SMap (List Rec)) : State := { s with srcBuf := v }
/-- The state with a new `loss`. -/
def State.withLoss (v : SMap (Option LossRun)) : State := { s with loss := v }
/-- The state with a new `lossOld`. -/
def State.withLossOld (v : SMap (Option LossRun)) : State := { s with lossOld := v }
/-- The state with a new `timePend`. -/
def State.withTimePend (v : SMap (List QWord)) : State := { s with timePend := v }
/-- The state with a new `wbuf`. -/
def State.withWbuf (v : SMap (List BufWrite)) : State := { s with wbuf := v }
/-- The state with a new `mem`. -/
def State.withMem (v : List Host.Cell) : State := { s with mem := v }
/-- The state with a new `psn`. -/
def State.withPsn (v : SMap Byte) : State := { s with psn := v }
/-- The state with a new `err`. -/
def State.withErr (v : SMap Cells) : State := { s with err := v }
/-- The state with a new `inited`. -/
def State.withInited (v : SMap Bool) : State := { s with inited := v }
/-- The state with a new `wrote`. -/
def State.withWrote (v : SMap Wrote) : State := { s with wrote := v }
/-- The state with a new `shares`. -/
def State.withShares (v : SMap (Nat × Nat)) : State := { s with shares := v }
/-- The state with a new `dram`. -/
def State.withDram (v : DramUse) : State := { s with dram := v }
/-- The state with a new `mig`. -/
def State.withMig (v : Option Mig) : State := { s with mig := v }
/-- The state with a new `migWait`. -/
def State.withMigWait (v : SMap (Option Nat)) : State := { s with migWait := v }
/-- The state with a new `track`. -/
def State.withTrack (v : SMap Tracker) : State := { s with track := v }
/-- The state with a new `mr4`. -/
def State.withMr4 (v : SMap Nat) : State := { s with mr4 := v }
/-- The state with a new `rankT`. -/
def State.withRankT (v : SMap RankTimes) : State := { s with rankT := v }
/-- The state with a new `mcT`. -/
def State.withMcT (v : SMap McTimes) : State := { s with mcT := v }
/-- The state with a new `dead`. -/
def State.withDead (v : SMap Bool) : State := { s with dead := v }
/-- The state with a new `scrubOp`. -/
def State.withScrubOp (v : Option (Nat × Nat × List Nat)) : State := { s with scrubOp := v }
/-- The state with a new `retrain`. -/
def State.withRetrain (v : SMap Bool) : State := { s with retrain := v }
/-- The state with a new `bufPanic`. -/
def State.withBufPanic (v : SMap Bool) : State := { s with bufPanic := v }
/-- The state with a new `tack`. -/
def State.withTack (v : SMap Byte) : State := { s with tack := v }
/-- The state with a new `tims`. -/
def State.withTims (v : SMap Tim) : State := { s with tims := v }
/-- The state with a new `flts`. -/
def State.withFlts (v : SMap Flt) : State := { s with flts := v }
/-- The state with a new `fltBits`. -/
def State.withFltBits (v : SMap (List (Nat × Bool))) : State := { s with fltBits := v }
/-- The state with a new `ofs`. -/
def State.withOfs (v : Nat) : State := { s with ofs := v }
/-- The state with a new `rate`. -/
def State.withRate (v : Int) : State := { s with rate := v }
/-- The state with a new `rateLo`. -/
def State.withRateLo (v : Word) : State := { s with rateLo := v }
/-- The state with a new `alarms`. -/
def State.withAlarms (v : SMap (Option Alarm)) : State := { s with alarms := v }
/-- The state with a new `ptp`. -/
def State.withPtp (v : SMap Ptp) : State := { s with ptp := v }
/-- The state with a new `tmpl`. -/
def State.withTmpl (v : SMap (List Byte)) : State := { s with tmpl := v }
/-- The state with a new `mods`. -/
def State.withMods (v : SMap (List Byte)) : State := { s with mods := v }
/-- The state with a new `trigPend`. -/
def State.withTrigPend (v : SMap Nat) : State := { s with trigPend := v }
/-- The state with a new `due`. -/
def State.withDue (v : List Nat) : State := { s with due := v }
/-- The state with a new `insts`. -/
def State.withInsts (v : List Inst) : State := { s with insts := v }
/-- The state with a new `nextInst`. -/
def State.withNextInst (v : BitVec 32) : State := { s with nextInst := v }
/-- The state with a new `flows`. -/
def State.withFlows (v : SMap Flow) : State := { s with flows := v }
/-- The state with a new `ystate`. -/
def State.withYstate (v : SMap Byte) : State := { s with ystate := v }
/-- The state with a new `cores`. -/
def State.withCores (v : SMap Core) : State := { s with cores := v }
/-- The state with a new `yflags`. -/
def State.withYflags (v : SMap (List (Nat × BitVec 8 × BitVec 8))) : State := { s with yflags := v }
/-- The state with a new `yended`. -/
def State.withYended (v : Nat) : State := { s with yended := v }
/-- The state with a new `cal`. -/
def State.withCal (v : SMap CalElem) : State := { s with cal := v }
/-- The state with a new `calOp`. -/
def State.withCalOp (v : Option Nat) : State := { s with calOp := v }
/-- The state with a new `tests`. -/
def State.withTests (v : SMap (Option TestFinding)) : State := { s with tests := v }
/-- The state with a new `pes`. -/
def State.withPes (v : SMap Pes) : State := { s with pes := v }
/-- The state with a new `mgt`. -/
def State.withMgt (v : Mgt) : State := { s with mgt := v }
/-- The state with a new `trigIn`. -/
def State.withTrigIn (v : BitVec 4) : State := { s with trigIn := v }
/-- The state with a new `mkr`. -/
def State.withMkr (v : BitVec 8) : State := { s with mkr := v }
/-- The state with a new `mkrEdges`. -/
def State.withMkrEdges (v : List (Nat × Nat × Bool)) : State := { s with mkrEdges := v }
/-- The state with a new `mkrLog`. -/
def State.withMkrLog (v : List (Nat × Nat × Bool)) : State := { s with mkrLog := v }
/-- The state with a new `trigOut`. -/
def State.withTrigOut (v : SMap Pulse) : State := { s with trigOut := v }
/-- The state with a new `tout`. -/
def State.withTout (v : SMap Pulse) : State := { s with tout := v }
/-- The state with a new `toutLvl`. -/
def State.withToutLvl (v : BitVec 4) : State := { s with toutLvl := v }
/-- The state with a new `syncOut`. -/
def State.withSyncOut (v : Pulse) : State := { s with syncOut := v }
/-- The state with a new `syncDue`. -/
def State.withSyncDue (v : List Nat) : State := { s with syncDue := v }
/-- The state with a new `syncMs`. -/
def State.withSyncMs (v : List Nat) : State := { s with syncMs := v }
/-- The state with a new `syncFell`. -/
def State.withSyncFell (v : Option Nat) : State := { s with syncFell := v }
/-- The state with a new `syncFrom`. -/
def State.withSyncFrom (v : Nat) : State := { s with syncFrom := v }
/-- The state with a new `syncLast`. -/
def State.withSyncLast (v : Option (Nat × Bool)) : State := { s with syncLast := v }
/-- The state with a new `tap`. -/
def State.withTap (v : Tap) : State := { s with tap := v }
/-- The state with a new `wrstLow`. -/
def State.withWrstLow (v : Bool) : State := { s with wrstLow := v }
/-- The state with a new `fwWritten`. -/
def State.withFwWritten (v : BitVec 2) : State := { s with fwWritten := v }

end Sys2Proof.Machine
end

