-- ==== Sys2Proof/Machine/Regs.lean ====
section
/-! DEFINITION. The register file: the Reset-column value of every address, and the accessors of registers and fields
that every meaning uses. Registers whose value follows other state (depths, stacks, the counter) are computed where they
are read (RegRead.lean). -/

namespace Sys2Proof.Machine

open Sys2Proof

/-- The default reaction of a fault source (R472); reserved sources 0. -/
def reactDefault (src : Nat) : Nat :=
  if src ≤ 6 then 3
  else if src ≤ 8 then 1
  else if src ≤ 10 then 5
  else if src = 11 then 3
  else if src ≤ 33 then 1
  else if src ≤ 39 then 0
  else if src ≤ 79 then 1
  else if src ≤ 95 then 2
  else if src ≤ 111 then 1
  else if src ≤ 127 then 3
  else if src ≤ 145 then 1
  else if src = 146 then 5
  else if src = 147 then 3
  else if src = 255 then 1
  else 0

/-- The eight 4-bit reaction fields of FLC_REACT[j] at reset (R489). -/
def reactReset (j : Nat) : Nat :=
  (List.range 8).foldl (fun a k => a + reactDefault (8 * j + k) * 2 ^ (4 * k)) 0

/-- QM_CFG[q] at reset (R380). -/
def qmCfgReset (q : Nat) : Nat :=
  if q ≤ 7 then 1 + 7 * 2 + 7 * 64
  else if q = 8 then 1 + 10 * 2 + 10 * 64
  else if 512 ≤ q ∧ q < 1024 ∧ q % 32 = 0 then 1 + 14 * 2 + 14 * 64
  else 6 * 2 + 6 * 64

/-- The Reset-column value of a register of a row. -/
def rowReset (row : RegRow) : Nat := row.fields.foldl (fun a f => a + (f.rst <<< f.lo)) 0

/-- The Reset-column value of one register instance (R7). -/
def R.reset (r : R) (i j : Nat) : Nat :=
  match r with
  | .ACQ_ROUTE => if j = 3 ∨ j = 6 then 0 else 512 + 32 * i + 0x8000
  | .FLT_COMP => if j = 31 then 0x400000 else 0
  | .FLT_FIR => if j = 0 then 0x400000 else 0
  | .QM_CFG => qmCfgReset i
  | .FLC_REACT => reactReset i
  | r => rowReset r.row

/-- What address `a` of the register file reads as when it is not listed. -/
def regRst (a : Nat) : Word :=
  match regAt a with
  | some (r, i, j) => BitVec.ofNat 32 (r.reset i j)
  | none => 0

/-- The stored word at a register address. -/
def State.rd (s : State) (a : Nat) : Word := mget regRst s.regs a

/-- Stores a word at a register address. -/
def State.wr (s : State) (a : Nat) (v : Word) : State := s.withRegs (mset regRst s.regs a v)

/-- The stored value of a register instance. -/
def State.rg (s : State) (r : R) (i j : Nat := 0) : Nat := (s.rd (r.addr i j)).toNat

/-- Stores a register instance. -/
def State.setRg (s : State) (r : R) (v : Nat) (i j : Nat := 0) : State := s.wr (r.addr i j) (BitVec.ofNat 32 v)

/-- The stored value of a field. -/
def State.fl (s : State) (f : FRef) (i j : Nat := 0) : Nat := bitsOf (s.rg f.reg i j) f.hi f.lo

/-- Stores a field and leaves the register's other bits. -/
def State.setFl (s : State) (f : FRef) (v : Nat) (i j : Nat := 0) : State :=
  s.setRg f.reg (putBits (s.rg f.reg i j) f.hi f.lo v) i j

/-- The largest value of a field. -/
def FRef.max (f : FRef) : Nat := 2 ^ (f.hi + 1 - f.lo) - 1

/-- Adds to a counter that saturates at its field's largest value. -/
def State.bump (s : State) (f : FRef) (n : Nat) (i j : Nat := 0) : State :=
  s.setFl f (sat f.max (s.fl f i j + n)) i j

/-- A flag field. -/
def State.flag (s : State) (f : FRef) (i j : Nat := 0) : Bool := s.fl f i j != 0

/-- Sets or clears a flag field. -/
def State.setFlag (s : State) (f : FRef) (b : Bool) (i j : Nat := 0) : State := s.setFl f (bit b) i j

/-- A 64-bit value in LO and HI registers. -/
def State.rg64 (s : State) (lo hi : R) (i : Nat := 0) : Nat := s.rg lo i + s.rg hi i * 2 ^ 32

/-- Stores a 64-bit value in LO and HI registers. -/
def State.setRg64 (s : State) (lo hi : R) (v : Nat) (i : Nat := 0) : State :=
  (s.setRg lo v i).setRg hi (v / 2 ^ 32) i

/-- Every register of addresses `lo` to `hi` − 1 takes its Reset-column value. -/
def State.clearRegs (s : State) (lo hi : Nat) : State :=
  let p (a : Nat) : Bool := decide (lo ≤ a) && decide (a < hi)
  (s.withRegs (mclear p s.regs)).withLatch (mclear p s.latch)

/-- The value that the last read of its LO register latched for a register; none before the first such read since a
reset, and after a write of the register. -/
def State.latched (s : State) (r : R) (i j : Nat := 0) : Option Word := mget (fun _ => none) s.latch (r.addr i j)

/-- Latches a value for a register. -/
def State.setLatch (s : State) (r : R) (v : Nat) (i j : Nat := 0) : State :=
  s.withLatch (mset (fun _ => none) s.latch (r.addr i j) (some (BitVec.ofNat 32 v)))

/-- A register reads as it stands again. -/
def State.dropLatch (s : State) (r : R) (i j : Nat := 0) : State :=
  s.withLatch (mset (fun _ => none) s.latch (r.addr i j) none)

/-! ### The indexed parts of the state -/

/-- The run-time record of stall `s`. -/
def State.stall (x : State) (s : Nat) : Stall := mget (fun _ => ({} : Stall)) x.stalls s

/-- Stores the run-time record of stall `s`. -/
def State.setStall (x : State) (s : Nat) (v : Stall) : State :=
  x.withStalls (mset (fun _ => ({} : Stall)) x.stalls s v)

/-- The run-time record of a channel. -/
def State.chan (x : State) (c : Nat) : Chan := mget (fun _ => ({} : Chan)) x.chans c

/-- Stores the run-time record of a channel. -/
def State.setChan (x : State) (c : Nat) (v : Chan) : State :=
  x.withChans (mset (fun _ => ({} : Chan)) x.chans c v)

/-- The run-time record of a framer. -/
def State.framer (x : State) (k : Nat) : Framer := mget (fun _ => ({} : Framer)) x.framers k

/-- Stores the run-time record of a framer. -/
def State.setFramer (x : State) (k : Nat) (v : Framer) : State :=
  x.withFramers (mset (fun _ => ({} : Framer)) x.framers k v)

/-- A queue's contents. -/
def State.queue (x : State) (q : Nat) : QState := mget (fun _ => ({} : QState)) x.queues q

/-- Stores a queue's contents. -/
def State.setQueue (x : State) (q : Nat) (v : QState) : State :=
  x.withQueues (mset (fun _ => ({} : QState)) x.queues q v)

/-- The stream open on a queue. -/
def State.stream (x : State) (q : Nat) : Option Stream := mget (fun _ => none) x.streams q

/-- Stores the stream of a queue. -/
def State.setStream (x : State) (q : Nat) (v : Option Stream) : State :=
  x.withStreams (mset (fun _ => none) x.streams q v)

/-- A host lane at run time. -/
def State.lane (x : State) (k : Nat) : Lane := mget (fun _ => ({} : Lane)) x.lanes k

/-- Stores a host lane's run-time record. -/
def State.setLane (x : State) (k : Nat) (v : Lane) : State :=
  x.withLanes (mset (fun _ => ({} : Lane)) x.lanes k v)

/-- The session in a slot. -/
def State.session (x : State) (n : Nat) : Option Session := mget (fun _ => none) x.sess n

/-- Stores the session of a slot. -/
def State.setSession (x : State) (n : Nat) (v : Option Session) : State :=
  x.withSess (mset (fun _ => none) x.sess n v)

/-- The slot whose session owns resource `r` (16: the device). -/
def State.ownerOf (x : State) (r : Nat) : Option Nat := mget (fun _ => none) x.owner r

/-- Stores the owner of a resource. -/
def State.setOwner (x : State) (r : Nat) (v : Option Nat) : State :=
  x.withOwner (mset (fun _ => none) x.owner r v)

/-- The open election of a resource. -/
def State.election (x : State) (r : Nat) : Option Election := mget (fun _ => none) x.elect r

/-- Stores the election of a resource. -/
def State.setElection (x : State) (r : Nat) (v : Option Election) : State :=
  x.withElect (mset (fun _ => none) x.elect r v)

/-- An operation record. -/
def State.op (x : State) (n : Nat) : Option OpRec := mget (fun _ => none) x.ops n

/-- Stores an operation record. -/
def State.setOp (x : State) (n : Nat) (v : Option OpRec) : State :=
  x.withOps (mset (fun _ => none) x.ops n v)

/-- A time-interval unit at run time. -/
def State.tim (x : State) (u : Nat) : Tim := mget (fun _ => ({} : Tim)) x.tims u

/-- Stores a unit's run-time record. -/
def State.setTim (x : State) (u : Nat) (v : Tim) : State :=
  x.withTims (mset (fun _ => ({} : Tim)) x.tims u v)

/-- A decimation chain's state. -/
def State.flt (x : State) (c : Nat) : Flt := mget (fun _ => ({} : Flt)) x.flts c

/-- Stores a chain's state. -/
def State.setFlt (x : State) (c : Nat) (v : Flt) : State :=
  x.withFlts (mset (fun _ => ({} : Flt)) x.flts c v)

/-- A Yard core. -/
def State.core (x : State) (c : Nat) : Core := mget (fun _ => ({} : Core)) x.cores c

/-- Stores a Yard core. -/
def State.setCore (x : State) (c : Nat) (v : Core) : State :=
  x.withCores (mset (fun _ => ({} : Core)) x.cores c v)

/-- An ordered flow. -/
def State.flow (x : State) (f : Nat) : Flow := mget (fun _ => ({} : Flow)) x.flows f

/-- Stores an ordered flow. -/
def State.setFlow (x : State) (f : Nat) (v : Flow) : State :=
  x.withFlows (mset (fun _ => ({} : Flow)) x.flows f v)

/-- A serial master. -/
def State.pesm (x : State) (j : Nat) : Pes := mget (fun _ => ({} : Pes)) x.pes j

/-- Stores a serial master. -/
def State.setPesm (x : State) (j : Nat) (v : Pes) : State :=
  x.withPes (mset (fun _ => ({} : Pes)) x.pes j v)

/-- A source buffer of R301: slices 0–127, chains 128–143, units 144–159, stall MARK buffers 160–175. -/
def State.buf (x : State) (n : Nat) : List Rec := mget (fun _ => []) x.srcBuf n

/-- Stores a source buffer. -/
def State.setBuf (x : State) (n : Nat) (v : List Rec) : State :=
  x.withSrcBuf (mset (fun _ => []) x.srcBuf n v)

/-- An alarm. -/
def State.alarm (x : State) (a : Nat) : Option Alarm := mget (fun _ => none) x.alarms a

/-- Stores an alarm. -/
def State.setAlarm (x : State) (a : Nat) (v : Option Alarm) : State :=
  x.withAlarms (mset (fun _ => none) x.alarms a v)

/-- A byte of the tack store; an erased byte reads 0 (R517). -/
def State.tackB (x : State) (a : Nat) : Byte := mget (fun _ => 0) x.tack a

/-- Bytes of the tack store. -/
def State.tackBytes (x : State) (a n : Nat) : List Byte := (List.range n).map (fun k => x.tackB (a + k))

/-- Writes bytes to the tack store. -/
def State.setTack (x : State) (a : Nat) : List Byte → State
  | [] => x
  | b :: t => State.setTack (x.withTack (mset (fun _ => 0) x.tack a b)) (a + 1) t

end Sys2Proof.Machine
end

