-- ==== Sys2Proof/Machine/Ops.lean ====
section
/-! DEFINITION. The operations that every family shares: elapsed time, free values, reports to the fault collector,
sending of DCP messages, sessions and owners, events, and the records of long operations. -/

namespace Sys2Proof.Machine

open Sys2Proof

/-! ### Time and free values -/

/-- SCLK cycles in a microsecond and a millisecond (R22: SCLK is 1.6 GHz). -/
def usCyc : Nat := 1600

/-- SCLK cycles in a millisecond. -/
def msCyc : Nat := 1600000

/-- Units of 0.25 ps in one SCLK cycle of 625 ps. -/
def unitsPerCyc : Nat := 2500

/-- The present instant in units of 0.25 ps. -/
def State.nowU (s : State) : Nat := s.now * unitsPerCyc

/-- The marker-ball edges up to an instant take place; the last 64 are remembered for the marker loopback (R236, R237). -/
def State.mkrTo (s : State) (t : Nat) : State :=
  let due := s.mkrEdges.filter (fun e => decide (e.1 ≤ t))
  ((s.withMkr (due.foldl (fun m e => BitVec.ofNat 8 (putBits m.toNat e.2.1 e.2.1 (bit e.2.2))) s.mkr)).withMkrEdges
    (s.mkrEdges.filter (fun e => ! decide (e.1 ≤ t)))).withMkrLog ((due.reverse ++ s.mkrLog).take 64)

/-- Time passes until cycle `t`, if it has not passed; the time-base counter counts with it unless a lost clock stopped
it, and the marker balls follow (R54, R236, R440). -/
def State.advTo (s : State) (t : Nat) : State :=
  if s.now < t then
    ((s.withNow t).withCnt (if s.clockStopped then s.cnt else s.cnt + BitVec.ofNat 64 (t - s.now))).mkrTo (t * 2500)
  else s

/-- Time passes until the first SCLK edge at or after an instant in units of 0.25 ps. -/
def State.advToU (s : State) (u : Nat) : State := s.advTo ((u + (unitsPerCyc - 1)) / unitsPerCyc)

/-- Draws the next free value (log 3). -/
def State.draw (s : State) (w : Nat) : BitVec w × State :=
  (Config.free s.freeCtr w, (s.withFreeCtr (s.freeCtr + 1)))

/-! ### Detectors -/

/-- A detector reports to the fault collector. -/
def State.raise (s : State) (src detail : Nat) (inj : Bool := false) (stall : Option Nat := none) : State :=
  s.withReports (s.reports ++ [⟨src, detail, inj, stall⟩])

/-- The detector of a condition source becomes active or inactive. -/
def State.setCond (s : State) (src : Nat) (on : Bool) : State :=
  s.withCondOn (mset (fun _ => false) s.condOn src on)

/-- Whether a condition holds at its detector. -/
def State.cond (s : State) (src : Nat) : Bool := mget (fun _ => false) s.condOn src

/-- A pulse of a source, an event's or an injection's, falls on the present sample (R472, R488). -/
def State.pulseNow (s : State) (src : Nat) : Bool := mget (fun _ => none) s.seenAt src == some s.now

/-- The level of JTAG_TRST_L; low holds the test access port in Test-Logic-Reset (R44). -/
def Tap.trstTo (t : Tap) (low : Bool) : Tap := { t with trst := low, state := if low then .testLogicReset else t.state }

/-! ### Service -/

/-- Host-ready has been reached (R64, R66). -/
def State.ready (s : State) : Bool := s.phase == .ready

/-- The service level of R71: 0 before host-ready. -/
def State.level (s : State) : Nat :=
  if s.ready then
    if ! s.flag F.PCR_SERVICE.timing_die_ok then 3
    else if s.dram.set.isEmpty then 2
    else 1
  else 0

/-! ### Sessions and owners -/

/-- The handle of the session in a slot, 0xFFFF when there is none (R108). -/
def State.handle (s : State) (slot : Option Nat) : BitVec 16 :=
  match slot with
  | none => 0xffff
  | some n =>
    match s.session n with
    | some x => BitVec.ofNat 16 (x.gen * 32 + n)
    | none => 0xffff

/-- The slot whose session has the given handle. -/
def State.slotOf (s : State) (h : BitVec 16) : Option Nat :=
  match s.session (h.toNat % 32) with
  | some x => if x.gen * 32 + h.toNat % 32 = h.toNat then some (h.toNat % 32) else none
  | none => none

/-- Whether a slot holds a live session. -/
def State.live (s : State) (slot : Nat) : Bool :=
  match s.session slot with
  | some x => ! x.expired
  | none => false

/-- The index of the device among the ownable resources (R118). -/
def devRes : Nat := 16

/-- Whether slot `slot` owns resource `r`. -/
def State.owns (s : State) (slot r : Nat) : Bool := s.ownerOf r == some slot

/-- Whether slot `slot` owns some stall. -/
def State.ownsStall (s : State) (slot : Nat) : Bool := (List.range 16).any (fun r => s.owns slot r)

/-! ### Sending (R90, R91, R138, R516) -/

/-- The host lane of a binding. -/
def laneOf : Binding → Option Nat
  | .eth k _ => some k.val
  | .udp k _ _ => some k.val
  | .mgmt => none

/-- Whether a host lane's link is UP (R92). -/
def State.laneUp (s : State) (k : Nat) : Bool := s.fl F.HP_LINK_STAT.state k == 4

/-- The 802.1Q tag control information that a lane inserts, if it does (R91). -/
def State.vlanTag (s : State) (k : Nat) : Option (BitVec 16) :=
  if s.flag F.HP_VLAN.tag_en k then
    some (BitVec.ofNat 16 (s.fl F.HP_VLAN.vid k + s.fl F.HP_VLAN.pcp k * 2 ^ 13))
  else none

/-- Offers a frame for transmit on a lane: sent and counted when the lane is UP, otherwise discarded and counted
(R90). -/
def State.offer (s : State) (k : Nat) (f : Sent) : State :=
  if s.laneUp k then (s.withOut (s.out ++ [f])).bump F.HP_TX_FRAMES.count 1 k
  else s.bump F.HP_TX_DROP.count 1 k

/-- The message type code of the header (R105). -/
def typeCode : MsgType → Nat
  | .reply => 2
  | .event => 3
  | .stream => 4

/-- A message as bytes (R105). -/
def msgBytes (m : Msg) : List Byte :=
  leBytes 1 (32 + typeCode m.type) ++ leBytes 1 (bit m.retry) ++ beBytes 2 m.session.toNat ++ beBytes 4 m.seq.toNat
    ++ beBytes 1 m.target.toNat ++ [0] ++ beBytes 2 m.opcode.toNat ++ beBytes 2 m.params.length ++ beBytes 2 m.status.toNat
    ++ m.params

/-- The IPv4 header fields of a datagram that a lane sends (R104). -/
def State.ipOut (s : State) (k : Nat) : IpOut := ⟨BitVec.ofNat 32 (s.rg .HP_IPV4 k), true, 64⟩

/-- The sum of the 16-bit words of some bytes, most significant byte first; a last odd byte is padded with 0. -/
def sum16 : List Byte → Nat
  | [] => 0
  | [a] => a.toNat * 256
  | a :: b :: t => a.toNat * 256 + b.toNat + sum16 t

/-- Folds a sum to 16 bits with end-around carry. -/
def fold16 (n : Nat) : Nat :=
  let a := n % 65536 + n / 65536
  a % 65536 + a / 65536

/-- The UDP checksum of a datagram over IPv4: the ones' complement of the sum of the pseudo-header, the UDP header and the data,
with 0 sent as 0xFFFF (R104). -/
def udpChecksum (src dst : BitVec 32) (sport dport : BitVec 16) (data : List Byte) : BitVec 16 :=
  let n := 8 + data.length
  let c := 65535 - fold16 (sum16 (beBytes 4 src.toNat ++ beBytes 4 dst.toNat ++ [0, 17] ++ beBytes 2 n
    ++ beBytes 2 sport.toNat ++ beBytes 2 dport.toNat ++ beBytes 2 n ++ [0, 0] ++ data))
  BitVec.ofNat 16 (if c = 0 then 65535 else c)

/-- What carries a message to a binding: the EtherType in use, or a UDP datagram from the port in use (R102, R104). -/
def State.carrier (s : State) (b : Binding) (m : Msg) : Carrier :=
  match b with
  | .udp k ip port =>
    let own := BitVec.ofNat 16 s.ownEff.2.toNat
    let o := s.ipOut k.val
    .udp o own (udpChecksum o.src ip own port (msgBytes m))
  | _ => .eth (BitVec.ofNat 16 s.ownEff.1.toNat)

/-- Sends a DCP message to a binding; the management target holds up to 32 (R516). -/
def State.sendDcp (s : State) (b : Binding) (m : Msg) : State :=
  match laneOf b with
  | some k => s.offer k (.dcp b (s.vlanTag k) (s.carrier b m) m)
  | none => if s.mgt.out.length < 32 then s.withMgt { s.mgt with out := s.mgt.out ++ [m] } else s

/-- Sends an EVENT to the session of a slot; with no recipient it is counted (R138). -/
def State.event (s : State) (to_ : Option Nat) (code target : Nat) (params : List Byte) : State :=
  match to_ with
  | none => s.bump F.OWN_EVENT_DROP.count 1
  | some n =>
    match s.session n with
    | none => s.bump F.OWN_EVENT_DROP.count 1
    | some x =>
      (s.setSession n (some { x with evSeq := x.evSeq + 1 })).sendDcp x.bind
        ⟨.event, false, s.handle (some n), x.evSeq, BitVec.ofNat 8 target, BitVec.ofNat 16 code, 0, params⟩

/-- STALL_STOPPED goes to the stall's owner, or to the device owner of an unowned stall (R139). -/
def State.stallEventTo (s : State) (st : Nat) : Option Nat :=
  match s.ownerOf st with
  | some n => some n
  | none => s.ownerOf devRes

/-! ### Replies -/

/-- The number of replies that the replay cache keeps (R111). -/
def cacheSize : Nat := 16

/-- Sends the reply of a command of the session in `slot` and keeps it in the replay cache (R107, R111). -/
def State.replyTo (s : State) (slot : Nat) (opcode : BitVec 16) (seq : BitVec 32) (target : BitVec 8) (status : Nat)
    (params : List Byte) : State :=
  match s.session slot with
  | none => s
  | some x =>
    let m : Msg := ⟨.reply, false, s.handle (some slot), seq, target, opcode, BitVec.ofNat 16 status, params⟩
    (s.setSession slot (some { x with cache := (m :: x.cache).take cacheSize })).sendDcp x.bind m

/-- Sends the reply that a slot waits for, if it waits for `k` (R112). -/
def State.answer (s : State) (slot : Nat) (k : WaitKind) (status : Nat) (params : List Byte) : State :=
  match s.session slot with
  | none => s
  | some x =>
    match x.wait with
    | none => s
    | some w =>
      if w.kind = k then
        (s.setSession slot (some { x with wait := none })).replyTo slot w.opcode w.seq w.target status params
      else s

/-- Sends every reply that waits for `k`, in slot order. -/
def State.answerAll (s : State) (k : WaitKind) (status : Nat) (params : List Byte) : State :=
  (List.range 32).foldl (fun s n => s.answer n k status params) s

/-- A DCP command whose DRAM access has been held for 10 ms ends with TIMEOUT, code 12 of R117 (R412). -/
def State.expireWait (s : State) (slot : Nat) : State :=
  match (s.session slot).bind (fun x => x.wait) with
  | some ⟨.mem d acc, _, _, _⟩ => if d ≤ s.now then s.answer slot (.mem d acc) 12 [] else s
  | _ => s

/-- Every held DRAM access that has waited for 10 ms ends, in slot order (R412). -/
def State.expireWaits (s : State) : State := (List.range 32).foldl State.expireWait s

/-! ### Long operations (R125) -/

/-- The lowest free operation record; its number is the handle (log 11). -/
def State.freeOp (s : State) : Option Nat := (List.range 64).find? (fun n => (s.op n).isNone)

/-- Accepts a long operation for a slot. -/
def State.startOp (s : State) (n slot : Nat) (opcode : BitVec 16) (k : OpKind) : State :=
  match s.session slot with
  | none => s
  | some x => s.setOp n (some ⟨slot, x.gen, opcode, k, false, 0, 0, 0, s.now⟩)

/-- Whether the session that started an operation still holds its slot, and whether it is live. -/
def State.opSession (s : State) (o : OpRec) : Option Bool :=
  match s.session o.slot with
  | some x => if x.gen = o.gen then some (! x.expired) else none
  | none => none

/-- A long operation ends: OP_DONE to the starting session while it is live; the record of a closed session is freed
(R113, R125, R139). DESIGN CHOICE (log 76): OP_DONE carries the device as target, whatever target the command had, and one
that is not sent because its session is expired or closed is not counted in OWN_EVENT_DROP. -/
def State.endOp (s : State) (n status : Nat) (result : BitVec 64) : State :=
  match s.op n with
  | none => s
  | some o =>
    if o.done then s
    else
      match s.opSession o with
      | none => s.setOp n none
      | some live =>
        let s := s.setOp n (some { o with done := true, status := BitVec.ofNat 16 status, result := result
                                          doneAt := s.now })
        if live then
          s.event (some o.slot) 2 0xff
            (beBytes 2 n ++ beBytes 2 o.opcode.toNat ++ beBytes 2 status ++ beBytes 8 result.toNat)
        else s

/-- Frees the finished records of a session that closes (R125). -/
def State.freeOps (s : State) (slot gen : Nat) : State :=
  (List.range 64).foldl
    (fun s n =>
      match s.op n with
      | some o => if o.slot = slot ∧ o.gen = gen ∧ o.done then s.setOp n none else s
      | none => s) s

/-! ### Stalls: the figures that many rules use -/

/-- Stall states of R131. -/
def stUnconf : Nat := 0
/-- IDLE (R131). -/
def stIdle : Nat := 1
/-- ARMED (R131). -/
def stArmed : Nat := 2
/-- RUNNING (R131). -/
def stRunning : Nat := 3
/-- STOPPED (R131). -/
def stStopped : Nat := 4

/-- The state code of a stall. -/
def State.stState (s : State) (st : Nat) : Nat := s.fl F.STL_SEQ_STAT.state st

/-- A stall is armed or running. -/
def State.busyStall (s : State) (st : Nat) : Bool := s.stState st == stArmed || s.stState st == stRunning

/-- Some stall is armed or running. -/
def State.anyBusy (s : State) : Bool := (List.range 16).any s.busyStall

/-- The octets of a stall, ascending (R142). -/
def State.octetsOf (s : State) (st : Nat) : List Nat :=
  (List.range 16).filter (fun k => tbit (s.fl F.DEV_PART.octets st) k)

/-- The stall that holds an octet. -/
def State.stallOfOct (s : State) (k : Nat) : Option Nat :=
  (List.range 16).find? (fun st => tbit (s.fl F.DEV_PART.octets st) k)

/-- The stall that holds a channel's octet. -/
def State.stallOfChan (s : State) (c : Nat) : Option Nat := s.stallOfOct (c / 8)

/-- The channels of a stall, ascending. -/
def State.chansOf (s : State) (st : Nat) : List Nat :=
  (s.octetsOf st).flatMap (fun k => (List.range 8).map (fun j => 8 * k + j))

/-- The resource that owns a channel's registers: its stall, or the device while its octet is idle (R222). -/
def State.chanRes (s : State) (c : Nat) : Nat := (s.stallOfChan c).getD devRes

/-- Whether block `b` is in block reset (R61, R504). -/
def State.inReset (s : State) (b : Blk) : Bool := s.rst.contains b

end Sys2Proof.Machine
end

