-- ==== Sys2Proof/Machine/Mem.lean ====
section
/-! DEFINITION. DRAM: the interleave set and its figures, the address mapping, the initialisation map, ECC and poison,
reads and writes of words, retirement of ranks, and the records of the tack store that go with them (R404–R439, R542). -/

namespace Sys2Proof.Machine

open Sys2Proof

/-! ### CRC-32 and tack-store records -/

/-- One step of CRC-32 over a bit already folded in (log 6). -/
def crcBit (c : BitVec 32) : BitVec 32 := if c.getLsbD 0 then (c >>> 1) ^^^ 0xedb88320 else c >>> 1

/-- CRC-32 of one byte. -/
def crcByte (c : BitVec 32) (b : Byte) : BitVec 32 :=
  (List.range 8).foldl (fun x _ => crcBit x) (c ^^^ b.zeroExtend 32)

/-- CRC-32 of bytes (R381, R462, R518). -/
def crc32 (l : List Byte) : BitVec 32 := ~~~ (l.foldl crcByte 0xffffffff)

/-- Bytes padded with zeros to `n`. -/
def padTo (n : Nat) (l : List Byte) : List Byte := (l ++ List.replicate n 0).take n

/-- A 64-byte record of R518: bytes 0–59 and their CRC-32. -/
def record64 (body : List Byte) : List Byte :=
  let b := padTo 60 body
  b ++ leBytes 4 (crc32 b).toNat

/-- Whether the record at a tack-store offset has a good CRC (R518). -/
def State.recordOk (s : State) (a : Nat) : Bool :=
  decide (ofLe (s.tackBytes (a + 60) 4) = (crc32 (s.tackBytes a 60)).toNat)

/-- A tack-store record's bytes 0–59; a record whose CRC fails is absent (R518). -/
def State.record (s : State) (a : Nat) : Option (List Byte) :=
  if s.recordOk a then some (s.tackBytes a 60) else none

/-- Saves MC_SYS_CFG and the six MC_CFG to the tack store (R406, R518). -/
def State.saveDramCfg (s : State) : State :=
  s.setTack 0x10400
    (record64 (leBytes 4 (s.rg .MC_SYS_CFG)
      ++ (List.range 6).flatMap (fun m => leBytes 4 (s.rg .MC_CFG m))))

/-- Writes the retirement map of a controller: state 0 none, 1 migrating, 2 retired (R432, R434, R518). -/
def State.saveMap (s : State) (m state rank spare : Nat) : State :=
  s.setTack (0x10200 + 0x40 * m) (record64 [BitVec.ofNat 8 state, BitVec.ofNat 8 rank, BitVec.ofNat 8 spare])

/-! ### The interleave set (R404–R407) -/

/-- One GiB. -/
def gib : Nat := 2 ^ 30

/-- C_r of a controller's configuration (R405). -/
def rankCap (cfg : Nat) : Nat :=
  let base := 16 + 8 * bitsOf cfg 4 3
  (if tbit cfg 2 then base / 2 else base) * gib

/-- C_m of a controller's configuration (R405). -/
def mcCap (cfg : Nat) : Nat :=
  let ranks := bitsOf cfg 1 0 + 1
  rankCap cfg * (if tbit cfg 5 then ranks - 1 else ranks)

/-- The configuration of a controller in use since the last cold start. -/
def State.useCfg (s : State) (m : Nat) : Nat := ((s.dram.cfg[m]?).getD 0).toNat

/-- The smallest member capacity. -/
def State.minCap (s : State) : Nat :=
  match s.dram.set with
  | [] => 0
  | m :: t => t.foldl (fun a k => min a (mcCap (s.useCfg k))) (mcCap (s.useCfg m))

/-- Installed DRAM, D, in bytes (R407). -/
def State.installed (s : State) : Nat := s.dram.set.length * s.minCap

/-- The data rate in MT/s of a code of MC_SYS_CFG.rate (R439). -/
def rateMts (r : Nat) : Nat := 4800 + 800 * r

/-- The configured peak bandwidth P in 0.1 GB/s units (R407). -/
def State.peak (s : State) : Nat := s.dram.set.length * rateMts s.dram.rate * 8 / 100

/-- The real-time limit in 0.1 GB/s units (R201, R407). -/
def State.rtLimit (s : State) : Nat := s.dram.set.length * rateMts s.dram.rate * 8 * 60 / 10000

/-- A byte range lies wholly inside installed DRAM. -/
def State.inDram (s : State) (a len : Nat) : Bool := decide (a + len ≤ s.installed)

/-! ### The address mapping (R408, R409) -/

/-- Where an address lies: controller, serving rank, subchannel, bank group and bank as one number, row, and the data
rank with its offset. -/
structure Place where
  m : Nat
  rank : Nat
  sub : Nat
  bank : Nat
  row : Nat
  off : Nat
  deriving DecidableEq, Repr

/-- The non-spare ranks of a controller in ascending CS order (R409). -/
def dataRanks (cfg : Nat) : List Nat :=
  (List.range (bitsOf cfg 1 0 + 1)).filter (fun r => ! (tbit cfg 5 && r == bitsOf cfg 7 6))

/-- The address mapping of R408 and R409; a migrating rank's offsets below the watermark are served by the spare
(R433). -/
def State.place (s : State) (a : Nat) : Place :=
  let n := s.dram.set.length
  let u := a / 256
  let m := (s.dram.set[u % n]?).getD 0
  let l := u / n * 256 + a % 256
  let cfg := s.useCfg m
  let c := rankCap cfg
  let o := l % c
  let g := if tbit cfg 2 then 2 else 3
  let dr := ((dataRanks cfg)[l / c]?).getD 0
  let moved := match s.mig with
    | some x => x.m == m && x.rank == dr && decide (o < x.w)
    | none => false
  let rank := if moved || (s.flag F.MC_STAT.retired_valid m && s.fl F.MC_STAT.retired_rank m == dr)
    then s.fl F.MC_STAT.spare_rank m else dr
  ⟨m, rank, bitsOf o 6 6, bitsOf o (6 + g) 7 + 8 * bitsOf o (14 + g) (13 + g), o / 2 ^ (15 + g), o⟩

/-- Whether a controller serves requests: in S, not retraining, not in block reset (R412, R436). -/
def State.serving (s : State) (m : Nat) : Bool :=
  s.dram.set.contains m && ! s.flag F.MC_STAT.retraining m
    && ! (List.finRange 6).any (fun k => k.val == m && s.inReset (.mc k))

/-- The controllers that a byte range touches. -/
def State.touched (s : State) (a len : Nat) : List Nat :=
  let n := s.dram.set.length
  let first := a / 256
  let cnt := (a + len - 1) / 256 + 1 - first
  (List.range (min n cnt)).filterMap (fun k => s.dram.set[(first + k) % n]?)

/-- The byte range of an access. -/
def MemAcc.range : MemAcc → Nat × Nat
  | .read a n => (a, n)
  | .write a n _ => (a, n)
  | .load _ a n => (a, 16 * n)

/-- A range touches a controller that is retraining: requests to it are held (R412). -/
def State.memRetrains (s : State) (a len : Nat) : Bool :=
  (s.touched a len).any (fun m => s.flag F.MC_STAT.retraining m)

/-- A range touches a controller in block reset: requests to it are discarded (R436). -/
def State.memReset (s : State) (a len : Nat) : Bool :=
  (s.touched a len).any (fun m => (List.finRange 6).any (fun k => k.val == m && s.inReset (.mc k)))

/-- An access to the range is not served: a controller it needs is retraining or in block reset (R412, R436). -/
def State.memHeld (s : State) (a len : Nat) : Bool := (s.touched a len).any (fun m => ! s.serving m)

/-- A member whose retraining failed: reads poisoned, writes discarded (R412). -/
def State.deadMc (s : State) (m : Nat) : Bool := mget (fun _ => false) s.dead m

/-- The timers of a rank. -/
def State.rankTimes (s : State) (m r : Nat) : RankTimes := mget (fun _ => ({} : RankTimes)) s.rankT (4 * m + r)

/-- Stores the timers of a rank. -/
def State.setRankTimes (s : State) (m r : Nat) (t : RankTimes) : State :=
  s.withRankT (mset (fun _ => ({} : RankTimes)) s.rankT (4 * m + r) t)

/-- A rank has a request: it leaves power-down and self-refresh, and its refresh interval timer restarts when it was in
self-refresh (R423, R424). -/
def State.wake (s : State) (p : Place) : State :=
  let w := s.rg .MC_STAT p.m
  let t := s.rankTimes p.m p.rank
  let s := s.setRankTimes p.m p.rank ⟨if tbit w (9 + p.rank) then s.now else t.ref, s.now⟩
  if tbit w (9 + p.rank) || tbit w (13 + p.rank) then
    s.setRg .MC_STAT (putBits (putBits w (9 + p.rank) (9 + p.rank) 0) (13 + p.rank) (13 + p.rank) 0) p.m
  else s

/-! ### Retirement (R431) -/

/-- Whether a controller's spare is unused. -/
def State.spareFree (s : State) (m : Nat) : Bool :=
  tbit (s.useCfg m) 5 && ! s.flag F.MC_STAT.spare_used m

/-- A migration of rank `x` of controller `m` to its spare starts, state 0 (R431, R432). -/
def State.startMig (s : State) (m x : Nat) : State :=
  let sp := bitsOf (s.useCfg m) 7 6
  let s := (s.saveMap m 1 x sp).setFlag F.MC_STAT.spare_used true m
  let s := s.setFl F.MC_STAT.spare_rank sp m
  let s := s.withMig (some ⟨m, x, sp, 0, false⟩)
  s.event (s.ownerOf devRes) 5 0xff [0, BitVec.ofNat 8 m, BitVec.ofNat 8 x]

/-- Rank `x` of controller `m` becomes a retirement candidate (R431). -/
def State.candidate (s : State) (m x : Nat) : State :=
  let retired := s.flag F.MC_STAT.retired_valid m && s.fl F.MC_STAT.retired_rank m == x
  let migrating := match s.mig with
    | some g => g.m == m && g.rank == x
    | none => false
  let spareUsed := s.flag F.MC_STAT.spare_used m && s.fl F.MC_STAT.spare_rank m == x
  let isSpare := tbit (s.useCfg m) 5 && bitsOf (s.useCfg m) 7 6 == x
  if retired || migrating then s
  else if ! s.spareFree m || spareUsed || isSpare then s.raise (25 + m) x
  else
    match s.mig with
    | none => s.startMig m x
    | some _ =>
      match mget (fun _ => none) s.migWait m with
      | some _ => s
      | none => s.withMigWait (mset (fun _ => none) s.migWait m (some x))

/-! ### Words -/

/-- Whether the 1 MiB region of an address is initialised (R410). -/
def State.isInit (s : State) (a : Nat) : Bool := mget (fun _ => false) s.inited (a / 2 ^ 20)

/-- The stored bytes of the 8-byte word at `a`. -/
def State.rawWord (s : State) (a : Nat) : BitVec 64 :=
  BitVec.ofNat 64 (ofLe ((List.range 8).map (fun k => mget (fun _ => (0 : Byte)) s.mem (a + k))))

/-- The canonical form of the memory: addresses strictly rising, and no cell equal to the 0 that an unlisted address reads
as. -/
def Memory.wf (m : List Host.Cell) : Bool := mwf (fun _ => (0 : Byte)) m

/-- Stores bytes from `a` on. -/
def putBytes (m : List Host.Cell) (a : Nat) : List Byte → List Host.Cell
  | [] => m
  | b :: t => putBytes (mset (fun _ => (0 : Byte)) m a b) (a + 1) t

/-- The byte of DRAM at `a` as stored; a byte that nothing has written is 0 (R410). -/
def State.memByte (s : State) (a : Nat) : Byte := mget (fun _ => (0 : Byte)) s.mem a

/-- A source of DRAM writes, by its number in srcKey, and since when the write may be under way (R417). -/
structure Writer where
  src : Nat
  since : Nat
  deriving DecidableEq, Repr

/-- The DCP engine as a writer. -/
def dcpWriter (since : Nat) : Writer := ⟨32, since⟩

/-- The queue manager's spill port as a writer. -/
def spillWriter (since : Nat) : Writer := ⟨33, since⟩

/-- A stall's tailrace writer as a writer. -/
def tailWriter (st since : Nat) : Writer := ⟨16 + st, since⟩

/-- A Yard core as a writer. -/
def coreWriter (core since : Nat) : Writer := ⟨64 + core, since⟩

/-- The last write of the word at `a`. -/
def State.wroteAt (s : State) (a : Nat) : Wrote := mget (fun _ => ({} : Wrote)) s.wrote (a / 8)

/-- A source has written the word at `a`: when another source wrote it after this write began, no order holds between the two
and the content is undefined; else this source has rewritten it alone and the content is defined (R417, R495). -/
def State.markWrite (s : State) (w : Writer) (a : Nat) : State :=
  let r := s.wroteAt a
  s.withWrote (mset (fun _ => ({} : Wrote)) s.wrote (a / 8)
    ⟨w.src, s.now, r.src != w.src && decide (w.since < r.at_)⟩)

/-- The poison byte of a word: 0x00 when the word is clean, 0xFF when it is poisoned (R427). -/
def poisonByte (p : Bool) : Byte := if p then 0xff else 0x00

/-- A poison byte with 5 or more bits set reads as poisoned (R427). -/
def readsPoisoned (b : Byte) : Bool := decide (5 ≤ ((List.range 8).filter (fun i => b.getLsbD i)).length)

/-- The word at `a` is stored poisoned (R427). -/
def State.poisoned (s : State) (a : Nat) : Bool := readsPoisoned (mget (fun _ => 0) s.psn (a / 8))

/-- Stores a word with fresh check bits: an error of the old content does not survive (R542). -/
def State.putWord (s : State) (a : Nat) (v : BitVec 64) (poison : Bool) : State :=
  ((s.withMem (putBytes s.mem a (leBytes 8 v.toNat))).withPsn (mset (fun _ => 0) s.psn (a / 8) (poisonByte poison))).withErr
    (mset (fun _ => Cells.asStored) s.err (a / 8) .asStored)

/-- What the cells of the word at `a` hold from now on. -/
def State.setErr (s : State) (a : Nat) (c : Cells) : State :=
  s.withErr (mset (fun _ => Cells.asStored) s.err (a / 8) c)

/-- Region `r` is initialised from now on (R410). -/
def State.setInit (s : State) (r : Nat) : State := s.withInited (mset (fun _ => false) s.inited r true)

/-- A word as a read delivers it. -/
structure RWord where
  data : BitVec 64
  poison : Bool
  deriving DecidableEq, Repr

/-- A pending checker injection at source `src` (R488). -/
def State.injected (s : State) (src : Nat) : Bool :=
  s.flag F.FLC_INJECT.pending && s.fl F.FLC_INJECT.source == src

/-- The pending injection is used up. -/
def State.useInjection (s : State) : State := s.setRg .FLC_INJECT 0

/-- The receiving die checks the parity of a die-link flit: `detail` is its direction and whether it carries vector-line data,
`stall` the stall of its line or record. A real failure or an injected one is reported; answers whether the flit is bad (R15,
R16, R472, R488). -/
def State.checkFlit (s : State) (detail : Nat) (stall : Option Nat) (bad : Bool) : Bool × State :=
  if s.injected 12 then (true, s.useInjection.raise 12 detail true stall)
  else if bad then (true, s.raise 12 detail false stall)
  else (false, s)

/-- A control flit crosses the die link to the timing die, 0, or from it, 1: a register access, a flag update or a time-alarm
start. It takes its effect although its parity is wrong (R15, R16, log 93). -/
def State.controlFlit (s : State) (direction : Nat) : State := (s.checkFlit direction none false).2

/-- A checker injection at TACK_ECC meets the next tack-store read, at an offset (R472, R488). -/
def State.checkTack (s : State) (off : Nat) : State :=
  if s.injected 144 then s.useInjection.raise 144 (off / 64 % 2 ^ 16) true else s

/-- What a read finds in the word at `a`: the worse of what the stored word holds and what the read finds now. -/
def State.finding (s : State) (a : Nat) (c : Cells) : Cells :=
  match mget (fun _ => Cells.asStored) s.err (a / 8), c with
  | .uncorrectable, _ => .uncorrectable
  | _, .uncorrectable => .uncorrectable
  | .correctable, _ => .correctable
  | _, .correctable => .correctable
  | .asStored, .asStored => .asStored

/-- An uncorrectable word is counted, latched, reported and makes a candidate (R428, R431). -/
def State.uncorrectable (s : State) (a : Nat) (p : Place) (inj retire : Bool) : State :=
  let s := s.bump F.MC_UE_CNT.count 1 p.m
  let s := if s.flag F.MC_UE_ADDR_HI.valid p.m then s
    else (s.setRg .MC_UE_ADDR_LO a p.m).setRg .MC_UE_ADDR_HI (a / 2 ^ 32 % 256 + 256) p.m
  let s := s.raise (19 + p.m) (p.rank + 4 * p.sub) inj
  if retire && ! inj && s.flag F.MC_SYS_ECC.auto_retire then s.candidate p.m p.rank else s

/-- The word at `a` as its cells hold it: poisoned by its poison byte, or free in content and poison while it is undefined
(R427, R495, log 41). -/
def State.storedWord (s : State) (a : Nat) : RWord × State :=
  if (s.wroteAt a).undef then
    let d := s.draw 65
    (if d.1.getLsbD 64 then ⟨0, true⟩ else ⟨d.1.setWidth 64, false⟩, d.2)
  else if s.poisoned a then (⟨0, true⟩, s)
  else (⟨s.rawWord a, false⟩, s)

/-- Reads the word at `a` (R410, R428, R429, R412, R495). `c` is what the cells hold by the time of the read. -/
def State.readWord (s : State) (a : Nat) (c : Cells := .asStored) : RWord × State :=
  if ! s.isInit a then (⟨0, false⟩, s)
  else
    let p := s.place a
    if s.deadMc p.m then (⟨0, true⟩, s)
    else
      let s := s.wake p
      let s := match c with
        | .asStored => s
        | _ => s.setErr a (s.finding a c)
      if s.injected (19 + p.m) then (⟨0, true⟩, (s.useInjection).uncorrectable a p true false)
      else
        match s.finding a .asStored with
        | .uncorrectable => (⟨0, true⟩, s.uncorrectable a p false true)
        | .correctable =>
          let s := s.bump F.MC_CE_CNT.count 1 p.m
          (if s.flag F.MC_SYS_ECC.ce_wb then s.setErr a .asStored else s).storedWord a
        | .asStored => s.storedWord a

/-- Reads `n` words from `a` on. -/
def State.readWords (s : State) (a : Nat) : Nat → List RWord × State
  | 0 => ([], s)
  | n + 1 =>
    let r := s.readWord a
    let t := State.readWords r.2 (a + 8) n
    (r.1 :: t.1, t.2)

/-- The words of a line that a partial write leaves: corrected, or poisoned when uncorrectable; the read of a
read-modify-write is the next read of its controller (R430, R488, R542). -/
def State.rmwWord (s : State) (a : Nat) : State :=
  let p := s.place a
  if s.injected (19 + p.m) then ((s.useInjection).uncorrectable a p true false).putWord a 0 true
  else
  match s.finding a .asStored with
  | .uncorrectable => (s.uncorrectable a p false true).putWord a 0 true
  | .correctable =>
    let s := s.bump F.MC_CE_CNT.count 1 p.m
    s.setErr a .asStored
  | .asStored => s

/-- A source writes words from `a` on, each with its poison (R410, R430, R495, R542). A member whose retraining failed discards its
writes (R412). -/
def State.writeEach (s : State) (by_ : Writer) (a : Nat) : List RWord → State
  | [] => s
  | w :: t =>
    let p := s.place a
    let s := if s.deadMc p.m then s
      else
        let s := s.setInit (a / 2 ^ 20)
        ((s.wake p).putWord a w.data w.poison).markWrite by_ a
    State.writeEach s by_ (a + 8) t

/-- Writes words, with the read-modify-write of the lines at both ends (R430). -/
def State.writeWords (s : State) (by_ : Writer) (a : Nat) (ws : List RWord) : State :=
  let e := a + 8 * ws.length
  let before := (List.range (a % 64 / 8)).map (fun k => a - a % 64 + 8 * k)
  let after := (List.range ((64 - e % 64) % 64 / 8)).map (fun k => e + 8 * k)
  let old := (before ++ after).filter (fun x => s.isInit x && ! s.deadMc (s.place x).m)
  (old.foldl State.rmwWord s).writeEach by_ a ws

/-- Little-endian words of bytes (R5). -/
def wordsOfBytes : Nat → List Byte → List RWord
  | 0, _ => []
  | n + 1, l => ⟨BitVec.ofNat 64 (ofLe (l.take 8)), false⟩ :: wordsOfBytes n (l.drop 8)

/-- Bytes of words. -/
def bytesOfWords (l : List RWord) : List Byte := l.flatMap (fun w => leBytes 8 w.data.toNat)

/-- FILL_MEM's stores, word by word: `n` words of the pattern from `a` on (R128). -/
def State.fillWords (s : State) (by_ : Writer) (a : Nat) (v : BitVec 64) : Nat → State
  | 0 => s
  | n + 1 => State.fillWords (s.writeEach by_ a [⟨v, false⟩]) by_ (a + 8) v n

/-- COPY_MEM's copying, word by word: a poisoned word is written poisoned and counted (R429). -/
def State.copyWords (s : State) (by_ : Writer) (src dst : Nat) : Nat → Nat × State
  | 0 => (0, s)
  | n + 1 =>
    let r := s.readWord src
    let t := State.copyWords (r.2.writeEach by_ dst [r.1]) by_ (src + 8) (dst + 8) n
    (t.1 + bit r.1.poison, t.2)

/-- The 64-byte line with index `line` as a 512-bit number, with whether any word is poisoned, and what the cells of its
first word hold by then. -/
def State.readLine (s : State) (line : Nat) : BitVec 512 × Bool × State :=
  let r := s.readWords (line * 64) 8
  (BitVec.ofNat 512 (ofLe (bytesOfWords r.1)), r.1.any (fun w => w.poison), r.2)

/-- The 16-byte sequence-table entry at an address, with whether it is poisoned. -/
def State.readEntry (s : State) (a : Nat) : BitVec 128 × Bool × State :=
  let r := s.readWords a 2
  (BitVec.ofNat 128 (ofLe (bytesOfWords r.1)), r.1.any (fun w => w.poison), r.2)

end Sys2Proof.Machine
end

