-- ==== Sys2Proof/Machine/CalOps.lean ====
section
/-! DEFINITION. Calibration state and the records of the tack store that hold it: elements, what an operation uses, loading
and committing of records (R455–R471). -/

namespace Sys2Proof.Machine

open Sys2Proof

/-! ### Elements (R457, R461) -/

/-- The key of an element: item of R457, channel or unit. -/
def calKey (item idx : Nat) : Nat := item * 128 + idx

/-- The calibration state of an element. -/
def State.calElem (s : State) (item idx : Nat) : CalElem := mget (fun _ => ({} : CalElem)) s.cal (calKey item idx)

/-- Stores the calibration state of an element. -/
def State.setCalElem (s : State) (item idx : Nat) (e : CalElem) : State :=
  s.withCal (mset (fun _ => ({} : CalElem)) s.cal (calKey item idx) e)

/-- Candidates and edge types of an item (R457). -/
def calShape (item : Nat) : Nat × Nat := if item = 0 then (4, 1) else if item = 4 then (2, 1) else (3, 2)

/-- Correction codes of an element of an item: 4,096 for TVC, 625 for the interpolators, none for SYNC (R462). -/
def calCodes (item : Nat) : Nat := if item = 0 then 4096 else if item = 4 then 0 else 625

/-- The residuals of an element as bytes' values, candidate-major, padded to the item's shape (R461). -/
def residList (item : Nat) (r : List (List (BitVec 16))) : List (BitVec 16) :=
  let (c, e) := calShape item
  (List.range c).flatMap (fun k => (List.range e).map (fun j => (((r[k]?).getD [])[j]?).getD 0))

/-- Residuals by candidate from a flat list. -/
def residOf (item : Nat) (l : List (BitVec 16)) : List (List (BitVec 16)) :=
  let (c, e) := calShape item
  (List.range c).map (fun k => (List.range e).map (fun j => (l[k * e + j]?).getD 0))

/-- The largest residual of a candidate; a candidate without a usable measurement has 65,535 (R459). -/
def worst (l : List (BitVec 16)) : Nat := if l.isEmpty then 65535 else l.foldl (fun a x => max a x.toNat) 0

/-- The candidate whose largest residual is smallest, ties to the lower index (R459). -/
def bestCand (r : List (List (BitVec 16))) : Nat :=
  let ws := r.map worst
  let m := ws.foldl min 65535
  (ws.findIdx? (fun w => w == m)).getD 0

/-- Corrections in use differ from the tack store (R471). -/
def State.uncommitted (s : State) : Bool := s.cal.any (fun e => e.2.dirty)

/-! ### What the running operation uses (R458, R466) -/

/-- The kind of the running operation of the engine: 0 none, 1 CAL_RUN, 2 CAL_COMMIT, 3 SELFTEST_RUN (R471). -/
def State.calKind (s : State) : Nat :=
  match s.calOp with
  | none => 0
  | some n =>
    match s.op n with
    | none => 0
    | some o =>
      match o.kind with
      | .calRun _ _ _ => 1
      | .calCommit _ => 2
      | .selftest _ _ => 3
      | _ => 0

/-- The engine runs an operation. -/
def State.calBusy (s : State) : Bool := s.calOp.isSome

/-- The channels of a calibration target: a stall's, or those of idle octets (R463). -/
def State.targetChans (s : State) (t : BitVec 8) : List Nat :=
  if t.toNat < 16 then s.chansOf t.toNat
  else (List.range 128).filter (fun c => (s.stallOfChan c).isNone)

/-- The channels that the running operation uses. A run of TVC or SYNC alone uses none; a commit writes records only. -/
def State.calChans (s : State) : List Nat :=
  match s.calOp.bind s.op with
  | none => []
  | some o =>
    match o.kind with
    | .calRun _ items chans => if bitsOf items.toNat 3 1 = 0 then [] else chans
    | .selftest t tests => if bitsOf tests.toNat 4 0 = 8 then [] else s.targetChans t
    | _ => []

/-- The bay of a channel and of a unit (R13). -/
def bayOfChan (c : Nat) : Nat := c / 32

/-- The bays of a list of channels. -/
def baysOf (chans : List Nat) : List Nat := (chans.map bayOfChan).eraseDups

/-- The units of a list of bays. -/
def unitsOf (bays : List Nat) : List Nat := (List.range 16).filter (fun u => bays.contains (u / 4))

/-- A unit is assigned to an armed or running stall, or serves the SYNC measurement (R465). -/
def State.unitTaken (s : State) (u : Nat) : Bool :=
  (s.flag F.TIM_ASSIGN.assigned u && s.busyStall (s.fl F.TIM_ASSIGN.stall u)) || (u == 0 && s.flag F.TB_SYNC_CTL.meas_en)

/-- The bays whose four octets all belong to a stall, or are all idle for the device target (R468). -/
def State.logicBays (s : State) (t : BitVec 8) : List Nat :=
  (List.range 4).filter (fun b => (List.range 4).all (fun k =>
    if t.toNat < 16 then tbit (s.fl F.DEV_PART.octets t.toNat) (4 * b + k) else (s.stallOfOct (4 * b + k)).isNone))

/-- The units that the running operation uses (R458, R468). -/
def State.calUnits (s : State) : List Nat :=
  match s.calOp.bind s.op with
  | none => []
  | some o =>
    match o.kind with
    | .calRun _ items chans =>
      if bitsOf items.toNat 3 0 = 0 then [] else (unitsOf (baysOf chans)).filter (fun u => ! s.unitTaken u)
    | .selftest t tests => if tbit tests.toNat 2 then unitsOf (s.logicBays t) else []
    | _ => []

/-- The running operation includes item SYNC (R466). -/
def State.calSync (s : State) : Bool :=
  match s.calOp.bind s.op with
  | some o => match o.kind with
    | .calRun _ items _ => tbit items.toNat 4
    | _ => false
  | none => false

/-- Some channel of a stall is in use by the running operation. -/
def State.calUsesStall (s : State) (st : Nat) : Bool := s.calChans.any (fun c => tbit (s.fl F.DEV_PART.octets st) (c / 8))

/-! ### Records (R462–R464) -/

/-- The offset of a copy of a channel's record. -/
def chanRec (ch k : Nat) : Nat := 0x400000 + (2 * ch + k) * 0xa000

/-- The offset of a copy of the device record. -/
def devRec (k : Nat) : Nat := 0xe00000 + k * 0x40000

/-- A number of `n` little-endian bytes of the tack store. -/
def State.tackLe (s : State) (a n : Nat) : Nat := ofLe (s.tackBytes a n)

/-- A record copy is valid: format and CRC match (R464). -/
def State.recValid (s : State) (a len : Nat) : Bool :=
  s.tackLe (a + 8) 2 == 1 && s.tackLe (a + 4) 4 == (crc32 (s.tackBytes (a + 8) (len - 8))).toNat

/-- The valid copy of a pair with the higher generation (R464). -/
def State.bestRec (s : State) (a b len : Nat) : Option Nat :=
  match s.recValid a len, s.recValid b len with
  | true, true => if s.tackLe a 4 < s.tackLe b 4 then some b else some a
  | true, false => some a
  | false, true => some b
  | false, false => none

/-- Where the next record of a pair goes, and its generation (R463). -/
def State.nextRec (s : State) (a b len : Nat) : Nat × Nat :=
  match s.bestRec a b len with
  | none => (a, 1)
  | some x => (if x = a then b else a, s.tackLe x 4 + 1)

/-- Reads one element from a record at `a`: selected, state, codes and residuals. The record holds neither the time nor
the temperature of the measurement, so those are free values (log 3). -/
def State.loadElem (s : State) (a item idx : Nat) : State :=
  let n := calCodes item
  let (c, e) := calShape item
  let st := s.tackLe (a + 1) 1
  let h (o : Nat) : BitVec 16 := BitVec.ofNat 16 (s.tackLe o 2)
  let codes := (List.range n).map (fun i => h (a + 4 + 2 * i))
  let resid := (List.range (c * e)).map (fun i => h (a + 4 + 2 * n + 2 * i))
  let d := s.draw 64
  let t := d.2.draw 8
  t.2.setCalElem item idx ⟨if st = 1 then 2 else st % 4, s.tackLe a 1, d.1.toNat, t.1, residOf item resid, codes, false⟩

/-- Draws `n` free 16-bit values (log 3). -/
def State.drawCodes (s : State) : Nat → List (BitVec 16) × State
  | 0 => ([], s)
  | n + 1 =>
    let d := s.draw 16
    let r := State.drawCodes d.2 n
    (d.1 :: r.1, r.2)

/-- An element takes the factory default: state 0; its candidate, time, temperature and residuals are free values (R464,
log 3). -/
def State.factory (s : State) (item idx : Nat) : State :=
  let (c, e) := calShape item
  let a := s.draw 8
  let b := a.2.draw 64
  let t := b.2.draw 8
  let r := t.2.drawCodes (c * e)
  r.2.setCalElem item idx ⟨0, a.1.toNat % c, b.1.toNat, t.1, residOf item r.1, [], false⟩

/-- Every waveform-table word of a channel takes the reset value (R221). -/
def State.clearWft (s : State) (ch : Nat) : State :=
  s.clearRegs (R.addr .WFT_WORD ch 0) (R.addr .WFT_WORD (ch + 1) 0)

/-- The waveform table of a channel is loaded from its valid record, else reset (R464, R468); for an armed or running
stall's channel it is a write under R249. -/
def State.loadWft (s : State) (ch : Nat) : State :=
  let s := if (s.stallOfChan ch).any s.busyStall then s.setChan ch { s.chan ch with dirtyUntil := s.nowU + 4000000 } else s
  let t := s.clearWft ch
  match s.bestRec (chanRec ch 0) (chanRec ch 1) 0xa000 with
  | none => t
  | some a => (List.range 8192).foldl (fun t j => t.setRg .WFT_WORD (s.tackLe (a + 0x1000 + 4 * j) 4) ch j) t

/-- A channel's waveform table, deskews and trained codes are loaded from its valid record, else reset (R221, R464); the
live codes of a channel that does not run follow (R269). -/
def State.loadSettings (s : State) (ch : Nat) : State :=
  let s := s.loadWft ch
  let s := match s.bestRec (chanRec ch 0) (chanRec ch 1) 0xa000 with
    | none =>
      let s := (s.setRg .CHN_DRV_SKEW 0 ch).setRg .CHN_CMP_SKEW 0 ch
      (s.setFl F.CHN_EQ_CTL.trained_h 0 ch).setFl F.CHN_EQ_CTL.trained_l 0 ch
    | some a =>
      let s := (s.setFl F.CHN_DRV_SKEW.skew (s.tackLe (a + 0x9000) 2) ch).setFl F.CHN_CMP_SKEW.skew (s.tackLe (a + 0x9002) 2) ch
      (s.setFl F.CHN_EQ_CTL.trained_h (s.tackLe (a + 0x9004) 1) ch).setFl F.CHN_EQ_CTL.trained_l
        (s.tackLe (a + 0x9005) 1) ch
  if (s.stallOfChan ch).any (fun st => s.stState st == stRunning) then s
  else
    (s.setFl F.CHN_EQ_STAT.code_h (s.fl F.CHN_EQ_CTL.trained_h ch) ch).setFl F.CHN_EQ_STAT.code_l
      (s.fl F.CHN_EQ_CTL.trained_l ch) ch

/-- A channel's settings and calibration are loaded from its valid record, else reset (R464). -/
def State.loadChan (s : State) (ch : Nat) : State :=
  let s := s.loadSettings ch
  match s.bestRec (chanRec ch 0) (chanRec ch 1) 0xa000 with
  | none => ((s.factory 1 ch).factory 2 ch).factory 3 ch
  | some a => ((s.loadElem (a + 0x40) 1 ch).loadElem (a + 0x40 + 1266) 2 ch).loadElem (a + 0x40 + 2532) 3 ch

/-- The device's calibration is loaded from its valid record, else reset (R464). -/
def State.loadDev (s : State) : State :=
  match s.bestRec (devRec 0) (devRec 1) 0x40000 with
  | none => ((List.range 16).foldl (fun s u => s.factory 0 u) s).factory 4 0
  | some a => ((List.range 16).foldl (fun s u => s.loadElem (a + 0x40 + 8204 * u) 0 u) s).loadElem (a + 0x40 + 131264) 4 0

/-- Every record is loaded: step 7b of a start, and a block reset of CAL (R464). -/
def State.loadRecords (s : State) : State :=
  ((List.range 128).foldl (fun s c => s.loadChan c) (s.checkTack (chanRec 0 0))).loadDev

/-- An element as a record holds it; the codes of the factory default are free values (log 3). The element counts as
committed (R461). -/
def State.commitElem (s : State) (item idx : Nat) : List Byte × State :=
  let e := s.calElem item idx
  let d := if e.codes.length = calCodes item then (e.codes, s) else s.drawCodes (calCodes item)
  let st := if e.state = 1 then 2 else e.state
  let e' := { e with state := st, codes := if st = 2 then d.1 else e.codes, dirty := false }
  (leBytes 1 e.sel ++ leBytes 1 st ++ [0, 0] ++ d.1.flatMap (fun x => leBytes 2 x.toNat)
    ++ (residList item e.resid).flatMap (fun x => leBytes 2 x.toNat),
   d.2.setCalElem item idx e')

/-- Writes a record into its place: generation, CRC, format, index and content from offset 0x40 on (R462, R463). -/
def State.putRec (s : State) (a b len idx : Nat) (content : List Byte) : State :=
  let p := s.nextRec a b len
  let body := padTo (len - 8) (leBytes 2 1 ++ leBytes 1 idx ++ List.replicate 53 0 ++ content)
  s.setTack p.1 (leBytes 4 p.2 ++ leBytes 4 (crc32 body).toNat ++ body)

/-- Commits a channel's record (R463). -/
def State.commitChan (s : State) (ch : Nat) : State :=
  let x := s.commitElem 1 ch
  let y := x.2.commitElem 2 ch
  let z := y.2.commitElem 3 ch
  let s := z.2
  let cal := padTo (0x1000 - 0x40) (x.1 ++ y.1 ++ z.1)
  let wft := (List.range 8192).flatMap (fun j => leBytes 4 (s.rg .WFT_WORD ch j))
  s.putRec (chanRec ch 0) (chanRec ch 1) 0xa000 ch
    (cal ++ wft ++ leBytes 2 (s.fl F.CHN_DRV_SKEW.skew ch) ++ leBytes 2 (s.fl F.CHN_CMP_SKEW.skew ch)
      ++ leBytes 1 (s.fl F.CHN_EQ_CTL.trained_h ch) ++ leBytes 1 (s.fl F.CHN_EQ_CTL.trained_l ch))

/-- Commits elements one after another. -/
def State.commitElems (s : State) : List (Nat × Nat) → List Byte × State
  | [] => ([], s)
  | (i, k) :: t =>
    let x := s.commitElem i k
    let r := State.commitElems x.2 t
    (x.1 ++ r.1, r.2)

/-- Commits the device record (R463). -/
def State.commitDev (s : State) : State :=
  let r := s.commitElems ((List.range 16).map (fun u => (0, u)) ++ [(4, 0)])
  r.2.putRec (devRec 0) (devRec 1) 0x40000 0xff r.1

/-! ### The loopback of an operation (R456) -/

/-- A calibration run on interpolators or a LOOP_PATTERN test takes the drive off the channel at the balls (R456). -/
def State.looped (s : State) (ch : Nat) : Bool :=
  match s.calOp.bind s.op with
  | none => false
  | some o =>
    match o.kind with
    | .calRun _ items chans => ! (bitsOf items.toNat 3 1 == 0) && chans.contains ch
    | .selftest t tests => tbit tests.toNat 4 && (s.targetChans t).contains ch
    | _ => false

end Sys2Proof.Machine
end

