-- ==== Sys2Proof/Machine/Code8b10b.lean ====
section
/-! DEFINITION. The 8b/10b code of IEEE 802.3 Clause 36 that the framers use (R276–R280): the 5b/6b and 3b/4b tables, the
12 K-characters, and the running-disparity rules. The tables are not in the spec, which names the standard (log 8). A
group is a number whose bit 0 is bit a and whose bit 9 is bit j (R282). -/

namespace Sys2Proof.Machine

/-- The 6-bit sub-blocks abcdei of D.0 to D.31 under negative disparity, bit a the most significant (log 8). -/
def sixTable : List Nat :=
  [0b100111, 0b011101, 0b101101, 0b110001, 0b110101, 0b101001, 0b011001, 0b111000] ++
  [0b111001, 0b100101, 0b010101, 0b110100, 0b001101, 0b101100, 0b011100, 0b010111] ++
  [0b011011, 0b100011, 0b010011, 0b110010, 0b001011, 0b101010, 0b011010, 0b111010] ++
  [0b110011, 0b100110, 0b010110, 0b110110, 0b001110, 0b101110, 0b011110, 0b101011]

/-- The 4-bit sub-blocks fghj of D.x.0 to D.x.7 (the primary D.x.P7) under negative disparity, bit f first (log 8). -/
def fourTable : List Nat := [0b1011, 0b1001, 0b0101, 0b1100, 0b1101, 0b1010, 0b0110, 0b1110]

/-- The number of ones among the low `w` bits. -/
def ones (w x : Nat) : Nat := ((List.range w).filter (fun k => tbit x k)).length

/-- The bits of a `w`-bit number in the other order. -/
def mirror (w x : Nat) : Nat := (List.range w).foldl (fun a k => 2 * a + bit (tbit x k)) 0

/-- A sub-block under the given disparity: the complement under positive disparity when it is unbalanced or one of the
two balanced blocks that alternate (Clause 36). -/
def subBlock (w x : Nat) (pos alt : Bool) : Nat :=
  if pos && (ones w x * 2 != w || alt) then 2 ^ w - 1 - x else x

/-- The running disparity after a sub-block, from the sub-block itself (Clause 36, R280). -/
def disparityAfter (w x : Nat) (pos : Bool) : Bool :=
  if w < ones w x * 2 then true
  else if ones w x * 2 < w then false
  else if (w = 6 ∧ x = 0b000111) ∨ (w = 4 ∧ x = 0b0011) then true
  else if (w = 6 ∧ x = 0b111000) ∨ (w = 4 ∧ x = 0b1100) then false
  else pos

/-- The bytes of the 12 K-characters: K28.0–K28.7, K23.7, K27.7, K29.7, K30.7 (R274). -/
def kBytes : List Nat := [0x1c, 0x3c, 0x5c, 0x7c, 0x9c, 0xbc, 0xdc, 0xfc, 0xf7, 0xfb, 0xfd, 0xfe]

/-- The 3b/4b sub-block of a K-character under negative disparity at the start of the group. -/
def kFour (y : Nat) : Nat := ([0b0100, 0b1001, 0b0101, 0b0011, 0b0010, 0b1010, 0b0110, 0b1000][y]?).getD 0

/-- Encodes a byte, as a K-character when `k`, under the running disparity `pos` (true: positive). -/
def encode8b10b (byte : Nat) (k pos : Bool) : Nat :=
  let x := byte % 32
  let y := byte / 32
  let six :=
    if k then (if x = 28 then subBlock 6 0b001111 pos true else subBlock 6 ((sixTable[x]?).getD 0) pos true)
    else subBlock 6 ((sixTable[x]?).getD 0) pos (decide (x = 7))
  let mid := disparityAfter 6 six pos
  let four :=
    if k then (if pos then 15 - kFour y else kFour y)
    else if y = 7 then
      if (! mid && (x = 17 || x = 18 || x = 20)) || (mid && (x = 11 || x = 13 || x = 14)) then
        subBlock 4 0b0111 mid true
      else subBlock 4 0b1110 mid true
    else subBlock 4 ((fourTable[y]?).getD 0) mid (decide (y = 3))
  mirror 10 (six * 16 + four)

/-- The running disparity after a received group (R280). -/
def groupDisparity (g : Nat) (pos : Bool) : Bool :=
  let m := mirror 10 g
  disparityAfter 4 (m % 16) (disparityAfter 6 (m / 16) pos)

/-- The character that a group stands for under a running disparity: byte, plus 256 for a K-character. -/
def decode8b10b (g : Nat) (pos : Bool) : Option Nat :=
  match kBytes.find? (fun b => encode8b10b b true pos == g) with
  | some b => some (b + 256)
  | none => (List.range 256).find? (fun b => encode8b10b b false pos == g)

/-- Whether a group is valid under some disparity. -/
def validGroup (g : Nat) : Bool := (decode8b10b g false).isSome || (decode8b10b g true).isSome

/-- Whether a group is the K-character with the given byte under some disparity. -/
def isK (g byte : Nat) : Bool := g == encode8b10b byte true false || g == encode8b10b byte true true

theorem encode_k28_5_negative : encode8b10b 0xbc true false = mirror 10 0b0011111010 := by decide

theorem encode_k28_5_positive : encode8b10b 0xbc true true = mirror 10 0b1100000101 := by decide

end Sys2Proof.Machine
end

