-- ==== Sys2Proof/Machine/Queue.lean ====
section
/-! DEFINITION. The queue manager and the stream engine: room, pushing and popping of packets, notices, spill, parity,
and the frames of streams (R133–R137, R309, R355–R378). -/

namespace Sys2Proof.Machine

open Sys2Proof

/-! ### Descriptors and room -/

/-- Words not yet popped (R364). -/
def QState.depth (q : QState) : Nat := q.words.length + q.spillEnds.length

/-- The size of a queue in words (R360). -/
def State.qSize (s : State) (q : Nat) : Nat := 2 ^ s.fl F.QM_CFG.size q

/-- The on-chip part of a queue in words (R360). -/
def State.qOnchip (s : State) (q : Nat) : Nat := 2 ^ s.fl F.QM_CFG.onchip q

/-- The free words of a queue: 2^z − depth − retained (R365). -/
def State.qFree (s : State) (q : Nat) : Nat := s.qSize q - (s.queue q).depth - (s.queue q).retained

/-- The free words within the on-chip part (R300). -/
def State.qFreeChip (s : State) (q : Nat) : Nat := s.qOnchip q - (s.queue q).depth - (s.queue q).retained

/-- The stall that a tailrace queue serves (R359). -/
def tailStall (q : Nat) : Option Nat := if 512 ≤ q ∧ q < 1024 then some ((q - 512) / 32) else none

/-- A kept route of a stall names queue `q` (R294). -/
def State.routed (s : State) (st q : Nat) : Bool :=
  (List.range 8).any
    (fun t => ! (t == 3) && ! (t == 6) && s.flag F.ACQ_ROUTE.keep st t && s.fl F.ACQ_ROUTE.queue st t == q)

/-- ACQ_OVERRUN for queue `q` (R300): raised once for each reserved running stall with a kept route to it when the free
on-chip words fall below 8,192, and again only after they have risen to 8,192. -/
def State.judgeLow (s : State) (q : Nat) : State :=
  let low := decide (s.qFreeChip q < 8192)
  let x := s.queue q
  if low == x.low then s
  else
    let s := s.setQueue q { x with low := low }
    if low then
      (List.range 16).foldl
        (fun s st =>
          if s.stState st == stRunning && s.flag F.ACQ_CTL.reserved_run st && s.routed st q then
            (s.setFlag F.ACQ_CTL.overrun true st).raise (80 + st) st
          else s) s
    else s

/-- The watches on queue `q` follow its depth (R402). -/
def State.watchDepth (s : State) (q : Nat) : State :=
  (List.range 16).foldl
    (fun s k =>
      if s.flag F.YRD_QWATCH_SEL.en k && s.fl F.YRD_QWATCH_SEL.queue k == q
          && decide (s.fl F.YRD_QWATCH_MAX.max k < (s.queue q).depth) then
        s.setFl F.YRD_QWATCH_MAX.max (s.queue q).depth k
      else s) s

/-- A watch starts again from the depth that stands (R402). -/
def State.rewatch (s : State) (k : Nat) : State :=
  if s.flag F.YRD_QWATCH_SEL.en k then s.watchDepth (s.fl F.YRD_QWATCH_SEL.queue k) else s

/-! ### Notices to the Yard (R370, R385, R386) -/

/-- A little-endian field of `n` bytes at offset `o` of an image. -/
def leAt (l : List Byte) (o n : Nat) : Nat := ofLe ((l.drop o).take n)

/-- The loaded template whose trigger queue is `q`. -/
def State.trigTemplate (s : State) (q : Nat) : Option (Nat × List Byte) :=
  s.tmpl.find? (fun e => decide (leAt e.2 8 2 = q))

/-- One notice of queue `q` to the Yard scheduler: the template's pending count rises, and each time it reaches batch an
instance falls due (R385, R386). -/
def State.notice (s : State) (q : Nat) : State :=
  match s.trigTemplate q with
  | none => s
  | some (slot, img) =>
    let n := mget (fun _ => 0) s.trigPend slot + 1
    if n ≥ leAt img 10 2 then
      (s.withTrigPend (mset (fun _ => 0) s.trigPend slot (n - leAt img 10 2))).withDue (s.due ++ [slot])
    else s.withTrigPend (mset (fun _ => 0) s.trigPend slot n)

/-! ### Writes that disturb loaded tables and spill regions (R150, R495–R497) -/

/-- The number of entries of a stall's loaded table. -/
def State.tableLen (s : State) (st : Nat) : Nat := s.fl F.STL_SEQ_COUNT.entries st

/-- The DRAM address of a stall's loaded table. -/
def State.tableAddr (s : State) (st : Nat) : Nat := s.rg64 .STL_SEQ_TABLE_LO .STL_SEQ_TABLE_HI st

/-- Two byte ranges meet. -/
def rangesMeet (a n b m : Nat) : Bool := decide (a < b + m) && decide (b < a + n)

/-- A byte range was written: the loaded table of an armed or running stall that it meets becomes undefined (R150). -/
def State.noteTables (s : State) (a n : Nat) : State :=
  (List.range 16).foldl
    (fun s st => if s.busyStall st && rangesMeet a n (s.tableAddr st) (16 * s.tableLen st) then
        let x := s.stall st
        s.setStall st { x with tableDirty := true }
      else s) s

/-- The enabled queues with a spill region, found among the written descriptors. -/
def State.spillQueues (s : State) : List Nat :=
  s.regs.filterMap (fun e => match regAt e.1 with
    | some (.QM_CFG, i, _) => if tbit e.2.toNat 0 && tbit e.2.toNat 11 then some i else none
    | _ => none)

/-- A byte range was written by a source other than the queue manager: loaded tables that it meets become undefined, and so do
the words of an enabled queue's spill region (R150, R496). -/
def State.noteWrite (s : State) (a n : Nat) : State :=
  let s := s.noteTables a n
  s.spillQueues.foldl
    (fun s q => if rangesMeet a n (s.fl F.QM_SPILL.base q * 4096) ((s.qSize q - s.qOnchip q) * 16) then
        s.setQueue q { s.queue q with spillBad := true }
      else s) s

/-! ### Spill (R362, R375, R376) -/

/-- The address of position `k` of a queue's spill region. -/
def State.spillAddr (s : State) (q k : Nat) : Nat :=
  s.fl F.QM_SPILL.base q * 4096 + k % (s.qSize q - s.qOnchip q) * 16

/-- The 16 bytes of a word in the spill region: data, then end mark, poison tag and parity bit (R372, R375). -/
def spillBytes (w : QWord) : List Byte :=
  let ones := ((List.range 64).filter (fun k => w.data.getLsbD k)).length + bit w.last + bit w.poison
  leBytes 8 w.data.toNat ++ [BitVec.ofNat 8 (bit w.last + 2 * bit w.poison + 4 * (ones % 2)), 0, 0, 0, 0, 0, 0, 0]

/-- The bytes that a stall's 64 KiB DRAM write buffer holds (R301). -/
def State.wbufBytes (s : State) (st : Nat) : Nat :=
  (mget (fun _ => []) s.wbuf st).foldl (fun a e => a + e.bytes.length) 0

/-- The write buffer of a stall is in panic (R416). -/
def State.bufInPanic (s : State) (st : Nat) : Bool := mget (fun _ => false) s.bufPanic st

/-- Some source is in panic: a leat or a tailrace writer (R204, R416). -/
def State.anyPanic (s : State) : Bool := (List.range 16).any (fun st => (s.stall st).panic || s.bufInPanic st)

/-- The refresh debt of every rank is paid, when no panic defers it (R421). -/
def State.payDebts (s : State) : State :=
  if s.anyPanic then s
  else s.dram.set.foldl (fun s m => s.setRg .MC_TEMP (s.rg .MC_TEMP m &&& 0xe3e3e3e3) m) s

/-- A tailrace writer is in panic from above 48 KiB in its buffer to below 32 KiB (R416). -/
def State.judgeBuf (s : State) (st : Nat) : State :=
  if s.bufInPanic st then
    if s.wbufBytes st < 32768 then (s.withBufPanic (mset (fun _ => false) s.bufPanic st false)).payDebts else s
  else if 49152 < s.wbufBytes st then s.withBufPanic (mset (fun _ => false) s.bufPanic st true)
  else s

/-- Puts a ring or a spill write into a stall's DRAM write buffer. -/
def State.wbufPut (s : State) (st a : Nat) (b : List Byte) (ring : Bool) : State :=
  (s.withWbuf (mset (fun _ => []) s.wbuf st (mget (fun _ => []) s.wbuf st ++ [⟨a, b, s.now, ring⟩]))).judgeBuf st

/-- The oldest write of a stall's buffer reaches DRAM; a ring write can meet loaded tables and spill regions, a spill write
loaded tables only (R417, R495, R496). -/
def State.wbufDrain (s : State) (st : Nat) : State :=
  match mget (fun _ => []) s.wbuf st with
  | [] => s
  | e :: t =>
    let n := e.bytes.length
    let s := (s.withWbuf (mset (fun _ => []) s.wbuf st t)).writeWords (tailWriter st e.at_) e.addr (wordsOfBytes (n / 8) e.bytes)
    (if e.ring then s.noteWrite e.addr n else s.noteTables e.addr n).judgeBuf st

/-- Every write of a stall's buffer reaches DRAM, oldest first. -/
def State.wbufFlush (s : State) (st : Nat) : State :=
  (mget (fun _ => []) s.wbuf st).foldl (fun s _ => s.wbufDrain st) s

/-- The oldest spilled word as it is brought back: undefined when another source wrote the region, poisoned when DRAM
delivers it poisoned or its tag is set (R375, R377, R496). -/
def State.spillWord (s : State) (q : Nat) (cells : Cells) (last : Bool) : QWord × State :=
  if (s.queue q).spillBad then
    let d := s.draw 64
    let p := d.2.draw 1
    (⟨d.1, last, p.1 == 1⟩, p.2)
  else
    let a := s.spillAddr q (s.queue q).spillRd
    let w := s.readWord a cells
    let m := w.2.readWord (a + 8)
    (⟨w.1.data, last, w.1.poison || m.1.poison || m.1.data.getLsbD 1⟩, m.2)

/-- The spilled words of a queue are held: a controller of its region is retraining (R412). -/
def State.spillHeld (s : State) (q : Nat) : Bool :=
  ! (s.queue q).spillEnds.isEmpty
    && s.memRetrains (s.fl F.QM_SPILL.base q * 4096) ((s.qSize q - s.qOnchip q) * 16)

/-- The oldest spilled word comes back on-chip when room is free there (R375–R377). -/
def State.readback (s : State) (q : Nat) (cells : Cells) : State :=
  let x := s.queue q
  match x.spillEnds with
  | [] => s
  | last :: t =>
    if s.qOnchip q ≤ x.words.length + x.retained then s
    else
      let s := match tailStall q with
        | some st => s.wbufFlush st
        | none => s
      let r := s.spillWord q cells last
      let y := r.2.queue q
      r.2.setQueue q { y with words := y.words ++ [r.1], spillEnds := t, spillRd := y.spillRd + 1 }

/-- Writes one word to the spill region: through the stall's write buffer for a tailrace queue, else at once (R376). A region
that is full gives its oldest word back first, since on-chip room is free then (R357, R375). -/
def State.spillWrite (s : State) (q : Nat) (w : QWord) : State :=
  let s := if s.qSize q - s.qOnchip q ≤ (s.queue q).spillEnds.length then s.readback q .asStored else s
  let x := s.queue q
  let a := s.spillAddr q (x.spillRd + x.spillEnds.length)
  let s := s.setQueue q { x with spillEnds := x.spillEnds ++ [w.last] }
  match tailStall q with
  | some st => s.wbufPut st a (spillBytes w) false
  | none => (s.writeWords (spillWriter s.now) a (wordsOfBytes 2 (spillBytes w))).noteTables a 16

/-- How many of `n` words of a packet would go to the spill region. -/
def State.spillNeed (s : State) (q n : Nat) : Nat :=
  if (s.queue q).spillEnds.isEmpty then n - min n (s.qFreeChip q) else n

/-- The spill path can take a packet of `n` words (R365, R376). -/
def State.spillRoom (s : State) (q n : Nat) : Bool :=
  match tailStall q with
  | some st => decide (s.wbufBytes st + 16 * s.spillNeed q n ≤ 65536)
  | none => true

/-! ### Pushing (R365–R367, R370) -/

/-- Words of a packet: the last carries the end mark (R355). -/
def packet : List (BitVec 64 × Bool) → List QWord
  | [] => []
  | [(d, p)] => [⟨d, true, p⟩]
  | (d, p) :: t => ⟨d, false, p⟩ :: packet t

/-- One word enters the queue, on-chip or into the spill region. -/
def State.pushWord (s : State) (q : Nat) (w : QWord) : State :=
  let x := s.queue q
  let s := if s.spillNeed q 1 = 0 then s.setQueue q { x with words := x.words ++ [w] } else s.spillWrite q w
  if w.last then
    let y := s.queue q
    let s := s.setQueue q { y with pkts := y.pkts + 1 }
    if s.flag F.QM_CFG.consumer q then s.notice q else s
  else s

/-- The packet-counter limit refuses a packet (R365). -/
def State.pktLimit (s : State) (q : Nat) : Bool := decide (2 ^ 24 - 1 ≤ (s.queue q).pkts)

/-- A packet of `n` words is accepted; `popHere` says that a pop takes a word in the cycle of its first word (R365, R369). -/
def State.pushOk (s : State) (q n : Nat) (popHere : Bool) : Bool :=
  let kept := (tailStall q).isSome && (s.stream q).isSome
  let p := bit (popHere && ! (s.queue q).words.isEmpty && ! kept)
  ! s.inReset .qm && s.flag F.QM_CFG.en q && decide (n ≤ s.qFree q + p) && decide (0 < n) && ! (s.pktLimit q) && s.spillRoom q (n - p)

/-- An accepted packet's words enter the queue. -/
def State.pushAll (s : State) (q : Nat) (ws : List QWord) : State :=
  (((ws.foldl (fun s w => s.pushWord q w) s).watchDepth q).judgeLow q)

/-- A packet is refused (R365); a queue manager in block reset refuses every packet and counts none (R378). -/
def State.refusePush (s : State) (q : Nat) : State :=
  if s.inReset .qm then s else
  let limit := s.flag F.QM_CFG.en q && s.pktLimit q
  let s := s.bump F.QM_REFUSED.count 1 q
  if limit then s.setFlag F.QM_STAT.pkt_limit true q else s

/-- Offers a packet; answers whether it was accepted (R365). -/
def State.push (s : State) (q : Nat) (ws : List QWord) : Bool × State :=
  if s.pushOk q ws.length false then (true, s.pushAll q ws) else (false, s.refusePush q)

/-! ### Popping (R368, R369, R372) -/

/-- Takes the oldest word not yet popped. A failed parity check, real or injected, delivers it poisoned and reports
QUEUE_PARITY. A word popped for an open tailrace stream becomes a retained word. -/
def State.pop (s : State) (q : Nat) (parityBad : Bool := false) : Option QWord × State :=
  let x := s.queue q
  match x.words with
  | [] => (none, if x.spillEnds.isEmpty then s else s.setFlag F.QM_STAT.spill_wait true q)
  | w :: t =>
    let keep := (tailStall q).isSome && (s.stream q).isSome
    let s := s.setQueue q { x with words := t, pkts := x.pkts - bit w.last, retained := x.retained + bit keep }
    let s := s.judgeLow q
    let inj := s.injected 31
    if parityBad || inj then
      let s := if inj then s.useInjection else s
      (some { w with poison := true }, (s.setFlag F.QM_STAT.parity_err true q).raise 31 q inj (tailStall q))
    else (some w, s)

/-- Pops words while there are some, at most `n`. -/
def State.popN (s : State) (q : Nat) : Nat → List QWord × State
  | 0 => ([], s)
  | n + 1 =>
    match s.pop q with
    | (none, s) => ([], s)
    | (some w, s) => let r := State.popN s q n; (w :: r.1, r.2)

/-- Discards every word not yet popped (R364). -/
def State.flushQ (s : State) (q : Nat) : State :=
  let x := s.queue q
  let s := s.bump F.QM_FLUSHED.count x.depth q
  (s.setQueue q { x with words := [], spillEnds := [], spillRd := 0, pkts := 0, spillBad := false }).judgeLow q

/-! ### Streams -/

/-- The words of one chunk are all clean or all poisoned, at most 1,122, and only the last ends a packet (R133, R134).
Groups words into chunks. -/
def chunks : List QWord → List (List QWord)
  | [] => []
  | w :: t =>
    match chunks t with
    | [] => [[w]]
    | c :: cs =>
      let sameKind := match c with
        | [] => true
        | v :: _ => v.poison == w.poison
      if w.last || ! sameKind || decide (1122 ≤ c.length) then [w] :: c :: cs else (w :: c) :: cs

/-- The bytes of one chunk: header and words, little-endian (R133). -/
def chunkBytes (c : List QWord) : List Byte :=
  let e := c.any (fun w => w.last)
  let p := c.any (fun w => w.poison)
  leBytes 4 (c.length + bit e * 2 ^ 16 + bit p * 2 ^ 17) ++ c.flatMap (fun w => leBytes 8 w.data.toNat)

/-- The payload of a frame that holds `ws`. -/
def framePayload (ws : List QWord) : List Byte := (chunks ws).flatMap chunkBytes

/-- The payload length of a frame that holds `ws`. -/
def payloadLen (ws : List QWord) : Nat := ((chunks ws).map (fun c => 4 + 8 * c.length)).foldl (· + ·) 0

/-- A new frame may be sent: next < limit, modulo 2^32 (R135). -/
def Stream.maySend (t : Stream) : Bool := decide (0 < (t.limit - t.next).toNat) && decide ((t.limit - t.next).toNat ≤ 4096)

/-- The words that enter a frame with the head word: the whole of a packet of two words that begins there, since both words
of a record travel in one chunk (R295); else the head word alone. -/
def withHead (buf words : List QWord) : List QWord :=
  match words with
  | w :: v :: _ =>
    if ! w.last && v.last && v.poison == w.poison && (buf.getLast?.map (fun x => x.last)).getD true then [w, v] else [w]
  | l => l

/-- The head word begins a packet of two words whose second is not yet back on-chip: the stream engine waits for it, so that
both travel in one chunk (R295, R375). -/
def QState.headWaits (x : QState) (buf : List QWord) : Bool :=
  match x.words with
  | [w] => ! w.last && x.spillEnds.head? == some true && (buf.getLast?.map (fun y => y.last)).getD true
  | _ => false

/-- The head word of a queue fits the frame of its stream; an injected parity failure counts as poison. -/
def State.headFits (s : State) (q : Nat) (parityBad : Bool) : Bool :=
  match s.stream q, (s.queue q).words with
  | some t, w :: l =>
    decide (payloadLen (t.buf ++ withHead t.buf ({ w with poison := w.poison || parityBad || s.injected 31 } :: l))
      ≤ t.maxPayload)
  | _, _ => false

/-- The stream engine pops one word into the frame that it may send (R134, R369). -/
def State.popStream (s : State) (q : Nat) (parityBad : Bool) : State :=
  match s.stream q with
  | none => s
  | some t =>
    if ! t.maySend then s
    else if (s.queue q).words.isEmpty then (s.pop q parityBad).2
    else if (s.queue q).headWaits t.buf || ! s.headFits q parityBad then s
    else
      match s.pop q parityBad with
      | (some v, s) =>
        s.setStream q (some { t with buf := t.buf ++ [v], firstAt := if t.buf.isEmpty then s.now else t.firstAt })
      | (none, s) => s

/-- Pops words into the frame while they fit; at most `n`. -/
def State.fillFrame (s : State) (q : Nat) : Nat → State
  | 0 => s
  | n + 1 => if s.headFits q false && ! (s.queue q).headWaits (((s.stream q).map (fun t => t.buf)).getD [])
    then State.fillFrame (s.popStream q false) q n else s

/-- Sends one STREAM frame of a stream (R133, R137). -/
def State.sendStream (s : State) (q : Nat) (t : Stream) (retry : Bool) (seq : BitVec 32) (payload : List Byte) : State :=
  match s.session t.slot with
  | none => s
  | some x =>
    s.sendDcp x.bind ⟨.stream, retry, s.handle (some t.slot), seq, t.target, BitVec.ofNat 16 q, 0, payload⟩

/-- Sends the frame in hand with the next sequence number; a tailrace stream keeps it for REWIND (R137, R309). -/
def State.sendFrame (s : State) (q : Nat) : State :=
  match s.stream q with
  | none => s
  | some t =>
    if t.buf.isEmpty then s
    else
      let pay := framePayload t.buf
      let fr := if (tailStall q).isSome then t.frames ++ [⟨t.next, pay, t.buf.length⟩] else []
      (s.setStream q (some { t with next := t.next + 1, buf := [], frames := fr })).sendStream q t false t.next pay

/-- Frees the retained words of the frames below `f` and raises the floor to it (R309). -/
def State.raiseFloor (s : State) (q : Nat) (f : BitVec 32) : State :=
  match s.stream q with
  | none => s
  | some t =>
    let d := (f - t.floor).toNat
    let gone := t.frames.filter (fun x => decide ((x.seq - t.floor).toNat < d))
    let kept := t.frames.filter (fun x => ! decide ((x.seq - t.floor).toNat < d))
    let n := gone.foldl (fun a x => a + x.nwords) 0
    let rs := match t.resend with
      | some r => if (r - t.floor).toNat < d then some f else some r
      | none => none
    let x := s.queue q
    ((s.setStream q (some { t with floor := f, frames := kept, resend := rs })).setQueue q
      { x with retained := x.retained - n }).judgeLow q

/-- Reclaims the oldest retained frames until `need` words are free; at most `n` frames (R309). -/
def State.reclaim (s : State) (q need : Nat) : Nat → State
  | 0 => s
  | n + 1 =>
    if need ≤ s.qFree q then s
    else
      match s.stream q with
      | some t => if t.frames.isEmpty then s else State.reclaim (s.raiseFloor q (t.floor + 1)) q need n
      | none => s

/-- Completes the record whose first word ends the frame in hand, so that both travel in one chunk (R295). -/
def State.wholeRecord (s : State) (q : Nat) : State :=
  match s.stream q, (s.queue q).words with
  | some t, v :: _ => if (t.buf.getLast?.map (fun x => ! x.last)).getD false && v.last then s.popStream q false else s
  | _, _ => s

/-- Closes the stream of a queue: a frame that holds popped words is sent first, and the retained words are freed
(R137, R295, R368). -/
def State.closeStream (s : State) (q : Nat) : State :=
  let s := (s.wholeRecord q).sendFrame q
  let x := s.queue q
  ((s.setStream q none).setQueue q { x with retained := 0 }).judgeLow q

/-- The queues whose stream a session opened. -/
def State.streamsOf (s : State) (slot : Nat) : List Nat :=
  (s.streams.filter (fun e => match e.2 with
    | some t => t.slot == slot
    | none => false)).map (fun e => e.1)

/-- Closes every stream of a session. -/
def State.closeStreams (s : State) (slot : Nat) : State :=
  (s.streamsOf slot).foldl (fun s q => s.closeStream q) s

/-- A QM reset: descriptors at their reset values, every word lost, the streams of Q64–Q32767 closed without a frame
(R378). -/
def State.resetQueues (s : State) : State :=
  ((s.clearRegs 0x1000000 0x1100000).withQueues []).withStreams (s.streams.filter (fun e => decide (e.1 < 64)))

end Sys2Proof.Machine
end

