-- ==== Sys2Proof/Machine/Acq.lean ====
section
/-! DEFINITION. Acquisition: network time, records, shapers, source buffers, destinations, loss and GAP pairs, TIME pairs,
triggers and windows (R288–R317, R441, R541). -/

namespace Sys2Proof.Machine

open Sys2Proof

/-! ### Network time (R441) -/

/-- Rounds a / b to nearest, ties to even (b > 0). -/
def roundDiv (a : Int) (b : Nat) : Int :=
  let q := a / (b : Int)
  let r := a - q * b
  if 2 * r > b then q + 1
  else if 2 * r = b then (if q % 2 = 0 then q else q + 1)
  else q

/-- NT(c) in 2^−16 ns with offset `o` and rate `r` (R441). -/
def ntOf (o : Nat) (r : Int) (c : Nat) : Int :=
  (o : Int) + (c : Int) * 40960 + roundDiv ((c : Int) * 40960 * r) (2 ^ 40)

/-- Network time now. -/
def State.nt (s : State) : Int := ntOf s.ofs s.rate s.cnt.toNat

/-- Seconds, nanoseconds and sub-nanoseconds of a network time. -/
def ntSplit (t : Int) : Nat × Nat × Nat :=
  let n := t.toNat
  (n / 65536 / 1000000000, n / 65536 % 1000000000, n % 65536)

/-! ### Records (R288) -/

/-- Word 0 of a record: bytes 0–7. -/
def Rec.word0 (r : Rec) : BitVec 64 :=
  BitVec.ofNat 64 (r.flags % 16 + r.type * 16 + r.stall * 2 ^ 12 + r.chan % 256 * 2 ^ 16 + r.detail % 256 * 2 ^ 24
    + r.tag % 2 ^ 32 * 2 ^ 32)

/-- Word 1 of a record: bytes 8–15. -/
def Rec.word1 (r : Rec) : BitVec 64 := BitVec.ofNat 64 (r.tag / 2 ^ 32 % 2 ^ 24 + r.payload % 2 ^ 40 * 2 ^ 24)

/-- The packet of a record: two words, the second with the end mark (R295). -/
def Rec.words (r : Rec) : List QWord := [⟨r.word0, false, false⟩, ⟨r.word1, true, false⟩]

/-- The 16 bytes of a record. -/
def Rec.bytes (r : Rec) : List Byte := leBytes 8 r.word0.toNat ++ leBytes 8 r.word1.toNat

/-- A time tag: an instant after the epoch, in units of 0.25 ps, as time-tag units of 78.125 ps rounded down, modulo
2^56 (R288, R291). -/
def tagOf (rel : Nat) : Nat := 2 * rel / 625 % 2 ^ 56

/-- The tag of the present SCLK edge in a stall's run. -/
def State.tagNow (s : State) (st : Nat) : Nat := tagOf (s.nowU - (s.stall st).epoch)

/-! ### Destinations (R294) -/

/-- The number that stands for the window ring among destinations. -/
def ringDest : Nat := 32768

/-- The run of a stall is in WINDOW mode. -/
def State.windowMode (s : State) (st : Nat) : Bool := s.flag F.ACQ_CTL.mode st

/-- The destination of a stall's records of type `ty`; none when the route discards them (R294). -/
def State.destOf (s : State) (st ty : Nat) : Option Nat :=
  if s.flag F.ACQ_ROUTE.keep st (ty - 1) then
    let q := s.fl F.ACQ_ROUTE.queue st (ty - 1)
    if s.windowMode st && (tailStall q).isSome then some ringDest else some q
  else none

/-- Every destination that a kept route of the stall names, each once. -/
def State.dests (s : State) (st : Nat) : List Nat :=
  ([1, 2, 3, 5, 6, 8].filterMap (fun ty => s.destOf st ty)).eraseDups

/-- Every queue that a kept route of the stall names, each once, in a WINDOW run too (R300). -/
def State.keptQueues (s : State) (st : Nat) : List Nat :=
  (([1, 2, 3, 5, 6, 8].filter (fun ty => s.flag F.ACQ_ROUTE.keep st (ty - 1))).map
    (fun ty => s.fl F.ACQ_ROUTE.queue st (ty - 1))).eraseDups

/-! ### Loss runs (R301–R303) -/

/-- The key of a loss run. -/
def lossKey (st dest : Nat) : Nat := st * 32769 + dest

/-- The open loss run of a destination. -/
def State.lossRun (s : State) (st dest : Nat) : Option LossRun := mget (fun _ => none) s.loss (lossKey st dest)

/-- Stores the loss run of a destination. -/
def State.setLoss (s : State) (st dest : Nat) (v : Option LossRun) : State :=
  s.withLoss (mset (fun _ => none) s.loss (lossKey st dest) v)

/-- The loss run of earlier runs that is still open for a destination (R492). -/
def State.lossOf (s : State) (st dest : Nat) : Option LossRun := mget (fun _ => none) s.lossOld (lossKey st dest)

/-- Stores the loss run of earlier runs of a destination. -/
def State.setLossOf (s : State) (st dest : Nat) (v : Option LossRun) : State :=
  s.withLossOld (mset (fun _ => none) s.lossOld (lossKey st dest) v)

/-- The TIME pairs that wait for room in a queue, as the packets' words. -/
def State.waitingTime (s : State) (q : Nat) : List QWord := mget (fun _ => []) s.timePend q

/-- The MARK of a window in POST does not reach the ring: the window goes on without it at the present position (R301,
R312, R313). -/
def State.markGone (s : State) (st : Nat) : State :=
  let x := s.stall st
  if s.fl F.ACQ_WIN_STAT.state st = 2 ∧ ! x.win.markSeen then
    s.setStall st { x with win := { x.win with markSeen := true, trigPos := s.rg64 .ACQ_WPOS_LO .ACQ_WPOS_HI st } }
  else s

/-- A record is lost for a destination (R301, R302). -/
def State.lose (s : State) (dest cause : Nat) (r : Rec) : State :=
  let v := match s.lossRun r.stall dest with
    | none => (⟨cause, 1, r.tag, r.tag, some r.chan, ! (s.waitingTime dest).isEmpty⟩ : LossRun)
    | some x => { x with count := sat (2 ^ 40 - 1) (x.count + 1), last := r.tag
                         chan := if x.chan = some r.chan then x.chan else none }
  let s := s.setLoss r.stall dest (some v)
  if dest = ringDest ∧ r.type = 3 then s.markGone r.stall else s

/-- A queue has taken a record of a stall: a reset of the queue manager looks for its records there (R378). -/
def State.noteDest (s : State) (st q : Nat) : State :=
  let x := s.stall st
  if x.past.contains q then s else s.setStall st { x with past := q :: x.past }

/-- The GAP pair of a loss run (R290, R302). -/
def gapPair (st : Nat) (x : LossRun) : Rec × Rec :=
  let c := x.chan.getD 0xff
  (⟨4, 0, st, c, x.cause, x.first, x.count⟩, ⟨4, 1, st, c, x.cause, x.last, x.count⟩)

/-! ### The window ring (R311–R315) -/

/-- The ring's size in records (R311). -/
def State.ringSize (s : State) (st : Nat) : Nat := 2 ^ (16 + s.fl F.ACQ_WIN_CTL.size st)

/-- The window state codes of R312. -/
def winFill : Nat := 1
/-- POST (R312). -/
def winPost : Nat := 2
/-- CLOSED (R312). -/
def winClosed : Nat := 3
/-- REARM (R312). -/
def winRearm : Nat := 4

/-- A pulse of 40 ns on TRIG_OUTn for an event of the stall it names (R306): `ev` 0 trigger accepted, 1 window closed. -/
def State.trigPulse (s : State) (st ev : Nat) : State :=
  (List.range 4).foldl
    (fun s n =>
      if s.flag F.ACQ_TRIGOUT.en n && s.fl F.ACQ_TRIGOUT.stall n == st && s.fl F.ACQ_TRIGOUT.event n == ev then
        let p := mget (fun _ => ({} : Pulse)) s.trigOut n
        let p := { p with riseAt := if p.high then p.riseAt else some (p.riseAt.getD (s.now + 64))
                          fallAt := some (s.now + 128) }
        s.withTrigOut (mset (fun _ => ({} : Pulse)) s.trigOut n p)
      else s) s

/-- The window enters FILL (R312): pre-trigger counting and the auto timeout restart. -/
def State.enterFill (s : State) (st : Nat) : State :=
  let x := s.stall st
  (s.setStall st { x with win := {}, autoFrom := s.now }).setFl F.ACQ_WIN_STAT.state winFill st

/-- Closes a window in POST (R312–R315); a window whose MARK has not reached the ring takes the next position as its trigger
position. -/
def State.closeWindow (s : State) (st : Nat) (cut : Bool) : State :=
  let x := s.stall st
  let w := if x.win.markSeen then x.win else { x.win with trigPos := s.rg64 .ACQ_WPOS_LO .ACQ_WPOS_HI st }
  let r := s.ringSize st
  let post := s.rg .ACQ_WIN_POST st
  let room := r - post
  let want := min (s.rg .ACQ_WIN_PRE st) w.preWritten
  let kept := min want room
  let last := w.trigPos + w.postWritten - 1
  let ovr := decide (r < w.postWritten)
  let first := if ovr then last + 1 - r else w.trigPos - kept
  let s := s.setRg .ACQ_WIN_PRE_ACT kept st
  let s := s.setRg .ACQ_WIN_POST_ACT w.postWritten st
  let s := s.setRg64 .ACQ_WIN_TRIG_LO .ACQ_WIN_TRIG_HI w.trigPos st
  let s := s.setRg64 .ACQ_WIN_FIRST_LO .ACQ_WIN_FIRST_HI first st
  let s := (s.setFlag F.ACQ_WIN_STAT.trig_lost ovr st).setFlag F.ACQ_WIN_STAT.pre_cut (decide (room < want)) st
  let s := (s.setFlag F.ACQ_WIN_STAT.cut cut st).setFlag F.ACQ_WIN_STAT.auto w.auto st
  let s := s.bump F.ACQ_WIN_STAT.seq 1 st
  let seq := s.fl F.ACQ_WIN_STAT.seq st
  let s := if s.flag F.ACQ_WIN_CTL.note_en st then
      let q := s.fl F.ACQ_WIN_CTL.note_q st
      let w3 := seq + bit ovr * 2 ^ 32 + bit (decide (room < want)) * 2 ^ 33 + bit cut * 2 ^ 34 + bit w.auto * 2 ^ 35
      let ws := packet [(BitVec.ofNat 64 first, false), (BitVec.ofNat 64 w.trigPos, false),
        (BitVec.ofNat 64 (kept + w.postWritten % 2 ^ 32 * 2 ^ 32), false), (BitVec.ofNat 64 w3, false)]
      let r := s.push q ws
      if r.1 then r.2 else r.2.setFlag F.ACQ_WIN_STAT.note_lost true st
    else s
  let s := s.trigPulse st 1
  if cut then s.setFl F.ACQ_WIN_STAT.state 0 st
  else if s.flag F.ACQ_WIN_CTL.rearm st then
    let x := s.stall st
    (s.setStall st { x with win := { x.win with rearmAt := s.now + 256 } }).setFl F.ACQ_WIN_STAT.state winRearm st
  else s.setFl F.ACQ_WIN_STAT.state winClosed st

/-- A record enters the ring at position ACQ_WPOS, through the stall's write buffer (R311, R313). -/
def State.ringPut (s : State) (r : Rec) : State :=
  let st := r.stall
  let p := s.rg64 .ACQ_WPOS_LO .ACQ_WPOS_HI st
  let a := s.fl F.ACQ_RING_BASE.base_mib st * 2 ^ 20 + p % s.ringSize st * 16
  let s := (s.wbufPut st a r.bytes true).setRg64 .ACQ_WPOS_LO .ACQ_WPOS_HI (p + 1) st
  let x := s.stall st
  let w := x.win
  let code := s.fl F.ACQ_WIN_STAT.state st
  if code = winFill then s.setStall st { x with win := { w with preWritten := w.preWritten + 1 } }
  else if code = winPost then
    if w.markSeen then
      let s := s.setStall st { x with win := { w with postWritten := w.postWritten + 1 } }
      if w.postWritten + 1 = s.rg .ACQ_WIN_POST st then s.closeWindow st false else s
    else if r.type = 3 then
      let s := s.setStall st { x with win := { w with markSeen := true, trigPos := p, postWritten := 1 } }
      if s.rg .ACQ_WIN_POST st = 1 then s.closeWindow st false else s
    else s.setStall st { x with win := { w with preWritten := w.preWritten + 1 } }
  else s

/-! ### Delivery -/

/-- A queue can take two packets of two words, a GAP or TIME pair (R302, R365, R376). DESIGN CHOICE (log 89): a pair that R365
would refuse waits, and is not offered. -/
def State.pairRoom (s : State) (q : Nat) : Bool :=
  ! s.inReset .qm && s.flag F.QM_CFG.en q && decide (4 ≤ s.qFree q) && decide ((s.queue q).pkts + 2 ≤ 2 ^ 24 - 1)
    && s.spillRoom q 4

/-- Writes two packets into a queue when it can take both; answers whether it did. -/
def State.pushTwo (s : State) (q : Nat) (a b : List QWord) : Bool × State :=
  let s := if (tailStall q).isSome then s.reclaim q 4 4096 else s
  if s.pairRoom q then (true, (s.pushAll q a).pushAll q b) else (false, s)

/-- Writes the GAP pair of a loss run into its destination, if it can be written now (R302, R303). -/
def State.writeGap (s : State) (st dest : Nat) (x : LossRun) : Bool × State :=
  let g := gapPair st x
  if dest = ringDest then (true, (s.ringPut g.1).ringPut g.2) else s.pushTwo dest g.1.words g.2.words

/-- Ends the loss run of earlier runs of a destination; its count is not added to ACQ_LOST (R492). -/
def State.closeOld (s : State) (st dest : Nat) : State :=
  match s.lossOf st dest with
  | none => s
  | some x =>
    let r := s.writeGap st dest x
    if r.1 then r.2.setLossOf st dest none else r.2

/-- Ends the loss run of the present run of a destination (R302, R303). -/
def State.closeNew (s : State) (st dest : Nat) : State :=
  match s.lossRun st dest with
  | none => s
  | some x =>
    let r := s.writeGap st dest x
    if r.1 then ((r.2.setLoss st dest none).bump F.ACQ_LOST.count x.count st).bump F.ACQ_GAPS.count 1 st else r.2

/-- Writes waiting TIME pairs of a queue while it can take a pair; at most `n` pairs (R492). -/
def State.drainTime (s : State) (q : Nat) : Nat → State
  | 0 => s
  | n + 1 =>
    match s.waitingTime q with
    | a :: b :: c :: d :: t =>
      let r := s.pushTwo q [a, b] [c, d]
      if r.1 then State.drainTime (r.2.withTimePend (mset (fun _ => []) r.2.timePend q t)) q n else r.2
    | _ => s

/-- What waits for a destination is written as far as there is room, in order: the GAP pair of earlier runs, that of a loss run
which began before the TIME pairs that wait, these pairs, and the GAP pair of a later loss run (R302, R303, R492). -/
def State.closeLoss (s : State) (st dest : Nat) : State :=
  let s := s.closeOld st dest
  if (s.lossOf st dest).isSome then s
  else
    let early (s : State) : Bool := (s.lossRun st dest).any (fun x => ! x.afterTime)
    let s := if early s then s.closeNew st dest else s
    if early s then s
    else
      let s := s.drainTime dest 64
      if (s.waitingTime dest).isEmpty then s.closeNew st dest else s

/-- Something still waits for a destination, before which no record of the present run may enter it (R302, R492). -/
def State.pairWaits (s : State) (st dest : Nat) : Bool :=
  (s.lossOf st dest).isSome || (s.lossRun st dest).isSome || ! (s.waitingTime dest).isEmpty

/-- The bytes of the write buffer that a record on its way to the ring needs, the GAP pairs before it included (R301,
R302). -/
def State.ringNeed (s : State) (st : Nat) : Nat :=
  16 + 32 * bit (s.lossRun st ringDest).isSome + 32 * bit (s.lossOf st ringDest).isSome

/-- Hands a record of the acquisition engine to its destination, or counts it lost there (R302, R311, R312, R365, R366). DESIGN
CHOICE (log 89): a destination that lacks the room of R302 is not offered the record, so QM_REFUSED counts nothing; a disabled
queue and a full packet counter lose it with cause 2. -/
def State.deliver (s : State) (dest : Nat) (r : Rec) : State :=
  if s.inReset .acq || s.inReset .qm then s.lose dest 4 r
  else if dest = ringDest then
    let off (s : State) : Bool := let code := s.fl F.ACQ_WIN_STAT.state r.stall
                                  code == winClosed || code == 0
    if off s then s.bump F.ACQ_DISC.count 1 r.stall
    else if 65536 < s.wbufBytes r.stall + s.ringNeed r.stall then s.lose dest 3 r
    else
      let s := s.closeLoss r.stall dest
      if off s then s.bump F.ACQ_DISC.count 1 r.stall else s.ringPut r
  else if ! s.flag F.QM_CFG.en dest then (s.refusePush dest).lose dest 2 r
  else
    let s := s.closeLoss r.stall dest
    let s := if (tailStall dest).isSome then s.reclaim dest 6 4096 else s
    if s.qFree dest < 6 then s.lose dest 2 r
    else if ! s.spillRoom dest 2 then (s.refusePush dest).lose dest 3 r
    else if s.pktLimit dest then (s.refusePush dest).lose dest 2 r
    else if s.pairWaits r.stall dest then s.lose dest 2 r
    else (s.noteDest r.stall dest).pushAll dest r.words

/-- Inserts the TIME pair with insertion tag `tag` into every destination of a stall (R292). -/
def State.timePair (s : State) (st tag : Nat) : State :=
  let x := s.stall st
  let v := bit (s.flag F.TB_STAT.valid)
  let (sec, ns, sub) := ntSplit (ntOf s.ofs s.rate x.epochCnt.toNat)
  let a : Rec := ⟨7, 2 * v, st, 0xff, sec / 2 ^ 40 % 256, tag, sec % 2 ^ 40⟩
  let b : Rec := ⟨7, 1 + 2 * v, st, 0xff, sub / 256, tag, ns % 2 ^ 30 + sub % 256 * 2 ^ 32⟩
  (s.dests st).foldl
    (fun s d =>
      let s := s.closeLoss st d
      if d = ringDest then (s.ringPut a).ringPut b
      else if ! s.pairWaits st d then
        let r := s.pushTwo d a.words b.words
        if r.1 then r.2
        else r.2.withTimePend (mset (fun _ => []) r.2.timePend d (a.words ++ b.words))
      else s.withTimePend (mset (fun _ => []) s.timePend d (s.waitingTime d ++ a.words ++ b.words))) s

/-! ### Forming records (R297, R298, R301) -/

/-- The shaper that a record meets: one for each channel, one for the stall's MARK and INTERVAL records (R298). -/
def shaperOf (r : Rec) : Nat := if r.type = 3 ∨ r.type = 6 then 128 else r.chan

/-- Whether the stall's run is in the reserved regime. -/
def State.reserved (s : State) (st : Nat) : Bool := s.flag F.ACQ_CTL.reserved_run st

/-- Asks a shaper of a reserved run for the present interval: answers whether it keeps the record, and marks it used
(R298). -/
def State.shape (s : State) (st key : Nat) : Bool × State :=
  if ! s.reserved st then (true, s)
  else
    let x := s.stall st
    let iv := x.vcount.toNat / 64
    let used := if x.shapeIv = iv then x.shaped else []
    if used.contains key then (false, s.bump F.ACQ_SHAPED.count 1 st)
    else (true, s.setStall st { x with shaped := key :: used, shapeIv := iv })

/-- The depth of a source buffer (R301, R541). -/
def bufDepth (src : Nat) : Nat := if src < 128 then 32 else 8

/-- Puts a kept record into its source buffer, or loses it there with cause 1, or with cause 4 during a reset (R301). -/
def State.enterBuf (s : State) (src : Nat) (r : Rec) : State :=
  match s.destOf r.stall r.type with
  | none => s.bump F.ACQ_DISC.count 1 r.stall
  | some d =>
    if s.inReset .acq || s.inReset .qm then s.lose d 4 r
    else if bufDepth src ≤ (s.buf src).length then s.lose d 1 r
    else s.setBuf src (s.buf src ++ [r])

/-- Forms a record of a channel, a unit or a chain in a running stall: shaped, or into its source buffer. -/
def State.form (s : State) (src : Nat) (r : Rec) : State :=
  let k := s.shape r.stall (shaperOf r)
  if k.1 then k.2.enterBuf src r else k.2

/-! ### Triggers (R304, R305, R308, R312) -/

/-- The trigger formed last takes the lower source code of a trigger event of the same SCLK cycle: the MARK record that is
still in its source buffer, and the window that it opened (R304, log 21). -/
def State.mergeMark (s : State) (st : Nat) (r : Rec) : State :=
  let x := s.stall st
  if x.lastCode ≤ r.detail % 16 then s
  else
    let s := s.setStall st { x with lastCode := r.detail % 16, win := { x.win with auto := false } }
    match (s.buf (160 + st)).getLast? with
    | some m => if m.tag / 8 = r.tag / 8 then s.setBuf (160 + st) ((s.buf (160 + st)).dropLast ++ [r]) else s
    | none => s

/-- A trigger of a running stall with its source, index, instant as a tag, and the failing channel of a FAIL trigger. All
trigger events within one SCLK cycle form one trigger (log 21). -/
def State.trigger (s : State) (st code index tag : Nat) (chan : Nat := 0xff) : State :=
  let x := s.stall st
  let r : Rec := ⟨3, 0, st, chan, code + 16 * index, tag, x.vcount.toNat % 2 ^ 40⟩
  if s.stState st ≠ stRunning then s
  else if x.lastTrig == some (tag / 8) then s.mergeMark st r
  else
    let s := s.setStall st { x with lastTrig := some (tag / 8), lastCode := code }
    if s.windowMode st then
      if s.fl F.ACQ_WIN_STAT.state st = winFill then
        let k := s.shape st 128
        if k.1 then
          let y := k.2.stall st
          let s := k.2.setStall st { y with win := { y.win with auto := code == 6 } }
          let s := (s.setFl F.ACQ_WIN_STAT.state winPost st).trigPulse st 0
          let s := s.enterBuf (160 + st) r
          if (s.buf (160 + st)).contains r && s.destOf st 3 == some ringDest then s
          else
            let z := s.stall st
            s.setStall st { z with win := { z.win with markSeen := true
                                                       trigPos := s.rg64 .ACQ_WPOS_LO .ACQ_WPOS_HI st } }
        else k.2
      else s.bump F.ACQ_TRIG_IGN.count 1 st
    else
      let k := s.shape st 128
      if k.1 then
        let y := k.2.stall st
        ((k.2.setStall st { y with autoFrom := s.now }).trigPulse st 0).enterBuf (160 + st) r
      else k.2

/-- A trigger event that ACQ_TRIG_CTL selects (R304). -/
def State.trigEvent (s : State) (st code index tag : Nat) (chan : Nat := 0xff) : State :=
  if s.fl F.ACQ_TRIG_CTL.src st = code && (code = 3 || code = 4 || s.fl F.ACQ_TRIG_CTL.index st == index) then
    s.trigger st code index tag chan
  else s

/-! ### The fail log (R265, R266) -/

/-- Pushes a copy of a FAIL record into the fail-log queue of its stall. -/
def State.failLog (s : State) (r : Rec) : State :=
  let st := r.stall
  if ! s.flag F.STL_FAIL_LOG_CTL.en st then s
  else
    let max := s.rg .STL_FAIL_LOG_MAX st
    if max ≠ 0 && decide (max ≤ s.rg .STL_FAIL_LOG_CNT st) then s.setFlag F.STL_FAIL_LOG_CTL.limit_hit true st
    else
      let p := s.push (s.fl F.STL_FAIL_LOG_CTL.queue st) r.words
      if p.1 then
        let s := p.2.bump F.STL_FAIL_LOG_CNT.count 1 st
        if max ≠ 0 && decide (max ≤ s.rg .STL_FAIL_LOG_CNT st) then s.setFlag F.STL_FAIL_LOG_CTL.limit_hit true st
        else s
      else p.2.bump F.STL_FAIL_LOG_DROP.count 1 st

end Sys2Proof.Machine
end

