-- ==== Sys2Proof/Machine/Seq.lean ====
section
/-! DEFINITION. The sequencer's lookahead and the leat: entries, the stack, conditional entries and their lead blocks,
resident loops, line requests and credits, the hopper level and panic (R148–R171, R189–R207, R493, R540). -/

namespace Sys2Proof.Machine

open Sys2Proof

/-! ### Sequence-table entries (R148, R149, R185) -/

/-- Bits of an entry. -/
def SeqEnt.f (e : SeqEnt) (hi lo : Nat) : Nat := bitsOf e.toNat hi lo
/-- Opcode of an entry. -/
def SeqEnt.op (e : SeqEnt) : Nat := e.f 127 122
/-- Timing set of an entry. -/
def SeqEnt.ts (e : SeqEnt) : Nat := e.f 121 116
/-- Condition code of an entry. -/
def SeqEnt.cond (e : SeqEnt) : Nat := e.f 115 111
/-- Marker mode of an entry. -/
def SeqEnt.mkrMode (e : SeqEnt) : Nat := e.f 110 109
/-- Marker bits of an entry. -/
def SeqEnt.mkrBits (e : SeqEnt) : Nat := e.f 108 101
/-- count_or_target of an entry. -/
def SeqEnt.count (e : SeqEnt) : Nat := e.f 95 64
/-- Target index of an entry. -/
def SeqEnt.target (e : SeqEnt) : Nat := e.f 79 64
/-- Segment length in granules; 0 stands for 2^24. -/
def SeqEnt.granules (e : SeqEnt) : Nat := if e.f 63 40 = 0 then 2 ^ 24 else e.f 63 40
/-- First line of the segment. -/
def SeqEnt.start (e : SeqEnt) : Nat := e.f 39 0
/-- PLAY, JIF and WAITC are the segment entries. -/
def SeqEnt.isSegment (e : SeqEnt) : Bool := e.op == 1 || e.op == 7 || e.op == 8
/-- JIF and WAITC are the conditional entries. -/
def SeqEnt.isCond (e : SeqEnt) : Bool := e.op == 7 || e.op == 8
/-- Vectors of the segment. -/
def SeqEnt.vectors (e : SeqEnt) : Nat := 128 * e.granules

/-- Lines of one octet block in a vector mode (R189). -/
def linesPerOct (mode : Nat) : Nat := 8 / 2 ^ mode
/-- Vectors per line in a vector mode (R189). -/
def vecsPerLine (mode : Nat) : Nat := 16 * 2 ^ mode

/-- Lines of one granule for a stall's run (R191). -/
def Stall.lines (x : Stall) : Nat := x.octets.length * linesPerOct x.mode

/-- The reason of R150, 1 to 5, for which LOAD_SEQ refuses an entry, the lowest one; 0 when it passes. -/
def entryReason (e : SeqEnt) (entries : Nat) : Nat :=
  let op := e.op
  if op = 0 ∨ 0x0b ≤ op then 1
  else
    let zeroSeg := e.f 63 0 == 0
    let zeroMark := e.f 110 101 == 0
    let zeroTs := e.ts == 0
    let zeroCond := e.cond == 0
    let zeroCount := e.count == 0
    let res := e.f 100 96 == 0
    let unused :=
      if op = 1 then zeroCond && zeroCount && res
      else if op = 2 then zeroTs && zeroCond && zeroMark && res && zeroSeg
      else if op = 3 ∨ op = 5 ∨ op = 0x0a then zeroTs && zeroCond && zeroMark && res && zeroSeg && zeroCount
      else if op = 4 ∨ op = 6 then zeroTs && zeroCond && zeroMark && res && zeroSeg && e.f 95 80 == 0
      else if op = 7 then res && e.f 95 80 == 0
      else if op = 8 then res
      else e.f 121 55 == 0
    if ! unused then 2
    else if e.isSegment && decide (1 ≤ e.f 63 40) && decide (e.f 63 40 ≤ 15) then 3
    else if (op = 4 ∨ op = 6 ∨ op = 7) && decide (entries ≤ e.target) then 4
    else if e.isCond && decide (26 ≤ e.cond) then 5
    else 0

/-! ### The loaded table -/

/-- Reads entry `i` of the loaded table; undefined after a write to it while the stall was armed or running (R150,
R497). -/
def State.entry (s : State) (st i : Nat) : SeqEnt × Bool × State :=
  if (s.stall st).tableDirty then
    let d := s.draw 128
    (d.1, false, d.2)
  else s.readEntry (s.tableAddr st + 16 * i)

/-- The lookahead's look at entry `i` on a path that is not selected yet, or ahead of the selected path: a kept entry is not
read again, and one that is read is kept (R151). -/
def State.keepEntry (s : State) (st : Nat) (path : List Bool) (i : Nat) : SeqEnt × Bool × State :=
  match (s.stall st).kept.find? (fun k => k.path == path && k.idx == i) with
  | some k => (k.ent, k.bad, s)
  | none =>
    let r := s.entry st i
    let x := r.2.2.stall st
    (r.1, r.2.1, r.2.2.setStall st { x with kept := x.kept ++ [⟨path, i, r.1, r.2.1⟩] })

/-- The lookahead's entry `i` on the selected path, which it executes: kept no longer, or read now (R151). -/
def State.takeEntry (s : State) (st i : Nat) : SeqEnt × Bool × State :=
  let x := s.stall st
  match x.kept.find? (fun k => k.path == [] && k.idx == i) with
  | some k => (k.ent, k.bad, s.setStall st { x with kept := x.kept.erase k })
  | none => s.entry st i

/-! ### The stack (R164, R167, R168) -/

/-- The largest depth of the stack, and of loop frames on it (R167). -/
def stackMax : Nat := 16

/-- Loop frames on a stack. -/
def loopDepth (k : List Frame) : Nat := (k.filter (fun f => f.loop)).length

/-- What a zero-time entry does: next index and stack, a sequence error, or HALT (R164, R170). -/
inductive Zero where
  | next (i : Nat) (k : List Frame) | err (code : Nat) | halt
  deriving DecidableEq, Repr

/-- The passes of a LOOP (R164). -/
def loopCount (e : SeqEnt) : Nat := if e.count = 0 then 2 ^ 32 else e.count

/-- Executes a zero-time entry on a stack whose last frame is the top (R164). An opcode that LOAD_SEQ refuses, which only
an undefined entry can hold, acts as HALT. -/
def zeroTime (e : SeqEnt) (i : Nat) (k : List Frame) : Zero :=
  match e.op with
  | 2 =>
    if k.length = stackMax then .err 1
    else if loopDepth k = 8 then .err 2
    else .next (i + 1) (k ++ [⟨true, i + 1, loopCount e - 1⟩])
  | 3 =>
    match k.getLast? with
    | some f =>
      if f.loop then
        if 0 < f.left then .next f.ret (k.dropLast ++ [{ f with left := f.left - 1 }])
        else .next (i + 1) k.dropLast
      else .err 3
    | none => .err 3
  | 4 => if k.length = stackMax then .err 1 else .next e.target (k ++ [⟨false, i + 1, 0⟩])
  | 5 =>
    match k.getLast? with
    | some f => if f.loop then .err 4 else .next f.ret k.dropLast
    | none => .err 4
  | 6 => .next e.target k
  | 9 => .next (i + 1) k
  | _ => .halt

/-- The resolved successor of a path that goes on at index `i` with stack `k` after `run` zero-time entries (R159):
index, entry and stack of the next segment entry; none when the run ends in HALT, the end of the table, an error or a
poisoned entry. `path` are the decisions that lead to it, `n` bounds the run. The entries read are kept. -/
def State.resolve (s : State) (st : Nat) (path : List Bool) : Nat → Nat → List Frame → Nat →
    Option (Nat × SeqEnt × List Frame) × State
  | 0, _, _, _ => (none, s)
  | n + 1, i, k, run =>
    if s.tableLen st ≤ i then (none, s)
    else
      let r := s.keepEntry st path i
      if r.2.1 then (none, r.2.2)
      else if r.1.isSegment then (some (i, r.1, k), r.2.2)
      else if 8 ≤ run then (none, r.2.2)
      else
        match zeroTime r.1 i k with
        | .next j k' => State.resolve r.2.2 st path n j k' (run + 1)
        | _ => (none, r.2.2)

/-! ### The share and credits (R192–R196) -/

/-- The share of a stall in lines (R192). -/
def State.share (s : State) (st : Nat) : Nat := s.fl F.STL_HOP_CTL.units st * 4096

/-- The lines held in the resident region (R195). -/
def Stall.residentLines (x : Stall) : Nat := (x.held.filter (fun l => l.resident)).length

/-- The refill reserve: the share minus the resident region (R195). -/
def State.reserve (s : State) (st : Nat) : Nat := s.share st - (s.stall st).residentLines

/-- Free credits: the share minus lines requested and not arrived and lines held (R196). -/
def State.credits (s : State) (st : Nat) : Nat :=
  s.share st - ((s.stall st).inflight.filter (fun r => ! r.lost)).length - (s.stall st).held.length

/-- The plays on the path, in order, each play of a resident loop's remaining passes once. -/
def pathPlays : List PathItem → List Play
  | [] => []
  | .play p :: t => p :: pathPlays t
  | .again _ b _ :: t => b ++ pathPlays t

/-- The plays on the selected path, the one in play first. -/
def Stall.plays (x : Stall) : List Play := x.cur.toList ++ pathPlays x.path

/-- The first vector of its segment that uses line `off` of a segment's lines (R190, R191). -/
def Stall.firstVec (x : Stall) (off : Nat) : Nat :=
  off / x.lines * 128 + off % x.lines % linesPerOct x.mode * vecsPerLine x.mode

/-- The vector of its segment that is in play; none before vector 0. -/
def Stall.segVec (x : Stall) : Option Nat := x.vec.map (fun v => v - x.segFirst)

/-- Whether a line of a play lies ahead of the vector in play on the selected path (R197). -/
def Stall.ahead (x : Stall) (pid off : Nat) : Bool :=
  match x.cur with
  | some p =>
    if p.pid = pid then
      match x.segVec with
      | some v => decide (v < x.firstVec off)
      | none => true
    else (pathPlays x.path).any (fun q => q.pid == pid)
  | none => (pathPlays x.path).any (fun q => q.pid == pid)

/-- The hopper level: streaming lines on the selected path ahead of the vector in play (R197). -/
def Stall.level (x : Stall) : Nat := (x.held.filter (fun l => ! l.resident && x.ahead l.pid l.off)).length

/-- The lookahead knows a line on the selected path beyond the level, requested or not (R204). -/
def Stall.knowsMore (x : Stall) : Bool :=
  x.waiting.any (fun r => decide (r.from_ < r.upto) && x.plays.any (fun p => p.pid == r.pid))
    || x.inflight.any (fun r => ! r.dead && x.plays.any (fun p => p.pid == r.pid))

/-- The panic mark in lines (R204). -/
def State.panicMark (s : State) (st : Nat) : Nat :=
  (s.fl F.STL_LEAT_CTL.panic_pct st * s.reserve st + 99) / 100

/-- Judges panic and the lowest level of a stall after its lines or its position changed (R204, R208). -/
def State.judgeLeat (s : State) (st : Nat) : State :=
  let x := s.stall st
  let lv := x.level
  let s := if s.stState st = stRunning ∧ lv < s.fl F.STL_LEAT_MINLVL.min_level st
    then s.setFl F.STL_LEAT_MINLVL.min_level lv st else s
  let busy := s.busyStall st
  if x.panic then
    if ! busy || ! x.knowsMore || decide (s.panicMark st + (s.reserve st + 15) / 16 ≤ lv) then
      (s.setStall st { x with panic := false }).payDebts
    else s
  else if busy && decide (lv < s.panicMark st) && x.knowsMore then
    (s.setStall st { x with panic := true }).bump F.STL_LEAT_PANIC.count 1 st
  else s

/-! ### Requests (R151, R161, R196) -/

/-- The lines of an entry's segment in a run. -/
def Stall.segLines (x : Stall) (e : SeqEnt) : Nat := e.granules * x.lines

/-- The lines of a lead block: 16 granules (R191). -/
def Stall.leadLines (x : Stall) : Nat := 16 * x.lines

/-- Adds a range of line requests behind those that wait. -/
def Stall.request (x : Stall) (pid base from_ upto : Nat) : Stall :=
  if from_ < upto then { x with waiting := x.waiting ++ [⟨pid, base, from_, upto⟩] } else x

/-- The staged lead blocks, with `path` among the paths of one of its entry, if there is one that begins no earlier play on
that path: a block already requested serves every path on which its entry is the next play (R161). -/
def shareLead (i : Nat) (path : List Bool) : List Lead → Option (List Lead)
  | [] => none
  | l :: t =>
    if l.idx = i ∧ l.paths.contains path then some (l :: t)
    else if l.idx = i ∧ ! l.paths.any (fun q => q.isPrefixOf path) then some ({ l with paths := l.paths ++ [path] } :: t)
    else (shareLead i path t).map (fun t => l :: t)

/-- Stages the lead block of a successor that the decisions `path` lead to, unless it is already requested (R161). -/
def Stall.stage (x : Stall) (path : List Bool) (r : Option (Nat × SeqEnt × List Frame)) : Stall :=
  match r with
  | none => x
  | some (i, e, _) =>
    match shareLead i path x.leads with
    | some l => { x with leads := l }
    | none =>
      let pid := x.nextPid
      ({ x with nextPid := pid + 1, leads := x.leads ++ [⟨pid, i, [path]⟩] } : Stall).request pid e.start 0 x.leadLines

/-- The successor of a conditional entry `i` on the decision `b` after the decisions `pre`: exit or false, replay or true. A
replayed entry is kept, not read again (R151, R160). -/
def State.successor (s : State) (st : Nat) (pre : List Bool) (b : Bool) (i : Nat) (e : SeqEnt) (k : List Frame) :
    Option (Nat × SeqEnt × List Frame) × State :=
  let path := pre ++ [b]
  if b then
    if e.op = 8 then
      let x := s.stall st
      (some (i, e, k), if x.kept.any (fun q => q.path == path && q.idx == i) then s
        else s.setStall st { x with kept := x.kept ++ [⟨path, i, e, false⟩] })
    else s.resolve st path 10 e.target k 0
  else s.resolve st path 10 (i + 1) k 0

/-- Stages the lead blocks of a conditional entry's two successors, the false or exit successor's first; answers the successors
(R160, R161). -/
def State.stageBoth (s : State) (st : Nat) (pre : List Bool) (i : Nat) (e : SeqEnt) (k : List Frame) :
    (Option (Nat × SeqEnt × List Frame) × Option (Nat × SeqEnt × List Frame)) × State :=
  let a := s.successor st pre false i e k
  let b := a.2.successor st pre true i e k
  let s := b.2
  ((a.1, b.1), s.setStall st (((s.stall st).stage (pre ++ [false]) a.1).stage (pre ++ [true]) b.1))

/-- Stages the lead blocks of a successor's successors, when the successor is a conditional entry (R161). -/
def State.stageDeep (s : State) (st : Nat) (b : Bool) (r : Option (Nat × SeqEnt × List Frame)) : State :=
  match r with
  | some (j, f, k) => if f.isCond then (s.stageBoth st [b] j f k).2 else s
  | none => s

/-- Requests the lead blocks of a conditional entry: its successors', then its conditional successors' successors'
(R161). -/
def State.stageAll (s : State) (st i : Nat) (e : SeqEnt) (k : List Frame) : State :=
  let r := s.stageBoth st [] i e k
  (r.2.stageDeep st false r.1.1).stageDeep st true r.1.2

/-! ### Resident loops (R199, R200, R540) -/

/-- One pass of a loop body on a copy of the stack, in the zero-time run of which `run` entries stand before it: answers the
segment entries it reaches, each once with its lines, when it reaches the matching ENDL within `n` entries without a
conditional entry, HALT, an error or a poisoned entry (R199). The entries read are kept (R151). -/
def State.walkBody (s : State) (st depth : Nat) : Nat → Nat → List Frame → Nat → List (Nat × Nat) →
    Option (List (Nat × Nat)) × State
  | 0, _, _, _, _ => (none, s)
  | n + 1, i, k, run, acc =>
    if s.tableLen st ≤ i then (none, s)
    else
      let r := s.keepEntry st [] i
      let s := r.2.2
      let e := r.1
      if r.2.1 || e.isCond then (none, s)
      else if e.op = 1 then
        State.walkBody s st depth n (i + 1) k 0
          (if acc.any (fun a => a.1 == i) then acc else acc ++ [(i, (s.stall st).segLines e)])
      else if 8 ≤ run then (none, s)
      else if e.op = 3 ∧ k.length = depth + 1 then (some acc, s)
      else
        match zeroTime e i k with
        | .next j k' => State.walkBody s st depth n j k' (run + 1) acc
        | _ => (none, s)

/-- A resident loop is in play, or its first pass is being walked. -/
def Stall.residentInPlay (x : Stall) : Bool :=
  x.look.res.isSome || x.plays.any (fun p => p.resident)

/-- Whether the LOOP at index `i`, which is entry `run` of its zero-time run, becomes resident (R199). -/
def State.residentOk (s : State) (st i : Nat) (e : SeqEnt) (k : List Frame) (run : Nat) : Bool × State :=
  let x := s.stall st
  if x.residentInPlay then (false, s)
  else
    let w := s.walkBody st k.length 4096 (i + 1) (k ++ [⟨true, i + 1, loopCount e - 1⟩]) run []
    (decide (2 ≤ loopCount e) && w.1.any (fun l => decide (l.foldl (fun a b => a + b.2) 0 + 32 * x.lines ≤ s.share st)), w.2)

/-! ### One lookahead step (R159–R164) -/

/-- The lines held for a play of a resident loop stand in the resident region (R195, R200). -/
def Stall.settleLines (x : Stall) (p : Play) : Stall :=
  if p.resident then { x with held := x.held.map (fun l => if l.pid = p.pid then { l with resident := true } else l) } else x

/-- The lookahead reaches a segment entry: a play joins the path, and its lines are requested; a conditional entry's lead
blocks go first (R161). In the first pass of a resident loop the lines of a staged lead block that have arrived move into the
resident region, and a repeated play of a segment requests none (R195, R200). -/
def State.lookSegment (s : State) (st : Nat) (e : SeqEnt) : State :=
  let x := s.stall st
  let la := x.look
  let lead := x.leads.find? (fun l => l.paths.contains [] && l.idx == la.idx)
  let again : List Play := match la.res with
    | some r => r.plays.filter (fun p => p.idx == la.idx)
    | none => []
  let pid := match lead with
    | some l => l.pid
    | none => x.nextPid
  let x := match lead with
    | some l => { x with leads := x.leads.filter (fun y => y.pid != l.pid) }
    | none => { x with nextPid := x.nextPid + 1 }
  let p : Play := ⟨pid, la.idx, e, la.stack, la.setf, if e.op = 8 then la.waitc + 1 else 0,
    (again.head?.map (fun q => q.pid)).getD pid, la.res.isSome, false⟩
  let la' : Look := { la with idx := la.idx + 1, run := 0, setf := []
                              mode := if e.isCond then .undecided pid else .going
                              res := la.res.map (fun r => { r with plays := r.plays ++ [p] }) }
  let y : Stall := { x with path := x.path ++ [.play p], look := la' }
  let s := s.setStall st (y.settleLines p)
  let s := if e.isCond then s.stageAll st la.idx e la.stack else s
  let y := s.stall st
  if again.isEmpty then
    s.setStall st (y.request pid e.start (if lead.isSome then y.leadLines else 0) (y.segLines e))
  else s

/-- The matching ENDL of a resident loop's first pass: the remaining passes join the path in one step (R540). The first
play of a later pass takes the SETF pairs of the body's end and head. A body without a segment entry adds its zero-time entries
of every pass to the run that it stands in (R158). -/
def State.lookPasses (s : State) (st : Nat) (r : ResWalk) : State :=
  let x := s.stall st
  let la := x.look
  let k := la.stack.dropLast
  match r.plays with
  | [] =>
    let run := la.run + (r.count - 1) * (r.headRun + 1)
    if 8 < run then s.setStall st { x with look := { la with mode := .seqErr 5, res := none } }
    else s.setStall st { x with look := { la with idx := la.idx + 1, stack := k, run := run, res := none } }
  | p :: t =>
    if 8 < la.run + r.headRun then
      s.setStall st { x with look := { la with mode := .seqErr 5, res := none } }
    else
      let body := { p with setf := la.setf ++ p.setf.drop r.preSetf } :: t
      s.setStall st { x with path := x.path ++ [.again r.depth body (r.count - 1)]
                             look := { la with idx := la.idx + 1, stack := k, res := none } }

/-- The lookahead executes the next entry (R151, R158, R164, R170). -/
def State.lookStep (s : State) (st : Nat) : State :=
  let x := s.stall st
  let la := x.look
  if la.mode ≠ .going then s
  else if s.tableLen st ≤ la.idx then s.setStall st { x with look := { la with mode := .halted } }
  else
    let r := s.takeEntry st la.idx
    let s := r.2.2
    let e := r.1
    let x := s.stall st
    if r.2.1 then s.setStall st { x with look := { la with mode := .poisoned } }
    else if e.isSegment then s.lookSegment st e
    else if 8 ≤ la.run then s.setStall st { x with look := { la with mode := .seqErr 5 } }
    else
      let la := { la with run := la.run + 1 }
      let s := s.setStall st { x with look := la }
      match la.res with
      | some w =>
        if e.op = 3 ∧ la.stack.length = w.depth + 1 then s.lookPasses st w
        else
          let w' := if w.plays.isEmpty then { w with headRun := w.headRun + 1 } else w
          match zeroTime e la.idx la.stack with
          | .next j k =>
            s.setStall st { x with look := { la with idx := j, stack := k, res := some w'
                                                     setf := if e.op = 9 then la.setf ++ [(e.f 54 48, e.f 47 0)] else la.setf } }
          | .err c => s.setStall st { x with look := { la with mode := .seqErr c } }
          | .halt => s.setStall st { x with look := { la with mode := .halted } }
      | none =>
        match zeroTime e la.idx la.stack with
        | .next j k =>
          let ok := if e.op = 2 then s.residentOk st la.idx e la.stack la.run else (false, s)
          let res := if ok.1 then some (⟨la.stack.length, loopCount e, la.setf.length, 0, []⟩ : ResWalk) else none
          let setf := if e.op = 9 then la.setf ++ [(e.f 54 48, e.f 47 0)] else la.setf
          let y := ok.2.stall st
          ok.2.setStall st { y with look := { la with idx := j, stack := k, res := res, setf := setf } }
        | .err c => s.setStall st { x with look := { la with mode := .seqErr c } }
        | .halt => s.setStall st { x with look := { la with mode := .halted } }

/-- The lookahead runs on until a play joins the path or it stops; the entries are kept ones (R151). -/
def State.lookOn (s : State) (st : Nat) : Nat → State
  | 0 => s
  | n + 1 =>
    let len := (s.stall st).path.length
    let s := s.lookStep st
    if len < (s.stall st).path.length || (s.stall st).look.mode ≠ .going then s else State.lookOn s st n

/-! ### Decisions (R157, R162, R165) -/

/-- The paths that begin with the decision `b`, without it; none stay when no path goes on. -/
def pathsAfter (b : Option Bool) (l : List (List Bool)) : List (List Bool) :=
  (l.filter (fun p => b.isSome && p.head? == b)).map (fun p => p.tail)

/-- Releases the staged blocks that lie on no path still possible after the decision `b`, with their lines, and the entries
kept for such paths; none says that no path goes on (R151, R162). -/
def Stall.release (x : Stall) (b : Option Bool) : Stall :=
  let gone := (x.leads.filter (fun l => (pathsAfter b l.paths).isEmpty)).map (fun l => l.pid)
  { x with leads := (x.leads.filter (fun l => ! gone.contains l.pid)).map (fun l => { l with paths := pathsAfter b l.paths })
           kept := (x.kept.filter (fun k => ! (pathsAfter b [k.path]).isEmpty)).map (fun k => { k with path := k.path.tail })
           waiting := x.waiting.filter (fun r => ! gone.contains r.pid)
           inflight := x.inflight.map (fun r => if gone.contains r.pid then { r with dead := true } else r)
           held := x.held.filter (fun l => ! gone.contains l.pid) }

/-- The lookahead goes on at index `i` with stack `k` after a decision, up to the successor that the decision selects. -/
def State.goOn (s : State) (st : Nat) (b : Bool) (i waitc : Nat) (k : List Frame) : State :=
  let x := (s.stall st).release (some b)
  let s := s.setStall st { x with look := { idx := i, stack := k, waitc := waitc }, decided := true }
  s.lookOn st 10

/-- The path ends after the segment in play. -/
def State.endPath (s : State) (st : Nat) : State :=
  let x := (s.stall st).release none
  s.setStall st { x with look := { x.look with mode := .halted }, decided := true }

/-! ### The path as it is played -/

/-- The passes of a resident loop that remain, one of them taken out: the loop frame counts down, and in the last pass
each line is used for the last time by the last play that needs it (R200). -/
def expandPass (depth : Nat) (body : List Play) (left : Nat) : List PathItem :=
  match left with
  | 0 => []
  | n + 1 =>
    let plays := body.map (fun p =>
      { p with stack := p.stack.modify depth (fun f => { f with left := n }) })
    let rec mark : List Play → List PathItem
      | [] => []
      | p :: t => .play { p with lastUse := decide (n = 0) && ! t.any (fun q => q.lineOf == p.lineOf) } :: mark t
    mark plays ++ (if n = 0 then [] else [.again depth body n])

/-- The path with its first item a play, if there is one. -/
def frontPlay : List PathItem → List PathItem
  | .again d b l :: t => expandPass d b l ++ t
  | l => l

/-- The entry of the segment after the one in play: the entry in play itself while a decision is still to be made, or when
no resolved successor is known (R159, R162, R188). -/
def Stall.nextIdx (x : Stall) : Nat :=
  match x.cur, frontPlay x.path with
  | none, _ => 0
  | some p, .play q :: _ => if p.ent.isCond && ! x.decided then p.idx else q.idx
  | some p, _ => p.idx

/-- The line of a play that vector `v` of its segment needs for the `r`-th octet (R190, R191). -/
def Stall.lineOff (x : Stall) (r v : Nat) : Nat :=
  v / 128 * x.lines + r * linesPerOct x.mode + v % 128 / vecsPerLine x.mode

/-- A held line of a play. -/
def Stall.heldLine (x : Stall) (p : Play) (off : Nat) : Option HeldLine :=
  x.held.find? (fun l => l.pid == p.lineOf && l.off == off)

/-- The field of vector `v` of a play for slice `j` of the stall's `r`-th octet (R189, R190). -/
def Stall.charAt (x : Stall) (p : Play) (r j v : Nat) : Option Nat :=
  match x.heldLine p (x.lineOff r v) with
  | none => none
  | some l =>
    let w := 32 / 2 ^ x.mode
    let word := bitsOf l.data.toNat (w * (v % vecsPerLine x.mode) + w - 1) (w * (v % vecsPerLine x.mode))
    let fw := if x.mode = 0 then 4 else if x.mode = 1 then 2 else 1
    let k := if x.mode = 3 then j / 2 else j
    some (bitsOf word (fw * k + fw - 1) (fw * k))

/-- Every line that vector `v` of a play needs, with its index. -/
def Stall.needs (x : Stall) (p : Play) (v : Nat) : List (Nat × Nat) :=
  (List.range x.octets.length).map (fun r => (x.lineOff r v, p.ent.start + x.lineOff r v))

/-- Lines are played: those of a play whose vectors all lie below segment vector `v` return their credit; a resident line
leaves at its last use (R196, R200). -/
def Stall.played (x : Stall) (p : Play) (v : Nat) : Stall :=
  if p.resident && ! p.lastUse then x
  else { x with held := x.held.filter (fun l =>
    ! (l.pid == p.lineOf && decide (x.firstVec l.off + vecsPerLine x.mode ≤ v))) }

/-- The period of a timing set in 0.25 ps units (R209). -/
def State.period (s : State) (st ts : Nat) : Nat :=
  let p := s.rg .STL_TS_PERIOD st ts
  if p = 0 then 2 ^ 32 else p

/-- How long vector `v` of a segment lasts (R209, R210). -/
def State.vecLen (s : State) (st : Nat) (e : SeqEnt) (v : Nat) : Nat :=
  let p := s.period st e.ts
  if (s.stall st).mode = 3 then (if v % 2 = 0 then p / 2 else p - p / 2) else p

/-- The span of the first `v` vectors of a segment. -/
def State.vecSpan (s : State) (st : Nat) (e : SeqEnt) (v : Nat) : Nat :=
  let p := s.period st e.ts
  if (s.stall st).mode = 3 then v / 2 * p + (if v % 2 = 0 then 0 else p / 2) else v * p

/-- The next vector to be played: its play, its number in the segment, its stall vector number and its T0. -/
structure NextVec where
  p : Play
  v : Nat
  vec : Nat
  t0 : Nat
  first : Bool
  deriving DecidableEq, Repr

/-- The vector that follows the one in play, or vector 0 of a run whose start event has come; none when the path has no
further segment. -/
def State.nextVec (s : State) (st : Nat) : Option NextVec :=
  let x := s.stall st
  match x.vec, x.cur with
  | some v, some p =>
    if v - x.segFirst + 1 < p.ent.vectors then some ⟨p, v - x.segFirst + 1, v + 1, x.tNext, false⟩
    else
      match frontPlay x.path with
      | .play q :: _ => some ⟨q, 0, v + 1, x.tNext, true⟩
      | _ => none
  | _, _ =>
    match frontPlay x.path, x.startAt with
    | .play q :: _, some t => some ⟨q, 0, 0, t, true⟩
    | _, _ => none

/-- The first line absent for a play at or after segment vector `v`, as (first vector, line index): lines waiting or
requested (R205). -/
def Stall.absent (x : Stall) (p : Play) (v : Nat) : Option (Nat × Nat) :=
  let w := (x.waiting.filter (fun r => r.pid == p.lineOf && decide (r.from_ < r.upto))).flatMap (fun r =>
    (List.range (min (r.upto - r.from_) (2 * x.lines + 1))).map (fun k => (x.firstVec (r.from_ + k), p.ent.start + r.from_ + k)))
  let i := (x.inflight.filter (fun r => r.pid == p.lineOf && ! r.dead)).map (fun r => (x.firstVec r.off, r.line))
  let all := (w ++ i).map (fun e => (max e.1 v, e.2))
  all.foldl (fun b e => match b with
    | none => some e
    | some c => if e.1 < c.1 ∨ (e.1 = c.1 ∧ e.2 < c.2) then some e else some c) none

/-- The earliest vector on the selected path that needs an absent line: stall vector, T0 and line (R205). -/
def State.absentFrom (s : State) (st : Nat) : List Play → Nat → Nat → Nat → Option (Nat × Nat × Nat)
  | [], _, _, _ => none
  | p :: t, v, vec, t0 =>
    match (s.stall st).absent p v with
    | some (w, line) => some (vec + (w - v), t0 + (s.vecSpan st p.ent w - s.vecSpan st p.ent v), line)
    | none =>
      State.absentFrom s st t 0 (vec + (p.ent.vectors - v))
        (t0 + (s.vecSpan st p.ent p.ent.vectors - s.vecSpan st p.ent v))

/-- The vectors of some plays and how long they last. -/
def State.playsLen (s : State) (st : Nat) (l : List Play) : Nat × Nat :=
  l.foldl (fun a p => (a.1 + p.ent.vectors, a.2 + s.vecSpan st p.ent p.ent.vectors)) (0, 0)

/-- The earliest vector on the path ahead that needs an absent line, or the vector and the T0 that follow the path: all
remaining passes of a resident loop count, and the first of them decides (R205, R540). -/
def State.absentOn (s : State) (st : Nat) : List PathItem → Nat → Nat → (Nat × Nat × Nat) ⊕ (Nat × Nat)
  | [], vec, t0 => .inr (vec, t0)
  | .play p :: t, vec, t0 =>
    match s.absentFrom st [p] 0 vec t0 with
    | some a => .inl a
    | none => State.absentOn s st t (vec + p.ent.vectors) (t0 + s.vecSpan st p.ent p.ent.vectors)
  | .again _ b n :: t, vec, t0 =>
    match s.absentFrom st b 0 vec t0 with
    | some a => .inl a
    | none =>
      let l := s.playsLen st b
      State.absentOn s st t (vec + n * l.1) (t0 + n * l.2)

/-- The first line beyond the path of a lookahead that has not stopped: that of the segment entry it will read, which nothing
has requested. The segment of a resident loop's first pass that comes again needs no line. -/
def State.unreadLine (s : State) (st : Nat) : Option Nat :=
  let la := (s.stall st).look
  if la.mode = .going then
    match (s.resolve st [] 10 la.idx la.stack la.run).1 with
    | some (i, e, _) => if la.res.any (fun r => r.plays.any (fun p => p.idx == i)) then none else some e.start
    | none => none
  else none

/-- The earliest absent line of a stall whose start event has come: on the path ahead, or, where the lookahead has not read
the next entry, the first line of its segment (R205). -/
def State.firstAbsent (s : State) (st : Nat) : Option (Nat × Nat × Nat) :=
  match s.nextVec st with
  | none => none
  | some n =>
    let x := s.stall st
    match s.absentFrom st [n.p] n.v n.vec n.t0 with
    | some a => some a
    | none =>
      let rest := if n.first then (frontPlay x.path).tail else x.path
      match s.absentOn st rest (n.vec + (n.p.ent.vectors - n.v))
        (n.t0 + (s.vecSpan st n.p.ent n.p.ent.vectors - s.vecSpan st n.p.ent n.v)) with
      | .inl a => some a
      | .inr (vec, t0) => (s.unreadLine st).map (fun l => (vec, t0, l))

/-- The deadline of a line whose first vector begins at `t0`: 40 ns earlier (R205). -/
def deadline (t0 : Nat) : Nat := t0 - 64 * unitsPerCyc

/-- Marks a starvation whose deadline has passed: the pending stop and the starvation record (R205, R206). -/
def State.starve (s : State) (st vec line : Nat) : State :=
  let x := s.stall st
  let s := s.setStall st { x with starved := true, stops := x.stops ++ [⟨3, .beforeVec vec⟩] }
  let s := s.setRg64 .STL_STARVE_LINE_LO .STL_STARVE_LINE_HI line st
  s.setRg64 .STL_STARVE_VEC_LO .STL_STARVE_VEC_HI vec st

end Sys2Proof.Machine
end

