-- ==== Sys2Proof/Machine/Fmt.lean ====
section
/-! DEFINITION. Timing generators and formatters: waveform entries, the placing of drive and compare events, free-run
clocks, the encoder of a framer, undefined levels, halt states and the levels at the balls (R182, R209–R237, R247–R249,
R276, R277). -/

namespace Sys2Proof.Machine

open Sys2Proof

/-! ### Waveform entries (R215–R218) -/

/-- Word `w` of a channel's entry for a timing set and a character (R215). -/
def State.wft (s : State) (ch ts char w : Nat) : Nat := s.rg .WFT_WORD ch (128 * ts + 8 * char + w)

/-- The time of an event word. -/
def evTime (w : Nat) : Nat := w % 2 ^ 29

/-- The action or compare mode of an event word. -/
def evCode (w : Nat) : Nat := w / 2 ^ 29

/-- What a drive action sets, as DRV and DEN; none places no event (R217). -/
def driveAct (code : Nat) (b : Bool) : Option (Option Bool × Option Bool) :=
  match code with
  | 1 => some (some false, some true)
  | 2 => some (some true, some true)
  | 3 => some (none, some false)
  | 4 => some (some b, some true)
  | 5 => some (some (! b), some true)
  | 6 => some (none, some true)
  | _ => none

/-- 70 ps in units of 0.25 ps (R247, R248). -/
def sep : Nat := 280

/-- An instant moved by a deskew (R223). -/
def skewed (t : Nat) (skew : Int) : Nat := ((t : Int) + skew).toNat

/-- The drive deskew of a channel (R229). -/
def State.drvSkew (s : State) (ch : Nat) : Int := toSigned (s.fl F.CHN_DRV_SKEW.skew ch) 16

/-- The compare deskew of a channel (R229). -/
def State.cmpSkew (s : State) (ch : Nat) : Int := toSigned (s.fl F.CHN_CMP_SKEW.skew ch) 16

/-! ### Drive events -/

/-- Puts an event into the order of instants, behind events of the same instant (R225). -/
def insertEdge (e : DrvEdge) : List DrvEdge → List DrvEdge
  | [] => [e]
  | f :: t => if e.at_ < f.at_ then e :: f :: t else f :: insertEdge e t

/-- An instant lies less than 70 ps after the channel's last drive event (R247). -/
def Chan.closeTo (c : Chan) (t : Nat) : Bool :=
  match c.lastEdge with
  | some l => decide (t < l + sep)
  | none => false

/-- One drive event takes effect: the levels follow its action; two events closer than 70 ps leave them undefined from the
earlier one until an event 70 ps or more after the later one (R217, R247). In a vector of R249 the levels stay undefined.
The events still to come are `Chan.edges`. -/
def State.driveEdge (s : State) (ch : Nat) (e : DrvEdge) : State :=
  let c := s.chan ch
  if c.undefHold then s.setChan ch { c with lastEdge := some e.at_ }
  else
    let soon := c.edges.any (fun f => decide (f.at_ < e.at_ + sep))
    let n := { c with drv := e.drv.getD c.drv, den := e.den.getD c.den, lastEdge := some e.at_, undefTo := none }
    if c.closeTo e.at_ || soon then
      let d := s.draw 2
      d.2.setChan ch { n with undef := some (d.1.getLsbD 0, d.1.getLsbD 1) }
    else s.setChan ch { n with undef := none }

/-- The events of a list in the order of instants take effect up to an instant. -/
def State.driveAll (s : State) (ch upto : Nat) : List DrvEdge → State
  | [] => s
  | e :: t =>
    if e.at_ < upto then ((s.setChan ch { s.chan ch with edges := t }).driveEdge ch e).driveAll ch upto t else s

/-- Every placed event before an instant takes effect. -/
def State.driveTo (s : State) (ch upto : Nat) : State := s.driveAll ch upto (s.chan ch).edges

/-- Places a drive event (R223, R225). -/
def State.placeEdge (s : State) (ch bound : Nat) (a : Option Bool × Option Bool) : State :=
  let c := s.chan ch
  s.setChan ch { c with edges := insertEdge ⟨skewed bound (s.drvSkew ch), bound, a.1, a.2⟩ c.edges }

/-- The free levels of DRV and DEN while they are undefined at an instant (R247, R249). -/
def Chan.undefAt (c : Chan) (t : Nat) : Option (Bool × Bool) :=
  if c.undefTo.any (fun e => decide (e ≤ t)) then none else c.undef

/-- The level of DRV that stands at an instant, placed events included; none while it is undefined. -/
def Chan.levelAt (c : Chan) (t : Nat) : Option Bool :=
  (c.edges.filter (fun e => decide (e.at_ < t))).foldl
    (fun b e => match e.drv with
      | some v => some v
      | none => b) (if (c.undefAt t).isSome then none else some c.drv)

/-! ### A vector of one channel -/

/-- What a formatter takes for a vector: stall, vector mode, timing set, its period, the vector's number and T0, and its
play. -/
structure VecCtx where
  st : Nat
  mode : Nat
  ts : Nat
  per : Nat
  vec : Nat
  t0 : Nat
  pid : Nat
  deriving DecidableEq, Repr

/-- Places the event of one drive word (R217, R224). -/
def State.placeDrive (s : State) (k : VecCtx) (ch w : Nat) (b : Bool) : State :=
  match driveAct (evCode w) b with
  | none => s
  | some a =>
    if 2 * k.per ≤ evTime w then s.setFlag F.CHN_TG_STAT.late_event true ch
    else s.placeEdge ch (k.t0 + evTime w) a

/-- Puts a compare event into the order of instants. -/
def insertCmp (e : CmpEvt) : List CmpEvt → List CmpEvt
  | [] => [e]
  | f :: t => if e.at_ < f.at_ then e :: f :: t else f :: insertCmp e t

/-- Two compare events lie less than 70 ps apart (R248). -/
def CmpEvt.near (e f : CmpEvt) : Bool := decide (e.at_ < f.at_ + sep) && decide (f.at_ < e.at_ + sep)

/-- The results of some vectors on a channel are undefined: so is every judgement of theirs that is still to come (R248,
R249). -/
def Chan.undefine (c : Chan) (vecs : List Nat) : Chan :=
  { c with undefVecs := c.undefVecs ++ vecs.filter (fun v => ! c.undefVecs.contains v)
           cmp := c.cmp.map (fun f => if vecs.contains f.vec then { f with undef := true } else f)
           win := c.win.map (fun w => if vecs.contains w.evt.vec then { w with evt := { w.evt with undef := true } } else w) }

/-- Places a compare event on a channel; events less than 70 ps from it leave the results of their vectors and of its own
undefined (R225, R248). -/
def Chan.placeCmp (c : Chan) (e : CmpEvt) : Chan :=
  let close := (c.cmp.filter e.near).map (fun f => f.vec)
  let c := { c with cmp := insertCmp e c.cmp }
  if ! close.isEmpty then c.undefine (e.vec :: close).eraseDups
  else if c.undefVecs.contains e.vec then c.undefine [e.vec]
  else c

/-- Places the event of compare word `w`, 4 or 5 (R218, R223, R224). `flags` is word 6. -/
def State.placeCmp (s : State) (k : VecCtx) (ch w word flags : Nat) (b : Bool) : State :=
  let mode := evCode word
  if mode = 0 ∨ 4 < mode then s
  else if 2 * k.per ≤ evTime word then s.setFlag F.CHN_TG_STAT.late_event true ch
  else
    let c := s.chan ch
    let bound := k.t0 + evTime word
    let at_ := skewed bound (s.cmpSkew ch)
    let e : CmpEvt := ⟨at_, bound, mode, w, k.vec, k.t0, k.pid, if mode = 4 then bit b else flags % 4, tbit flags 4,
      tbit flags 3, false⟩
    let s := s.setChan ch (c.placeCmp e)
    if tbit flags 4 && mode ≠ 3 && ! s.flag F.CHN_CMP_CTL.mask ch then
      let x := s.stall k.st
      if x.cands.any (fun d => d.vec == k.vec) then s
      else s.setStall k.st { x with cands := x.cands ++ [⟨k.vec, k.pid, true⟩] }
    else s

/-- A channel's levels and results are undefined for a vector soon after a write to its waveform table (R249). -/
def State.undefVector (s : State) (ch vec : Nat) : State :=
  let d := s.draw 4
  d.2.setChan ch { (d.2.chan ch).undefine [vec] with
    drv := d.1.getLsbD 0, den := d.1.getLsbD 1, undef := some (d.1.getLsbD 2, d.1.getLsbD 3), undefTo := none
    undefHold := true }

/-- A vector begins on a channel: the events of earlier vectors take effect up to it where R249 concerns it or the vector
before it; then its levels and results are undefined, or defined again. -/
def State.beginVector (s : State) (k : VecCtx) (ch : Nat) (dirty : Bool) : State :=
  if dirty then (s.driveTo ch (skewed k.t0 (s.drvSkew ch))).undefVector ch k.vec
  else if (s.chan ch).undefHold then
    let s := s.driveTo ch (skewed k.t0 (s.drvSkew ch))
    s.setChan ch { s.chan ch with undefHold := false }
  else s

/-- Formats one vector on one channel: `char` is its character, `b` its data bit (R216–R230, R249). -/
def State.formatChannel (s : State) (k : VecCtx) (ch char : Nat) (b : Bool) : State :=
  let w (n : Nat) : Nat := s.wft ch k.ts char n
  let pair := k.mode == 3
  let free := s.flag F.CHN_TG_CTL.mode ch
  let c := s.chan ch
  let dirty := decide (k.t0 ≤ c.dirtyUntil) && decide (0 < c.dirtyUntil)
  let flags := w 6
  let s := (s.setChan ch { c with caps := (2 * c.caps + bit (tbit flags 2)) % 2 ^ 256 }).beginVector k ch dirty
  let ignored := pair && ((! free && (evCode (w 0) = 3 || evCode (w 0) = 6 || evCode (w 1) ≠ 0 || evCode (w 2) ≠ 0
      || evCode (w 3) ≠ 0)) || evCode (w 4) = 2 || evCode (w 4) = 3 || evCode (w 5) ≠ 0)
  let s := if ignored then s.setFlag F.CHN_TG_STAT.pair_ignored true ch else s
  let s :=
    if free || dirty then s
    else if pair then
      if evCode (w 0) = 3 ∨ evCode (w 0) = 6 then s else s.placeDrive k ch (w 0) b
    else (((s.placeDrive k ch (w 0) b).placeDrive k ch (w 1) b).placeDrive k ch (w 2) b).placeDrive k ch (w 3) b
  if pair then
    if evCode (w 4) = 2 ∨ evCode (w 4) = 3 then s else s.placeCmp k ch 4 (w 4) flags b
  else (s.placeCmp k ch 4 (w 4) flags b).placeCmp k ch 5 (w 5) flags b

/-! ### Free-run clocks (R230–R234) -/

/-- The largest increment (R233). -/
def incMax : Nat := 2 ^ 46

/-- The stored increment of a channel. -/
def State.frInc (s : State) (ch : Nat) : Nat := s.fl F.CHN_FR_INC_LO.inc_lo ch + s.fl F.CHN_FR_INC_HI.inc_hi ch * 2 ^ 32

/-- Edge `n` after a phase reset, in units of 0.25 ps from it: n half periods of 2^47 / inc root cycles, rounded to the
nearest unit, ties to the earlier (R234). -/
def frEdge (inc n : Nat) : Nat := (2 * (n * 2 ^ 47 * 625) + 2 * inc - 1) / (4 * inc)

/-- A phase reset of a free-run channel at T0 `t` (R231, R233). -/
def State.phaseReset (s : State) (ch t : Nat) : State :=
  let inc := min (s.frInc ch) incMax
  let c := s.chan ch
  let at_ := skewed t (s.drvSkew ch)
  let c := { c with edges := c.edges.filter (fun e => decide (e.at_ + sep < at_)), frReset := t, frInc := inc
                    frN := 1 }
  let s := s.setChan ch c
  let high := decide (0 < inc)
  if c.levelAt at_ = some high then s else s.placeEdge ch t (some high, some true)

/-- Places the clock edges of a free-run channel up to an instant, at most `n` of them. -/
def State.placeClock (s : State) (ch upto : Nat) : Nat → State
  | 0 => s
  | n + 1 =>
    let c := s.chan ch
    let t := c.frReset + frEdge c.frInc c.frN
    if c.frInc = 0 ∨ upto ≤ t then s
    else
      State.placeClock ((s.setChan ch { c with frN := c.frN + 1 }).placeEdge ch t
        (some (decide (c.frN % 2 = 0)), some true)) ch upto n

/-- A SETF pair takes effect: the increment register, clipped at 2^46 (R185, R186, R233). -/
def State.setInc (s : State) (ch inc : Nat) : State :=
  let s := if incMax < inc then s.setFlag F.CHN_TG_STAT.fr_clip true ch else s
  let v := min inc incMax
  (s.setRg .CHN_FR_INC_LO v ch).setRg .CHN_FR_INC_HI (v / 2 ^ 32) ch

/-! ### The encoder (R274–R277) -/

/-- The pattern bit of the vector `k` vectors after vector `v` of the first play, for a slice; none when its line is not
in the hopper. -/
def Stall.bitAhead (x : Stall) (r j : Nat) : List Play → Nat → Nat → Option Nat
  | [], _, _ => none
  | p :: t, v, k =>
    if v + k < p.ent.vectors then x.charAt p r j (v + k)
    else Stall.bitAhead x r j t 0 (k - (p.ent.vectors - v))

/-- Encodes the character that begins at vector 10n for framer `o`, the `r`-th octet of its stall (R276, R277). A pattern
bit that is not in the hopper is a free value. -/
def State.encodeChar (s : State) (st o r n : Nat) (plays : List Play) (v : Nat) : State :=
  let x := s.stall st
  let j := s.fl F.FRM_TX_CTL.ch o
  let got := (List.range 9).foldl
    (fun (a : Nat × State) i =>
      match x.bitAhead r j plays v i with
      | some b => (a.1 + b % 2 * 2 ^ i, a.2)
      | none => let d := a.2.draw 1; (a.1 + d.1.toNat * 2 ^ i, d.2)) (0, s)
  let s := got.2
  let k := tbit got.1 8
  let bad := k && ! kBytes.contains (got.1 % 256)
  let byte := if bad then 0xfe else got.1 % 256
  let s := if bad then s.setFlag F.FRM_STAT.tx_bad_k true o else s
  let pos := s.flag F.FRM_STAT.rd_tx o
  let g := encode8b10b byte k pos
  let s := s.setFlag F.FRM_STAT.rd_tx (groupDisparity g pos) o
  s.setFramer o { s.framer o with txChar := some (n, g) }

/-- The encoder of an octet works in this run. -/
def State.txOn (s : State) (st o : Nat) : Bool := s.flag F.FRM_TX_CTL.en o && decide (2 ≤ (s.stall st).mode)

/-- Encodes the next character of every encoding framer of a stall whose character begins at vector `vec` (R276). -/
def State.encodeAll (s : State) (st vec : Nat) (plays : List Play) (v : Nat) : State :=
  if vec % 10 ≠ 0 then s
  else
    ((s.stall st).octets.zipIdx).foldl
      (fun s e =>
        let done := match (s.framer e.1).txChar with
          | some (n, _) => decide (n = vec / 10)
          | none => false
        if s.txOn st e.1 && ! done then s.encodeChar st e.1 e.2 (vec / 10) plays v else s) s

/-- The data bit of a vector on a channel: the pattern's, or the encoder's (R220, R276). -/
def State.dataBit (s : State) (st o j vec char : Nat) : Bool :=
  if s.txOn st o && s.fl F.FRM_TX_CTL.ch o == j then
    match (s.framer o).txChar with
    | some (_, g) => tbit g (vec % 10)
    | none => tbit char 0
  else tbit char 0

/-! ### A vector of the stall -/

/-- Formats a vector on every channel of the stall (R219, R227, R228, R232). -/
def State.formatVector (s : State) (k : VecCtx) (p : Play) (v span : Nat) : State :=
  let x := s.stall k.st
  (x.octets.zipIdx).foldl
    (fun s e =>
      (List.range 8).foldl
        (fun s j =>
          let ch := 8 * e.1 + j
          if k.mode = 3 ∧ j % 2 = 1 then s
          else
            let char := (x.charAt p e.2 j v).getD 0
            let s := s.formatChannel k ch char (s.dataBit k.st e.1 j k.vec char)
            let s := if s.flag F.CHN_TG_CTL.mode ch
              then s.placeClock ch (k.t0 + span) (span * incMax / 2 ^ 50 + 4) else s
            s.driveTo ch (k.t0 - 8000)) s) s

/-! ### Halt states and the balls (R176, R182, R226) -/

/-- The halt-state code of a channel in its stall's STL_HALT (R188). -/
def State.haltCode (s : State) (st ch : Nat) : Nat :=
  let j := ch % 16
  bitsOf (s.rg .STL_HALT st (ch / 16)) (2 * j + 1) (2 * j)

/-- A channel's levels in a halt state: DZ, HOLD, D0 or D1 (R182). -/
def Chan.haltLevels (c : Chan) (code : Nat) : Chan :=
  if code = 0 then { c with drv := false, den := false }
  else if code = 1 then c
  else { c with drv := decide (code = 3), den := true }

/-- A channel takes a halt state, as a drive event of R247: less than 70 ps after another event the levels are undefined
until 70 ps after it (R182, R247). -/
def State.takeHalt (s : State) (ch code at_ : Nat) : State :=
  let c := s.chan ch
  let n := { c.haltLevels code with undef := none, undefTo := none, undefHold := false, lastEdge := some at_ }
  if c.closeTo at_ then
    let d := s.draw 2
    d.2.setChan ch { n with undef := some (d.1.getLsbD 0, d.1.getLsbD 1), undefTo := some (at_ + sep) }
  else s.setChan ch n

/-- A channel stops at a stop boundary: only events whose instant minus skew lies before it are placed, then the halt
state is taken (R176, R226). -/
def State.stopChannel (s : State) (st ch bound : Nat) : State :=
  let c := s.chan ch
  let s := s.setChan ch { c with edges := c.edges.filter (fun e => decide (e.bound < bound))
                                 cmp := c.cmp.filter (fun e => decide (e.bound < bound)) }
  let at_ := skewed bound (s.drvSkew ch)
  let s := s.driveTo ch (bound + 2 ^ 40)
  s.takeHalt ch (s.haltCode st ch) at_

/-- The levels DRV and DEN at a channel's balls: high-impedance while the timing-die outputs are held; DRV low and DEN off
for an idle octet, during a calibration or self-test of its stall, and under PIN_SAFE (R19, R27, R456, R482). -/
def State.balls (s : State) (ch : Nat) : Option (Bool × Bool) :=
  if ! s.drive.tim then none
  else
    match s.stallOfChan ch with
    | none => some (false, false)
    | some st =>
      if (s.stall st).pinSafe || s.looped ch then some (false, false)
      else
        let c := s.chan ch
        some ((c.undefAt s.nowU).getD (c.drv, c.den))

end Sys2Proof.Machine
end

