-- ==== Sys2Proof/Machine/Judge.lean ====
section
/-! DEFINITION. Compare results: judgements, vector results, fail counting and FAIL records, match candidates, windows on
the sampling grid, and the decoder of a framer (R251–R268, R278–R285). -/

namespace Sys2Proof.Machine

open Sys2Proof

/-! ### Samples (R251, R252) -/

/-- The state code of a sample: L, H, M, I (R251). -/
def stateCode (h l : Bool) : Nat := if h then (if l then 1 else 3) else (if l then 2 else 0)

/-- The state of a channel's sample from the levels of its input legs, after the inversions (R251). -/
def State.sample (s : State) (ch : Nat) (h l : Bool) : Nat :=
  stateCode (h != s.flag F.CHN_CMP_CTL.inv_h ch) (l != s.flag F.CHN_CMP_CTL.inv_l ch)

/-- Whether a sampled state passes an expectation (R252). -/
def passes (expect st : Nat) : Bool := expect == 3 || expect == st

/-- A sample in state I sets the channel's flag (R252). -/
def State.noteSample (s : State) (ch st : Nat) : State :=
  if st = 3 then s.setFlag F.CHN_CMP_STAT.inconsistent true ch else s

/-! ### Vector results (R256, R257, R260–R263) -/

/-- Judgements of a vector that are still to come on a channel. -/
def Chan.pendingVec (c : Chan) (vec : Nat) : Bool :=
  c.cmp.any (fun e => e.vec == vec && e.mode != 3)
    || (match c.win with
        | some w => w.evt.vec == vec
        | none => false)

/-- The stall keeps the instants of fails not yet counted by a decision point: the earliest and the latest (R154,
R262). -/
def addFail (l : List Nat) (t : Nat) : List Nat :=
  match l with
  | [] => [t, t]
  | a :: rest => [min a t, max (rest.head?.getD a) t]

/-- The first-fail registers take a failing vector and channel (R263). -/
def State.firstFail (s : State) (st vec ch : Nat) : State :=
  let held := s.rg64 .STL_FIRST_FAIL_LO .STL_FIRST_FAIL_HI st
  let valid := s.flag F.STL_FIRST_FAIL_CH.valid st
  if ! valid || decide (vec < held) then
    (s.setRg64 .STL_FIRST_FAIL_LO .STL_FIRST_FAIL_HI vec st).setRg .STL_FIRST_FAIL_CH (ch + 128) st
  else if vec = held ∧ ch < s.fl F.STL_FIRST_FAIL_CH.channel st then s.setRg .STL_FIRST_FAIL_CH (ch + 128) st
  else s

/-- A fail result of a vector on a channel is complete: the counters and the first fail (R260, R261, R263). -/
def State.failResult (s : State) (st ch vec : Nat) : State :=
  let s := s.bump F.CHN_FAIL_CNT.count 1 ch
  let x := s.stall st
  let s := if x.failVecs.contains vec then s
    else (s.setStall st { x with failVecs := vec :: x.failVecs.filter (fun v =>
      (s.chansOf st).any (fun c => (s.chan c).pendingVec v)) }).bump F.STL_FAIL_VEC.count 1 st
  s.firstFail st vec ch

/-- The result of a vector on a channel completes when no judgement of it is to come; an undefined result is a free value
(R248, R249, R257). -/
def State.completeVec (s : State) (st ch vec : Nat) : State :=
  let c := s.chan ch
  if c.pendingVec vec then s
  else
    let n := { c with vfail := c.vfail.filter (fun v => v != vec), undefVecs := c.undefVecs.filter (fun v => v != vec) }
    if c.undefVecs.contains vec && ! s.flag F.CHN_CMP_CTL.mask ch then
      let d := s.draw 1
      let s := d.2.setChan ch n
      if d.1.getLsbD 0 then s.failResult st ch vec else s
    else if c.vfail.contains vec then (s.setChan ch n).failResult st ch vec
    else s.setChan ch n

/-- The results of a channel complete that wait for no judgement any more: those whose other events were not placed, and
those of undefined vectors (R248, R249, R257, R258). -/
def State.settleVecs (s : State) (st ch : Nat) : State :=
  let c := s.chan ch
  (c.vfail ++ c.undefVecs).eraseDups.foldl (fun s v => s.completeVec st ch v) s

/-- The results that a vector soon after a write to a waveform table leaves undefined complete at once where it has no
judgement to come (R249). -/
def State.settleUndef (s : State) (st : Nat) : State :=
  (s.chansOf st).foldl (fun s ch => if (s.chan ch).undefHold then s.settleVecs st ch else s) s

/-! ### Match (R267, R268) -/

/-- Some match judgement of a vector is still to come on the stall. -/
def State.matchPending (s : State) (st vec : Nat) : Bool :=
  (s.chansOf st).any (fun ch =>
    let c := s.chan ch
    ! s.flag F.CHN_CMP_CTL.mask ch
      && (c.cmp.any (fun e => e.vec == vec && e.mode != 3 && e.matchEn)
        || (match c.win with
            | some w => w.evt.vec == vec && w.evt.matchEn
            | none => false)))

/-- Takes the candidates whose judgements are complete, in vector order; at most `n` of them. -/
def State.takeCands (s : State) (st at_ : Nat) : Nat → State
  | 0 => s
  | n + 1 =>
    let x := s.stall st
    match x.cands with
    | [] => s
    | d :: t =>
      if s.matchPending st d.vec then s
      else
        let run := if d.ok then x.matchRun + 1 else 0
        let met := d.ok && run == s.fl F.STL_MATCH_CTL.run st
        let s := s.setStall st { x with cands := t, matchRun := run
                                        matchAt := if met then some (x.matchAt.getD at_) else x.matchAt }
        let s := if met then s.trigEvent st 4 0 (tagOf (at_ - x.epoch)) else s
        State.takeCands s st at_ n

/-! ### Judgements (R253–R264) -/

/-- One judgement of a channel: `src` is the detail source of R264, `state` the sampled state. -/
def State.judge (s : State) (st ch : Nat) (e : CmpEvt) (src : Nat) (pass : Bool) (state at_ : Nat) : State :=
  if s.flag F.CHN_CMP_CTL.mask ch then s
  else if e.matchEn then
    let x := s.stall st
    let s := s.setStall st { x with cands := x.cands.map (fun d =>
      if d.vec = e.vec ∧ d.pid = e.pid then { d with ok := d.ok && pass } else d) }
    s.takeCands st at_ (s.stall st).cands.length
  else
    let s :=
      if pass then s
      else
        let x := s.stall st
        let s := s.setStall st { x with failAt := addFail x.failAt at_ }
        let c := s.chan ch
        let s := s.setChan ch { c with vfail := if c.vfail.contains e.vec then c.vfail else e.vec :: c.vfail }
        let s := s.trigEvent st 3 0 (tagOf (at_ - x.epoch)) ch
        if e.noRec then s
        else
          let r : Rec := ⟨1, 0, st, ch, src * 16 + e.expect * 4 + state, tagOf (e.t0 - x.epoch), e.vec % 2 ^ 40⟩
          (s.failLog r).form ch r
    s.completeVec st ch e.vec

/-- A judgement whose result is undefined: pass and state are free (R248, R249). -/
def State.judgeFree (s : State) (st ch : Nat) (e : CmpEvt) (src at_ : Nat) : State :=
  let d := s.draw 3
  d.2.judge st ch e src (d.1.getLsbD 0) (d.1.toNat / 2) at_

/-- The first grid sample at or after an instant, given as its distance from the epoch without skew (R254). -/
def gridFrom (rel : Nat) : Nat := (2 * rel + 624) / 625

/-- The state of grid sample `k` of a channel (R254, R293). -/
def Chan.gridState (c : Chan) (k : Nat) : Nat :=
  match c.grid.find? (fun g => decide (g.1 ≤ k)) with
  | some g => g.2
  | none => (c.grid.getLast?.map (fun g => g.2)).getD 0

/-- The state of a window's first failing sample among `k0` to `k1` − 1, if one fails: the samples change only where the
grid records a change. -/
def Chan.windowFail (c : Chan) (expect k0 k1 : Nat) : Option Nat :=
  let ks := k0 :: ((c.grid.filter (fun g => decide (k0 < g.1) && decide (g.1 < k1))).map (fun g => g.1)).reverse
  (ks.find? (fun k => ! passes expect (c.gridState k))).map c.gridState

/-- Closes window `w` of a channel at an instant and judges it; `next` is the window that opens there, if one does (R254,
R255). A window before whose close no grid sample is known is judged on free states (log 60). `undef` says that the event which closes it is one of R248. -/
def State.closeWin (s : State) (st ch bound at_ : Nat) (w : OpenWin) (undef : Bool) (next : Option OpenWin) : State :=
  let c := s.chan ch
  let k1 := gridFrom (bound - (s.stall st).epoch)
  let s := s.setChan ch { c with win := next, grid := c.grid.take 1 }
  let src := w.evt.word - 1
  if k1 ≤ w.k0 then
    (s.setFlag F.CHN_CMP_STAT.empty_window true ch).judge st ch w.evt src true 0 at_
  else if w.evt.undef || undef || c.grid.isEmpty then s.judgeFree st ch w.evt src at_
  else
    match c.windowFail w.evt.expect w.k0 k1 with
    | none => s.judge st ch w.evt src true 0 at_
    | some v => s.judge st ch w.evt src false v at_

/-- Discards a window that is open at its stall's stop boundary, once the events placed before it are judged (R255). -/
def State.cutWin (s : State) (st ch : Nat) : State :=
  let c := s.chan ch
  match c.win with
  | some w =>
    if c.cmp.isEmpty then
      ((s.setChan ch { c with win := none }).setFlag F.CHN_CMP_STAT.window_cut true ch).completeVec st ch w.evt.vec
    else s
  | none => s

/-! ### Received bits -/

/-- Vectors between the input samples of a chain (R338). -/
def State.fltStep (s : State) (c st : Nat) : Nat :=
  s.fl F.FLT_CTL.div c * (if (s.stall st).mode = 3 then 2 else 1)

/-- The channels of a chain's input, lowest first (R339). -/
def State.fltChans (s : State) (c : Nat) : List Nat :=
  let ch := s.fl F.FLT_CTL.ch c
  if s.flag F.FLT_CTL.input c then (List.range (s.fl F.FLT_CTL.width c)).map (fun j => ch + j) else [ch]

/-- The vector of a chain's next input sample, or of an earlier one when a synchronising reset is to come (R338, R341). -/
def State.fltNext (s : State) (c st : Nat) : Nat := (s.flt c).v0 + (s.flt c).s * s.fltStep c st

/-- The enabled chains of a stall. -/
def State.chainsOf (s : State) (st : Nat) : List Nat :=
  (List.range 16).filter (fun c => s.flag F.FLT_ASSIGN.assigned c && s.fl F.FLT_ASSIGN.stall c == st && s.flag F.FLT_CTL.en c)

/-- A word-4 strobe's CMPH level is kept for the decoder of the octet's framer and for the decimation chains, which take every
bit that they need however late (R278, R338). -/
def State.keepStrobe (s : State) (st ch vec : Nat) (h : Bool) : State :=
  let o := ch / 8
  let s := if s.flag F.FRM_RX_CTL.en o && s.fl F.FRM_RX_CTL.ch o == ch % 8 then
      let f := s.framer o
      s.setFramer o { f with rx := f.rx ++ [(vec, h)] }
    else s
  if (s.chainsOf st).any (fun c => (s.fltChans c).contains ch) then
    s.withFltBits (mset (fun _ => []) s.fltBits ch ((vec, h) :: mget (fun _ => []) s.fltBits ch))
  else s

/-- A placed compare event of a channel reaches its instant (R253–R255, R278). -/
def State.compareEvent (s : State) (st ch : Nat) (e : CmpEvt) (h l : Bool) : State :=
  let code := s.sample ch h l
  if e.mode = 1 ∨ e.mode = 4 then
    let s := if e.word = 4 then s.keepStrobe st ch e.vec (decide (code = 1 ∨ code = 3)) else s
    let s := s.noteSample ch code
    if e.undef then s.judgeFree st ch e (e.word - 3) e.at_
    else s.judge st ch e (e.word - 3) (passes e.expect code) code e.at_
  else if e.mode = 2 then
    let w : OpenWin := ⟨e, gridFrom (e.bound - (s.stall st).epoch)⟩
    match (s.chan ch).win with
    | some o => (s.setFlag F.CHN_CMP_STAT.reopen true ch).closeWin st ch e.bound e.at_ o e.undef (some w)
    | none => s.setChan ch { s.chan ch with win := some w }
  else
    match (s.chan ch).win with
    | some o => s.closeWin st ch e.bound e.at_ o e.undef none
    | none => s.setFlag F.CHN_CMP_STAT.orphan_close true ch

/-! ### The decoder (R278–R285) -/

/-- The receive channel of a framer. -/
def State.rxChan (s : State) (o : Nat) : Nat := 8 * o + s.fl F.FRM_RX_CTL.ch o

/-- T0 of a recent vector, for a framer: of the twenty bits that end with the bit to decode, and of those that follow. -/
def Framer.t0 (f : Framer) (vec : Nat) : Nat := ((f.t0s.find? (fun e => e.1 == vec)).map (fun e => e.2)).getD 0

/-- A group is a comma (R279). -/
def anyComma (g : Nat) : Bool := isK g 0x3c || isK g 0xbc || isK g 0xfc

/-- A group is a comma that FRM_RX_CTL enables (R279). -/
def State.isComma (s : State) (o g : Nat) : Bool :=
  (s.flag F.FRM_RX_CTL.k28_1 o && isK g 0x3c) || (s.flag F.FRM_RX_CTL.k28_5 o && isK g 0xbc)
    || (s.flag F.FRM_RX_CTL.k28_7 o && isK g 0xfc)

/-- Writes the FRAME record that is being filled (R284). -/
def State.frameRecord (s : State) (st o : Nat) : State :=
  let f := s.framer o
  match f.recChars with
  | [] => s
  | (t0, _) :: _ =>
    let cs := f.recChars.map (fun c => c.2)
    let pay := (cs.zipIdx).foldl (fun a c => a + c.1 * 2 ^ (9 * c.2)) ((cs.length - 1) * 2 ^ 38)
    let r : Rec := ⟨8, 0, st, s.rxChan o, 0, tagOf (t0 - (s.stall st).epoch), pay⟩
    (s.setFramer o { f with recChars := [] }).form (s.rxChan o) r

/-- One decoded character, with its T0, enters the FRAME record; four of them complete it (R284). -/
def State.frameChar (s : State) (st o : Nat) (c : Nat × Nat) : State :=
  let f := s.framer o
  let s := s.setFramer o { f with recChars := f.recChars ++ [c] }
  if (s.framer o).recChars.length = 4 then s.frameRecord st o else s

/-- The character held back because it may begin an idle ordered set enters the FRAME record. -/
def State.unhold (s : State) (st o : Nat) : State :=
  let f := s.framer o
  match f.held with
  | none => s
  | some c => (s.setFramer o { f with held := none }).frameChar st o c

/-- A valid character of an aligned decoder: idle ordered sets and FRAME records (R283, R284). `idx` counts the
characters from the alignment. -/
def State.validChar (s : State) (st o n idx c : Nat) : State :=
  let f := s.framer o
  let idle := (c == 0xc5 || c == 0x50) && f.lastChar == some (idx - 1, 0x1bc) && decide (0 < idx) && decide ((idx - 1) % 2 = 0)
  let s := s.setFramer o { f with lastChar := some (idx, c), idleSeen := f.idleSeen || idle }
  let s := s.setFlag F.FRM_STAT.idle idle o
  if ! s.flag F.FRM_RX_CTL.cap_en o then s
  else if s.flag F.FRM_RX_CTL.drop_idle o then
    if idle then s.setFramer o { s.framer o with held := none }
    else
      let s := s.unhold st o
      if c = 0x1bc ∧ idx % 2 = 0 then s.setFramer o { s.framer o with held := some (f.t0 (10 * n), c) }
      else s.frameChar st o (f.t0 (10 * n), c)
  else s.frameChar st o (f.t0 (10 * n), c)

/-- A FAIL record of a framer error, with its copy (R264, R265, R282). -/
def State.framerFail (s : State) (st o src n g : Nat) : State :=
  let f := s.framer o
  let r : Rec := ⟨1, 0, st, s.rxChan o, src * 16, tagOf (f.t0 (10 * n) - (s.stall st).epoch),
    g + n % 2 ^ 30 * 2 ^ 10⟩
  (s.failLog r).form (s.rxChan o) r

/-- A change of a decoder's alignment at the group that begins with stream bit `p`: it takes place at the T0 of the group's
last bit plus the compare deskew (R282, R285). -/
def State.setAlign (s : State) (o p : Nat) (a : Option Nat) : State :=
  let f := s.framer o
  let at_ := skewed (f.t0 (p + 9)) (s.cmpSkew (s.rxChan o))
  (s.setFramer o { f with align := a, commas := [], score := 0, locks := ((at_, a.isSome) :: f.locks).take 64 }).setFlag
    F.FRM_STAT.aligned a.isSome o

/-- An error of an aligned decoder: count, record, latch, score and loss of alignment (R280–R282). -/
def State.framerError (s : State) (st o p g src : Nat) (cnt : FRef) : State :=
  let n := p / 10
  let s := (s.unhold st o).frameRecord st o
  let s := (s.bump cnt 1 o).framerFail st o src n g
  let f := s.framer o
  let at_ := skewed (f.t0 (10 * n + 9)) (s.cmpSkew (s.rxChan o))
  let s := if s.flag F.FRM_RX_CTL.err_latch o then
      let x := s.stall st
      s.setStall st { x with failAt := addFail x.failAt at_ }
    else s
  let f := { s.framer o with good := 0, score := f.score + 1, lastChar := none }
  let s := (s.setFramer o f).setFlag F.FRM_STAT.idle false o
  if s.fl F.FRM_RX_CTL.loss o ≤ f.score then
    ((s.setAlign o p none).setFlag F.FRM_STAT.lost_align true o).framerFail st o 7 n g
  else s

/-- The decoder takes one group that ends with stream bit `p` + 9 (R279, R280). -/
def State.framerGroup (s : State) (st o p g : Nat) : State :=
  let f := s.framer o
  match f.align with
  | some a =>
    if p % 10 ≠ a % 10 then
      if anyComma g then s.bump F.FRM_MISALIGN.count 1 o else s
    else
      let rd := s.flag F.FRM_STAT.rd_rx o
      match decode8b10b g rd with
      | some c =>
        let s := s.setFlag F.FRM_STAT.rd_rx (groupDisparity g rd) o
        let s := s.setFramer o (if f.good = 3 then { f with good := 0, score := f.score - 1 } else { f with good := f.good + 1 })
        s.validChar st o (p / 10) ((p - a) / 10) c
      | none =>
        if (decode8b10b g (! rd)).isSome then
          (s.setFlag F.FRM_STAT.rd_rx (groupDisparity g rd) o).framerError st o p g 5 F.FRM_DISP_ERR.count
        else s.framerError st o p g 6 F.FRM_CODE_ERR.count
  | none =>
    let r := p % 10
    let cnt := mget (fun _ => 0) f.commas r
    if s.isComma o g then
      if s.fl F.FRM_RX_CTL.acq o ≤ cnt + 1 then
        let s := s.setAlign o p (some p)
        let s := s.setFramer o { s.framer o with good := 0, lastChar := if isK g 0xbc then some (0, 0x1bc) else none }
        s.setFlag F.FRM_STAT.rd_rx (groupDisparity g false) o
      else s.setFramer o { f with commas := mset (fun _ => 0) f.commas r (cnt + 1) }
    else if validGroup g then s
    else s.setFramer o { f with commas := mset (fun _ => 0) f.commas r 0 }

/-- The decoder takes the next stream bit (R278). -/
def State.framerBit (s : State) (st o : Nat) : State :=
  let f := s.framer o
  let b := f.rx.find? (fun e => e.1 == f.pos)
  let s := if b.isNone then s.setFlag F.FRM_STAT.no_strobe true o else s
  let bits := (f.bits ++ [(b.map (fun e => e.2)).getD false])
  let bits := bits.drop (bits.length - 10)
  let s := s.setFramer o { f with bits := bits, pos := f.pos + 1, rx := f.rx.filter (fun e => decide (f.pos < e.1)) }
  if bits.length < 10 then s
  else s.framerGroup st o (f.pos - 9) ((bits.zipIdx).foldl (fun a e => a + bit e.1 * 2 ^ e.2) 0)

/-- The next stream bit of an octet's decoder can be taken: its vector is played and its word-4 strobe, if one is placed, is
judged (R274, R278). -/
def State.bitReady (s : State) (st o : Nat) : Bool :=
  let f := s.framer o
  let x := s.stall st
  s.stState st == stRunning && s.flag F.FRM_RX_CTL.en o && decide (2 ≤ x.mode)
    && x.vec.any (fun v => decide (f.pos ≤ v))
    && ! (s.chan (s.rxChan o)).cmp.any (fun e => e.word == 4 && e.vec == f.pos)

/-- The decoder takes the stream bits that are ready, at most `n`. -/
def State.framerBits (s : State) (st o : Nat) : Nat → State
  | 0 => s
  | n + 1 => if s.bitReady st o then State.framerBits (s.framerBit st o) st o n else s

/-- The decoders of a stall take every stream bit that is ready (R278, R285). -/
def State.drainFramers (s : State) (st : Nat) : State :=
  (s.stall st).octets.foldl
    (fun s o => s.framerBits st o (((s.stall st).vec.map (fun v => v + 1 - (s.framer o).pos)).getD 0)) s

/-- Remembers the T0 of a vector for the decoders of a stall. -/
def State.framerT0 (s : State) (st vec t0 : Nat) : State :=
  (s.stall st).octets.foldl
    (fun s o =>
      if s.flag F.FRM_RX_CTL.en o && decide (2 ≤ (s.stall st).mode) then
        let f := s.framer o
        s.setFramer o { f with t0s := f.t0s.filter (fun e => decide (f.pos ≤ e.1 + 20)) ++ [(vec, t0)] }
      else s) s

end Sys2Proof.Machine
end

