-- ==== Sys2Proof/Machine/TimOps.lean ====
section
/-! DEFINITION. The gates and states of the time-interval units that register writes, pins, markers and events share
(R323–R325, R331, R332). -/

namespace Sys2Proof.Machine

open Sys2Proof

/-- State codes of R324. -/
def tmOff : Nat := 0
/-- WAIT_GATE. -/
def tmWaitGate : Nat := 1
/-- WAIT_START. -/
def tmWaitStart : Nat := 2
/-- WAIT_STOP. -/
def tmWaitStop : Nat := 3
/-- DEAD. -/
def tmDead : Nat := 4

/-- The state code of a unit. -/
def State.timState (s : State) (u : Nat) : Nat := s.fl F.TIM_STAT.state u

/-- Stores the state code of a unit. -/
def State.setTimState (s : State) (u v : Nat) : State := s.setFl F.TIM_STAT.state v u

/-- The unit serves the SYNC measurement (R332). -/
def State.timSync (s : State) (u : Nat) : Bool := u == 0 && s.flag F.TB_SYNC_CTL.meas_en

/-- The stall that a unit is assigned to. -/
def State.timStall (s : State) (u : Nat) : Option Nat :=
  if s.flag F.TIM_ASSIGN.assigned u then some (s.fl F.TIM_ASSIGN.stall u) else none

/-- A unit is assigned to an armed or running stall. -/
def State.timBusy (s : State) (u : Nat) : Bool :=
  match s.timStall u with
  | some st => s.busyStall st
  | none => false

/-- The gate of a unit opens at an instant (R323, R324): a unit in WAIT_GATE waits for a start and its done flag is cleared;
an opening in WAIT_STOP or DEAD is counted as missed. A soft gate stays open only until a start edge is accepted, so one that
no unit waits for is not kept. -/
def State.openGate (s : State) (u at_ : Nat) : State :=
  let w := s.timState u
  let t := s.tim u
  if w = tmWaitGate then
    ((s.setTim u { t with gateOpen := true, openAt := at_, started := true }).setTimState u tmWaitStart).setFlag
      F.TIM_STAT.done false u
  else
    let s := if s.fl F.TIM_CTL.gate_src u = 0 ∧ w ≠ tmWaitStart then s else s.setTim u { t with gateOpen := true }
    if w = tmWaitStop ∨ w = tmDead then s.bump F.TIM_MISS.count 1 u else s

/-- The gate of a unit closes: an opening without a start edge is counted as missed (R324). -/
def State.closeGate (s : State) (u : Nat) : State :=
  let t := s.tim u
  let s := s.setTim u { t with gateOpen := false }
  if s.timState u = tmWaitStart then (s.setTimState u tmWaitGate).bump F.TIM_MISS.count 1 u else s

/-- The marker gates of bit `n` of a stall follow it at an instant: they open at the T0 of the first marked vector and close
at the T0 of the first unmarked one (R237, R323). -/
def State.markGates (s : State) (st n at_ : Nat) (up : Bool) : State :=
  (List.range 16).foldl
    (fun s u =>
      if s.timStall u == some st && s.fl F.TIM_CTL.gate_src u == 2 && s.fl F.TIM_CTL.gate_idx u == n && ! s.timSync u then
        if up then s.openGate u at_ else if (s.tim u).gateOpen then s.closeGate u else s
      else s) s

/-- A measurement in progress is abandoned: WAIT_GATE with the cut flag (R325). -/
def State.abandon (s : State) (u : Nat) : State :=
  if s.timState u = tmWaitStart ∨ s.timState u = tmWaitStop then
    (s.setTimState u tmWaitGate).setFlag F.TIM_STAT.cut true u
  else s

/-- The unit follows TIM_CTL.en after a write (R324): enabled from OFF it waits for its gate; disabled it is OFF. -/
def State.followEn (s : State) (u : Nat) : State :=
  if s.flag F.TIM_CTL.en u then
    (if s.timState u = tmOff then s.setTimState u tmWaitGate else s)
  else s.setTimState u tmOff

end Sys2Proof.Machine
end

