-- ==== Sys2Proof/Machine/StallOps.lean ====
section
/-! DEFINITION. A stall's run: the start event, the vectors, decision points, markers, stopping, the stall reset, and what
leaves ARMED (R146, R152–R185, R236, R237, R292, R300, R312, R325, R331, R493, R537–R539). -/

namespace Sys2Proof.Machine

open Sys2Proof

/-! ### Markers (R183, R236, R237) -/

/-- The marker bits of vector `v` of a play (R183). -/
def markersOf (p : Play) (v : Nat) : Nat :=
  match p.ent.mkrMode with
  | 1 => if v = 0 then p.ent.mkrBits else 0
  | 2 => p.ent.mkrBits
  | 3 => if v + 1 = p.ent.vectors then p.ent.mkrBits else 0
  | _ => 0

/-- A chain takes a synchronising reset at a vector (R341). -/
def State.syncChain (s : State) (c vec : Nat) : State :=
  let f := s.flt c
  if f.resets.contains vec then s else s.setFlt c { f with resets := f.resets ++ [vec] }

/-- A stall's marker bits change at an instant: the balls that it drives after their delays, the gates of units and marker
triggers without a delay, and the synchronising resets of chains (R236, R237, R304, R323, R341). -/
def State.setMarkers (s : State) (st new t vec : Nat) : State :=
  let x := s.stall st
  let old := x.markers.toNat
  if old = new then s
  else
    let s := s.setStall st { x with markers := BitVec.ofNat 8 new }
    (List.range 8).foldl
      (fun s n =>
        if tbit old n = tbit new n then s
        else
          let s := if tbit (s.fl F.DEV_PART.mkr_out st) n then
              s.withMkrEdges (s.mkrEdges ++ [(t + s.fl F.DEV_MKR_DLY.delay n, n, tbit new n)])
            else s
          let s := s.markGates st n t (tbit new n)
          if tbit new n then
            let s := s.trigEvent st 2 n (tagOf (t - x.epoch))
            (List.range 16).foldl
              (fun s c =>
                if s.flag F.FLT_ASSIGN.assigned c && s.fl F.FLT_ASSIGN.stall c == st && s.flag F.FLT_SYNC.mkr_en c
                    && s.fl F.FLT_SYNC.mkr_idx c == n then
                  s.syncChain c (if x.mode = 3 then vec + vec % 2 else vec)
                else s) s
          else s) s

/-! ### Conditions and decision points (R152–R165, R285, R331) -/

/-- 5 ns in units of 0.25 ps (R154). -/
def condLead : Nat := 20000

/-- TIM_DONE at a decision point's T0 (R331). -/
def State.timDone (s : State) (st t0 : Nat) : Bool :=
  (List.range 16).all (fun u =>
    if s.flag F.TIM_ASSIGN.assigned u && s.fl F.TIM_ASSIGN.stall u == st && (s.tim u).started then
      s.flag F.TIM_STAT.done u && decide ((s.tim u).doneAt + condLead ≤ t0)
    else true)

/-- FRAME_LOCK at a decision point's T0 (R285). -/
def State.frameLock (s : State) (st t0 : Nat) : Bool :=
  (s.stall st).octets.all (fun o =>
    if s.flag F.FRM_RX_CTL.en o then
      (((s.framer o).locks.find? (fun e => decide (e.1 + condLead ≤ t0))).map (fun e => e.2)).getD false
    else true)

/-- Samples a condition at a decision point's T0 (R152, R154). -/
def State.condTrue (s : State) (st code t0 : Nat) : Bool :=
  let x := s.stall st
  let failed := x.failAt.any (fun t => decide (t + condLead ≤ t0))
  if code = 0 then true
  else if code = 1 then failed
  else if code = 2 then ! failed
  else if code = 3 then (match x.matchAt with
    | some t => decide (t + condLead ≤ t0)
    | none => false)
  else if code ≤ 7 then x.trigAt.any (fun e => e.1 == code - 4 && decide (e.2 + condLead ≤ t0))
  else if code ≤ 15 then tbit (s.fl F.STL_FLAGS.hostflag st) (code - 8)
  else if code ≤ 23 then tbit (s.fl F.STL_FLAGS.yardflag st) (code - 16)
  else if code = 24 then s.timDone st t0
  else s.frameLock st t0

/-- The latches that a decision point which sampled them clears: what it counted (R152, R153, R154). -/
def State.clearLatches (s : State) (st code t0 : Nat) : State :=
  let x := s.stall st
  if code = 1 ∨ code = 2 then
    if s.flag F.STL_SEQ_CTL.fail_scope st then s
    else
      let later := x.failAt.filter (fun t => ! decide (t + condLead ≤ t0))
      s.setStall st { x with failAt := match later with
        | [t] => [t, t]
        | l => l }
  else if 4 ≤ code ∧ code ≤ 7 then
    s.setStall st { x with trigAt := x.trigAt.filter (fun e => ! (e.1 == code - 4 && decide (e.2 + condLead ≤ t0))) }
  else s

/-- The decision point of a conditional entry (R157, R162, R164, R165). -/
def State.decide_ (s : State) (st : Nat) (p : Play) (t0 : Nat) : State :=
  let s := s.drainFramers st
  let c := s.condTrue st p.ent.cond t0
  let s := s.clearLatches st p.ent.cond t0
  if p.ent.op = 7 then s.goOn st c (if c then p.ent.target else p.idx + 1) 0 p.stack
  else if c then s.goOn st false (p.idx + 1) 0 p.stack
  else if p.waitc = p.ent.count + 1 then
    let s := s.setFlag F.STL_SEQ_STAT.waitc_timeout true st
    if s.flag F.STL_SEQ_CTL.timeout_halt st then s.endPath st else s.goOn st false (p.idx + 1) 0 p.stack
  else s.goOn st true p.idx p.waitc p.stack

/-! ### When the stall stops (R176–R178, R205) -/

/-- Vector 0 has begun and no stop has taken effect. -/
def State.running (s : State) (st : Nat) : Bool := s.stState st == stRunning

/-- A stop of a stall that has arisen and is due at the boundary before vector `vec`, at instant `t`. -/
def Stall.stopDue (x : Stall) (p : PendStop) (t vec : Nat) : Bool :=
  match p.at_ with
  | .atTime a => decide (a ≤ t)
  | .beforeVec v => decide (v ≤ vec)
  | .segEnd f => decide (f ≤ x.segFirst) && (match x.cur with
    | some q => decide (x.segFirst + q.ent.vectors ≤ vec)
    | none => false)

/-- Some line that the next vector needs is poisoned. -/
def Stall.nextPoisoned (x : Stall) (n : NextVec) : Bool :=
  (x.needs n.p n.v).any (fun l => match x.heldLine n.p l.1 with
    | some h => h.poison
    | none => false)

/-- Every line that the next vector needs is in the hopper. -/
def Stall.nextHeld (x : Stall) (n : NextVec) : Bool := (x.needs n.p n.v).all (fun l => (x.heldLine n.p l.1).isSome)

/-- The causes that stop the stall at the boundary that ends the vector in play. -/
def State.stopCauses (s : State) (st : Nat) : List Nat :=
  let x := s.stall st
  match x.vec with
  | none => []
  | some v =>
    let due := (x.stops.filter (fun p => x.stopDue p x.tNext (v + 1))).map (fun p => p.cause)
    match s.nextVec st with
    | some n => due ++ (if x.nextPoisoned n then [4] else [])
    | none =>
      due ++ (match x.look.mode with
        | .halted => [1]
        | .seqErr _ => [1]
        | .poisoned => [4]
        | _ => [])

/-- The next vector can be played: it exists, no stop is due before it, and its lines are held and not poisoned. -/
def State.canPlay (s : State) (st : Nat) : Option NextVec :=
  let x := s.stall st
  match s.nextVec st with
  | none => none
  | some n =>
    let busy := s.running st || (s.stState st == stArmed && n.vec == 0)
    if busy && (s.stopCauses st).isEmpty && x.nextHeld n && ! x.nextPoisoned n then some n else none

/-! ### The start event (R173, R292, R300, R312, R538) -/

/-- The units assigned to a stall abandon a measurement when it stops, and their marker gates close; the abandoned opening
is not one that closed first, so it is not counted as missed (R323–R325). -/
def State.cutTims (s : State) (st : Nat) : State :=
  (List.range 16).foldl
    (fun s u =>
      if s.flag F.TIM_ASSIGN.assigned u && s.fl F.TIM_ASSIGN.stall u == st && ! (u == 0 && s.flag F.TB_SYNC_CTL.meas_en) then
        let s := if s.fl F.TIM_CTL.gate_src u = 2 then s.setTim u { s.tim u with gateOpen := false } else s
        let w := s.fl F.TIM_STAT.state u
        if w == 2 || w == 3 then (s.setFl F.TIM_STAT.state 1 u).setFlag F.TIM_STAT.cut true u else s
      else s) s

/-- The live equaliser codes follow the trained codes of a channel that does not run (R269). -/
def State.followTrained (s : State) (ch : Nat) : State :=
  (s.setFl F.CHN_EQ_STAT.code_h (s.fl F.CHN_EQ_CTL.trained_h ch) ch).setFl F.CHN_EQ_STAT.code_l
    (s.fl F.CHN_EQ_CTL.trained_l ch) ch

/-- At a stop the live codes become the trained codes of a channel with train = 1; else they follow the trained codes
(R269, R273). -/
def State.stopEq (s : State) (ch : Nat) : State :=
  if s.flag F.CHN_EQ_CTL.train ch then
    let s := s.setFl F.CHN_EQ_CTL.trained_h (s.fl F.CHN_EQ_STAT.code_h ch) ch
    (s.setFl F.CHN_EQ_CTL.trained_l (s.fl F.CHN_EQ_STAT.code_l ch) ch).setFlag F.CHN_EQ_CTL.train false ch
  else s.followTrained ch

/-- A queue of a kept route that has fewer than 8,192 free on-chip words at the epoch (R300). -/
def State.epochOverrun (s : State) (st : Nat) : State :=
  (s.keptQueues st).foldl
    (fun s q =>
      let low := decide (s.qFreeChip q < 8192)
      let s := s.setQueue q { s.queue q with low := low }
      if low && s.flag F.ACQ_CTL.reserved_run st then (s.setFlag F.ACQ_CTL.overrun true st).raise (80 + st) st else s) s

/-- Every line and request of a run goes: held lines and waiting requests are dropped, outstanding ones are dead (R194,
R207, R493). -/
def Stall.dropLines (x : Stall) : Stall :=
  { x with held := [], waiting := [], leads := [], kept := [], path := [], look := { x.look with res := none }, inflight := (x.inflight.filter (fun r => ! r.lost)).map (fun r => { r with dead := true }) }

/-- The start event, in SCLK cycle `edge`, of an armed stall with its prefill complete: the epoch lies 64 SCLK cycles after
it; a run whose first zero-time run ends goes to STOPPED at its epoch without a vector (R173, R538). -/
def State.startEvent (s : State) (st edge : Nat) : State :=
  let x := s.stall st
  let e := (edge + 64) * unitsPerCyc
  let s := s.setStall st { x with
    startAt := some e, epoch := e, epochCnt := s.cnt + 64 - BitVec.ofNat 64 (s.now - edge), autoFrom := edge + 64 }
  let s := if s.windowMode st then
      if s.flag F.ACQ_WIN_CTL.arm_at_start st || x.win.armed then s.enterFill st
      else s.setFl F.ACQ_WIN_STAT.state winClosed st
    else s
  let s := s.timePair st 0
  let x := s.stall st
  let err (code : Nat) (cause : Nat) (s : State) : State :=
    let vec : List Byte := beBytes 8 (2 ^ 64 - 1)
    let s := (s.advTo (edge + 64)).epochOverrun st
    let s := (s.setFl F.STL_SEQ_STAT.state stStopped st).setFl F.STL_SEQ_STAT.cause cause st
    let s := if code ≠ 0 then (s.setFl F.STL_SEQ_STAT.seq_err code st).raise (64 + st) code else s
    let s := if cause = 4 then s.raise (96 + st) st else s
    let s := s.setRg .STL_SEQ_ENTRY (x.firstEntry * 65537) st
    let s := s.setFl F.ACQ_WIN_STAT.state 0 st
    let s := s.setStall st { (s.stall st).dropLines with startAt := none, lastRun := none, stack := [], stops := [], prefilled := true, stopT := e }
    let s := ((s.chansOf st).foldl State.stopEq s).cutTims st
    let s := s.answerAll (.start st) 0 []
    s.event (s.stallEventTo st) 1 st ([BitVec.ofNat 8 cause] ++ beBytes 2 x.firstEntry ++ vec)
  if (pathPlays x.path).isEmpty then
    match x.look.mode with
    | .halted => err 0 1 s
    | .seqErr c => err c 1 s
    | .poisoned => err 0 4 s
    | _ => s
  else s

/-! ### A vector (R156, R157, R169, R175, R185, R196, R209) -/

/-- The segment of the next vector starts: its play leaves the path; what zero-time entries before it did takes effect
(R169, R185, R231). -/
def State.startSegment (s : State) (st : Nat) (n : NextVec) : State :=
  let x := s.stall st
  let x := match x.cur with
    | some p => x.played p p.ent.vectors
    | none => x
  let x := { x with cur := some n.p, path := (frontPlay x.path).tail, segFirst := n.vec, stack := n.p.stack, matchRun := 0
                    matchAt := none, cands := [], decided := false }
  let s := (s.setStall st x).setRg .STL_SEQ_ENTRY (n.p.idx * 65537) st
  let s := n.p.setf.foldl (fun s e => s.setInc e.1 e.2) s
  ((n.p.setf.map (fun e => e.1)).eraseDups).foldl
    (fun s ch => if s.flag F.CHN_TG_CTL.mode ch && ! (x.mode == 3 && ch % 2 == 1) then s.phaseReset ch n.t0 else s) s

/-- Vector 0 begins: the stall is RUNNING (R146), the free-run channels reset their phase (R231), the chains of the stall
take their START reset (R341). -/
def State.beginRun (s : State) (st : Nat) (n : NextVec) : State :=
  let s := s.setFl F.STL_SEQ_STAT.state stRunning st
  let s := s.setFl F.STL_LEAT_MINLVL.min_level (s.stall st).level st
  let s := (s.chansOf st).foldl
    (fun s ch =>
      let c := s.chan ch
      let s := s.setChan ch { c with caps := 0 }
      if s.flag F.CHN_TG_CTL.mode ch && ! ((s.stall st).mode == 3 && ch % 2 == 1) then s.phaseReset ch n.t0 else s) s
  let s := (List.range 16).foldl
    (fun s c => if s.flag F.FLT_ASSIGN.assigned c && s.fl F.FLT_ASSIGN.stall c == st then s.setFlt c {} else s) s
  (s.answerAll (.start st) 0 []).epochOverrun st

/-- The line that holds a vector is held as a poisoned line (R473). -/
def Stall.spoil (x : Stall) (n : NextVec) : Stall :=
  let off := ((x.needs n.p n.v).head?.map (fun l => l.1)).getD 0
  { x with held := x.held.map (fun l => if l.pid = n.p.lineOf ∧ l.off = off then { l with poison := true } else l) }

/-- A hopper or waveform-table checker injection meets the next line read out, or the next entry looked up (R473,
R488). Answers whether the line was spoilt. -/
def State.checkReadOut (s : State) (st : Nat) (n : NextVec) : Bool × State :=
  let x := s.stall st
  let s := (x.octets.find? (fun k => s.injected (112 + k))).elim s
    (fun k => s.useInjection.raise (112 + k) 0 true)
  if s.injected (128 + st) && decide (n.first ∨ n.v % vecsPerLine x.mode = 0) then
    (true, ((s.useInjection).raise (128 + st) st true).setStall st (x.spoil n))
  else (false, s)

/-- The next line to be read out of a stall's hopper fails its ECC and is held as a poisoned line (R473). -/
def State.hopperFails (s : State) (st : Nat) : State :=
  match s.nextVec st with
  | none => s
  | some n =>
    let x := s.stall st
    let k := vecsPerLine x.mode
    s.setStall st (x.spoil (if n.first then n else { n with v := (n.v + k - 1) / k * k }))

/-- A vector's T0 passes (R157, R169, R175, R196, R209). -/
def State.playVector (s : State) (st : Nat) (n : NextVec) : State :=
  let s := s.advToU n.t0
  let c := s.checkReadOut st n
  if c.1 then c.2
  else
    let s := c.2
    let s := if n.vec = 0 then s.beginRun st n else s
    let s := if n.first then s.startSegment st n else s
    let x := s.stall st
    let span := s.vecLen st n.p.ent n.v
    let x := { x.played n.p n.v with
      t0s := (n.vec, n.t0) :: (x.t0s.take 255 ++ (x.t0s.drop 255).filter (fun e =>
        (s.chainsOf st).any (fun c => decide (s.fltNext c st ≤ e.1)))), vec := some n.vec, vcount := BitVec.ofNat 64 n.vec, prevT0 := x.t0, t0 := n.t0, tNext := n.t0 + span }
    let s := s.setStall st x
    let s := s.setMarkers st (markersOf n.p n.v) n.t0 n.vec
    let s := s.encodeAll st n.vec (n.p :: pathPlays (s.stall st).path) n.v
    let k : VecCtx := ⟨st, x.mode, n.p.ent.ts, s.period st n.p.ent.ts, n.vec, n.t0, n.p.pid⟩
    let s := ((s.formatVector k n.p n.v span).framerT0 st n.vec n.t0).settleUndef st
    let s := s.mkrTo s.nowU
    let s := if n.p.ent.isCond && n.v + 256 == n.p.ent.vectors && ! (s.stall st).decided then s.decide_ st n.p n.t0 else s
    s.judgeLeat st

/-! ### Stopping (R176–R184, R207, R325, R493) -/

/-- The window of a stall that stops (R312, R314). -/
def State.stopWindow (s : State) (st : Nat) : State :=
  if s.fl F.ACQ_WIN_STAT.state st = winPost then s.closeWindow st true else s.setFl F.ACQ_WIN_STAT.state 0 st

/-- A running stall stops at its boundary with cause `c` (R176, R179, R184). -/
def State.stopAt (s : State) (st c : Nat) : State :=
  let x := s.stall st
  let t := x.tNext
  let v := (x.vec).getD 0
  let entry := (x.cur.map (fun p => p.idx)).getD 0
  let seqErr := match s.nextVec st, x.look.mode with
    | none, .seqErr e => e
    | _, _ => 0
  let s := (s.setFl F.STL_SEQ_ENTRY.next x.nextIdx st).advToU t
  let s := x.octets.foldl (fun s o => (s.unhold st o).frameRecord st o) (s.drainFramers st)
  let s := (s.chansOf st).foldl (fun s ch => (((s.stopChannel st ch t).stopEq ch).cutWin st ch).settleVecs st ch) s
  let s := ((s.cutTims st).setMarkers st 0 t (v + 1)).mkrTo s.nowU
  let s := (s.setFl F.STL_SEQ_STAT.state stStopped st).setFl F.STL_SEQ_STAT.cause c st
  let s := s.stopWindow st
  let y := s.stall st
  let s := s.setStall st { y.dropLines with
    vec := none, cur := none, startAt := none, stops := x.stops.filter (fun p => p.cause == 6), starved := false, lastRun := some v, panic := false, stopT := t }
  let s := s.payDebts
  let s := if seqErr ≠ 0 then (s.setFl F.STL_SEQ_STAT.seq_err seqErr st).raise (64 + st) seqErr else s
  let s := if x.starved && x.stops.any (fun p => p.cause == 3 && x.stopDue p t (v + 1)) then s.raise (48 + st) st else s
  let s := if c = 4 then s.raise (96 + st) st else s
  let s := s.answerAll (.stop st) 0 (beBytes 8 v)
  if c = 6 then s
  else s.event (s.stallEventTo st) 1 st ([BitVec.ofNat 8 c] ++ beBytes 2 entry ++ beBytes 8 v)

/-- An armed stall returns to IDLE without a vector (R146, R180). -/
def State.disarm (s : State) (st : Nat) : State :=
  let x := s.stall st
  let s := s.setStall st { x.dropLines with startAt := none, stops := [], look := {}, cur := none, panic := false }
  let s := s.payDebts
  (s.setFl F.STL_SEQ_STAT.state stIdle st).setFl F.ACQ_WIN_STAT.state 0 st

/-- The first boundary at least 40 ns from now stops the stall, with a cause (R177, R181). -/
def State.stopSoon (s : State) (st c : Nat) : State :=
  let x := s.stall st
  s.setStall st { x with stops := x.stops ++ [⟨c, .atTime (s.nowU + 64 * unitsPerCyc)⟩] }

/-! ### The stall reset (R57, R181, R539) -/

/-- The channel and framer registers that a stall reset resets (R539). -/
def State.resetStallChannels (s : State) (st : Nat) : State :=
  let s := (s.chansOf st).foldl
    (fun s ch =>
      let s := (((s.setRg .CHN_TG_CTL 0 ch).setRg .CHN_TG_STAT 0 ch).setRg .CHN_FAIL_CNT 0 ch).setRg .CHN_CMP_STAT 0 ch
      let s := s.setChan ch { s.chan ch with edges := [], cmp := [], win := none, vfail := [], undefVecs := [] }
      (((s.setRg .CHN_EQ_STAT 0 ch).setRg .CHN_EQ_WIN 0 ch).followTrained ch).takeHalt ch 0 s.nowU) s
  (s.octetsOf st).foldl
    (fun s o => (((s.setRg .FRM_STAT 0 o).setRg .FRM_DISP_ERR 0 o).setRg .FRM_CODE_ERR 0 o).setRg .FRM_MISALIGN 0 o) s

/-- The STL registers of a stall take their reset values, but for the state, the cause and the loaded table; the channels
go to DZ; the stall's hold ends (R181, R485, R539). -/
def State.stallResetNow (s : State) (st : Nat) : State :=
  let lo := s.rg .STL_SEQ_TABLE_LO st
  let hi := s.rg .STL_SEQ_TABLE_HI st
  let cnt := s.rg .STL_SEQ_COUNT st
  let loaded := s.flag F.STL_SEQ_STAT.table_loaded st
  let x := s.stall st
  let s := s.clearRegs (0x100000 + 0x10000 * st) (0x100000 + 0x10000 * (st + 1))
  let s := ((s.setRg .STL_SEQ_TABLE_LO lo st).setRg .STL_SEQ_TABLE_HI hi st).setRg .STL_SEQ_COUNT cnt st
  let s := ((s.setFl F.STL_SEQ_STAT.state stIdle st).setFl F.STL_SEQ_STAT.cause 6 st).setFlag F.STL_SEQ_STAT.table_loaded loaded st
  let s := s.setFl F.ACQ_WIN_STAT.state 0 st
  let s := s.setStall st { ({} : Stall) with
    inflight := (x.inflight.filter (fun r => ! r.lost)).map (fun r => { r with dead := true }), epoch := x.epoch, lastRun := x.lastRun
    tableDirty := x.tableDirty, mode := x.mode, octets := x.octets, nextPid := x.nextPid }
  s.resetStallChannels st

/-- The stall reset is complete: the waiting replies are sent (R130, R181). -/
def State.stallResetDone (s : State) (st : Nat) : State :=
  (s.stallResetNow st).answerAll (.stallReset st) 0 []

/-- A stall reset arises: a running stall stops first; any other stall is reset at once (R181). A START that still waits
is answered `early` (R130). -/
def State.stallResetBegin (s : State) (st early : Nat) : State :=
  if s.stState st = stUnconf then s
  else if s.running st then s.stopSoon st 6
  else (s.stallResetDone st).answerAll (.start st) early []

end Sys2Proof.Machine
end

