-- ==== Sys2Proof/Machine/Faults.lean ====
section
/-! DEFINITION. The fault collector and the block resets: sources with their affected stalls and reset blocks, activations,
first record, fault queue, reactions, shadows, and what the reset of each block does (R61, R62, R472–R488, R493, R543). -/

namespace Sys2Proof.Machine

open Sys2Proof

/-! ### Sources (R472) -/

/-- Sources of kind "cond". -/
def isCond (src : Nat) : Bool :=
  decide (src ≤ 6) || (decide (8 ≤ src) && decide (src ≤ 11)) || (decide (40 ≤ src) && decide (src ≤ 47)) || src == 147 || src == 255

/-- Source indices that are reserved. -/
def srcReserved (src : Nat) : Bool :=
  (decide (34 ≤ src) && decide (src ≤ 39)) || (decide (148 ≤ src) && decide (src ≤ 254))

/-- Sources whose injection is at their checker (R472, R488). -/
def isChecker (src : Nat) : Bool :=
  src == 12 || (decide (19 ≤ src) && decide (src ≤ 24)) || src == 31 || (decide (112 ≤ src) && decide (src ≤ 145))

/-- Sources that cannot be injected. -/
def noInject (src : Nat) : Bool := src == 9 || src == 10 || src == 11 || src == 255

/-- Every stall with octets. -/
def State.withOctets (s : State) : List Nat := (List.range 16).filter (fun st => s.fl F.DEV_PART.octets st != 0)

/-- The affected stalls of a report, ascending (R472). -/
def State.affected (s : State) (r : Report) : List Nat :=
  let n := r.src
  if n ≤ 6 || n == 9 || n == 10 || n == 11 || n == 146 || n == 147 then s.withOctets
  else if n == 12 || n == 31 then r.stall.toList
  else if 19 ≤ n && n ≤ 24 then (List.range 16).filter s.busyStall
  else if 48 ≤ n && n ≤ 111 then [(n - 48) % 16]
  else if 112 ≤ n && n ≤ 127 then (s.stallOfOct (n - 112)).toList
  else if 128 ≤ n && n ≤ 143 then [n - 128]
  else []

/-- The controller `m` as a block. -/
def mcBlk (m : Nat) : Option Blk := ((List.finRange 6).find? (fun k => k.val == m)).map Blk.mc
/-- The lane `k` as a block. -/
def hlBlk (k : Nat) : Option Blk := ((List.finRange 8).find? (fun j => j.val == k)).map Blk.hl
/-- The stall `st` as a block. -/
def stBlk (st : Nat) : Option Blk := ((List.finRange 16).find? (fun j => j.val == st)).map Blk.stall

/-- The reset block of a source (R472). -/
def State.resetBlock (s : State) (n : Nat) : Option Blk :=
  if n = 12 then some .acq
  else if 19 ≤ n ∧ n ≤ 24 then mcBlk (n - 19)
  else if n = 31 then some .qm
  else if n = 32 ∨ n = 145 then some .yrd
  else if n = 33 then some .cal
  else if 40 ≤ n ∧ n ≤ 47 then hlBlk (n - 40)
  else if 48 ≤ n ∧ n ≤ 111 then stBlk ((n - 48) % 16)
  else if 112 ≤ n ∧ n ≤ 127 then (s.stallOfOct (n - 112)).bind stBlk
  else if 128 ≤ n ∧ n ≤ 143 then stBlk (n - 128)
  else none

/-- The dependents of a reset block (R486). -/
def dependent (b : Blk) (n : Nat) : Bool :=
  match b with
  | .mc _ => (decide (48 ≤ n) && decide (n ≤ 63)) || (decide (96 ≤ n) && decide (n ≤ 111)) || n == 32
  | .qm => (decide (80 ≤ n) && decide (n ≤ 95)) || n == 31 || n == 32
  | .acq => (decide (80 ≤ n) && decide (n ≤ 95)) || n == 12
  | .yrd => n == 32 || n == 145
  | .hl k => n == 40 + k.val
  | .cal => n == 33
  | .stall st => n == 48 + st.val || n == 64 + st.val || n == 80 + st.val || n == 96 + st.val
  | _ => false

/-- A shadow covers source `n` now (R486). -/
def State.shadowed (s : State) (n : Nat) : Bool :=
  s.shadows.any (fun x => dependent x.blk n && (match x.endsAt with
    | none => true
    | some t => decide (s.now < t)))

/-- Bit of a source in one of the 256-bit maps (R489). -/
def State.srcBit (s : State) (r : R) (n : Nat) : Bool := tbit (s.rg r (n / 32)) (n % 32)

/-- The source reads active now: its condition holds, or a pulse of it falls on this sample (R472, R477). -/
def State.srcLive (s : State) (n : Nat) : Bool := s.srcBit .FLC_LIVE n || s.pulseNow n

/-- The source read active at this sample or at the one before, so that it stays active and does not activate again (R472,
R477). -/
def State.stillActive (s : State) (n : Nat) : Bool :=
  s.srcBit .FLC_LIVE n || (match mget (fun _ => none) s.seenAt n with
    | some t => decide (s.now ≤ t + 1)
    | none => false)

/-- Sets or clears the bit of a source in one of the 256-bit maps. -/
def State.setSrcBit (s : State) (r : R) (n : Nat) (b : Bool) : State :=
  s.setRg r (putBits (s.rg r (n / 32)) (n % 32) (n % 32) (bit b)) (n / 32)

/-- The reaction that FLC_REACT sets for a source (R489). -/
def State.reaction (s : State) (n : Nat) : Nat := bitsOf (s.rg .FLC_REACT (n / 8)) (n % 8 * 4 + 2) (n % 8 * 4)

/-- FLC_STAT.alarm is judged again (R483). -/
def State.judgeAlarm (s : State) : State :=
  if s.flag F.FLC_FIRST.valid || (List.range 256).any (fun n => s.srcBit .FLC_STICKY n && decide (1 ≤ s.reaction n)) then s
  else s.setFlag F.FLC_STAT.alarm false

/-- The effect of FAULT_CLEAR on the sticky bits named by a predicate and on the first record (R480). -/
def State.faultClear (s : State) (mask : Nat → Bool) (first : Bool) : State :=
  let s := (List.range 256).foldl
    (fun s n => if mask n && s.srcBit .FLC_STICKY n && ! s.srcLive n then s.setSrcBit .FLC_STICKY n false else s) s
  let s := if first then (s.setFlag F.FLC_FIRST.valid false).setFlag F.FLC_FIRST.overflow false else s
  s.judgeAlarm

/-! ### Closing sessions -/

/-- The slot gives up everything it owns (R113, R115). -/
def State.releaseAll (s : State) (slot : Nat) : State :=
  (List.range 17).foldl (fun s r => if s.owns slot r then s.setOwner r none else s) s

/-- A slot's claims leave the open elections. -/
def State.dropClaims (s : State) (slot : Nat) : State :=
  (List.range 17).foldl
    (fun s r =>
      match s.election r with
      | some e => s.setElection r (some { e with claims := e.claims.filter (fun c => c.1 != slot) })
      | none => s) s

/-- Closes the session of a slot (R114, R115). -/
def State.closeSession (s : State) (slot : Nat) : State :=
  match s.session slot with
  | none => s
  | some x => ((((s.releaseAll slot).dropClaims slot).closeStreams slot).freeOps slot x.gen).setSession slot none

/-! ### Host lanes -/

/-- The strapped and stored settings of a lane (R77 strap columns, R87, R101, log 7). -/
def State.laneDefaults (s : State) (k : Nat) : State :=
  let base := s.tackLe 16 6
  let a := base + k
  let ctl := bit (! s.flag F.DEV_STRAP.mgmt) + 2 * s.fl F.DEV_STRAP.hlrate + 4 * s.fl F.DEV_STRAP.refmode
  (((s.setRg .HP_PORT_CTL ctl k).setRg .HP_MAC_LO (a % 2 ^ 32) k).setRg .HP_MAC_HI (a / 2 ^ 32) k).setFl F.HP_TX_EQ.swing 40 k

/-- The settings of a lane as its registers hold them: enable, rate, ref_mode, fec_en. -/
def State.laneSet (s : State) (k : Nat) : Nat := bitsOf (s.rg .HP_PORT_CTL k) 3 0

/-- A lane leaves UP or takes another state below it; leaving UP counts a change and, unless the lane's own write did it,
raises HOST_LINK_DOWN (R93, R94). -/
def State.laneTo (s : State) (k state : Nat) (own : Bool) : State :=
  let was := s.laneUp k
  let s := s.setFl F.HP_LINK_STAT.state state k
  if was && state != 4 then
    let s := s.bump F.HP_LINK_STAT.link_changes 1 k
    if own then s else (s.setCond (40 + k) true).raise (40 + k) k
  else s

/-- What a lane's receiver has met since its counters were last brought up to date, as free values: FEC blocks corrected and
not corrected while the decoder has lock, and bit errors while the pattern checker runs (R81, R100, R101, log 84). -/
def State.laneCounts (s : State) (k : Nat) : State :=
  let s := if s.flag F.HP_LINK_STAT.fec_lock k then
      let a := s.draw 32
      let b := a.2.draw 32
      (b.2.bump F.HP_FEC_CORR.count a.1.toNat k).bump F.HP_FEC_UNCORR.count b.1.toNat k
    else s
  if s.flag F.HP_TEST_CTL.prbs_chk k then
    let a := s.draw 32
    a.2.bump F.HP_PRBS_ERR.count a.1.toNat k
  else s

/-- What the adaptation of a lane's receiver stands at while a signal is detected, as free values; once settled it stays so
until the next signal detect (R86, R101, log 84). -/
def State.laneAdapt (s : State) (k : Nat) : State :=
  if (s.lane k).signal then
    let a := s.draw 12
    let b := a.2.draw 1
    let was := s.flag F.HP_RX_EQ_STAT.adapted k
    (b.2.setRg .HP_RX_EQ_STAT (a.1.toNat) k).setFlag F.HP_RX_EQ_STAT.adapted (was || b.1 == 1) k
  else s

/-- The changed settings of a lane come into use (R96, R97). -/
def State.takeSettings (s : State) (k : Nat) : State :=
  s.setLane k { s.lane k with eff := s.laneSet k, ref := s.rg .HP_REF_CTL k, applyAt := none, ownApply := false }

/-- A lane starts with the settings in use: its transmitter is driven and its PLL locks when it is enabled (R28, R92, R96,
log 84). -/
def State.laneStart (s : State) (k : Nat) (own : Bool) : State :=
  let s := s.laneCounts k
  let l := s.lane k
  let on := tbit l.eff 0
  let s := s.setLane k { l with okSince := none, signal := false }
  let s := s.setRg .HP_LINK_STAT (putBits (s.rg .HP_LINK_STAT k) 7 3 0) k
  let p := s.fl F.PCR_CLK_STAT.hl_pll_lock
  let s := s.setFl F.PCR_CLK_STAT.hl_pll_lock (putBits p k k (bit on))
  let s := if on then s.withDrive { s.drive with host := s.drive.host ||| BitVec.ofNat 8 (2 ^ k) } else s
  s.laneTo k (if on then 1 else 0) own

/-- The sessions bound to a lane close (R61). -/
def State.closeLane (s : State) (k : Nat) : State :=
  (List.range 32).foldl
    (fun s n => match s.session n with
      | some x => if laneOf x.bind == some k then s.closeSession n else s
      | none => s) s

/-- The reset of a host lane. -/
def State.resetLane (s : State) (k : Nat) : State :=
  let s := s.closeLane k
  let s := s.laneTo k 1 false
  let s := (s.clearRegs (0x20000 + 0x1000 * k) (0x20000 + 0x1000 * (k + 1))).laneDefaults k
  ((s.setLane k {}).takeSettings k).laneStart k false

/-! ### Records that a reset loses (R302, R303) -/

/-- The record that two words hold. -/
def recOf (w0 w1 : BitVec 64) : Rec :=
  let a := w0.toNat
  let b := w1.toNat
  ⟨bitsOf a 7 4, bitsOf a 3 0, bitsOf a 15 12, bitsOf a 23 16, bitsOf a 31 24, a / 2 ^ 32 + b % 2 ^ 24 * 2 ^ 32, b / 2 ^ 24⟩

/-- The records among the words of a queue that count in the record balance: packets of two words of types 1, 2, 3, 5, 6
and 8 (R288, R295, R492). -/
def recordsIn : List QWord → List Rec
  | a :: b :: t =>
    let rest := recordsIn (b :: t)
    if ! a.last && b.last then
      let r := recOf a.data b.data
      if [1, 2, 3, 5, 6, 8].contains r.type then r :: rest else rest
    else rest
  | _ => []

/-- The words of a queue that lie in its spill region. -/
def State.spilled (s : State) (q : Nat) : List QWord :=
  let x := s.queue q
  (x.spillEnds.zipIdx).map (fun e => ⟨s.rawWord (s.spillAddr q (x.spillRd + e.2)), e.1, false⟩)

/-- A queue reset loses the records of a stall that a queue holds, popped words not yet sent among them (R378). -/
def State.loseQueue (s : State) (st q : Nat) : State :=
  let buf := match s.stream q with
    | some t => t.buf
    | none => []
  let rs := (recordsIn (buf ++ (s.queue q).words ++ s.spilled q)).filter (fun r => r.stall == st)
  rs.foldl (fun s r => s.lose q 4 r) s

/-- The reset of the queue manager (R378). -/
def State.resetQm (s : State) : State :=
  let s := (List.range 16).foldl (fun s st => s.wbufFlush st) s
  let s := (List.range 16).foldl
    (fun s st =>
      let s := ((s.dests st ++ (s.stall st).past).eraseDups).foldl (fun s q => if q = ringDest then s else s.loseQueue st q) s
      s.setStall st { s.stall st with past := [] }) s
  s.resetQueues

/-- The reset of the acquisition engine: records in source buffers are lost, writes already buffered reach DRAM (log 25),
registers take their reset values (R301, R303). -/
def State.resetAcq (s : State) : State :=
  let s := s.srcBuf.foldl
    (fun s e => e.2.foldl
      (fun s r => match s.destOf r.stall r.type with
        | some d => s.lose d 4 r
        | none => s) s) s
  let s := (List.range 16).foldl (fun s st => s.wbufFlush st) s
  let s := s.clearRegs 0x900000 0xa00000
  let s := (s.withSrcBuf []).withTrigOut []
  (List.range 16).foldl (fun s st => let x := s.stall st
                                     s.setStall st { x with win := {} }) s

/-! ### The other blocks -/

/-- The reset of the Yard: everything it holds is discarded; an operation that waits for a quiesce ends, since no instance
is live (R401). -/
def State.resetYard (s : State) : State :=
  let s := s.clearRegs 0x1200000 0x1202000
  let s := (((((((s.withTmpl []).withMods []).withTrigPend []).withDue []).withInsts []).withFlows []).withYstate []).withCores []
  (List.range 64).foldl
    (fun s n => match s.op n with
      | some o => match o.kind with
        | .quiesce b => if o.done then s else s.endOp n 0 (BitVec.ofNat 64 (s.yended - b))
        | _ => s
      | none => s) s

/-- Codes of R117 that OP_DONE may carry. -/
def nStatus : Nat := 18

/-- The reset of the calibration engine: its operation is abandoned, its records are reloaded (R464, R467). The status of
the abandoned operation's OP_DONE is a free value (log 3). -/
def State.resetCal (s : State) : State :=
  let s := match s.calOp with
    | none => s
    | some n =>
      let d := s.draw 16
      d.2.endOp n (d.1.toNat % nStatus) 0
  (s.withCalOp none).loadRecords

/-- The MC registers that hold configuration, membership and retirement keep their values; the others are reset (R436). -/
def State.resetMcRegs (s : State) (m : Nat) : State :=
  let cfg := s.rg .MC_CFG m
  let st := bitsOf (s.rg .MC_STAT m) 8 0
  let s := s.clearRegs (0x1400000 + 0x10000 * m) (0x1400000 + 0x10000 * (m + 1))
  (s.setRg .MC_CFG cfg m).setRg .MC_STAT st m

/-- The writes of a stall's buffer to addresses of a controller are discarded: ring records are lost, spilled words will be
delivered poisoned (R436). -/
def State.loseWrites (s : State) (m st : Nat) : State :=
  let es := mget (fun _ => []) s.wbuf st
  let gone := es.filter (fun e => (s.place e.addr).m == m)
  let s := (s.withWbuf (mset (fun _ => []) s.wbuf st (es.filter (fun e => (s.place e.addr).m != m)))).judgeBuf st
  gone.foldl
    (fun s e =>
      if e.ring then
        s.lose ringDest 4 (recOf (BitVec.ofNat 64 (ofLe (e.bytes.take 8))) (BitVec.ofNat 64 (ofLe (e.bytes.drop 8))))
      else s.writeEach (tailWriter st e.at_) e.addr [⟨0, true⟩]) s

/-- A DCP command whose held access needs a controller that is reset ends with TIMEOUT (R436). -/
def State.dropWait (s : State) (m slot : Nat) : State :=
  match (s.session slot).bind (fun x => x.wait) with
  | some ⟨.mem d acc, _, _, _⟩ =>
    if (s.touched acc.range.1 acc.range.2).contains m then s.answer slot (.mem d acc) 12 [] else s
  | _ => s

/-- The reset of a DRAM controller: queued requests are discarded, a migration on it pauses (R62, R436). -/
def State.resetMc (s : State) (m : Nat) : State :=
  let s := (List.range 16).foldl (fun s st => s.loseWrites m st) s
  let s := (List.range 32).foldl (fun s n => s.dropWait m n) s
  let s := (List.range 16).foldl
    (fun s st =>
      let x := s.stall st
      s.setStall st { x with inflight := x.inflight.map (fun r =>
        if (s.place (r.line * 64)).m = m then { r with lost := true } else r) }) s
  let s := (s.resetMcRegs m).withMig (s.mig.map (fun (g : Mig) =>
    if g.m = m then { g with paused := true, w := g.w / 2 ^ 20 * 2 ^ 20 } else g))
  s.setFl F.MC_STAT.self_refresh (2 ^ (bitsOf (s.useCfg m) 1 0 + 1) - 1) m

/-- The bit of a block in PCR_BLOCK_RST (R77). -/
def blkBit : Blk → Option Nat
  | .hl k => some k.val
  | .mc m => some (8 + m.val)
  | .qm => some 14
  | .yrd => some 15
  | .acq => some 16
  | .flt => some 17
  | .tim => some 18
  | .frm => some 19
  | .cal => some 20
  | .stall _ => none

/-- What the reset of a block does at its start. -/
def State.resetEffect (s : State) (b : Blk) : State :=
  match b with
  | .hl k => s.resetLane k.val
  | .mc m => s.resetMc m.val
  | .qm => s.resetQm
  | .yrd => s.resetYard
  | .acq => s.resetAcq
  | .flt => (s.clearRegs 0xb00000 0xb10000).withFlts []
  | .tim => (s.clearRegs 0xa00000 0xa10000).withTims []
  | .frm => (s.clearRegs 0x800000 0x810000).withFramers []
  | .cal => s.resetCal
  | .stall st => s.stallResetBegin st.val 1

/-- A shadow opens for a block; it ends a time after the reset is complete (R486). -/
def State.openShadow (s : State) (b : Blk) : State :=
  s.withShadows (s.shadows.filter (fun x => x.blk != b) ++ [⟨b, none⟩])

/-- The reset of a block is complete: its shadow's end is set (R486). -/
def State.closeShadow (s : State) (b : Blk) : State :=
  let e := s.now + s.fl F.FLC_SHADOW.time * usCyc
  s.withShadows (s.shadows.map (fun x => if x.blk = b ∧ x.endsAt = none then { x with endsAt := some e } else x))

/-- A block reset begins; a block already in reset is left alone (R60, R61). -/
def State.beginBlock (s : State) (b : Blk) : State :=
  if s.inReset b then s
  else
    let s := s.openShadow b
    match blkBit b with
    | some i =>
      let s := s.withRst (s.rst ++ [b])
      (s.resetEffect b).setRg .PCR_BLOCK_RST (putBits (s.rg .PCR_BLOCK_RST) i i 1)
    | none => s.resetEffect b

/-- A block resumes service (R62, R303, R436). -/
def State.endBlock (s : State) (b : Blk) : State :=
  let s := s.withRst (s.rst.filter (fun x => x != b))
  let s := match blkBit b with
    | some i => s.setRg .PCR_BLOCK_RST (putBits (s.rg .PCR_BLOCK_RST) i i 0)
    | none => s
  let s := s.closeShadow b
  match b with
  | .mc m =>
    let keep := if s.flag F.MC_STAT.retired_valid m.val then 2 ^ s.fl F.MC_STAT.retired_rank m.val else 0
    let s := s.setFl F.MC_STAT.self_refresh keep m.val
    (match s.mig with
    | some g =>
      if g.m = m.val ∧ g.paused then
        (s.withMig (some { g with paused := false })).event (s.ownerOf devRes) 5 0xff
          [1, BitVec.ofNat 8 g.m, BitVec.ofNat 8 g.rank]
      else s
    | none => s)
  | .acq | .qm => (s.lossOld ++ s.loss).foldl (fun s e => s.closeLoss (e.1 / 32769) (e.1 % 32769)) s
  | _ => s

/-! ### Reactions (R482–R484) -/

/-- The reaction includes STALL_STOP. -/
def stopsStall (code : Nat) : Bool := code == 2 || code == 3 || code == 5

/-- An affected stall under a reaction that includes STALL_STOP (R482). -/
def State.faultStall (s : State) (st : Nat) : State :=
  let s := if s.stState st = stRunning then s.stopSoon st 5
    else if s.stState st = stArmed then (s.disarm st).answerAll (.start st) 0x000a []
    else s
  (s.setFlag F.STL_SEQ_STAT.fault_hold true st).setFlag F.ACQ_CTL.normal false st

/-- The FAULT events of an activation: one to the device owner, one to each other owner of an affected stall; none for
the clock sources, and none within 1 ms of the last (R139, R484, R543). -/
def State.faultEvents (s : State) (src code : Nat) (aff : List Nat) (tag : BitVec 64) : State :=
  if src = 9 ∨ src = 10 then s
  else
    let recent := match mget (fun _ => none) s.lastEvt src with
      | some t => decide (s.now < t + msCyc)
      | none => false
    if recent then s.bump F.FLC_EVT_SUPP.count 1
    else
      let s := s.withLastEvt (mset (fun _ => none) s.lastEvt src (some s.now))
      let par : List Byte := [BitVec.ofNat 8 src, BitVec.ofNat 8 code] ++ beBytes 8 tag.toNat
      let dev := s.ownerOf devRes
      let others := (aff.filterMap (fun st => (s.ownerOf st).map (fun o => (o, st)))).filter (fun e => some e.1 != dev)
      let firsts := others.foldl (fun l e => if l.any (fun x => x.1 == e.1) then l else l ++ [e]) []
      let s := if dev.isSome || firsts.isEmpty then s.event dev 4 0xff par else s
      firsts.foldl (fun s e => s.event (some e.1) 4 e.2 par) s

/-- The reaction of a primary activation (R482). -/
def State.react (s : State) (r : Report) (code : Nat) : State :=
  if code = 0 then s
  else
    let aff := s.affected r
    let blk := s.resetBlock r.src
    let s := (s.setFlag F.FLC_STAT.alarm true).faultEvents r.src code aff s.cnt
    let safe := code == 3 || code == 5 || (code == 4 && blk.isNone)
    let s := if stopsStall code || safe then aff.foldl State.faultStall s else s
    let s := if safe then aff.foldl (fun s st => let x := s.stall st
                                                 s.setStall st { x with pinSafe := true }) s else s
    let s := match code, blk with
      | 4, some b => (aff.foldl (fun s st => s.setFlag F.ACQ_CTL.normal false st) s).beginBlock b
      | _, _ => s
    if code = 5 ∧ r.src ≠ 9 ∧ r.src ≠ 10 then
      match s.resetAt with
      | some _ => s
      | none => s.withResetAt (some (s.now + 100 * usCyc, .warm .fault))
    else s

/-- The fault queue's packet of an activation (R479). -/
def State.faultEntry (s : State) (r : Report) (code : Nat) (first secondary : Bool) : State :=
  let w0 := r.src + code * 2 ^ 8 + bit first * 2 ^ 11 + bit secondary * 2 ^ 12 + bit r.inj * 2 ^ 13 + r.detail % 2 ^ 16 * 2 ^ 16
  let p := s.push 8 (packet [(BitVec.ofNat 64 w0, false), (s.cnt, false)])
  if p.1 then p.2 else p.2.setFlag F.FLC_STAT.q_lost true

/-- One activation (R477–R479, R487). -/
def State.activate (s : State) (r : Report) : State :=
  let code := s.reaction r.src
  if s.shadowed r.src then
    ((s.setSrcBit .FLC_SEC r.src true).bump F.FLC_SEC_CNT.count 1).faultEntry r code false true
  else
    let s := s.setSrcBit .FLC_STICKY r.src true
    let first := ! s.flag F.FLC_FIRST.valid
    let s := if first then
        let s := s.setRg .FLC_FIRST (r.src + 2 ^ 8 + bit r.inj * 2 ^ 10 + code * 2 ^ 11)
        ((s.setRg .FLC_FIRST_TAG_LO (s.cnt.toNat % 2 ^ 32)).setRg .FLC_FIRST_TAG_HI (s.cnt.toNat / 2 ^ 32)).setRg
          .FLC_FIRST_DETAIL (r.detail % 2 ^ 16)
      else s.setFlag F.FLC_FIRST.overflow true
    (s.faultEntry r code first false).react r code

/-- A condition makes its source live until it ends; the pulse of an event or of an injection is one sample long (R472,
R488). -/
def State.markLive (s : State) (r : Report) : State :=
  if isCond r.src && ! r.inj then s.setSrcBit .FLC_LIVE r.src true
  else s.withSeenAt (mset (fun _ => none) s.seenAt r.src (some s.now))

/-- The collector takes a report: a faulty pair hides it, and a source that is still active does not activate again (R472,
R475, R477). -/
def State.collect (s : State) (r : Report) : State :=
  if s.srcBit .FLC_WIRE r.src && r.src != 255 then s
  else if s.stillActive r.src then s.markLive r
  else (s.markLive r).activate r

/-- The condition of a source ends; the live bit keeps its value while the pair is faulty (R475, R477). -/
def State.endCond (s : State) (n : Nat) : State :=
  let s := s.setCond n false
  if s.srcBit .FLC_WIRE n && n != 255 then s else s.setSrcBit .FLC_LIVE n false

/-- The detail of a condition source whose condition holds (R472). -/
def State.condDetail (s : State) (n : Nat) : Nat :=
  if n ≤ 6 then n
  else if n = 8 then bit (s.flag F.PCR_SUPPLY_STAT.vmain_ok)
  else if 40 ≤ n ∧ n ≤ 47 then n - 40
  else mget (fun _ => 0) s.condDet n

/-- Reports in ascending source order, the first report of each source (R472, R478). -/
def sortReports (l : List Report) : List Report :=
  (List.range 256).filterMap (fun n => l.find? (fun r => r.src == n))

/-- The collector is armed: from the start of the control core on (R64 step 4). -/
def State.armed (s : State) : Bool :=
  match s.phase with
  | .coldUp | .ready | .warmUp | .bootRom | .strapStop => true
  | .coldHold | .coldRails | .warmHold => false

/-- Shadows of stall resets that are complete get their end (R181, R486). -/
def State.sweepShadows (s : State) : State :=
  s.shadows.foldl
    (fun s x => match x.blk, x.endsAt with
      | .stall st, none => if (s.stall st.val).stops.any (fun p => p.cause == 6) then s else s.closeShadow x.blk
      | _, _ => s) s

/-- The collector takes every waiting report, and those that the reactions make, at most `n` rounds. While it is not armed,
reports are lost but for that of a switch-over, which waits (R60). -/
def State.settleN (s : State) : Nat → State
  | 0 => s
  | n + 1 =>
    match s.reports with
    | [] => s
    | l =>
      if s.armed then State.settleN ((sortReports l).foldl State.collect (s.withReports [])) n
      else s.withReports (l.filter (fun r => r.src == 7))

/-- Everything that detectors reported is acted on. -/
def State.settle (s : State) : State :=
  if s.reports.isEmpty && s.shadows.isEmpty then s else (s.settleN 16).sweepShadows

/-- The end of a command: the next state, with every report acted on. -/
def done (s : State) : Host.Outcome State Fault Refusal := .next s.settle

end Sys2Proof.Machine
end

