-- ==== Sys2Proof/Machine/AcqEvents.lean ====
section
/-! DEFINITION. The events of acquisition: records on their way to destinations, GAP and TIME pairs, the auto trigger,
window rearm and the TRIG_OUT pulses (R16, R292, R294, R301–R306, R312, R492, R541). -/

namespace Sys2Proof.Machine

open Sys2Proof

/-- RECORD_ACCEPT: the acquisition engine takes the oldest record of a source buffer; a MARK leaves it after the SCLK cycle of
its trigger, whose events form one trigger (R15, R16, R294, R301, R302, R304, R541). -/
def execRecordAccept (source : Fin 176) (flitParityBad : Bool) (s : State) : Host.Outcome State Fault Refusal :=
  match s.buf source.val with
  | [] => done s
  | r :: t =>
    let s := if r.type = 3 then s.advTo (((s.stall r.stall).epoch + r.tag / 8 * unitsPerCyc) / unitsPerCyc + 1) else s
    let s := s.setBuf source.val t
    let f := s.checkFlit 1 (some r.stall) flitParityBad
    match f.2.destOf r.stall r.type with
    | none => done (f.2.bump F.ACQ_DISC.count 1 r.stall)
    | some d => done (if f.1 then f.2.lose d 5 r else f.2.deliver d r)

/-- GAP_PAIR_WRITE: the loss run of a queue ends once four of its words are free, in its order with the TIME pairs that wait
(R302, R492). -/
def execGapPairWrite (st : StallIx) (dest : Fin 32769) (s : State) : Host.Outcome State Fault Refusal :=
  if dest.val = ringDest || s.inReset .acq || s.inReset .qm then done s else done (s.closeLoss st.val dest.val)

/-- TIME_PAIR_PERIODIC: the next multiple of 2^40 time-tag units after the stall epoch is reached (R292). -/
def execTimePairPeriodic (st : StallIx) (s : State) : Host.Outcome State Fault Refusal :=
  if ! s.running st.val then done s
  else
    let x := s.stall st.val
    let m := x.timePairs + 1
    let s := s.advToU (x.epoch + m * 2 ^ 40 * 625 / 2)
    let s := s.setStall st.val { x with timePairs := m }
    done (s.timePair st.val (m * 2 ^ 40 % 2 ^ 56))

/-- The auto timeout of a stall counts (R305). -/
def State.autoOn (s : State) (st : Nat) : Bool :=
  s.running st && s.flag F.ACQ_AUTO.en st && (! s.windowMode st || s.fl F.ACQ_WIN_STAT.state st == winFill)

/-- AUTO_TRIGGER: no trigger has occurred for the timeout (R305). -/
def execAutoTrigger (st : StallIx) (s : State) : Host.Outcome State Fault Refusal :=
  if s.autoOn st.val then
    let s := s.advTo ((s.stall st.val).autoFrom + s.fl F.ACQ_AUTO.timeout st.val * usCyc)
    done (s.trigger st.val 6 0 (s.tagNow st.val))
  else done s

/-- WINDOW_REARM: 256 SCLK cycles after the close (R312). -/
def execWindowRearm (st : StallIx) (s : State) : Host.Outcome State Fault Refusal :=
  if s.fl F.ACQ_WIN_STAT.state st.val = winRearm then
    done ((s.advTo (s.stall st.val).win.rearmAt).enterFill st.val)
  else done s

/-- The next edge of a pulse: its rise, else its fall; the instant and the pulse after it. -/
def Pulse.edge (p : Pulse) : Option (Nat × Pulse) :=
  match p.high, p.riseAt, p.fallAt with
  | false, some t, _ => some (t, { p with riseAt := none, high := true })
  | true, _, some t => some (t, { p with fallAt := none, high := false })
  | _, _, _ => none

/-- TRIG_OUT_PULSE: the next edge of TRIG_OUTn (R306). -/
def execTrigOutPulse (n : Fin 4) (s : State) : Host.Outcome State Fault Refusal :=
  match if s.flag F.ACQ_TRIGOUT.en n.val then (mget (fun _ => ({} : Pulse)) s.trigOut n.val).edge else none with
  | some e => done ((s.advTo e.1).withTrigOut (mset (fun _ => ({} : Pulse)) s.trigOut n.val e.2))
  | none => done s

end Sys2Proof.Machine
end

