-- ==== Sys2Proof/Machine/Idle.lean ====
section
/-! DEFINITION. What the part does when no command waits: a command that was held because its session waited for a reply
is executed once the reply is sent (R112), and time passes by SCLK cycles (log 1). -/

namespace Sys2Proof.Machine

open Sys2Proof

/-- The DCP header of a command that a session sends. -/
def hdrOf : Instr → Option Hdr
  | .hello h _ _ _ | .claim h _ | .release h | .grant h _ | .renew h _ | .bye h | .opStatus h _ => some h
  | .readReg h _ _ | .writeReg h _ _ _ | .modifyReg h _ _ _ | .readRegList h _ _ => some h
  | .writeMem h _ _ _ | .readMem h _ _ | .fillMem h _ _ _ | .copyMem h _ _ _ => some h
  | .loadSeq h _ _ | .start h _ _ _ _ _ | .stop h _ | .arm h | .status h | .setflag h _ _ | .stallReset h => some h
  | .streamOpen h _ _ _ _ | .credit h _ _ _ | .streamClose h _ | .rewind h _ _ => some h
  | .calRun h _ _ _ | .calRead h _ _ | .calCommit h | .selftestRun h _ | .selftestRead h => some h
  | .yardLoad h _ _ _ _ | .yardUnload h _ _ | .yardSubmit h _ _ _ _ | .yardQuiesce h | .yardResume h => some h
  | .yardStatus h | .timeRead h | .timeSet h _ _ _ _ | .timeStep h _ | .alarmSet h _ _ _ _ _ => some h
  | .alarmCancel h _ | .tsqRead h _ _ | .faultRead h | .faultClear h _ _ | .faultReaction h _ _ => some h
  | .faultInject h _ | .faultRelease h | .tackRead h _ _ | .tackWrite h _ _ _ | .fwWrite h _ _ _ => some h
  | .fwVerify h | .fwActivate h | .ident h | .mcStatus h _ | .rankRetire h _ _ | .migStatus h | .scrub h _ => some h
  | .pcrResetCtlWarm h _ | .pcrResetCtlCold h _ | .blockRstHl h _ | .blockRstMc h _ | .blockRstQm h => some h
  | .blockRstYrd h | .blockRstAcq h | .blockRstFlt h | .blockRstTim h | .blockRstFrm h | .blockRstCal h => some h
  | .forceReturn h _ | .hpPortCtlWrite h _ _ | .restart h _ _ | .hpRefCtlWrite h _ _ | .testLoopSet h _ _ => some h
  | .prbsGen h _ _ | .prbsChk h _ _ | .ownCtlWrite h _ | .ownUdpWrite h _ | .devPartWrite h _ _ => some h
  | .stlFlagsWrite h _ _ | .emit h _ | .measEnWrite h _ | .tbSyncTrimWrite h _ | .tbRateHiWrite h _ => some h
  | .ptpRoleWrite h _ _ | .acqSoftTrig h _ | .timArmWrite h _ | .timCtlEnWrite h _ _ | .qmCfgWrite h _ _ => some h
  | .flush h _ | .flcFirstValidWrite h | .flcStickyWrite h _ _ | .pesXferStart h _ _ _ | .pesCfgWrite h _ _ => some h
  | .mcCfgWrite h _ _ | .mcSysCfgWrite h _ | .policyWrite h _ => some h
  | .dcpFrameDrop h (.reservedOpcode _) => some h
  | _ => none

/-- The session of a header waits for the reply of an earlier command (R112). -/
def State.sessionWaits (s : State) (h : BitVec 16) : Bool :=
  match s.slotOf h with
  | some n => match s.session n with
    | some x => x.wait.isSome
    | none => false
  | none => false

/-- The oldest held command whose session no longer waits. -/
def State.releasable (s : State) : Option Instr :=
  s.held.find? (fun c => match hdrOf c with
    | some h => ! s.sessionWaits h.session
    | none => true)

/-- Takes a command out of the held ones, to be executed now. -/
def State.takeHeld (s : State) (c : Instr) : State := (s.withHeld (s.held.erase c)).withResuming true

/-- One SCLK cycle passes; DRAM accesses of commands that have been held for 10 ms end (R412). -/
def State.tick (s : State) : State := (s.advTo (s.now + 1)).expireWaits

end Sys2Proof.Machine
end

