-- ==== Sys2Proof/Machine/Flt.lean ====
section
/-! DEFINITION. Decimation chains: inputs, the five fixed-point stages, group delay and settling, SAMPLE records
(R337–R353). -/

namespace Sys2Proof.Machine

open Sys2Proof

/-! ### Arithmetic (R344) -/

/-- Rounds a / 2^n to nearest, ties to even (R344). -/
def roundShift (a : Int) (n : Nat) : Int := roundDiv a (2 ^ n)

/-- Saturates to 32 bits; the second part says whether it saturated (R344). -/
def sat32 (a : Int) : Int × Bool :=
  if a < -(2 ^ 31 : Int) then (-(2 ^ 31 : Int), true)
  else if (2 ^ 31 : Int) - 1 < a then ((2 ^ 31 : Int) - 1, true)
  else (a, false)

/-- The sum of products of coefficients and history, newest first; missing history is 0 (R345). -/
def dot : List Int → List Int → Int
  | a :: x, b :: y => a * b + dot x y
  | _, _ => 0

/-! ### Derived values (R343, R349, R350) -/

/-- N of stage 1. -/
def State.cicN (s : State) (c : Nat) : Nat := s.fl F.FLT_CIC.order c
/-- R1 of stage 1. -/
def State.cicR (s : State) (c : Nat) : Nat := s.fl F.FLT_CIC.dec c
/-- h: the enabled half-bands (R343). -/
def State.hbCount (s : State) (c : Nat) : Nat :=
  ((List.range 3).filter (fun j => ! tbit (s.fl F.FLT_HB_CTL.bypass c) j)).length
/-- T of stage 4. -/
def State.firT (s : State) (c : Nat) : Nat := s.fl F.FLT_FIR_CTL.taps c
/-- Df of stage 4. -/
def State.firD (s : State) (c : Nat) : Nat := s.fl F.FLT_FIR_CTL.dec c

/-- Dt = R1 × 2^h × Df (R343). -/
def State.fltDt (s : State) (c : Nat) : Nat := s.cicR c * 2 ^ s.hbCount c * s.firD c

/-- 2G (R349). -/
def State.fltGd2 (s : State) (c : Nat) : Nat :=
  let r := s.cicR c
  let h := 2 ^ s.hbCount c
  s.cicN c * (r - 1) + 62 * r + 30 * r * (h - 1) + (s.firT c - 1) * r * h

/-- S = ⌈2G / Dt⌉ (R350). -/
def State.fltSettle (s : State) (c : Nat) : Nat := (s.fltGd2 c + s.fltDt c - 1) / s.fltDt c

/-! ### The stages (R345) -/

/-- The integrators take one sample: a[1] += x, a[j] += a[j − 1]. -/
def integrate : List Nat → Nat → List Nat
  | [], _ => []
  | a :: t, x => (a + x) % 2 ^ 88 :: integrate t ((a + x) % 2 ^ 88)

/-- The combs: the value that comes out and the kept values. -/
def comb : List Nat → Nat → Nat × List Nat
  | [], u => (u, [])
  | l :: t, u =>
    let r := comb t ((u + 2 ^ 88 - l) % 2 ^ 88)
    (r.1, u :: r.2)

/-- Coefficients of a symmetric filter of `n` taps whose stored half is read by `f`. -/
def symCoefs (n : Nat) (f : Nat → Int) : List Int := (List.range n).map (fun i => f (min i (n - 1 - i)))

/-- A stored 24-bit coefficient. -/
def State.coef (s : State) (r : R) (c i : Nat) : Int := toSigned (s.rg r c i) 24

/-- The 31 taps of half-band j. -/
def State.hbCoefs (s : State) (c j : Nat) : List Int :=
  (List.range 31).map (fun t =>
    if t = 15 then 2 ^ 21
    else
      let d := if t < 15 then 15 - t else t - 15
      if d % 2 = 1 then s.coef .FLT_HB c (8 * j + d / 2) else 0)

/-- A half-band at its input: history, input index, and its output when it gives one. -/
def State.halfBand (s : State) (c j : Nat) (hist : List Int) (k : Nat) (x : Int) :
    Option (Int × Bool) × List Int × Nat :=
  let h := (x :: hist).take 31
  if tbit (s.fl F.FLT_HB_CTL.bypass c) j then (some (x, false), hist, k)
  else if k % 2 = 0 then (some (sat32 (roundShift (dot (s.hbCoefs c j) h) 22)), h, k + 1)
  else (none, h, k + 1)

/-- Sets a saturation flag of a chain and its record flag. -/
def State.satMark (s : State) (c : Nat) (f : FRef) (b : Bool) : State :=
  if b then
    let x := s.flt c
    (s.setFlag f true c).setFlt c { x with satd := true }
  else s

/-- Output n of the chain leaves stage 5 and forms its SAMPLE record (R345, R351). -/
def State.fltOut (s : State) (c st t0 : Nat) (x : Int) : State :=
  let k := s.fl F.FLT_DC.k c
  let s := if k = 0 || s.flag F.FLT_DC.freeze c then s
    else
      let f := s.flt c
      s.setFlt c { f with m := f.m + roundShift (x * 2 ^ 24 - f.m) k }
  let y := if k = 0 then (x, false) else sat32 (x - roundShift (s.flt c).m 24)
  let s := s.satMark c F.FLT_STAT.sat_dc y.2
  let f := s.flt c
  let pay := ofSigned y.1 32 + bit (decide (f.n < s.fltSettle c)) * 2 ^ 32 + bit f.satd * 2 ^ 33
  let r : Rec := ⟨5, 0, st, s.fl F.FLT_CTL.ch c, c, tagOf (t0 - (s.stall st).epoch), pay⟩
  ((s.setFlt c { f with n := f.n + 1, satd := false }).bump F.FLT_OUT_CNT.count 1 c).form (128 + c) r

/-- Stage 4 at its input. -/
def State.fltFir (s : State) (c st t0 : Nat) (x : Int) : State :=
  let f := s.flt c
  let t := s.firT c
  let h := (x :: f.fir).take t
  let k := f.kf
  let s := s.setFlt c { f with fir := h, kf := k + 1 }
  if k % s.firD c = 0 then
    let y := sat32 (roundShift (dot (symCoefs t (s.coef .FLT_FIR c)) h) 22)
    (s.satMark c F.FLT_STAT.sat_fir y.2).fltOut c st t0 y.1
  else s

/-- Stage 3 and what follows. -/
def State.fltHb (s : State) (c st t0 : Nat) (x : Int) : State :=
  let f := s.flt c
  let a := s.halfBand c 0 f.hb0 f.k0 x
  let s := s.setFlt c { f with hb0 := a.2.1, k0 := a.2.2 }
  match a.1 with
  | none => s
  | some (x, e) =>
    let s := s.satMark c F.FLT_STAT.sat_hb e
    let f := s.flt c
    let a := s.halfBand c 1 f.hb1 f.k1 x
    let s := s.setFlt c { f with hb1 := a.2.1, k1 := a.2.2 }
    match a.1 with
    | none => s
    | some (x, e) =>
      let s := s.satMark c F.FLT_STAT.sat_hb e
      let f := s.flt c
      let a := s.halfBand c 2 f.hb2 f.k2 x
      let s := s.setFlt c { f with hb2 := a.2.1, k2 := a.2.2 }
      match a.1 with
      | none => s
      | some (x, e) => (s.satMark c F.FLT_STAT.sat_hb e).fltFir c st t0 x

/-- One input sample through the chain (R345). -/
def State.fltSample (s : State) (c st t0 : Nat) (x : Int) : State :=
  let f := s.flt c
  let n := s.cicN c
  let acc := integrate (f.acc.take n) (ofSigned x 88) ++ f.acc.drop n
  let i := f.s
  let s := s.setFlt c { f with acc := acc, s := i + 1 }
  if i % s.cicR c = 0 then
    let f := s.flt c
    let d := comb (f.last.take n) ((acc[n - 1]?).getD 0)
    let y := sat32 (roundShift (toSigned d.1 88) (s.fl F.FLT_CIC.shift c))
    let s := (s.setFlt c { f with last := d.2 ++ f.last.drop n }).satMark c F.FLT_STAT.sat_cic y.2
    let f := s.flt c
    let h := (y.1 :: f.comp).take 63
    let z := sat32 (roundShift (dot (symCoefs 63 (s.coef .FLT_COMP c)) h) 22)
    ((s.setFlt c { f with comp := h }).satMark c F.FLT_STAT.sat_comp z.2).fltHb c st t0 z.1
  else s

/-! ### The input (R338–R342) -/

/-- A chain takes the synchronising resets that its next sample has reached (R341, R342). -/
def Flt.applyResets (f : Flt) (step : Nat) : Flt :=
  f.resets.foldl
    (fun g r =>
      if r ≤ g.v0 + g.s * step then { ({} : Flt) with v0 := r, resets := g.resets.filter (fun x => x != r) } else g) f

/-- The bit that a channel gave for a vector, none when no word-4 strobe was placed (R338). -/
def State.fltBit (s : State) (ch vec : Nat) : Option Bool :=
  ((mget (fun _ => []) s.fltBits ch).find? (fun e => e.1 == vec)).map (fun e => e.2)

/-- The bits of a channel that no chain of its stall needs any more are dropped. -/
def State.dropBits (s : State) (st ch : Nat) : State :=
  let cs := (s.chainsOf st).filter (fun c => (s.fltChans c).contains ch)
  s.withFltBits (mset (fun _ => []) s.fltBits ch
    ((mget (fun _ => []) s.fltBits ch).filter (fun e => cs.any (fun c => decide (s.fltNext c st ≤ e.1)))))

/-- Every word-4 strobe of the vector is judged on the chain's channels. -/
def State.fltReady (s : State) (c st vec : Nat) : Bool :=
  (match (s.stall st).vec with
  | some v => decide (vec ≤ v)
  | none => false)
  && (s.fltChans c).all (fun ch => ! (s.chan ch).cmp.any (fun e => e.vec == vec && e.word == 4))

/-- The value of a sample (R339). -/
def State.fltValue (s : State) (c : Nat) (bits : List Bool) : Int :=
  if s.flag F.FLT_CTL.input c then
    let w := bits.length
    let v := (bits.zipIdx).foldl (fun a b => a + bit b.1 * 2 ^ b.2) 0
    if s.flag F.FLT_CTL.fmt c then (v : Int) - (2 ^ (w - 1) : Nat) else toSigned v w
  else if bits.any id then 1 else -1

/-- FLT_INPUT_SAMPLE: chain `c` takes its next input sample, which comes over the die link (R15, R337–R353). -/
def execFltInputSample (c : Fin 16) (s : State) : Host.Outcome State Fault Refusal :=
  let c := c.val
  let st := s.fl F.FLT_ASSIGN.stall c
  if s.flag F.FLT_ASSIGN.assigned c && s.flag F.FLT_CTL.en c && s.running st && ! s.inReset .flt then
    let step := s.fltStep c st
    let f := (s.flt c).applyResets step
    let vec := f.v0 + f.s * step
    if s.fltReady c st vec then
      let s := (s.setFlt c f).controlFlit 1
      let bs := (s.fltChans c).map (fun ch => s.fltBit ch vec)
      let s := if bs.any Option.isNone then s.setFlag F.FLT_STAT.no_strobe true c else s
      let t0 := (((s.stall st).t0s.find? (fun e => e.1 == vec)).map (fun e => e.2)).getD (s.stall st).t0
      let s := s.fltSample c st t0 (s.fltValue c (bs.map (fun b => b.getD false)))
      done ((s.fltChans c).foldl (fun s ch => s.dropBits st ch) s)
    else done s
  else done s

end Sys2Proof.Machine
end

