-- ==== Sys2Proof/Machine/RegRead.lean ====
section
/-! DEFINITION. Reading registers: which addresses lie in a block, the die and block of a register, the present value of
registers that follow other state, latching and clearing reads (R127, R335, R379, R443, R494, R498, R499, R502, R504). -/

namespace Sys2Proof.Machine

open Sys2Proof

/-! ### Where a register lies (R498, R499, R504) -/

/-- The block extents of R498. -/
def inBlock (a : Nat) : Bool :=
  a < 0x28000 || (0x40000 ≤ a && a < 0x50000) || (0x100000 ≤ a && a < 0x200000) || (0x300000 ≤ a && a < 0x308000)
    || (0x400000 ≤ a && a < 0x810000) || (0x900000 ≤ a && a < 0x910000) || (0xa00000 ≤ a && a < 0xa01000)
    || (0xb00000 ≤ a && a < 0xb10000) || (0x1000000 ≤ a && a < 0x1100000) || (0x1200000 ≤ a && a < 0x1210000)
    || (0x1400000 ≤ a && a < 0x1500000) || (0x1600000 ≤ a && a < 0x1610000) || (0x1700000 ≤ a && a < 0x1710000)
    || (0x1800000 ≤ a && a < 0x1810000) || (0x1900000 ≤ a && a < 0x1904000) || (0x1f00000 ≤ a && a < 0x2000000)

/-- The timing-die blocks: STL, CHN control, CHN waveform, FRM, TIM and DEV_MKR_DLY (R499). -/
def timingDie (a : Nat) : Bool :=
  (0x100000 ≤ a && a < 0x200000) || (0x300000 ≤ a && a < 0x308000) || (0x400000 ≤ a && a < 0x810000)
    || (0xa00000 ≤ a && a < 0xa01000) || (0x140 ≤ a && a < 0x160)

/-- The resettable block that holds an address (R61, R504). -/
def blockOf (a : Nat) : Option Blk :=
  if 0x20000 ≤ a ∧ a < 0x28000 then hlBlk ((a - 0x20000) / 0x1000)
  else if 0x800000 ≤ a ∧ a < 0x810000 then some .frm
  else if 0x900000 ≤ a ∧ a < 0x910000 then some .acq
  else if 0xa00000 ≤ a ∧ a < 0xa01000 then some .tim
  else if 0xb00000 ≤ a ∧ a < 0xb10000 then some .flt
  else if 0x1000000 ≤ a ∧ a < 0x1100000 then some .qm
  else if 0x1200000 ≤ a ∧ a < 0x1210000 then some .yrd
  else if 0x1400000 ≤ a ∧ a < 0x1460000 then mcBlk ((a - 0x1400000) / 0x10000)
  else if 0x1700000 ≤ a ∧ a < 0x1710000 then some .cal
  else none

/-- The address lies in a block that is in block reset (R504). -/
def State.addrInReset (s : State) (a : Nat) : Bool :=
  match blockOf a with
  | some b => s.inReset b
  | none => false

/-! ### Values that follow other state -/

/-- OWN_DEV_OWNER and OWN_STALL_OWNER (R141). -/
def State.ownerWord (s : State) (r : Nat) : Nat :=
  (s.handle (s.ownerOf r)).toNat + bit (s.election r).isSome * 2 ^ 16

/-- OWN_SESSION[n] (R141). DESIGN CHOICE (log 87): the lane of a session bound to the management target reads 0. -/
def State.sessionWord (s : State) (n : Nat) : Nat :=
  match s.session n with
  | none => 0xffff
  | some x =>
    let lane := (laneOf x.bind).getD 0
    let udp := match x.bind with
      | .udp _ _ _ => 1
      | _ => 0
    let left := if x.expired then 0 else sat 1023 ((x.leaseEnd - s.now + 100 * msCyc - 1) / (100 * msCyc))
    (s.handle (some n)).toNat + (if x.expired then 2 else 1) * 2 ^ 16 + lane * 2 ^ 18 + udp * 2 ^ 21 + left * 2 ^ 22

/-- A bit for each index below `n` that satisfies `p`. -/
def maskOf (n : Nat) (p : Nat → Bool) : Nat := (List.range n).foldl (fun a k => a + bit (p k) * 2 ^ k) 0

/-- PCR_SERVICE (R71, R77, R94). -/
def State.serviceWord (s : State) : Nat :=
  s.level + bit (s.flag F.PCR_SERVICE.timing_die_ok) * 4 + maskOf 6 s.serving * 2 ^ 3 + maskOf 8 s.laneUp * 2 ^ 9
    + bit s.ready * 2 ^ 17

/-- STL_FLAGS (R131, R152, R188). -/
def State.flagsWord (s : State) (st : Nat) : Nat :=
  let x := s.stall st
  s.rg .STL_FLAGS st % 2 ^ 16 + maskOf 4 (fun k => x.trigAt.any (fun e => e.1 == k)) * 2 ^ 16
    + bit (! x.failAt.isEmpty) * 2 ^ 20 + bit x.matchAt.isSome * 2 ^ 21

/-- STL_HOP_STAT (R208). -/
def State.hopWord (s : State) (st : Nat) : Nat :=
  let x := s.stall st
  x.level + bit x.panic * 2 ^ 19 + bit x.residentInPlay * 2 ^ 20 + bit x.prefilled * 2 ^ 21

/-- STL_STACK_A[k] (R169). -/
def stackA (k : List Frame) (i : Nat) : Nat :=
  match k[i]? with
  | some f => f.ret + (if f.loop then 1 else 2) * 2 ^ 16
  | none => 0

/-- STL_STACK_B[k] (R169). -/
def stackB (k : List Frame) (i : Nat) : Nat :=
  match k[i]? with
  | some f => if f.loop then f.left else 0
  | none => 0

/-- Operation slots that live instances hold: one for each operation that has not ended (R386, R387). -/
def State.slotsHeld (s : State) : Nat :=
  s.insts.foldl (fun a x => a + (x.ops.filter (fun o => o.status.isNone)).length) 0

/-- An operation is ready and not dispatched (R387, R389). -/
def YOp.isReady (o : YOp) : Bool := o.counter == 0 && o.status.isNone && o.core.isNone

/-- Ready operations not dispatched. -/
def State.readyOps (s : State) : Nat := s.insts.foldl (fun a x => a + (x.ops.filter YOp.isReady).length) 0

/-- Instances that are live: not yet ended (R402). -/
def State.liveInsts (s : State) : Nat := (s.insts.filter (fun x => ! x.ended)).length

/-- Outstanding instances of a flow (R394). -/
def State.outstanding (s : State) (f : Nat) : Nat := (s.flow f).next - (s.flow f).rel

/-- The present load window of the cores, as its number: windows follow one another from cycle 0 on. -/
def State.loadWin (s : State) : Nat := s.fl F.YRD_LOAD_WIN.win * usCyc

/-- YRD_CORE_LOAD[c] over the last full window (R402). -/
def State.coreLoad (s : State) (c : Nat) : Nat :=
  let w := s.loadWin
  let b := s.now / w * w
  let a := b - w
  let x := s.core c
  if b = 0 then bit x.asleep * 2 ^ 11
  else
    let runs := x.log ++ (if x.work.isSome then [(x.startAt, s.now)] else [])
    let busy := runs.foldl (fun n e => n + (min e.2 b - max e.1 a)) 0
    let ops := (x.log.filter (fun e => decide (a ≤ e.2) && decide (e.2 < b))).length
    busy * 1024 / w + bit x.asleep * 2 ^ 11 + sat 1048575 ops * 2 ^ 12

/-- CAL_SEL[n] (R471). -/
def State.calSel (s : State) (n : Nat) : Nat :=
  let d := s.calElem 1 n
  let e := s.calElem 2 n
  let c := s.calElem 3 n
  d.sel + e.sel * 4 + c.sel * 16 + d.state * 2 ^ 8 + e.state * 2 ^ 10 + c.state * 2 ^ 12

/-- CAL_STAT; the percentage of a running operation is a free value (R471, log 3). -/
def State.calStat (s : State) : Nat :=
  let pct := if s.calBusy then (Config.free s.freeCtr 7).toNat % 101 else 0
  bit s.calBusy + s.calKind * 2 + pct * 2 ^ 3 + bit s.uncommitted * 2 ^ 10

/-- PES_STAT and PES_XFER[i] bits that follow the transfers (R513). -/
def State.pesStat (s : State) (j : Nat) : Nat :=
  let p := s.pesm j
  let held := s.fl F.PES_STAT.held j
  let cs := s.fl F.PES_STAT.cs j
  let pend := maskOf 8 (fun i => (if p.running then p.queue.drop 1 else p.queue).any (fun x => x.cs == i))
  cs + bit p.running * 8 + pend * 16 + held * 2 ^ 12

/-- A transfer of a chip select is queued or running. -/
def State.pesBusy (s : State) (j i : Nat) : Bool := (s.pesm j).queue.any (fun x => x.cs == i)

/-- The offset of network time: seconds, nanoseconds, 2^−16 ns. -/
def State.ofsParts (s : State) : Nat × Nat × Nat := ntSplit (s.ofs : Int)

/-- The present value of a register (before latching). -/
def State.regNow (s : State) (r : R) (i j : Nat) : Nat :=
  match r with
  | .PCR_SERVICE => s.serviceWord
  | .DEV_TEMP => (Config.junction (s.now / msCyc) (BitVec.ofNat 16 (s.rg .DEV_TEMP))).toNat
      + bit (s.flag F.DEV_TEMP.tim_valid && s.flag F.PCR_SERVICE.timing_die_ok) * 2 ^ 16
  | .DEV_MGMT => maskOf 32 (fun n => match s.session n with
    | some x => x.bind == .mgmt
    | none => false)
  | .OWN_DEV_OWNER => s.ownerWord devRes
  | .OWN_STALL_OWNER => s.ownerWord i
  | .OWN_SESSION => s.sessionWord i
  | .STL_VEC_LO => (s.stall i).vcount.toNat % 2 ^ 32
  | .STL_VEC_HI => (s.stall i).vcount.toNat / 2 ^ 32
  | .STL_FLAGS => s.flagsWord i
  | .STL_SEQ_ENTRY =>
    let w := s.rg .STL_SEQ_ENTRY i
    if s.stState i = stRunning then putBits w 31 16 (s.stall i).nextIdx else w
  | .STL_STACK_PTR => (s.stall i).stack.length + loopDepth (s.stall i).stack * 2 ^ 8
  | .STL_STACK_A => stackA (s.stall i).stack j
  | .STL_STACK_B => stackB (s.stall i).stack j
  | .STL_HOP_STAT => s.hopWord i
  | .STL_HOP_RESERVE => s.reserve i
  | .FRM_STAT =>
    let active := match s.stallOfOct i with
      | some st => s.running st && decide (2 ≤ (s.stall st).mode)
      | none => false
    putBits (s.rg .FRM_STAT i) 4 4 (bit (! active))
  | .ACQ_RWD_FLOOR => match s.stream (512 + i) with
    | some t => t.floor.toNat
    | none => 0
  | .TIM_STAT => putBits (s.rg .TIM_STAT i) 7 7 (bit (i == 0 && s.flag F.TB_SYNC_CTL.meas_en))
  | .FLT_STAT =>
    let st := s.fl F.FLT_ASSIGN.stall i
    putBits (s.rg .FLT_STAT i) 6 6 (bit (s.flag F.FLT_ASSIGN.assigned i && s.flag F.FLT_CTL.en i && s.running st
      && decide ((s.flt i).n < s.fltSettle i)))
  | .FLT_GDELAY => s.fltGd2 i
  | .FLT_SETTLE => s.fltSettle i
  | .FLT_DECIM => s.fltDt i
  | .FLT_DC_M_LO => ofSigned (s.flt i).m 56 % 2 ^ 32
  | .FLT_DC_M_HI => ofSigned (s.flt i).m 56 / 2 ^ 32
  | .QM_DEPTH => (s.queue i).depth
  | .QM_PKTS => (s.queue i).pkts
  | .QM_RETAIN => (s.queue i).retained
  | .QM_STAT =>
    putBits (putBits (s.rg .QM_STAT i) 1 1 (bit (! (s.queue i).spillEnds.isEmpty))) 3 3 (bit (s.stream i).isSome)
  | .YRD_STAT => putBits (s.rg .YRD_STAT) 24 8 s.readyOps
  | .YRD_USE => s.slotsHeld + sat 32767 s.liveInsts * 2 ^ 17
  | .YRD_CORE_LOAD => s.coreLoad i
  | .YRD_FLOW => s.outstanding i + bit (decide (4096 ≤ s.outstanding i)) * 2 ^ 13
  | .MC_STAT =>
    putBits (putBits (putBits (s.rg .MC_STAT i) 0 0 (bit (s.dram.set.contains i))) 1 1 (bit (s.serving i))) 17 17
      (bit (s.dram.set.contains i && s.anyPanic))
  | .MC_MIG_PTR_LO => match s.mig with
    | some g => if g.m = i then g.w % 2 ^ 32 else 0
    | none => 0
  | .MC_MIG_PTR_HI => match s.mig with
    | some g => if g.m = i then g.w / 2 ^ 32 else 0
    | none => 0
  | .MC_SYS_STAT => s.dram.rate + maskOf 6 (fun m => s.dram.set.contains m) * 4 + maskOf 6 s.serving * 2 ^ 8
      + s.dram.set.length * 2 ^ 14
  | .MC_SYS_PEAK => s.peak + s.rtLimit * 2 ^ 12
  | .MC_SYS_SIZE => s.installed / 2 ^ 20
  | .TB_CNT_LO => s.cnt.toNat % 2 ^ 32
  | .TB_CNT_HI => s.cnt.toNat / 2 ^ 32
  | .TB_OFS_SEC_LO => s.ofsParts.1 % 2 ^ 32
  | .TB_OFS_SEC_HI => s.ofsParts.1 / 2 ^ 32 % 2 ^ 16
  | .TB_OFS_NS => s.ofsParts.2.1
  | .TB_OFS_SUBNS => s.ofsParts.2.2
  | .TB_RATE_LO => s.rateLo.toNat
  | .TB_RATE_HI => ofSigned s.rate 64 / 2 ^ 32
  | .TB_SYNC_STAT => putBits (s.rg .TB_SYNC_STAT) 0 0 (s.calElem 4 0).sel
  | .CAL_STAT => s.calStat
  | .CAL_SEL => s.calSel i
  | .CAL_TVC_SEL => (s.calElem 0 i).sel + (s.calElem 0 i).state * 4
  | .CAL_SYNC_SEL => (s.calElem 4 0).sel + (s.calElem 4 0).state * 2
  | .FLC_LIVE => s.rg .FLC_LIVE i ||| maskOf 32 (fun b => s.pulseNow (32 * i + b))
  | .FLC_STAT => putBits (s.rg .FLC_STAT) 2 2 (bit (! s.shadows.isEmpty))
  | .PES_STAT => s.pesStat i
  | .PES_XFER => putBits (s.rg .PES_XFER i j) 17 17 (bit (s.pesBusy i j))
  | .TCK_WORD => s.tackLe (4 * i) 4
  | r => s.rg r i j

/-! ### Latching and clearing reads (R335, R379, R443, R502) -/

/-- The registers that a read of a register latches. -/
def latches : R → List R
  | .DEV_SERIAL_LO => [.DEV_SERIAL_HI]
  | .STL_VEC_LO => [.STL_VEC_HI]
  | .STL_STARVE_VEC_LO => [.STL_STARVE_VEC_HI]
  | .STL_FIRST_FAIL_LO => [.STL_FIRST_FAIL_HI]
  | .ACQ_WIN_TRIG_LO => [.ACQ_WIN_TRIG_HI]
  | .ACQ_WIN_FIRST_LO => [.ACQ_WIN_FIRST_HI]
  | .ACQ_WPOS_LO => [.ACQ_WPOS_HI]
  | .TIM_START_C_LO => [.TIM_START_C_HI, .TIM_START_F, .TIM_STOP_C_LO, .TIM_STOP_C_HI, .TIM_STOP_F, .TIM_RESULT_LO,
      .TIM_RESULT_HI]
  | .FLT_DC_M_LO => [.FLT_DC_M_HI]
  | .QM_DEPTH => [.QM_PKTS, .QM_RETAIN]
  | .MC_UE_ADDR_LO => [.MC_UE_ADDR_HI]
  | .MC_MIG_PTR_LO => [.MC_MIG_PTR_HI]
  | .TB_CNT_LO => [.TB_CNT_HI, .TB_OFS_SEC_LO, .TB_OFS_SEC_HI, .TB_OFS_NS, .TB_OFS_SUBNS, .TB_RATE_LO, .TB_RATE_HI]
  | .TB_SYNC_CNT_LO => [.TB_SYNC_CNT_HI]
  | .FLC_FIRST_TAG_LO => [.FLC_FIRST_TAG_HI]
  | _ => []

/-- Whether a register reads the value that another register's read latched. -/
def isLatched : R → Bool
  | .DEV_SERIAL_HI | .STL_VEC_HI | .STL_STARVE_VEC_HI | .STL_FIRST_FAIL_HI | .ACQ_WIN_TRIG_HI | .ACQ_WIN_FIRST_HI => true
  | .ACQ_WPOS_HI | .TIM_START_C_HI | .TIM_START_F | .TIM_STOP_C_LO | .TIM_STOP_C_HI | .TIM_STOP_F => true
  | .TIM_RESULT_LO | .TIM_RESULT_HI | .FLT_DC_M_HI | .QM_PKTS | .QM_RETAIN | .MC_MIG_PTR_HI | .TB_CNT_HI => true
  | .TB_OFS_SEC_LO | .TB_OFS_SEC_HI | .TB_OFS_NS | .TB_OFS_SUBNS | .TB_RATE_LO | .TB_RATE_HI | .TB_SYNC_CNT_HI => true
  | .FLC_FIRST_TAG_HI => true
  | _ => false

/-- What a read of a register delivers: latched, or present, when nothing is latched. MC_UE_ADDR_HI delivers its address as
latched and its valid bit as it stands. -/
def State.regValue (s : State) (r : R) (i j : Nat) : Nat :=
  match s.latched r i j with
  | none => s.regNow r i j
  | some v =>
    if isLatched r then v.toNat
    else if r = .MC_UE_ADDR_HI then v.toNat % 2 ^ 8 + bit (s.flag F.MC_UE_ADDR_HI.valid i) * 2 ^ 8
    else s.regNow r i j

/-- A read of a register in a block that is in reset: its Reset-column value, with "tack" and "strap" values as they will
stand (R504). -/
def State.resetValue (s : State) (r : R) (i j : Nat) : Nat :=
  match r with
  | .HP_PORT_CTL | .HP_TX_EQ | .HP_MAC_LO | .HP_MAC_HI | .MC_CFG => s.rg r i j
  | .MC_STAT => bitsOf (s.rg r i j) 8 3 * 8
  | .CAL_SEL | .CAL_TVC_SEL | .CAL_SYNC_SEL => s.regNow r i j
  | r => r.reset i j

/-- Whether some field of a register clears on read. -/
def hasRc (r : R) : Bool := r.row.fields.any (fun f => f.acc == .rc)

/-- A word with the fields of one access replaced by 0. -/
def clearAcc (row : RegRow) (acc : Acc) (v : Nat) : Nat :=
  row.fields.foldl (fun v f => if f.acc = acc then putBits v f.hi f.lo 0 else v) v

/-- What is brought up to date before a register is read: counters and status of a lane's receiver (R81, R86, R100); a channel
whose grid samples read state I (R252, R293); whether the SYNC samplers have disagreed since the flag was cleared, which no
command of the table carries but at a boundary: a free value while SYNC_IN is sampled (R242, log 91). -/
def State.beforeRead (s : State) (r : R) (i : Nat) : State :=
  match r with
  | .HP_FEC_CORR | .HP_FEC_UNCORR | .HP_PRBS_ERR => s.laneCounts i
  | .HP_RX_EQ_STAT => s.laneAdapt i
  | .CHN_CMP_STAT => if ((s.stallOfChan i).any s.running) && (s.chan i).grid.head?.any (fun g => g.2 == 3)
      then s.noteSample i 3 else s
  | .TB_SYNC_STAT =>
    if s.flag F.TB_SYNC_CTL.in_en then
      let d := s.draw 1
      if d.1 = 1 then d.2.setFlag F.TB_SYNC_STAT.disagree true else d.2
    else s
  | _ => s

/-- Reads one register with its side effects (R502). An address of a block without a register reads 0; at MGMT_ONLY a
timing-die register reads all ones (R499). -/
def State.regRead (s : State) (a : Nat) : Word × State :=
  match regAt a with
  | none => (0, s)
  | some (r, i, j) =>
    if s.level = 3 ∧ timingDie a then (0xffffffff, s)
    else if s.addrInReset a then (BitVec.ofNat 32 (s.resetValue r i j), s)
    else
      let s := (if timingDie a then s.controlFlit 1 else s).beforeRead r i
      let v := s.regValue r i j
      let s := (latches r).foldl (fun s h => s.setLatch h (s.regNow h i j) i j) s
      let s := if hasRc r then s.setRg r (clearAcc r.row .rc (s.rg r i j)) i j else s
      let s := if r = .YRD_QWATCH_MAX then s.rewatch i else s
      let s := if r = .TCK_WORD then s.checkTack (4 * i) else s
      let s := if r = .CAL_STAT ∧ s.calBusy then s.withFreeCtr (s.freeCtr + 1) else s
      (BitVec.ofNat 32 v, s)

/-- Reads registers one after the other. -/
def State.regReads (s : State) : List Nat → List Word × State
  | [] => ([], s)
  | a :: t =>
    let x := s.regRead a
    let y := State.regReads x.2 t
    (x.1 :: y.1, y.2)

end Sys2Proof.Machine
end

