-- ==== Sys2Proof/Machine/Operands.lean ====
section
/-! DEFINITION. Operands of commands: the status codes, the owner of each register, and the reserved codes and value ranges
of register fields (R9, R117, R500 order 1, R505, R506). -/

namespace Sys2Proof.Machine

open Sys2Proof

/-! ### Status codes (R117) -/

/-- OK. -/
def stOk : Nat := 0
/-- BUSY. -/
def stBusy : Nat := 1
/-- NOT_OWNER. -/
def stNotOwner : Nat := 2
/-- BAD_OPCODE. -/
def stBadOpcode : Nat := 3
/-- BAD_PARAM. -/
def stBadParam : Nat := 4
/-- NO_RESOURCE. -/
def stNoResource : Nat := 5
/-- STALL_RUNNING. -/
def stStallRunning : Nat := 6
/-- LEASE_EXPIRED. -/
def stLeaseExpired : Nat := 7
/-- POISON. -/
def stPoison : Nat := 8
/-- REWIND_LOST. -/
def stRewindLost : Nat := 9
/-- FAULT_HOLD. -/
def stFaultHold : Nat := 10
/-- DRAM_ABSENT. -/
def stDramAbsent : Nat := 11
/-- TIMEOUT. -/
def stTimeout : Nat := 12
/-- MIGRATING. -/
def stMigrating : Nat := 13
/-- BAD_SESSION. -/
def stBadSession : Nat := 14
/-- BAD_SEQUENCE. -/
def stBadSequence : Nat := 15
/-- BAD_VERSION. -/
def stBadVersion : Nat := 16
/-- VERIFY_FAIL. -/
def stVerifyFail : Nat := 17

/-! ### Owners of registers (R505, R506) -/

/-- Whether some field of a register takes writes; the GAP and TIME routes take none (R318), nor do the descriptors of the
part's own queues (R363). -/
def writable (r : R) (i j : Nat) : Bool :=
  match r with
  | .ACQ_ROUTE => j != 3 && j != 6
  | .QM_CFG | .QM_SPILL | .QM_STAT => decide (64 ≤ i)
  | r => r.row.fields.any (fun f => f.acc == .rw || f.acc == .rwd || f.acc == .w1c || f.acc == .wo)

/-- The resource that owns a queue's descriptor: the device, a stall, or none for the part's own queues (R359). -/
def queueRes (q : Nat) : Option Nat :=
  if q < 64 then none
  else match tailStall q with
    | some st => some st
    | none => some devRes

/-- The resource that a register belongs to (R506). -/
def State.regRes (s : State) (r : R) (i j : Nat) : Option Nat :=
  if ! writable r i j then none
  else
    match r with
    | .STL_HOP_CTL | .STL_LEAT_RESV | .ACQ_RESV | .ACQ_TRIGOUT | .TIM_ASSIGN | .FLT_ASSIGN => some devRes
    | .QM_CFG | .QM_SPILL | .QM_STAT => queueRes i
    | .PES_XFER | .PES_TX =>
      let k := if r = .PES_TX then j / 32 else j
      if s.flag F.PES_CS_ASSIGN.assigned i k then some (s.fl F.PES_CS_ASSIGN.stall i k) else some devRes
    | r =>
      let a := r.addr i j
      if 0x100000 ≤ a ∧ a < 0x200000 then some i
      else if (0x300000 ≤ a ∧ a < 0x308000) ∨ (0x400000 ≤ a ∧ a < 0x800000) then some (s.chanRes i)
      else if 0x800000 ≤ a ∧ a < 0x810000 then some ((s.stallOfOct i).getD devRes)
      else if 0x900000 ≤ a ∧ a < 0x901000 then some i
      else if 0xa00000 ≤ a ∧ a < 0xa01000 then
        some (if s.flag F.TIM_ASSIGN.assigned i then s.fl F.TIM_ASSIGN.stall i else devRes)
      else if 0xb00000 ≤ a ∧ a < 0xb10000 then
        some (if s.flag F.FLT_ASSIGN.assigned i then s.fl F.FLT_ASSIGN.stall i else devRes)
      else some devRes

/-! ### Reserved codes and ranges (R9, R500 order 1) -/

/-- Queues that a fail log or a window note may not name (R266, R315). -/
def reservedQueue (q : Nat) : Bool := decide (q < 64) || (decide (512 ≤ q) && decide (q < 1024))

/-- A field of a value that is to be written. -/
def FRef.of (f : FRef) (v : Nat) : Nat := bitsOf v f.hi f.lo

/-- An index that the trigger source does not have (R304). -/
def badTrigIndex (src index : Nat) : Bool :=
  match src with
  | 0 => index != 0
  | 1 => decide (3 < index)
  | 2 => decide (7 < index)
  | 3 => index != 0
  | 4 => index != 0
  | 5 => false
  | _ => true

/-- A bad source of a time-interval unit (R321). -/
def badTimSrc (v : Nat) : Bool :=
  let src := bitsOf v 1 0
  let ix := bitsOf v 8 4
  (src == 2 && decide (3 < ix)) || (src == 3 && decide (7 < ix))

/-- A waveform word with a reserved action, a reserved compare mode or nonzero reserved bits (R216–R218). -/
def badWft (w v : Nat) : Bool :=
  if w ≤ 3 then bitsOf v 31 29 == 7
  else if w ≤ 5 then decide (5 ≤ bitsOf v 31 29)
  else if w = 6 then bitsOf v 31 5 != 0
  else v != 0

/-- A reserved reaction code in a field of FLC_REACT[j] that takes writes (R482, R489). -/
def badReact (j v : Nat) : Bool :=
  (List.range 8).any (fun k =>
    let n := 8 * j + k
    ! (srcReserved n) && n != 9 && n != 10 && decide (6 ≤ bitsOf v (4 * k + 2) (4 * k)))

/-- The value that an address will hold among the writes of one command, or holds now (R233, R501). -/
def State.willHold (s : State) (items : List (Nat × Nat)) (a : Nat) : Nat :=
  match items.find? (fun e => e.1 == a) with
  | some e => e.2
  | none => (s.rd a).toNat

/-- The value uses a reserved code or lies outside the range that the field tables state (R500 order 1). -/
def State.badCode (s : State) (items : List (Nat × Nat)) (r : R) (i j v : Nat) : Bool :=
  match r with
  | .PCR_RESET_CTL =>
    let k := bitsOf v 31 16
    (tbit v 0 && k != 0x5752) || (tbit v 1 && k != 0x4352)
  | .HP_REF_CTL => let d := bitsOf v 7 4
                   d == 0 || decide (10 < d) || bitsOf v 10 8 == 7
  | .HP_TX_EQ => let w := bitsOf v 14 9
                 decide (32 < bitsOf v 3 0 + bitsOf v 8 4) || decide (w < 20) || decide (50 < w)
  | .OWN_CTL => let e := bitsOf v 15 0
                decide (e < 0x600) || e == 0x800 || e == 0x806 || e == 0x8100 || e == 0x88f7
  | .OWN_UDP => let p := bitsOf v 15 0
                p == 0 || p == 319 || p == 320
  | .STL_HOP_CTL => decide (64 < bitsOf v 6 0)
  | .STL_LEAT_CTL => let p := bitsOf v 6 0
                     p == 0 || decide (99 < p)
  | .STL_FAIL_LOG_CTL => reservedQueue (bitsOf v 14 0)
  | .STL_MATCH_CTL => let n := bitsOf v 8 0
                      n == 0 || decide (256 < n)
  | .CHN_DRV_SKEW | .CHN_CMP_SKEW => decide (8000 < (toSigned v 16).natAbs)
  | .CHN_FR_INC_LO => decide (2 ^ 46 < v + s.willHold items (R.addr .CHN_FR_INC_HI i 0) % 2 ^ 16 * 2 ^ 32)
  | .CHN_FR_INC_HI => decide (2 ^ 46 < s.willHold items (R.addr .CHN_FR_INC_LO i 0) + v % 2 ^ 16 * 2 ^ 32)
  | .WFT_WORD => badWft (j % 8) v
  | .FRM_RX_CTL => bitsOf v 9 8 == 0 || bitsOf v 12 10 == 0
  | .ACQ_TRIG_CTL => badTrigIndex (bitsOf v 3 0) (bitsOf v 7 4)
  | .ACQ_AUTO => let t := bitsOf v 25 0
                 t == 0 || decide (60000000 < t)
  | .ACQ_WIN_CTL => decide (16 < bitsOf v 4 0) || reservedQueue (bitsOf v 22 8)
  | .ACQ_WIN_POST => v == 0
  | .ACQ_ROUTE => let q := bitsOf v 14 0
                  ! (tailStall q == some i || decide (1024 ≤ q))
  | .TIM_CTL =>
    let g := bitsOf v 3 2
    g == 3 || (g == 1 && decide (3 < bitsOf v 6 4)) || (g == 2 && ! s.flag F.TIM_ASSIGN.assigned i) || bitsOf v 15 8 == 0
  | .TIM_START_SRC | .TIM_STOP_SRC => badTimSrc v
  | .TIM_TIMEOUT => decide (60000000 < bitsOf v 25 0)
  | .FLT_CTL => let w := bitsOf v 15 11
                w == 0 || decide (24 < w) || bitsOf v 25 16 == 0
  | .FLT_CIC =>
    let n := bitsOf v 2 0
    let d := bitsOf v 18 8
    n == 0 || n == 7 || decide (d < 8) || decide (1024 < d) || decide (87 < bitsOf v 25 19)
  | .FLT_FIR_CTL => let d := bitsOf v 12 8
                    bitsOf v 7 0 % 2 == 0 || d == 0 || decide (16 < d)
  | .FLT_DC => let k := bitsOf v 4 0
               (k != 0 && decide (k < 8)) || decide (24 < k)
  | .QM_CFG =>
    let z := bitsOf v 5 1
    let c := bitsOf v 10 6
    decide (z < 6) || decide (24 < z) || decide (c < 6) || decide (z < c) || (tbit v 12 && (tailStall i).isSome)
  | .YRD_CTL | .YRD_LOAD_WIN => let n := bitsOf v 19 0
                                n == 0 || decide (1000000 < n)
  | .YRD_HIST_SEL => let n := bitsOf v 31 24
                     n == 0 || decide (9 < n)
  | .MC_CFG =>
    let n := bitsOf v 1 0
    bitsOf v 4 3 == 3 || decide (n < bitsOf v 7 6) || (tbit v 5 && n == 0)
  | .MC_SYS_CFG => bitsOf v 1 0 == 3
  | .MC_SYS_REF =>
    let t := bitsOf v 7 1
    let p := bitsOf v 17 8
    decide (t < 75) || decide (95 < t) || p == 0 || decide (1000 < p)
  | .MC_SYS_PWR => let t := bitsOf v 27 11
                   t == 0 || decide (100000 < t)
  | .MC_SYS_RD => let p := bitsOf v 20 16
                  decide (bitsOf v 15 0 < 256) || decide (p < 8) || decide (16 < p)
  | .TB_SYNC_TRIM => decide (10000 < bitsOf v 13 0)
  | .TB_PTP_CTL => decide (4 < (toSigned (bitsOf v 21 18) 4).natAbs)
  | .FLC_SHADOW => let t := bitsOf v 9 0
                   t == 0 || decide (1000 < t)
  | .FLC_REACT => badReact i v
  | .PES_CFG => decide (bitsOf v 9 2 < 8)
  | .PES_XFER => let n := bitsOf v 7 0
                 n == 0 || decide (128 < n)
  | _ => false

end Sys2Proof.Machine
end

