-- ==== Sys2Proof/Machine/Flags.lean ====
section
/-! DEFINITION. How a written value changes a register by the access codes of its fields: RW and RWD fields take it, W1C bits
are cleared where it holds 1, WO bits act and are not stored, RO and RC fields keep their value; and the value that
MODIFY_REG writes (R6, R127, R503). -/

namespace Sys2Proof.Machine

open Sys2Proof

/-- One field after a write of `v` over `old`. -/
def mergeField (f : RField) (old v x : Nat) : Nat :=
  match f.acc with
  | .rw | .rwd => putBits x f.hi f.lo (bitsOf v f.hi f.lo)
  | .w1c => putBits x f.hi f.lo (bitsOf old f.hi f.lo &&& (2 ^ (f.hi + 1 - f.lo) - 1 - bitsOf v f.hi f.lo))
  | .ro | .wo | .rc => x

/-- A register after a write of `v` (R6). -/
def mergeWrite (row : RegRow) (old v : Nat) : Nat := row.fields.foldl (fun x f => mergeField f old v x) old

/-- The word that MODIFY_REG writes: new = (old AND NOT mask) OR (value AND mask); a W1C or WO field receives value AND mask
(R503). -/
def modifyWord (row : RegRow) (old mask value : Nat) : Nat :=
  let new := (old &&& (0xffffffff - mask)) ||| (value &&& mask)
  row.fields.foldl
    (fun x f => match f.acc with
      | .w1c | .wo => putBits x f.hi f.lo (bitsOf (value &&& mask) f.hi f.lo)
      | _ => x) new

/-- The bits of a register's field of one access as they are written. -/
def accBits (row : RegRow) (acc : Acc) (v : Nat) : Nat :=
  row.fields.foldl (fun x f => if f.acc = acc then putBits x f.hi f.lo (bitsOf v f.hi f.lo) else x) 0

/-- The reaction word of FLC_REACT[j] after a write: fields of reserved sources and of sources 9 and 10 keep their value
(R489). -/
def mergeReact (j old v : Nat) : Nat :=
  (List.range 8).foldl
    (fun x k =>
      let n := 8 * j + k
      if srcReserved n || n == 9 || n == 10 then x else putBits x (4 * k + 2) (4 * k) (bitsOf v (4 * k + 2) (4 * k))) old

end Sys2Proof.Machine
end

