-- ==== Sys2Proof/Machine/Refresh.lean ====
section
/-! DEFINITION. Refresh of the DRAM ranks: rates, hot ranks and the refresh debt (R419–R422). -/

namespace Sys2Proof.Machine

open Sys2Proof

/-- The refresh rate of a rank as MC_TEMP reports it: 0 1×, 1 2×, 2 4×. -/
def State.rankRate (s : State) (m r : Nat) : Nat := bitsOf (s.rg .MC_TEMP m) (8 * r + 1) (8 * r)

/-- The refresh debt of a rank (R421). -/
def State.rankDebt (s : State) (m r : Nat) : Nat := bitsOf (s.rg .MC_TEMP m) (8 * r + 4) (8 * r + 2)

/-- Whether a rank is hot (R420). -/
def State.rankHot (s : State) (m r : Nat) : Bool := tbit (s.rg .MC_TEMP m) (8 * r + 5)

/-- Stores the refresh debt of a rank. -/
def State.setDebt (s : State) (m r d : Nat) : State :=
  s.setRg .MC_TEMP (putBits (s.rg .MC_TEMP m) (8 * r + 4) (8 * r + 2) d) m

/-- Stores the refresh rate of a rank. -/
def State.setRate (s : State) (m r v : Nat) : State :=
  s.setRg .MC_TEMP (putBits (s.rg .MC_TEMP m) (8 * r + 1) (8 * r) v) m

/-- Stores whether a rank is hot. -/
def State.setHot (s : State) (m r : Nat) (b : Bool) : State :=
  s.setRg .MC_TEMP (putBits (s.rg .MC_TEMP m) (8 * r + 5) (8 * r + 5) (bit b)) m

/-- The rate that the policy gives a rank: its last MR4 multiplier under NATIVE, 1× or 2× under LEGACY (R419). -/
def State.wantedRate (s : State) (m r : Nat) : Nat :=
  if s.flag F.MC_SYS_REF.policy then bit (s.rankHot m r) else mget (fun _ => 0) s.mr4 (4 * m + r)

/-- A rank's refresh interval timer restarts now. -/
def State.restartRef (s : State) (m r : Nat) : State := s.setRankTimes m r { s.rankTimes m r with ref := s.now }

/-- When a rank's next refresh interval comes due: an interval is 3.9 µs at the 1× rate and halves with each doubling (R419). -/
def State.refDue (s : State) (m r : Nat) : Nat := (s.rankTimes m r).ref + 6240 / 2 ^ s.rankRate m r

/-- A rank's rate follows its policy: the debt doubles or halves with it, what exceeds 4 is issued as urgent refreshes, and the
interval timer restarts (R422). -/
def State.followRate (s : State) (m r : Nat) : State :=
  let old := s.rankRate m r
  let new := s.wantedRate m r
  let d := s.rankDebt m r
  if old < new then
    let e := d * 2 ^ (new - old)
    (((s.bump F.MC_URGENT.count (e - 4) m).setDebt m r (min e 4)).setRate m r new).restartRef m r
  else if new < old then
    ((s.setDebt m r ((d + 2 ^ (old - new) - 1) / 2 ^ (old - new))).setRate m r new).restartRef m r
  else s

/-- The ranks of a controller of S. -/
def State.ranksOf (s : State) (m : Nat) : List Nat := List.range (bitsOf (s.useCfg m) 1 0 + 1)

/-- The timers of a controller. -/
def State.mcTimes (s : State) (m : Nat) : McTimes := mget (fun _ => ({} : McTimes)) s.mcT m

/-- Stores the timers of a controller. -/
def State.setMcTimes (s : State) (m : Nat) (t : McTimes) : State := s.withMcT (mset (fun _ => ({} : McTimes)) s.mcT m t)

/-- A controller begins service: its timers and those of its ranks start (R419–R425, log 44). -/
def State.startTimers (s : State) (m : Nat) : State :=
  (s.ranksOf m).foldl (fun s r => s.setRankTimes m r ⟨s.now, s.now⟩) (s.setMcTimes m ⟨s.now, s.now⟩)

/-- Every rank of S follows the policy (R422). -/
def State.followRates (s : State) : State :=
  s.dram.set.foldl (fun s m => (s.ranksOf m).foldl (fun s r => s.followRate m r) s) s

end Sys2Proof.Machine
end

