-- ==== Sys2Proof/Machine/RegWrite.lean ====
section
/-! DEFINITION. Writing registers: the checks of R500 in their order, and the effect of each write (R127, R143–R145, R240,
R243, R363, R444, R445, R466, R500–R507, R511 and the drop rules of each chapter). -/

namespace Sys2Proof.Machine

open Sys2Proof

/-! ### Order 5: the stall, unit or chain concerned is armed or running -/

/-- An armed or running stall names a queue: in a kept route, an enabled fail log or an enabled window note (R363). -/
def State.queueNamed (s : State) (q : Nat) : Bool :=
  (List.range 16).any (fun st =>
    s.busyStall st && (s.routed st q || (s.flag F.STL_FAIL_LOG_CTL.en st && s.fl F.STL_FAIL_LOG_CTL.queue st == q)
      || (s.flag F.ACQ_WIN_CTL.note_en st && s.fl F.ACQ_WIN_CTL.note_q st == q)))

/-- The write changes size, onchip, spill_en, consumer or en of QM_CFG. -/
def State.qmChanges (s : State) (q v : Nat) : Bool := bitsOf v 12 0 != bitsOf (s.rg .QM_CFG q) 12 0

/-- QM_CFG.flush of a written value. -/
def qmFlush (v : Nat) : Bool := tbit v 13

/-- An assigned chain's stall is armed or running. -/
def State.fltBusy (s : State) (c : Nat) : Bool :=
  s.flag F.FLT_ASSIGN.assigned c && s.busyStall (s.fl F.FLT_ASSIGN.stall c)

/-- Some stall is armed with START source 2 (R173). -/
def State.armedOnSync (s : State) : Bool :=
  (List.range 16).any (fun st => s.stState st == stArmed && (s.stall st).src.source == 2)

/-- The stall of a channel is armed or running. -/
def State.chanBusy (s : State) (ch : Nat) : Bool := (s.stallOfChan ch).any s.busyStall

/-- The stall of an octet is armed or running. -/
def State.octBusy (s : State) (k : Nat) : Bool := (s.stallOfOct k).any s.busyStall

/-- The write is dropped because the stall, unit or chain concerned is armed or running (R500 order 5). -/
def State.runningDrop (s : State) (r : R) (i j v : Nat) : Bool :=
  match r with
  | .DEV_PART => s.busyStall i && bitsOf v 23 0 != bitsOf (s.rg r i j) 23 0
  | .DEV_MKR_DLY => (List.range 16).any (fun st => s.busyStall st && tbit (s.fl F.DEV_PART.mkr_out st) i)
  | .STL_SEQ_CTL | .STL_HALT | .STL_TS_PERIOD | .STL_HOP_CTL | .STL_LEAT_RESV => s.busyStall i
  | .STL_FAIL_LOG_CTL | .STL_FAIL_LOG_MAX | .STL_MATCH_CTL => s.busyStall i
  | .ACQ_CTL | .ACQ_RESV | .ACQ_TRIG_CTL | .ACQ_AUTO | .ACQ_WIN_CTL | .ACQ_RING_BASE | .ACQ_WIN_PRE | .ACQ_WIN_POST
  | .ACQ_ROUTE => s.busyStall i
  | .CHN_TG_CTL | .CHN_FR_INC_LO | .CHN_FR_INC_HI | .CHN_DRV_SKEW | .CHN_CMP_SKEW | .CHN_CMP_CTL | .CHN_EQ_CTL =>
    s.chanBusy i
  | .FRM_TX_CTL | .FRM_RX_CTL => s.octBusy i
  | .TIM_CTL | .TIM_START_SRC | .TIM_STOP_SRC | .TIM_TIMEOUT => s.timBusy i
  | .FLT_CTL | .FLT_CIC | .FLT_HB_CTL | .FLT_FIR_CTL | .FLT_SYNC | .FLT_COMP | .FLT_HB | .FLT_FIR => s.fltBusy i
  | .FLT_DC => s.fltBusy i && bitsOf v 4 0 != bitsOf (s.rg r i j) 4 0
  | .QM_CFG => (s.qmChanges i v || qmFlush v) && s.queueNamed i
  | .TB_SYNC_TRIM => s.armedOnSync
  | .MC_SYS_REF => s.anyBusy && tbit v 0 != s.flag F.MC_SYS_REF.policy
  | _ => false

/-! ### Order 6: the other drop rules -/

/-- The sum of a field over the sixteen stalls with stall `i`'s replaced. -/
def State.sumWith (s : State) (f : FRef) (i v : Nat) : Nat :=
  (List.range 16).foldl (fun a st => a + (if st = i then v else s.fl f st)) 0

/-- DEV_PART[s] sets an octet or marker bit that another stall holds (R143). -/
def State.partOverlap (s : State) (i v : Nat) : Bool :=
  (List.range 16).any (fun st => st != i && (s.rg .DEV_PART st &&& bitsOf v 23 0) != 0)

/-- A write of DEV_PART[i] changes an octet whose channels the calibration engine uses (R466). -/
def State.partCal (s : State) (i v : Nat) : Bool :=
  s.calChans.any (fun c => tbit v (c / 8) != tbit (s.fl F.DEV_PART.octets i) (c / 8))

/-- The sum of 2^c over enabled queues with queue `q` configured as `v`: stored descriptors and the queues enabled at
reset (R361). -/
def State.onchipSum (s : State) (q v : Nat) : Nat :=
  let parts (w : Nat) : Nat := if tbit w 0 then 2 ^ bitsOf w 10 6 else 0
  let base : List Nat := List.range 9 ++ (List.range 16).map (fun st => 512 + 32 * st)
  let listed := (s.regs.filterMap (fun e => match regAt e.1 with
    | some (.QM_CFG, i, _) => some i
    | _ => none))
  ((base ++ listed.filter (fun i => ! base.contains i)).filter (fun i => i != q)).foldl
    (fun a i => a + parts (s.rg .QM_CFG i)) (parts v)

/-- A spill region lies wholly inside installed DRAM (R362). -/
def State.spillInside (s : State) (base z c : Nat) : Bool := s.inDram (base * 4096) ((2 ^ z - 2 ^ c) * 16)

/-- The status of a QM_CFG write under R363, 0 when it is applied. -/
def State.qmStatus (s : State) (q v : Nat) : Nat :=
  let x := s.queue q
  let strm := (s.stream q).isSome
  let z := bitsOf v 5 1
  let c := bitsOf v 10 6
  let spill := tbit v 11
  if s.qmChanges q v && (strm || x.depth != 0 || x.retained != 0) then stBusy
  else if qmFlush v && strm then stBusy
  else if ! spill && c != z then stBadParam
  else if 2097152 < s.onchipSum q v then stNoResource
  else if spill && s.level == 2 then stDramAbsent
  else if spill && ! s.spillInside (s.fl F.QM_SPILL.base q) z c then stBadParam
  else 0

/-- A running or armed stall uses some framer (R61, R274). -/
def State.framerUsed (s : State) : Bool :=
  (List.range 16).any (fun o => match s.stallOfOct o with
    | some st => s.busyStall st && decide (2 ≤ (s.stall st).mode)
        && (s.flag F.FRM_TX_CTL.en o || s.flag F.FRM_RX_CTL.en o)
    | none => false)

/-- A request to reset a block is refused with BUSY (R60, R61). -/
def State.blockDepends (s : State) (b : Blk) : Bool :=
  ! s.inReset b && (match b with
    | .mc m => s.anyBusy || s.mig.any (fun g => g.m == m.val)
    | .qm | .acq => s.anyBusy
    | .frm => s.framerUsed
    | .tim => (List.range 16).any (fun u => s.timBusy u && s.flag F.TIM_CTL.en u)
    | .flt => (List.range 16).any (fun c => s.fltBusy c && s.flag F.FLT_CTL.en c)
    | .cal => s.calBusy
    | .hl _ | .yrd | .stall _ => false)

/-- The blocks that PCR_BLOCK_RST can name, in the order of its bits. -/
def resettable : List Blk :=
  (List.finRange 8).map Blk.hl ++ (List.finRange 6).map Blk.mc ++ [.qm, .yrd, .acq, .flt, .tim, .frm, .cal]

/-- The blocks that a value of PCR_BLOCK_RST names. -/
def namedBlocks (v : Nat) : List Blk := resettable.filter (fun b => (blkBit b).any (fun i => tbit v i))

/-- A running stall uses TIM0 (R243). -/
def State.tim0Used (s : State) : Bool := s.flag F.TIM_CTL.en 0 && (s.timStall 0).any s.running

/-- A port other than `k` is in role 1 or 3 (R447). -/
def State.otherServo (s : State) (k : Nat) : Bool :=
  (List.range 8).any (fun p => p != k && s.fl F.TB_PTP_CTL.role p % 2 == 1)

/-- Some port is in role 1 (R445). -/
def State.servoRuns (s : State) : Bool := (List.range 8).any (fun p => s.fl F.TB_PTP_CTL.role p == 1)

/-- The rate that a write of TB_RATE_HI sets, with the held low half or that of the same command (R444, R501). -/
def State.newRate (s : State) (items : List (Nat × Nat)) (v : Nat) : Int :=
  let lo := ((items.find? (fun e => e.1 == R.addr .TB_RATE_LO)).map (fun e => e.2)).getD s.rateLo.toNat
  toSigned (v * 2 ^ 32 + lo % 2 ^ 32) 64

/-- The offset after a change of rate (R444). -/
def State.rateOffset (s : State) (r : Int) : Int :=
  (s.ofs : Int) + roundDiv ((s.cnt.toNat : Int) * 40960 * (s.rate - r)) (2 ^ 40)

/-- 2^48 seconds in units of 2^−16 ns. -/
def ofsLimit : Int := 2 ^ 48 * 1000000000 * 65536

/-- The offset is representable (R444). -/
def ofsOk (o : Int) : Bool := decide (0 ≤ o) && decide (o < ofsLimit)

/-- Whether a transfer of a master is queued or running, or a chip select is held low (R511). -/
def State.pesAny (s : State) (j : Nat) : Bool := ! (s.pesm j).queue.isEmpty || s.fl F.PES_STAT.held j != 0

/-- The status of the other drop rules, 0 when none drops the write (R500 order 6). -/
def State.otherDrop (s : State) (items : List (Nat × Nat)) (r : R) (i j v : Nat) : Nat :=
  match r with
  | .DEV_PART => if s.partOverlap i v then stBadParam else if s.partCal i v then stBusy else 0
  | .PCR_BLOCK_RST => if (namedBlocks v).any s.blockDepends then stBusy else 0
  | .HP_REF_CTL => if tbit v 0 && ! s.flag F.HP_PORT_CTL.ref_mode i then stBadParam else 0
  | .STL_HOP_CTL => if 64 < s.sumWith F.STL_HOP_CTL.units i (bitsOf v 6 0) then stNoResource else 0
  | .STL_LEAT_RESV =>
    if s.rtLimit < s.sumWith F.STL_LEAT_RESV.resv i (F.STL_LEAT_RESV.resv.of v) + s.sumWith F.ACQ_RESV.resv 16 0
    then stNoResource else 0
  | .ACQ_RESV =>
    if s.rtLimit < s.sumWith F.STL_LEAT_RESV.resv 16 0 + s.sumWith F.ACQ_RESV.resv i (F.ACQ_RESV.resv.of v)
    then stNoResource else 0
  | .TIM_ASSIGN => if s.calUnits.contains i then stBusy else 0
  | .TIM_CTL | .TIM_START_SRC | .TIM_STOP_SRC | .TIM_TIMEOUT | .TIM_ARM | .TIM_STAT =>
    if s.timSync i || s.calUnits.contains i then stBusy else 0
  | .QM_CFG => s.qmStatus i v
  | .QM_SPILL =>
    if s.flag F.QM_CFG.spill_en i
        && ! s.spillInside (F.QM_SPILL.base.of v) (s.fl F.QM_CFG.size i) (s.fl F.QM_CFG.onchip i) then stBadParam else 0
  | .TB_SYNC_CTL =>
    if tbit v 1 && ! tbit v 0 then stBadParam
    else if F.TB_SYNC_CTL.meas_en.of v != 0 && s.tim0Used then stBusy
    else if s.calSync then stBusy else 0
  | .TB_SYNC_TRIM => if s.calSync then stBusy else 0
  | .TB_RATE_HI =>
    let r := s.newRate items v
    if 2 ^ 30 < r.natAbs || ! ofsOk (s.rateOffset r) then stBadParam else if s.servoRuns then stBusy else 0
  | .TB_PTP_CTL => if bitsOf v 1 0 % 2 == 1 && s.otherServo i then stNoResource else 0
  | .PES_CFG => if s.pesAny i then stBusy else 0
  | .PES_CS_ASSIGN => if s.pesBusy i j then stBusy else 0
  | .PES_TX => if s.pesBusy i (j / 32) then stBusy else 0
  | .PES_XFER =>
    if ! tbit v 16 then 0
    else if ! s.flag F.PES_CFG.en i then stNoResource
    else if s.pesBusy i j then stBusy else 0
  | _ => 0

/-! ### The checks of one address (R500) -/

/-- The registers of a time-interval unit that no write changes, as R332 counts them among TIM0's registers. -/
def isTimResult : R → Bool
  | .TIM_START_C_LO | .TIM_START_C_HI | .TIM_START_F | .TIM_STOP_C_LO | .TIM_STOP_C_HI | .TIM_STOP_F => true
  | .TIM_RESULT_LO | .TIM_RESULT_HI | .TIM_COUNT | .TIM_MISS => true
  | _ => false

/-- The status of a write of `v` to address `a` by the session in `slot`, on the state before the command's writes; 0 when
it may be written. -/
def State.writeStatus (s : State) (items : List (Nat × Nat)) (slot a v : Nat) : Nat :=
  match regAt a with
  | none => 0
  | some (r, i, j) =>
    match s.regRes r i j with
    | none => if s.timSync i && isTimResult r then stBusy else 0
    | some res =>
      if s.badCode items r i j v then stBadParam
      else if s.level = 3 ∧ timingDie a then stNoResource
      else if ! s.owns slot res then stNotOwner
      else if s.addrInReset a then stBusy
      else if s.runningDrop r i j v then stStallRunning
      else s.otherDrop items r i j v

/-- The drop rules of order 6 once the command's writes at lower addresses are stored (log 30). -/
def State.laterStatus (s : State) (items : List (Nat × Nat)) (a v : Nat) : Nat :=
  match regAt a with
  | none => 0
  | some (r, i, j) => if writable r i j then s.otherDrop items r i j v else 0

/-- A write stored without its effect, for the checks of the command's later addresses. -/
def State.storeOnly (s : State) (a v : Nat) : State :=
  match regAt a with
  | none => s
  | some (r, i, j) => if writable r i j then s.setRg r (mergeWrite r.row (s.rg r i j) v) i j else s

/-- The status of a list of writes in ascending address order: that of the lowest failing address, 0 when none fails. -/
def State.writesStatus (s t : State) (items : List (Nat × Nat)) (slot : Nat) : List (Nat × Nat) → Nat
  | [] => 0
  | (a, v) :: l =>
    let c := s.writeStatus items slot a v
    if c ≠ 0 then c
    else
      let d := t.laterStatus items a v
      if d ≠ 0 then d else State.writesStatus s (t.storeOnly a v) items slot l

/-! ### Effects of writes -/

/-- DEV_PART[i] takes a value: octets that leave or join, the stall's state, and the marker balls (R144–R147). DESIGN CHOICE
(log 87): the halt states of channels that leave become DZ and are not remembered for a later joining. -/
def State.writePart (s : State) (i v : Nat) : State :=
  let old := s.rg .DEV_PART i
  let new := bitsOf v 23 0
  let s := s.setRg .DEV_PART new i
  let gone := (List.range 16).filter (fun k => tbit old k && ! tbit new k)
  let came := (List.range 16).filter (fun k => ! tbit old k && tbit new k)
  let chans (l : List Nat) : List Nat := l.flatMap (fun k => (List.range 8).map (fun j => 8 * k + j))
  let s := (chans gone).foldl
    (fun s c => s.setRg .STL_HALT
      (putBits (s.rg .STL_HALT i (c / 16)) (2 * (c % 16) + 1) (2 * (c % 16)) 0) i (c / 16)) s
  let s := (chans came).foldl (fun s c => s.takeHalt c (s.haltCode i c) s.nowU) s
  let s := if bitsOf new 15 0 = 0 then s.setFl F.STL_SEQ_STAT.state stUnconf i
    else if s.stState i = stUnconf then s.setFl F.STL_SEQ_STAT.state stIdle i else s
  (List.range 8).foldl
    (fun s n => if tbit old (16 + n) && ! tbit new (16 + n) then
        (s.withMkr (BitVec.ofNat 8 (putBits s.mkr.toNat n n 0))).withMkrEdges (s.mkrEdges.filter (fun e => e.2.1 != n))
      else s) s

/-- Return to VMAIN (R48). -/
def State.toVmain (s : State) : State :=
  if s.flag F.PCR_SUPPLY_STAT.vmain_ok && s.flag F.PCR_SUPPLY_STAT.on_vaux then
    (s.setFlag F.PCR_SUPPLY_STAT.on_vaux false).bump F.PCR_SUPPLY_STAT.switch_count 1
  else s

/-- A reset begins 1 ms after the reply; a reset already accepted stands (R78, log 31). -/
def State.resetSoon (s : State) (k : ResetKind) : State :=
  match s.resetAt with
  | some _ => s
  | none => s.withResetAt (some (s.now + msCyc, k))

/-- A change of a lane's settings applies 1 ms later (R96, R97). -/
def State.laneSoon (s : State) (k : Nat) : State := s.setLane k { s.lane k with applyAt := some (s.now + msCyc) }

/-- HP_PORT_CTL[k] takes a value (R84, R96). -/
def State.writePort (s : State) (k v : Nat) : State :=
  let old := s.laneSet k
  let s := s.setRg .HP_PORT_CTL (bitsOf v 3 0) k
  let s := if tbit v 2 then s else s.setFlag F.HP_REF_CTL.ssc_en false k
  if old ≠ bitsOf v 3 0 ∨ tbit v 4 then (s.laneSoon k).setLane k { (s.laneSoon k).lane k with ownApply := true } else s

/-- HP_REF_CTL[k] takes a value (R96). -/
def State.writeRef (s : State) (k v : Nat) : State :=
  let old := s.rg .HP_REF_CTL k
  let s := s.setRg .HP_REF_CTL (mergeWrite (R.row .HP_REF_CTL) old v) k
  if s.rg .HP_REF_CTL k = old then s else s.laneSoon k

/-- A test loop or test pattern is active on a lane (R98, R100). -/
def State.testOn (s : State) (k : Nat) : Bool := s.rg .HP_TEST_CTL k % 16 != 0

/-- A lane starts again; while a test loop or pattern is active it reports LOOP (R96, R98–R100). DESIGN CHOICE (log 83): so
does a lane that is disabled. -/
def State.startAgain (s : State) (k : Nat) (own : Bool) : State :=
  let s := s.laneStart k own
  if s.testOn k then s.laneTo k 5 own else s

/-- HP_TEST_CTL[k] takes a value: a loop, with its end, or a pattern; the lane starts again when the loop ends, and when the
last pattern ends (R98–R100). DESIGN CHOICE (log 83): every write with a loop starts loop_timeout again. -/
def State.writeTest (s : State) (k v : Nat) : State :=
  let was := s.testOn k
  let looped := s.fl F.HP_TEST_CTL.loop k != 0
  let s := (s.laneCounts k).setRg .HP_TEST_CTL (mergeWrite (R.row .HP_TEST_CTL) (s.rg .HP_TEST_CTL k) v) k
  let secs := max 1 (s.fl F.HP_TEST_CTL.loop_timeout k)
  let s := s.setLane k { s.lane k with
    loopEnd := if s.fl F.HP_TEST_CTL.loop k ≠ 0 then some (s.now + secs * 1000 * msCyc) else none }
  if (looped && s.fl F.HP_TEST_CTL.loop k == 0) || (was && ! s.testOn k) then s.startAgain k true
  else if s.testOn k then s.laneTo k 5 true
  else s

/-- The delay of SYNC_OUT in root cycles, of which 8 make an SCLK cycle (R240). -/
def State.syncDelay (s : State) : Nat := s.fl F.TB_SYNC_CTL.out_dly

/-- A SYNC pulse is scheduled (R240): its REFCLK edge is the first at least 1 µs ahead and at least 8 REFCLK periods after
the pulse before it falls; REFCLK rises every 16 SCLK cycles, that is every 128 root cycles. -/
def State.emitSync (s : State) : State :=
  let prev : Option Nat := match s.syncDue.getLast? with
    | some e => some (8 * e + s.syncDelay + 512)
    | none => s.syncOut.fallAt.or s.syncFell
  let lo := max (8 * (s.now + usCyc)) ((prev.map (fun t => t + 1024)).getD 0)
  s.withSyncDue (s.syncDue ++ [(lo + 127) / 128 * 16])

/-- SYNC_OUT is driven low at once and no pulse is to come (R240). -/
def State.syncLow (s : State) : State :=
  ((s.withSyncFell (if s.syncOut.high then some (8 * s.now) else s.syncFell)).withSyncOut {}).withSyncDue []

/-- TB_SYNC_CTL takes a value (R240, R243, R332). -/
def State.writeSync (s : State) (v : Nat) : State :=
  let was := s.flag F.TB_SYNC_CTL.meas_en
  let sampled := s.flag F.TB_SYNC_CTL.in_en
  let s := s.setRg .TB_SYNC_CTL (mergeWrite (R.row .TB_SYNC_CTL) (s.rg .TB_SYNC_CTL) v)
  let s := if s.flag F.TB_SYNC_CTL.master then s else s.syncLow
  let s := if s.flag F.TB_SYNC_CTL.in_en && ! sampled then (s.withSyncFrom s.now).withSyncLast none else s
  let s := if s.flag F.TB_SYNC_CTL.meas_en && ! was then s.setFl F.TB_SYNC_MEAS.n 0
    else if was && ! s.flag F.TB_SYNC_CTL.meas_en then s.setTimState 0 tmOff else s
  if tbit v 1 then s.emitSync else s

/-- Offset and rate take new values, and the rate registers show the rate (R444). -/
def State.setTimeRate (s : State) (o r : Int) : State :=
  ((s.withOfs o.toNat).withRate r).withRateLo (BitVec.ofNat 32 (ofSigned r 64))

/-- TB_RATE_HI takes a value: rate and offset change, network time does not jump (R444). A written rate register reads as it
stands until it is latched again. -/
def State.writeRate (s : State) (v : Nat) : State :=
  let r := s.newRate [] v
  ((s.setTimeRate (s.rateOffset r) r).dropLatch .TB_RATE_LO).dropLatch .TB_RATE_HI

/-- TB_PTP_CTL[k] takes a value; a change of role starts the port afresh (R447). -/
def State.writePtp (s : State) (k v : Nat) : State :=
  let old := s.fl F.TB_PTP_CTL.role k
  let s := s.setRg .TB_PTP_CTL (mergeWrite (R.row .TB_PTP_CTL) (s.rg .TB_PTP_CTL k) v) k
  let role := s.fl F.TB_PTP_CTL.role k
  if role = old then s
  else
    let s := s.withPtp (mset (fun _ => ({} : Ptp)) s.ptp k {})
    let s := if old = 1 then (s.setFlag F.TB_STAT.locked false).setFlag F.TB_STAT.holdover false else s
    if role % 2 = 1 then s.setFl F.TB_STAT.servo_port k
    else if old % 2 = 1 then s.setFl F.TB_STAT.servo_port 0
    else s

/-- PES_XFER[i] takes a value; a start requests a transfer with the bytes that PES_TX holds now (R510). -/
def State.writeXfer (s : State) (j i v : Nat) : State :=
  let s := s.setRg .PES_XFER (mergeWrite (R.row .PES_XFER) (s.rg .PES_XFER j i) v) j i
  if tbit v 16 then
    let n := s.fl F.PES_XFER.len j i
    let tx := (List.range n).map (fun k => BitVec.ofNat 8 (s.rg .PES_TX j (32 * i + k / 4) >>> (8 * (k % 4))))
    let p := s.pesm j
    s.setPesm j { p with queue := p.queue ++ [⟨i, n, s.flag F.PES_XFER.hold j i, tx⟩] }
  else s

/-- STL_HALT[w] takes a value: fields of channels outside the stall ignore it, the stall's channels that do not run take
their halt states at once (R147, R188). -/
def State.writeHalt (s : State) (st w v : Nat) : State :=
  let own := (s.chansOf st).filter (fun c => c / 16 == w)
  let s := own.foldl
    (fun s c => let j := 2 * (c % 16)
                s.setRg .STL_HALT (putBits (s.rg .STL_HALT st w) (j + 1) j (bitsOf v (j + 1) j)) st w) s
  if s.running st then s else own.foldl (fun s c => s.takeHalt c (s.haltCode st c) s.nowU) s

/-- A time-interval register that configures a measurement takes a value: a measurement in progress is abandoned, another
gate is one whose opening is still to come, and the unit follows its enable (R323–R325). -/
def State.writeTim (s : State) (r : R) (u v : Nat) : State :=
  let gate := s.fl F.TIM_CTL.gate_src u + 4 * s.fl F.TIM_CTL.gate_idx u
  let s := s.setRg r (mergeWrite r.row (s.rg r u) v) u
  let s := if s.fl F.TIM_CTL.gate_src u + 4 * s.fl F.TIM_CTL.gate_idx u = gate then s
    else s.setTim u { s.tim u with gateOpen := false }
  let s := s.abandon u
  if r = .TIM_CTL then s.followEn u else s

/-- QM_CFG[q] takes a value (R363, R364). -/
def State.writeQm (s : State) (q v : Nat) : State :=
  let s := s.setRg .QM_CFG (mergeWrite (R.row .QM_CFG) (s.rg .QM_CFG q) v) q
  let s := if qmFlush v then s.flushQ q else s
  s.judgeLow q

/-- The written value takes effect in its register. -/
def State.applyReg (s : State) (r : R) (i j v : Nat) : State :=
  let plain := s.setRg r (mergeWrite r.row (s.rg r i j) v) i j
  match r with
  | .DEV_PART => s.writePart i v
  | .PCR_SUPPLY_CTL =>
    let s := s.setRg .PCR_SUPPLY_CTL (putBits (mergeWrite r.row (s.rg r) v) 1 1 0)
    if tbit v 1 then s.toVmain else s
  | .PCR_RESET_CTL =>
    if tbit v 1 then s.resetSoon .cold else if tbit v 0 then s.resetSoon (.warm .cmd) else s
  | .PCR_BLOCK_RST => (namedBlocks v).foldl State.beginBlock s
  | .HP_PORT_CTL => s.writePort i v
  | .HP_REF_CTL => s.writeRef i v
  | .HP_TEST_CTL => s.writeTest i v
  | .OWN_CTL | .OWN_UDP => plain.withOwnAt (some (s.now + msCyc))
  | .STL_HALT => s.writeHalt i j v
  | .CHN_EQ_CTL => if (s.stallOfChan i).any s.running then plain else plain.followTrained i
  | .WFT_WORD =>
    if s.chanBusy i then plain.setChan i { s.chan i with dirtyUntil := s.nowU + 4000000 } else plain
  | .ACQ_SOFT => if tbit v 0 then s.trigger i 0 0 (s.tagNow i) else s
  | .TIM_CTL | .TIM_START_SRC | .TIM_STOP_SRC | .TIM_TIMEOUT => s.writeTim r i v
  | .TIM_ARM => if tbit v 0 && s.fl F.TIM_CTL.gate_src i == 0 then s.openGate i s.nowU else s
  | .QM_CFG => s.writeQm i v
  | .YRD_QWATCH_SEL => plain.rewatch i
  | .ACQ_TRIGOUT => if tbit v 0 then plain else plain.withTrigOut (mset (fun _ => ({} : Pulse)) s.trigOut i {})
  | .STL_LEAT_CTL => plain.judgeLeat i
  | .MC_CFG | .MC_SYS_CFG => plain.saveDramCfg
  | .MC_SYS_REF => plain.followRates
  | .TB_SYNC_CTL => s.writeSync v
  | .TB_SYNC_TRIM => plain.setFl F.TB_SYNC_MEAS.n 0
  | .TB_RATE_LO => (s.withRateLo (BitVec.ofNat 32 v)).dropLatch .TB_RATE_LO
  | .TB_RATE_HI => s.writeRate v
  | .TB_PTP_CTL => s.writePtp i v
  | .FLC_FIRST => if tbit v 8 then s.faultClear (fun _ => false) true else s
  | .FLC_STICKY => s.faultClear (fun n => decide (n / 32 = i) && tbit v (n % 32)) false
  | .FLC_REACT => s.setRg .FLC_REACT (mergeReact i (s.rg .FLC_REACT i) v) i
  | .PES_XFER => s.writeXfer i j v
  | _ => plain

/-- A write takes effect: an address without a register, or a register without writable fields, ignores it (R505). -/
def State.applyWrite (s : State) (a v : Nat) : State :=
  match regAt a with
  | none => s
  | some (r, i, j) =>
    let s := if timingDie a then s.controlFlit 0 else s
    if writable r i j then s.applyReg r i j v else s

/-- The writes of one command take effect in ascending address order (R501). -/
def State.applyWrites (s : State) (l : List (Nat × Nat)) : State := l.foldl (fun s e => s.applyWrite e.1 e.2) s

/-- Checks the writes of a command and makes them when every one passes: the status, and the state (R500). -/
def State.writeRegs (s : State) (slot : Nat) (items : List (Nat × Nat)) : Nat × State :=
  let c := s.writesStatus s items slot items
  if c ≠ 0 then (c, s) else (stOk, s.applyWrites items)

end Sys2Proof.Machine
end

