-- ==== Sys2Proof/Machine/Dcp.lean ====
section
/-! DEFINITION. The command engine: receipt of a frame, the checks 1 to 5 of R116 with the replay cache and the lease, and
the reply; each command's own checks and effect are a body that answers a status (R66, R102–R118, R126). -/

namespace Sys2Proof.Machine

open Sys2Proof

/-- What the body of a command answers: a reply; a reply that waits; or a last reply, after which its session closes. -/
inductive Ans where
  | reply (status : Nat) (params : List Byte)
  | waits (k : WaitKind)
  | last (status : Nat) (params : List Byte)
  deriving DecidableEq, Repr

/-- The body of a command: the slot of its session, and the state with checks 1 to 5 passed. -/
abbrev Body := Nat → State → Ans × State

/-- A reply without parameters. -/
def refuse (status : Nat) (s : State) : Ans × State := (.reply status [], s)

/-- A reply of OK with parameters. -/
def okay (params : List Byte) (s : State) : Ans × State := (.reply stOk params, s)

/-! ### Receipt (R88, R103, R515) -/

/-- The management target answers from the start of the control core on (R64 step 4). -/
def State.mgmtOn (s : State) : Bool :=
  match s.phase with
  | .coldUp | .ready | .warmUp | .bootRom | .strapStop => true
  | .coldHold | .coldRails | .warmHold => false

/-- The largest parameter length of a binding's transport (R103, R515). -/
def plenMax : Binding → Nat
  | .eth _ _ => 8984
  | .udp _ _ _ => 8956
  | .mgmt => 1024

/-- A DCP transport takes a frame: it is enabled in the settings in use, and the frame carries the EtherType in use, or is a
UDP datagram to the lane's IPv4 address, which is not 0, and to the port in use (R88, R102, R140). -/
def State.transportOn (s : State) (h : Hdr) : Bool :=
  match h.bind with
  | .eth _ _ => tbit s.ownEff.1.toNat 16 && h.ethertype == BitVec.ofNat 16 s.ownEff.1.toNat
  | .udp k _ _ =>
    tbit s.ownEff.1.toNat 17 && s.rg .HP_IPV4 k.val != 0 && h.toIp.toNat == s.rg .HP_IPV4 k.val
      && h.toPort == BitVec.ofNat 16 s.ownEff.2.toNat
  | .mgmt => true

/-- A frame with a DCP message arrives: whether the command engine gets it. Nothing is received on a lane that is not UP; a
frame for no transport in use, or too long for one, is dropped and counted. DESIGN CHOICE (log 77): HP_RX_FRAMES counts the
frames that are delivered, and none that is dropped or has a bad FCS. -/
def State.heard (s : State) (h : Hdr) : Bool × State :=
  match laneOf h.bind with
  | none => (s.mgmtOn && decide (h.plen ≤ plenMax h.bind), s)
  | some k =>
    if ! s.laneUp k then (false, s)
    else if s.transportOn h && decide (h.plen ≤ plenMax h.bind) then (true, s.bump F.HP_RX_FRAMES.count 1 k)
    else (false, s.bump F.HP_RX_DROP.count 1 k)

/-- A frame that arrives on a lane with the far-end loop is retransmitted to the partner (R98). -/
def State.relay (s : State) (k : LaneIx) (frame : Instr) : State :=
  if s.fl F.HP_LINK_STAT.state k.val = 5 ∧ s.fl F.HP_TEST_CTL.loop k.val = 3 then s.withOut (s.out ++ [.relayed k frame]) else s

/-- What becomes of a DCP frame that the command engine does not get. -/
def State.unheard (s : State) (b : Binding) (frame : Instr) : State :=
  match b with
  | .eth k _ => s.relay k frame
  | .udp k _ _ => s.relay k frame
  | .mgmt => s

/-! ### Replies outside a session's cache -/

/-- A reply to a command that fails at checks 1 to 4: it enters no cache (R107, R116). -/
def State.bounce (s : State) (h : Hdr) (opcode status : Nat) (params : List Byte := []) : State :=
  s.sendDcp h.bind ⟨.reply, false, h.session, h.seq, h.target, BitVec.ofNat 16 opcode, BitVec.ofNat 16 status, params⟩

/-- The reply cached for a sequence number is sent again, with the retry flag (R111); none is sent while the command that
bears the number is still being executed. DESIGN CHOICE (log 78): for a number before the HELLO's, which has no reply, nothing
is sent. -/
def State.resendCached (s : State) (x : Session) (seq : BitVec 32) : State :=
  match x.cache.find? (fun m => m.seq == seq) with
  | some m => s.sendDcp x.bind { m with retry := true }
  | none => s

/-! ### The engine -/

/-- The answer of a body is carried out: reply, wait, or last reply and close (R107, R112, R115). -/
def State.finish (s : State) (slot : Nat) (h : Hdr) (opcode : Nat) (a : Ans) : State :=
  let op := BitVec.ofNat 16 opcode
  match a with
  | .reply c p => s.replyTo slot op h.seq h.target c p
  | .waits k =>
    match s.session slot with
    | some x => s.setSession slot (some { x with wait := some ⟨k, op, h.seq, h.target⟩ })
    | none => s
  | .last c p => (s.replyTo slot op h.seq h.target c p).closeSession slot

/-- A session's command that passed check 4: its sequence number is used, its lease starts again (R111, R113). -/
def State.accept (s : State) (slot : Nat) (x : Session) : State :=
  s.setSession slot (some { x with nextSeq := x.nextSeq + 1, leaseEnd := s.now + x.leaseMs * msCyc, helloOnly := false })

/-- Checks 4 and 5, then the body (R111, R116, R126). -/
def State.inOrder (s : State) (h : Hdr) (opcode : Nat) (rom : Bool) (body : Body) (slot : Nat) (x : Session) : State :=
  if h.seq = x.nextSeq then
    let s := s.accept slot x
    if s.phase == .bootRom && ! rom then s.finish slot h opcode (.reply stBadOpcode [])
    else
      let r := body slot s
      r.2.finish slot h opcode r.1
  else if (x.nextSeq - h.seq).toNat ≤ 16 then s.resendCached x h.seq
  else s.bounce h opcode stBadSequence (beBytes 4 x.nextSeq.toNat)

/-- Whether a command must wait behind its session's earlier commands (R112): their reply still waits, or earlier commands
are held. -/
def State.mustWait (s : State) (h : Hdr) : Bool :=
  ! s.resuming && (s.sessionWaits h.session
    || s.held.any (fun c => (hdrOf c).any (fun g => g.session == h.session)))

/-- Check 3, then the order of R112, then checks 4 and 5 and the body. DESIGN CHOICE (log 79): a command that is held restarts
the lease when it is executed, not when it arrives. -/
def State.inSession (s : State) (h : Hdr) (opcode : Nat) (self : Instr) (rom : Bool) (body : Body) : State :=
  match s.slotOf h.session with
  | none => s.bounce h opcode stBadSession
  | some slot =>
    match s.session slot with
    | none => s.bounce h opcode stBadSession
    | some x =>
      if x.bind ≠ h.bind then s.bounce h opcode stBadSession
      else if x.expired then (s.bounce h opcode stLeaseExpired).closeSession slot
      else if s.mustWait h then s.withHeld (s.held ++ [self])
      else (s.withResuming false).inOrder h opcode rom body slot x

/-- The strap error is reported over the management target: a command there is answered, with a status that the spec does not
give, a free value (R33, log 3). -/
def State.strapError (s : State) (h : Hdr) (opcode : Nat) : State :=
  let d := s.draw 16
  d.2.bounce h opcode d.1.toNat

/-- A command frame arrives, or a held command's turn comes (R66, R116): checks 1 and 2, then the session's. -/
def State.cmd (s : State) (h : Hdr) (opcode : Nat) (self : Instr) (rom : Bool) (body : Body) : State :=
  let r := if s.resuming then (true, s) else s.heard h
  let t : State :=
    if ! r.1 then r.2.unheard h.bind self
    else if h.version ≠ 2 then r.2.bounce h opcode stBadVersion
    else if r.2.phase == .strapStop && h.bind == .mgmt then r.2.strapError h opcode
    else if ! (r.2.ready || r.2.phase == .bootRom) then r.2.bounce h opcode stBusy
    else r.2.inSession h opcode self rom body
  t.withResuming false

/-! ### Checks 6 to 8 that many bodies share -/

/-- The device as a target (R105). -/
def tgDev : BitVec 8 := 0xff
/-- The Yard as a target (R105). -/
def tgYard : BitVec 8 := 0xfe

/-- The resource that a target byte names: a stall, or the device (R118). -/
def targetRes (t : BitVec 8) : Option Nat :=
  if t.toNat < 16 then some t.toNat else if t = tgDev then some devRes else none

/-- Check 6 for a command whose target is the device and whose parameters take `n` bytes: else BAD_PARAM. -/
def devShape (h : Hdr) (n : Nat) : Bool := h.target == tgDev && h.plen == n

/-- Check 6 for a command whose target is a stall and whose parameters take `n` bytes. -/
def stallShape (h : Hdr) (n : Nat) : Bool := decide (h.target.toNat < 16) && h.plen == n

end Sys2Proof.Machine
end

