-- ==== Sys2Proof/Machine/StartOps.lean ====
section
/-! DEFINITION. The checks of a loaded table and of START, and what the acceptance of a run does (R130, R150, R172,
R192–R202, R211, R263, R266, R269, R274, R281, R297–R299, R311, R317, R331, R332, R340, R466, R537). -/

namespace Sys2Proof.Machine

open Sys2Proof

/-! ### LOAD_SEQ's checks (R150) -/

/-- Reads every entry of a table that is to be loaded: index and reason of the first that fails, if one does. -/
def State.scanLoad (s : State) (a entries i : Nat) : Nat → Option (Nat × Nat) × State
  | 0 => (none, s)
  | n + 1 =>
    let r := s.readEntry (a + 16 * i)
    let c := if r.2.1 then 10 else entryReason r.1 entries
    let t := State.scanLoad r.2.2 a entries (i + 1) n
    (if c ≠ 0 then some (i, c) else t.1, t.2)

/-- STL_LOAD_ERR names an entry and a reason. -/
def State.loadErr (s : State) (st entry reason : Nat) : State := s.setRg .STL_LOAD_ERR (entry % 2 ^ 16 + reason * 2 ^ 16) st

/-- A table becomes the loaded table of a stall (R150, R179). -/
def State.loadTable (s : State) (st table entries : Nat) : State :=
  let s := (s.setRg64 .STL_SEQ_TABLE_LO .STL_SEQ_TABLE_HI table st).setRg .STL_SEQ_COUNT entries st
  let s := (s.setFlag F.STL_SEQ_STAT.table_loaded true st).setFl F.STL_LOAD_ERR.reason 0 st
  let x := s.stall st
  (s.setStall st { x with tableDirty := false, stack := [] }).setRg .STL_SEQ_ENTRY 0 st

/-! ### START's checks on the table (R150, R211, R274) -/

/-- The entries of the loaded table, as START checks them. R150 names no DRAM read by START, so its look at the table counts
no error (DEDUCED); an undefined entry draws its free value. -/
def State.tableEntries (s : State) (st i : Nat) : Nat → List SeqEnt × State
  | 0 => ([], s)
  | n + 1 =>
    let r := s.entry st i
    let t := State.tableEntries (if (s.stall st).tableDirty then r.2.2 else s) st (i + 1) n
    (r.1 :: t.1, t.2)

/-- The minimum of STL_TS_PERIOD in a vector mode (R211). -/
def minPeriod (mode : Nat) : Nat := if mode = 0 then 2500 else if mode = 1 then 1250 else 625

/-- The lowest reason 6 to 8 for which START refuses an entry, 0 when it passes. -/
def State.startReason (s : State) (st mode : Nat) (octs : List Nat) (e : SeqEnt) : Nat :=
  if e.isSegment && decide (s.installed < 64 * (e.start + e.granules * (octs.length * linesPerOct mode))) then 6
  else if e.isSegment && decide (s.period st e.ts < minPeriod mode) then 7
  else if e.op = 9 ∧ ! octs.contains (e.f 54 48 / 8) then 8
  else 0

/-- The lowest octet with an enabled framer on an odd channel, in PAIR mode (R274). -/
def State.oddFramer (s : State) (mode : Nat) (octs : List Nat) : Option Nat :=
  if mode = 3 then
    octs.find? (fun o => (s.flag F.FRM_TX_CTL.en o && s.fl F.FRM_TX_CTL.ch o % 2 == 1)
      || (s.flag F.FRM_RX_CTL.en o && s.fl F.FRM_RX_CTL.ch o % 2 == 1))
  else none

/-- The entry or octet and the reason for which START refuses a table. -/
def State.startTable (s : State) (st mode : Nat) (octs : List Nat) (l : List SeqEnt) : Option (Nat × Nat) :=
  match (l.zipIdx.find? (fun e => s.startReason st mode octs e.1 != 0)) with
  | some e => some (e.2, s.startReason st mode octs e.1)
  | none => (s.oddFramer mode octs).map (fun o => (o, 9))

/-- The shortest vector period among the timing sets of the segment entries (R202). -/
def State.shortest (s : State) (st mode : Nat) (l : List SeqEnt) : Option Nat :=
  let ps := (l.filter (fun e => e.isSegment)).map (fun e => if mode = 3 then s.period st e.ts / 2 else s.period st e.ts)
  match ps with
  | [] => none
  | p :: t => some (t.foldl min p)

/-- a / b rounded up (b > 0). -/
def ceilDiv (a b : Nat) : Nat := (a + b - 1) / b

/-- The required rate of the leat in 0.1 GB/s units (R202). -/
def leatRate (mode octs : Nat) (t : Option Nat) : Nat :=
  match t with
  | none => 0
  | some t => ceilDiv ((octs * (512 / 2 ^ mode) + 1) * 625) (2 * t)

/-- The required tailrace rate in 0.1 GB/s units (R299). -/
def tailRate (chans : Nat) (t : Option Nat) : Nat :=
  match t with
  | none => 0
  | some t => ceilDiv ((chans + 1) * 10000) t

/-- Shows a required rate; a rate that its field cannot hold is shown as a free value (log 3). -/
def State.showRate (s : State) (r : R) (v st : Nat) : State :=
  if v < 4096 then s.setRg r v st
  else
    let d := s.draw 12
    d.2.setRg r d.1.toNat st

/-! ### START's checks on the chains (R340) -/

/-- The flags that a chain's configuration raises at START: src_err and rate_err. -/
def State.chainErr (s : State) (mode : Nat) (octs : List Nat) (t : Option Nat) (c : Nat) : Bool × Bool :=
  let ch := s.fl F.FLT_CTL.ch c
  let word := s.flag F.FLT_CTL.input c
  let n := if word then s.fl F.FLT_CTL.width c else 1
  let inside := (List.range n).all (fun j => decide (ch + j < 128) && octs.contains ((ch + j) / 8))
  (! inside || (mode == 3 && (word || ch % 2 == 1)), word && t.any (fun t => decide (t * s.fl F.FLT_CTL.div c < 10000)))

/-- The flags of the chains that fail. -/
def State.flagChains (s : State) (mode : Nat) (octs : List Nat) (t : Option Nat) (l : List Nat) : State :=
  l.foldl
    (fun s c =>
      let e := s.chainErr mode octs t c
      let s := if e.1 then s.setFlag F.FLT_STAT.src_err true c else s
      if e.2 then s.setFlag F.FLT_STAT.rate_err true c else s) s

/-! ### The checks in order -/

/-- A unit is assigned to a stall. -/
def State.timIn (s : State) (st u : Nat) : Bool := s.flag F.TIM_ASSIGN.assigned u && s.fl F.TIM_ASSIGN.stall u == st

/-- Something that the calibration engine or the SYNC measurement uses keeps the stall from starting (R332, R466). -/
def State.startBusy (s : State) (st : Nat) : Bool :=
  s.calUsesStall st || (List.range 16).any (fun u =>
    s.timIn st u && s.flag F.TIM_CTL.en u && (s.calUnits.contains u || (u == 0 && s.flag F.TB_SYNC_CTL.meas_en)))

/-- Some queue of a kept route has too small an on-chip part for a reserved run (R299). -/
def State.smallQueue (s : State) (st : Nat) : Bool :=
  (List.range 8).any (fun t => t != 3 && t != 6 && s.flag F.ACQ_ROUTE.keep st t
    && decide (s.fl F.QM_CFG.onchip (s.fl F.ACQ_ROUTE.queue st t) < 14))

/-- The window ring lies inside installed DRAM (R311). -/
def State.ringInside (s : State) (st : Nat) : Bool :=
  s.inDram (s.fl F.ACQ_RING_BASE.base_mib st * 2 ^ 20) (16 * s.ringSize st)

/-- The checks of a run that follow those of its command: its status, 0 when the run is accepted, and the state with the
rates shown and the error registers set. `reserved` says that the run is in the reserved regime. -/
def State.runCheck (s : State) (st mode first : Nat) (window reserved : Bool) : Nat × State :=
  let octs := s.octetsOf st
  if ! s.flag F.STL_SEQ_STAT.table_loaded st || decide (s.tableLen st ≤ first) then (4, s)
  else
    let r := s.tableEntries st 0 (s.tableLen st)
    let s := r.2
    match s.startTable st mode octs r.1 with
    | some e => (4, s.loadErr st e.1 e.2)
    | none =>
      let s := s.setFl F.STL_LOAD_ERR.reason 0 st
      if s.share st < 128 * (octs.length * linesPerOct mode) then (5, s)
      else
        let t := s.shortest st mode r.1
        let leat := leatRate mode octs.length t
        let tail := tailRate (8 * octs.length) t
        let s := (s.showRate .STL_LEAT_REQ leat st).showRate .ACQ_REQ tail st
        let sum := (List.range 16).foldl (fun a k => a + s.fl F.STL_LEAT_RESV.resv k + s.fl F.ACQ_RESV.resv k) 0
        if s.fl F.STL_LEAT_RESV.resv st < leat || s.rtLimit < sum then (5, s)
        else if reserved && (decide (s.fl F.ACQ_RESV.resv st < tail) || s.smallQueue st) then (5, s)
        else if window && ! s.ringInside st then (4, s)
        else
          let l := s.chainsOf st
          if l.any (fun c => s.chainErr mode octs t c != (false, false)) then (4, s.flagChains mode octs t l) else (0, s)

/-! ### Acceptance (R172) -/

/-- The ACQ counters and window registers that START resets (R317). -/
def acqAtStart : List R :=
  [.ACQ_TRIG_IGN, .ACQ_SHAPED, .ACQ_DISC, .ACQ_LOST, .ACQ_GAPS, .ACQ_WPOS_LO, .ACQ_WPOS_HI, .ACQ_WIN_STAT, .ACQ_WIN_PRE_ACT,
   .ACQ_WIN_POST_ACT, .ACQ_WIN_TRIG_LO, .ACQ_WIN_TRIG_HI, .ACQ_WIN_FIRST_LO, .ACQ_WIN_FIRST_HI]

/-- The STL counters that START resets (R261, R263, R266). -/
def stlAtStart : List R :=
  [.STL_FAIL_VEC, .STL_FIRST_FAIL_LO, .STL_FIRST_FAIL_HI, .STL_FIRST_FAIL_CH, .STL_FAIL_LOG_CNT, .STL_FAIL_LOG_DROP]

/-- A channel at START: a window still open is discarded, its fail counter, its live codes, and its comparator's state (R255,
R260, R269). -/
def State.startChan (s : State) (ch : Nat) : State :=
  let c := s.chan ch
  let s := if c.win.isSome then s.setFlag F.CHN_CMP_STAT.window_cut true ch else s
  let s := s.withFltBits (mset (fun _ => []) s.fltBits ch [])
  ((s.setRg .CHN_FAIL_CNT 0 ch).followTrained ch).setChan ch
    { c with edges := [], cmp := [], win := none, vfail := [], undefVecs := [], grid := [], caps := 0, eqWin := 0 }

/-- A framer at START: decoder unaligned with score 0, both disparities negative (R277, R281). -/
def State.startFramer (s : State) (o : Nat) : State :=
  (s.setRg .FRM_STAT (putBits (s.rg .FRM_STAT o) 3 0 0) o).setFramer o {}

/-- Two loss runs of a destination as one, the first before the second. -/
def LossRun.join (x : Option LossRun) (y : LossRun) : LossRun :=
  match x with
  | none => y
  | some x => { x with count := sat (2 ^ 40 - 1) (x.count + y.count), last := y.last
                       chan := if x.chan = y.chan then x.chan else none }

/-- The loss runs still open of a stall belong to an earlier run (R303, R492). -/
def State.ageLoss (s : State) (st : Nat) : State :=
  let mine := s.loss.filter (fun e => e.1 / 32769 == st)
  mine.foldl
    (fun s e => match e.2 with
      | some x =>
        let d := e.1 % 32769
        (s.setLossOf st d (some (LossRun.join (s.lossOf st d) x))).setLoss st d none
      | none => s) s

/-- A run is accepted: modes, stack, latches, counters, lookahead, share; the stall is ARMED (R172, R194, R537). -/
def State.acceptRun (s : State) (st mode : Nat) (window reserved : Bool) (src : StartSrc) (first : Nat) : State :=
  let x := s.stall st
  let s := s.setStall st { ({} : Stall) with
    mode := mode, src := src, firstEntry := first, octets := s.octetsOf st, look := { idx := first }
    nextPid := x.nextPid, inflight := x.dropLines.inflight, tableDirty := x.tableDirty, lastRun := x.lastRun
    epoch := x.epoch, stopT := x.stopT, past := x.past }
  let s := (s.setFlag F.ACQ_CTL.mode window st).setFlag F.ACQ_CTL.reserved_run reserved st
  let s := s.setFl F.STL_FLAGS.yardflag 0 st
  let fl := (mget (fun _ => []) s.yflags st).filter (fun e => decide (s.now ≤ e.1))
  let s : State := s.withYflags (mset (fun _ => []) s.yflags st fl)
  let s := ((s.setFlag F.STL_SEQ_STAT.waitc_timeout false st).setFlag F.STL_SEQ_STAT.start_missed false st).setFl
    F.STL_SEQ_STAT.seq_err 0 st
  let s := s.setRg .STL_SEQ_ENTRY (first * 65537) st
  let s := stlAtStart.foldl (fun s r => s.setRg r (r.reset st 0) st) s
  let s := (s.setFlag F.STL_FAIL_LOG_CTL.limit_hit false st)
  let s := acqAtStart.foldl (fun s r => s.setRg r (r.reset st 0) st) s
  let s := (s.octetsOf st).foldl State.startFramer s
  let s := (s.chansOf st).foldl State.startChan s
  let s := (List.range 16).foldl
    (fun s u => if s.timIn st u then
        (s.setFlag F.TIM_STAT.done false u).setTim u { s.tim u with started := false }
      else s) s
  (s.ageLoss st).setFl F.STL_SEQ_STAT.state stArmed st

end Sys2Proof.Machine
end

