-- ==== Sys2Proof/Machine/MemCmds.lean ====
section
/-! DEFINITION. The register and memory commands, and the commands that are writes of one register (R118, R119, R124–R129,
R429, R500–R505). -/

namespace Sys2Proof.Machine

open Sys2Proof

/-! ### Register commands (R127, R500–R503) -/

/-- The addresses of `count` consecutive registers. -/
def regRange (addr count : Nat) : List Nat := (List.range count).map (fun k => addr + 4 * k)

/-- A register count that the commands accept. -/
def countOk (n : Nat) : Bool := decide (1 ≤ n) && decide (n ≤ 256)

/-- Register addresses that the commands accept: multiples of 4 inside blocks. -/
def addrsOk (l : List Nat) : Bool := l.all (fun a => a % 4 == 0 && inBlock a)

/-- Register values as reply parameters. -/
def wordBytes (l : List Word) : List Byte := l.flatMap (fun w => beBytes 4 w.toNat)

/-- READ_REG (R127, R502). -/
def readRegBody (h : Hdr) (addr : BitVec 32) (count : BitVec 16) : Body := fun _ s =>
  if ! devShape h 6 || ! countOk count.toNat || ! addrsOk (regRange addr.toNat count.toNat) then refuse stBadParam s
  else
    let r := s.regReads (regRange addr.toNat count.toNat)
    okay (wordBytes r.1) r.2

/-- READ_REG (R127, R502). -/
def execReadReg (h : Hdr) (addr : BitVec 32) (count : BitVec 16) (s : State) : Host.Outcome State Fault Refusal :=
  done (s.cmd h 0x0010 (.readReg h addr count) false (readRegBody h addr count))

/-- The checks and writes of a register write command: the reply's status (R500). -/
def writeItems (items : List (Nat × Nat)) : Body := fun slot s =>
  let r := s.writeRegs slot items
  (.reply r.1 [], r.2)

/-- WRITE_REG (R127, R500, R501). -/
def writeRegBody (h : Hdr) (addr : BitVec 32) (count : BitVec 16) (values : List Word) : Body := fun slot s =>
  let n := count.toNat
  if ! devShape h (6 + 4 * n) || values.length ≠ n || ! countOk n || ! addrsOk (regRange addr.toNat n) then
    refuse stBadParam s
  else writeItems ((regRange addr.toNat n).zip (values.map BitVec.toNat)) slot s

/-- WRITE_REG (R127, R500, R501). -/
def execWriteReg (h : Hdr) (addr : BitVec 32) (count : BitVec 16) (values : List Word) (s : State) :
    Host.Outcome State Fault Refusal :=
  done (s.cmd h 0x0011 (.writeReg h addr count values) false (writeRegBody h addr count values))

/-- What a register reads as, without the side effects of a read; 0 where no register is assigned. -/
def State.peekReg (s : State) (a : Nat) : Nat :=
  match regAt a with
  | some (r, i, j) => if r = .TB_RATE_LO ∨ r = .TB_RATE_HI then s.regNow r i j else s.regValue r i j
  | none => 0

/-- MODIFY_REG: one write of the merged word; the reply carries the register before and after (R127, R503). -/
def modifyRegBody (h : Hdr) (addr mask value : BitVec 32) : Body := fun slot s =>
  let a := addr.toNat
  if ! devShape h 12 || ! addrsOk [a] then refuse stBadParam s
  else
    match regAt a with
    | none => okay (List.replicate 8 0) s
    | some (r, _, _) =>
      if hasRc r then refuse stBadParam s
      else
        let old := s.peekReg a
        let w := s.writeRegs slot [(a, modifyWord r.row old mask.toNat value.toNat)]
        if w.1 ≠ 0 then refuse w.1 s
        else
          okay (beBytes 4 old ++ beBytes 4 (w.2.peekReg a)) w.2

/-- MODIFY_REG (R127, R503). -/
def execModifyReg (h : Hdr) (addr mask value : BitVec 32) (s : State) : Host.Outcome State Fault Refusal :=
  done (s.cmd h 0x0012 (.modifyReg h addr mask value) false (modifyRegBody h addr mask value))

/-- READ_REG_LIST (R127, R502). -/
def readRegListBody (h : Hdr) (count : BitVec 16) (addrs : List (BitVec 32)) : Body := fun _ s =>
  let n := count.toNat
  if ! devShape h (2 + 4 * n) || addrs.length ≠ n || ! countOk n || ! addrsOk (addrs.map BitVec.toNat) then
    refuse stBadParam s
  else
    let r := s.regReads (addrs.map BitVec.toNat)
    okay (wordBytes r.1) r.2

/-- READ_REG_LIST (R127, R502). -/
def execReadRegList (h : Hdr) (count : BitVec 16) (addrs : List (BitVec 32)) (s : State) :
    Host.Outcome State Fault Refusal :=
  done (s.cmd h 0x0013 (.readRegList h count addrs) false (readRegListBody h count addrs))

/-! ### Memory (R118, R119, R128, R129) -/

/-- No DRAM is in service (R71, R117). -/
def State.noDram (s : State) : Bool := s.dram.set.isEmpty

/-- The session may write a byte range: the device owner, or the owner of a stall whose memory window holds it (R118,
R119). -/
def State.mayWrite (s : State) (slot a n : Nat) : Bool :=
  s.owns slot devRes || (List.range 16).any (fun st => s.owns slot st
    && decide (s.fl F.OWN_MEMWIN_BASE.base_mib st * 2 ^ 20 ≤ a)
    && decide (a + n ≤ s.fl F.OWN_MEMWIN_LIMIT.limit_mib st * 2 ^ 20))

/-- A length that WRITE_MEM and READ_MEM accept (R128). -/
def memLenOk (n : Nat) : Bool := n % 8 == 0 && decide (8 ≤ n) && decide (n ≤ 8192)

/-- The access of a command to DRAM, served now: WRITE_MEM's stores, READ_MEM's words, or LOAD_SEQ's check of the table and
its load (R128–R130, R150, R429). -/
def State.memNow (s : State) : MemAcc → Ans × State
  | .write a n data => okay [] ((s.writeWords (dcpWriter s.now) a (wordsOfBytes (n / 8) data)).noteWrite a n)
  | .read a n =>
    let r := s.readWords a (n / 8)
    match r.1.findIdx? (fun w => w.poison) with
    | some k => (.reply stPoison (beBytes 4 (8 * k) ++ bytesOfWords r.1), r.2)
    | none => okay (beBytes 4 0xffffffff ++ bytesOfWords r.1) r.2
  | .load st a n =>
    let r := s.scanLoad a n 0 n
    match r.1 with
    | some e => refuse (if e.2 = 10 then stPoison else stBadParam) (r.2.loadErr st e.1 e.2)
    | none => okay [] (r.2.loadTable st a n)

/-- The access of a command to DRAM: served, ended with TIMEOUT when a controller in block reset discards it, or held, at most
10 ms, while a controller retrains (R412, R436). -/
def State.memAccess (s : State) (acc : MemAcc) : Ans × State :=
  if s.memReset acc.range.1 acc.range.2 then refuse stTimeout s
  else if s.memHeld acc.range.1 acc.range.2 then (.waits (.mem (s.now + 10 * msCyc) acc), s)
  else s.memNow acc

/-- The held access of a slot's command is served once no controller that it needs retrains (R412). -/
def State.serveWait (s : State) (slot : Nat) : State :=
  match s.session slot with
  | none => s
  | some x =>
    match x.wait with
    | some ⟨.mem d acc, _, _, _⟩ =>
      if d ≤ s.now then s.answer slot (.mem d acc) stTimeout []
      else if s.memHeld acc.range.1 acc.range.2 then s
      else
        match s.memNow acc with
        | (.reply c p, t) => t.answer slot (.mem d acc) c p
        | (_, t) => t
    | _ => s

/-- WRITE_MEM (R128). -/
def writeMemBody (h : Hdr) (addr : BitVec 64) (len : BitVec 32) (data : List Byte) : Body := fun slot s =>
  let a := addr.toNat
  let n := len.toNat
  if ! devShape h (12 + n) || data.length ≠ n || a % 8 ≠ 0 || ! memLenOk n then refuse stBadParam s
  else if s.noDram then refuse stDramAbsent s
  else if ! s.inDram a n then refuse stBadParam s
  else if ! s.mayWrite slot a n then refuse stNotOwner s
  else s.memAccess (.write a n data)

/-- WRITE_MEM (R128). -/
def execWriteMem (h : Hdr) (addr : BitVec 64) (len : BitVec 32) (data : List Byte) (s : State) :
    Host.Outcome State Fault Refusal :=
  done (s.cmd h 0x0020 (.writeMem h addr len data) false (writeMemBody h addr len data))

/-- READ_MEM (R128, R129). -/
def readMemBody (h : Hdr) (addr : BitVec 64) (len : BitVec 32) : Body := fun _ s =>
  let a := addr.toNat
  let n := len.toNat
  if ! devShape h 12 || a % 8 ≠ 0 || ! memLenOk n then refuse stBadParam s
  else if s.noDram then refuse stDramAbsent s
  else if ! s.inDram a n then refuse stBadParam s
  else s.memAccess (.read a n)

/-- READ_MEM (R128, R129). -/
def execReadMem (h : Hdr) (addr : BitVec 64) (len : BitVec 32) (s : State) : Host.Outcome State Fault Refusal :=
  done (s.cmd h 0x0021 (.readMem h addr len) false (readMemBody h addr len))

/-- A long operation is accepted: a record is taken and its handle replied; none free is NO_RESOURCE (R125). -/
def acceptOp (opcode : Nat) (k : OpKind) : Body := fun slot s =>
  match s.freeOp with
  | none => refuse stNoResource s
  | some n => okay (beBytes 2 n) (s.startOp n slot (BitVec.ofNat 16 opcode) k)

/-- FILL_MEM (R125, R128). -/
def fillMemBody (h : Hdr) (addr len pattern : BitVec 64) : Body := fun slot s =>
  let a := addr.toNat
  let n := len.toNat
  if ! devShape h 24 || a % 64 ≠ 0 || n % 64 ≠ 0 || n = 0 then refuse stBadParam s
  else if s.noDram then refuse stDramAbsent s
  else if ! s.inDram a n then refuse stBadParam s
  else if ! s.mayWrite slot a n then refuse stNotOwner s
  else acceptOp 0x0022 (.fill a n pattern) slot s

/-- FILL_MEM (R125, R128). -/
def execFillMem (h : Hdr) (addr len pattern : BitVec 64) (s : State) : Host.Outcome State Fault Refusal :=
  done (s.cmd h 0x0022 (.fillMem h addr len pattern) false (fillMemBody h addr len pattern))

/-- COPY_MEM (R125, R128). -/
def copyMemBody (h : Hdr) (src dst len : BitVec 64) : Body := fun slot s =>
  let a := src.toNat
  let b := dst.toNat
  let n := len.toNat
  if ! devShape h 24 || a % 64 ≠ 0 || b % 64 ≠ 0 || n % 64 ≠ 0 || n = 0 || rangesMeet a n b n then refuse stBadParam s
  else if s.noDram then refuse stDramAbsent s
  else if ! s.inDram a n || ! s.inDram b n then refuse stBadParam s
  else if ! s.mayWrite slot b n then refuse stNotOwner s
  else acceptOp 0x0023 (.copy a b n) slot s

/-- COPY_MEM (R125, R128). -/
def execCopyMem (h : Hdr) (src dst len : BitVec 64) (s : State) : Host.Outcome State Fault Refusal :=
  done (s.cmd h 0x0023 (.copyMem h src dst len) false (copyMemBody h src dst len))

/-- A long operation ends with a result that the spec does not state: a free value (log 3). -/
def State.endOpFree (s : State) (n status : Nat) : State :=
  let d := s.draw 64
  d.2.endOp n status d.1

/-- A long operation whose access to a range is not served ends with TIMEOUT: at once in a block reset, and no sooner than 10 ms
after it began while a controller retrains (R412, R436). -/
def State.opTimeout (s : State) (n : Nat) (o : OpRec) (reset : Bool) : State :=
  (if reset then s else s.advTo (o.startAt + 10 * msCyc)).endOpFree n stTimeout

/-- FILL_MEM ends: every 8-byte address of the range holds the pattern (R128). -/
def execFillMemDone (op : BitVec 16) (s : State) : Host.Outcome State Fault Refusal :=
  let n := op.toNat
  match s.op n with
  | some o =>
    match o.kind with
    | .fill a len pattern =>
      if o.done then done s
      else if s.memHeld a len then done (s.opTimeout n o (s.memReset a len))
      else done (((s.fillWords (dcpWriter o.startAt) a pattern (len / 8)).noteWrite a len).endOpFree n stOk)
    | _ => done s
  | none => done s

/-- COPY_MEM ends; its result counts the poisoned words copied, and its status is POISON when there is one (R128,
R429). -/
def execCopyMemDone (op : BitVec 16) (s : State) : Host.Outcome State Fault Refusal :=
  let n := op.toNat
  match s.op n with
  | some o =>
    match o.kind with
    | .copy a b len =>
      if o.done then done s
      else if s.memHeld a len || s.memHeld b len then done (s.opTimeout n o (s.memReset a len || s.memReset b len))
      else
        let r := s.copyWords (dcpWriter o.startAt) a b (len / 8)
        done ((r.2.noteWrite b len).endOp n (if r.1 = 0 then stOk else stPoison) (BitVec.ofNat 64 r.1))
    | _ => done s
  | none => done s

/-! ### Commands that write one register -/

/-- WRITE_REG of one register (R500). -/
def oneRegBody (h : Hdr) (a v : Nat) : Body := fun slot s =>
  if ! devShape h 10 then refuse stBadParam s else writeItems [(a, v)] slot s

/-- The state after WRITE_REG of one register. -/
def State.oneReg (s : State) (h : Hdr) (self : Instr) (a v : Nat) : State :=
  s.cmd h 0x0011 self false (oneRegBody h a v)

end Sys2Proof.Machine
end

