-- ==== Sys2Proof/Machine/CalCmds.lean ====
section
/-! DEFINITION. The calibration and self-test commands and the ends of their operations (R456–R471). -/

namespace Sys2Proof.Machine

open Sys2Proof

/-! ### CAL_RUN (R457, R458, R465) -/

/-- The channels that a run names: those listed, or all of its target (R124). -/
def State.runChans (s : State) (target : BitVec 8) (l : List (BitVec 8)) : List Nat :=
  if l.isEmpty then s.targetChans target else (List.range 128).filter (fun c => l.any (fun b => b.toNat == c))

/-- What R465 refuses a run for, 0 when it is accepted. -/
def State.runRefusal (s : State) (target : BitVec 8) (items : Nat) (chans : List Nat) : Nat :=
  let bays := baysOf chans
  let us := unitsOf bays
  if s.calBusy || s.inReset .cal then stBusy
  else if target.toNat < 16 ∧ s.busyStall target.toNat then stStallRunning
  else if ! chans.all (fun c => (s.targetChans target).contains c) then stBadParam
  else if tbit items 0 && us.any (fun u => s.flag F.TIM_ASSIGN.assigned u && s.busyStall (s.fl F.TIM_ASSIGN.stall u)) then
    stStallRunning
  else if tbit items 0 && us.contains 0 && s.flag F.TB_SYNC_CTL.meas_en then stBusy
  else if bitsOf items 3 1 ≠ 0 ∧ bays.any (fun b => (unitsOf [b]).all s.unitTaken) then stBusy
  else if tbit items 4 && (s.flag F.TB_SYNC_CTL.meas_en || (List.range 16).any (fun st => s.stState st == stArmed
      && (s.stall st).src.source == 2)) then stBusy
  else 0

/-- The target of a calibration or self-test command: a stall or the device. -/
def calTarget (t : BitVec 8) : Bool := decide (t.toNat < 16) || t == tgDev

/-- Check 8 of a calibration or self-test command, and a stall's octets; 0 when they pass (R118, R130). -/
def State.calCheck (s : State) (slot : Nat) (t : BitVec 8) : Nat :=
  if t = tgDev then (if s.owns slot devRes then 0 else stNotOwner)
  else if ! s.owns slot t.toNat then stNotOwner
  else if (s.octetsOf t.toNat).isEmpty then stNoResource
  else 0

/-- A long operation of the engine is accepted (R125, R465). -/
def acceptCal (opcode : Nat) (k : OpKind) : Body := fun slot s =>
  match s.freeOp with
  | none => refuse stNoResource s
  | some n => okay (beBytes 2 n) ((s.startOp n slot (BitVec.ofNat 16 opcode) k).withCalOp (some n))

/-- CAL_RUN (R457, R465). -/
def calRunBody (h : Hdr) (items : BitVec 32) (count : BitVec 8) (channels : List (BitVec 8)) : Body := fun slot s =>
  if ! calTarget h.target || h.plen ≠ 5 + channels.length || count.toNat ≠ channels.length || 32 ≤ items.toNat
      || channels.any (fun c => decide (127 < c.toNat)) then refuse stBadParam s
  else if s.level = 3 then refuse stNoResource s
  else
    let c := s.calCheck slot h.target
    if c ≠ 0 then refuse c s
    else
      let chans := s.runChans h.target channels
      let e := s.runRefusal h.target items.toNat chans
      if e ≠ 0 then refuse e s else acceptCal 0x0050 (.calRun h.target items chans) slot s

/-- CAL_RUN (R457, R465). -/
def execCalRun (h : Hdr) (items : BitVec 32) (count : BitVec 8) (channels : List (BitVec 8)) (s : State) :
    Host.Outcome State Fault Refusal :=
  done (s.cmd h 0x0050 (.calRun h items count channels) false (calRunBody h items count channels))

/-! ### The end of a run (R458, R459) -/

/-- The units whose TVC a run calibrates: those named, or those of a bay without a valid TVC calibration (R458). -/
def State.runUnits (s : State) (items : Nat) (chans : List Nat) : List Nat :=
  if tbit items 0 then s.calUnits
  else
    let ok (u : Nat) : Bool := (s.calElem 0 u).state != 0 && ! (s.calElem 0 u).codes.isEmpty
    s.calUnits.filter (fun u => ! (s.calUnits.any (fun w => w / 4 == u / 4 && ok w)) && chans.any (fun c => bayOfChan c == u / 4))

/-- The elements that a run measures, as (item, channel or unit), in the order of R458. -/
def State.runElems (s : State) (items : Nat) (chans : List Nat) : List (Nat × Nat) :=
  (s.runUnits items chans).map (fun u => (0, u))
    ++ chans.flatMap (fun c => ([1, 2, 3].filter (fun i => tbit items i)).map (fun i => (i, c)))
    ++ (if tbit items 4 then [(4, 0)] else [])

/-- The residuals of a measurement in the item's shape; a missing one counts as 65,535 (R459). -/
def measResid (item : Nat) (r : List (List (BitVec 16))) : List (List (BitVec 16)) :=
  let (c, e) := calShape item
  (List.range c).map (fun k => (List.range e).map (fun j => (((r[k]?).getD [])[j]?).getD 65535))

/-- Network-time seconds of a measurement's end, 0 without a valid time (R461). -/
def State.measSec (s : State) : Nat := if s.flag F.TB_STAT.valid then (ntSplit s.nt).1 else 0

/-- A measured element: the candidate with the smallest largest residual and its corrections take effect, unless no
candidate gave a measurement (R459). -/
def State.measured (s : State) (meas : List CalMeas) (item idx : Nat) : State :=
  let old := s.calElem item idx
  let m := meas.find? (fun m => m.item.val == item && m.index.val == idx)
  let d := s.draw 8
  let tj := (m.map (fun m => m.tj)).getD d.1
  let r := measResid item ((m.map (fun m => m.resid)).getD [])
  let s := d.2
  if r.all (fun c => worst c == 65535) then
    s.setCalElem item idx { old with state := 3, sec := s.measSec, tj := tj, resid := r }
  else
    s.setCalElem item idx
      ⟨1, bestCand r, s.measSec, tj, r, (m.map (fun m => m.codes)).getD [], true⟩

/-- CAL_RUN ends: every element it covered has its result, status OK (R459, R460). -/
def execCalRunDone (op : BitVec 16) (meas : List CalMeas) (s : State) : Host.Outcome State Fault Refusal :=
  match s.op op.toNat with
  | some o =>
    match o.kind with
    | .calRun _ items chans =>
      if o.done || s.calOp ≠ some op.toNat then done s
      else
        let s := (s.runElems items.toNat chans).foldl (fun s e => s.measured meas e.1 e.2) s
        done ((s.withCalOp none).endOpFree op.toNat stOk)
    | _ => done s
  | none => done s

/-! ### CAL_READ (R461) -/

/-- The unit, channel or 0 that CAL_READ names. -/
def readIndex (item channel : Nat) : Nat := if item = 4 then 0 else channel

/-- The result bytes of an element (R461). -/
def State.calBytes (s : State) (item idx : Nat) : List Byte :=
  let e := s.calElem item idx
  let sh := calShape item
  beBytes 1 e.state ++ beBytes 1 e.sel ++ beBytes 1 sh.1 ++ beBytes 1 sh.2 ++ beBytes 8 e.sec ++ [e.tj, 0, 0, 0]
    ++ (residList item e.resid).flatMap (fun x => beBytes 2 x.toNat)

/-- CAL_READ (R461). -/
def calReadBody (h : Hdr) (channel item : BitVec 8) : Body := fun _ s =>
  if ! devShape h 2 || 4 < item.toNat || (item = 0 && 15 < channel.toNat) || (item ≠ 4 && 127 < channel.toNat) then
    refuse stBadParam s
  else if s.level = 3 then refuse stNoResource s
  else okay (s.calBytes item.toNat (readIndex item.toNat channel.toNat)) s

/-- CAL_READ (R461). -/
def execCalRead (h : Hdr) (channel item : BitVec 8) (s : State) : Host.Outcome State Fault Refusal :=
  done (s.cmd h 0x0051 (.calRead h channel item) false (calReadBody h channel item))

/-! ### CAL_COMMIT (R463) -/

/-- CAL_COMMIT (R463, R465). -/
def calCommitBody (h : Hdr) : Body := fun slot s =>
  if ! calTarget h.target || h.plen ≠ 0 then refuse stBadParam s
  else if s.level = 3 then refuse stNoResource s
  else
    let c := s.calCheck slot h.target
    if c ≠ 0 then refuse c s
    else if s.calBusy || s.inReset .cal then refuse stBusy s
    else if h.target ≠ tgDev ∧ s.busyStall h.target.toNat then refuse stStallRunning s
    else acceptCal 0x0052 (.calCommit h.target) slot s

/-- CAL_COMMIT (R463, R465). -/
def execCalCommit (h : Hdr) (s : State) : Host.Outcome State Fault Refusal :=
  done (s.cmd h 0x0052 (.calCommit h) false (calCommitBody h))

/-- CAL_COMMIT ends: a record for each channel of its target and, for the device, the device record (R463). -/
def execCalCommitDone (op : BitVec 16) (s : State) : Host.Outcome State Fault Refusal :=
  match s.op op.toNat with
  | some o =>
    match o.kind with
    | .calCommit t =>
      if o.done || s.calOp ≠ some op.toNat then done s
      else
        let s := (s.targetChans t).foldl (fun s c => s.commitChan c) s
        let s := if t = tgDev then s.commitDev else s
        done ((s.withCalOp none).endOpFree op.toNat stOk)
    | _ => done s
  | none => done s

/-! ### SELFTEST_RUN (R468, R469) -/

/-- MEM_SYSTEM may run: no stall armed or running, the Yard quiesced, no stream, every queue empty (R469). -/
def State.systemIdle (s : State) : Bool :=
  ! s.anyBusy && s.fl F.YRD_STAT.state == 2 && s.streams.all (fun e => e.2.isNone)
    && s.queues.all (fun e => decide (e.2.depth = 0) && decide (e.2.retained = 0))

/-- A bay's registers take their reset values: channels, framers, time-interval units (R221, R468). -/
def State.resetBay (s : State) (b : Nat) : State :=
  let s := (List.range 32).foldl
    (fun s k =>
      let c := 32 * b + k
      (s.clearRegs (0x300000 + 0x100 * c) (0x300000 + 0x100 * (c + 1))).loadSettings c) s
  let s := (List.range 4).foldl
    (fun s k =>
      let o := 4 * b + k
      (s.clearRegs (0x800000 + 0x1000 * o) (0x800000 + 0x1000 * (o + 1))).setFramer o {}) s
  (List.range 4).foldl
    (fun s k =>
      let u := 4 * b + k
      (s.clearRegs (0xa00000 + 0x100 * u) (0xa00000 + 0x100 * (u + 1))).setTim u {}) s

/-- What the memory and logic tests leave behind (R468). The hopper of a stall that is neither armed nor running holds
nothing that can be lost. -/
def State.afterTests (s : State) (t : BitVec 8) (tests : Nat) : State :=
  let s := if tbit tests 0 then (s.targetChans t).foldl (fun s c => s.loadWft c) s else s
  let s := if tbit tests 2 then (s.logicBays t).foldl (fun s b => s.resetBay b) s else s
  if tbit tests 3 then s.resetYard.clearRegs 0x1000000 0x1100000 else s

/-- LOOP_PATTERN's checks of the stall, as for a START (R469). -/
def State.loopRefusal (s : State) (st : Nat) : Nat :=
  if s.flag F.STL_SEQ_STAT.fault_hold st then stFaultHold
  else if s.mig.isSome then stMigrating
  else if s.dram.set.any (fun m => s.flag F.MC_STAT.retraining m) || s.startBusy st
      || (s.stall st).stops.any (fun p => p.cause == 6) then stBusy
  else 0

/-- A LOOP_PATTERN is checked and accepted: the tests before it have run, and the stall is armed with source 0 in STREAM
mode and the reserved regime (R468, R469). -/
def State.loopStart (s : State) (t : BitVec 8) (tests : Nat) : Nat × State :=
  let st := t.toNat
  let c := s.loopRefusal st
  if c ≠ 0 then (c, s)
  else
    let mode := bitsOf tests 17 16
    let r := s.runCheck st mode 0 false true
    if r.1 ≠ 0 then r else (0, (r.2.afterTests t tests).acceptRun st mode false true ⟨0, 0⟩ 0)

/-- SELFTEST_RUN (R465, R468, R469). -/
def selftestRunBody (h : Hdr) (tests : BitVec 32) : Body := fun slot s =>
  let n := tests.toNat
  let dev : Bool := h.target == tgDev
  if ! calTarget h.target || h.plen ≠ 4 || bitsOf n 15 5 ≠ 0 || bitsOf n 31 18 ≠ 0 || (tbit n 3 && ! dev)
      || (tbit n 4 && dev) then refuse stBadParam s
  else if s.level = 3 ∧ bitsOf n 4 0 ≠ 8 then refuse stNoResource s
  else if tbit n 4 && s.noDram then refuse stDramAbsent s
  else
    let c := s.calCheck slot h.target
    if c ≠ 0 then refuse c s
    else if s.calBusy || s.inReset .cal then refuse stBusy s
    else if ! dev && s.busyStall h.target.toNat then refuse stStallRunning s
    else if tbit n 3 && ! s.systemIdle then refuse stBusy s
    else if s.freeOp.isNone then refuse stNoResource s
    else if tbit n 4 then
      let r := s.loopStart h.target n
      if r.1 ≠ 0 then refuse r.1 r.2 else acceptCal 0x0053 (.selftest h.target tests) slot r.2
    else acceptCal 0x0053 (.selftest h.target tests) slot s

/-- SELFTEST_RUN (R465, R468, R469). -/
def execSelftestRun (h : Hdr) (tests : BitVec 32) (s : State) : Host.Outcome State Fault Refusal :=
  done (s.cmd h 0x0053 (.selftestRun h tests) false (selftestRunBody h tests))

/-- The key of a target's result. -/
def testKey (t : BitVec 8) : Nat := if t = tgDev then 16 else t.toNat

/-- The result of a self-test: what the tests found, and for LOOP_PATTERN what the stall's registers hold (R469, R470). -/
def State.findings (s : State) (t : BitVec 8) (tests : Nat) (f : TestFinding) : TestFinding :=
  let run := bitsOf tests 4 0
  let bays := (List.range 4).map (fun b => if tbit tests 2 && (s.logicBays t).contains b then
    (if (f.bays[b]?).getD 1 = 2 then (2 : BitVec 8) else 1) else 0)
  let st := t.toNat
  let pass := s.stState st == stStopped && s.fl F.STL_SEQ_STAT.cause st == 1 && s.rg .STL_FAIL_VEC st == 0
    && s.rg .ACQ_LOST st == 0
  let mem := f.fail.toNat &&& run &&& 11
  let fail := mem + bit (bays.contains 2) * 4 + bit (tbit tests 4 && ! pass) * 16
  let loop := tbit tests 4
  ⟨BitVec.ofNat 32 run, BitVec.ofNat 32 fail, bays, if mem = 0 then 0 else f.memErrors,
   if mem = 0 then 0xffffffff else f.firstMem, if loop then BitVec.ofNat 32 (s.rg .STL_FAIL_VEC st) else 0,
   if loop && s.flag F.STL_FIRST_FAIL_CH.valid st then BitVec.ofNat 64 (s.rg64 .STL_FIRST_FAIL_LO .STL_FIRST_FAIL_HI st)
   else 0xffffffffffffffff⟩

/-- SELFTEST_RUN ends; LOOP_PATTERN's stall has stopped by then. Each failing test is reported, in ascending order
(R468–R470). -/
def execSelftestDone (op : BitVec 16) (found : TestFinding) (s : State) : Host.Outcome State Fault Refusal :=
  match s.op op.toNat with
  | some o =>
    match o.kind with
    | .selftest t tests =>
      let n := tests.toNat
      if o.done || s.calOp ≠ some op.toNat || (tbit n 4 && s.busyStall t.toNat) then done s
      else
        let f := s.findings t n found
        let s := if tbit n 4 then s else s.afterTests t n
        let s : State := (s.withCalOp none).withTests (mset (fun _ => none) s.tests (testKey t) (some f))
        let s := (List.range 5).foldl (fun s b => if f.fail.getLsbD b then (s.raise 33 b).settle else s) s
        done (s.endOpFree op.toNat stOk)
    | _ => done s
  | none => done s

/-- The result before any self-test of a target: nothing run. -/
def noFinding : TestFinding := ⟨0, 0, [0, 0, 0, 0], 0, 0xffffffff, 0, 0xffffffffffffffff⟩

/-- SELFTEST_READ (R470). -/
def selftestReadBody (h : Hdr) : Body := fun _ s =>
  if ! calTarget h.target || h.plen ≠ 0 then refuse stBadParam s
  else
    let f := (mget (fun _ => none) s.tests (testKey h.target)).getD noFinding
    okay (beBytes 4 f.run.toNat ++ beBytes 4 f.fail.toNat ++ f.bays ++ beBytes 4 f.memErrors.toNat
      ++ beBytes 4 f.firstMem.toNat ++ beBytes 4 f.loopFail.toNat ++ beBytes 8 f.loopFirst.toNat) s

/-- SELFTEST_READ (R470). -/
def execSelftestRead (h : Hdr) (s : State) : Host.Outcome State Fault Refusal :=
  done (s.cmd h 0x0054 (.selftestRead h) false (selftestReadBody h))

end Sys2Proof.Machine
end

