-- ==== Sys2Proof/Machine/Dram.lean ====
section
/-! DEFINITION. The DRAM maintenance commands and the DRAM events: requests with their row activates, refresh, power-down,
self-refresh, migration, scrub and retraining (R410–R438, R542). -/

namespace Sys2Proof.Machine

open Sys2Proof

/-! ### Status commands (R437, R438) -/

/-- A register of a controller as MC_STATUS returns it: its present value, neither cleared nor latched (R437, R504). -/
def State.mcReg (s : State) (m : Nat) (r : R) : Nat :=
  if s.addrInReset (r.addr m) then s.resetValue r m 0 else s.regNow r m 0

/-- The registers of MC_STATUS in order (R437). -/
def mcStatusRegs : List R :=
  [.MC_CFG, .MC_STAT, .MC_TEMP, .MC_CE_CNT, .MC_UE_CNT, .MC_UE_ADDR_LO, .MC_UE_ADDR_HI, .MC_THROTTLE, .MC_NBR_REF,
    .MC_URGENT, .MC_MIG_PTR_LO, .MC_MIG_PTR_HI]

/-- MC_STATUS (R71, R437). -/
def mcStatusBody (h : Hdr) (controller : BitVec 8) : Body := fun _ s =>
  if ! devShape h 1 || 5 < controller.toNat then refuse stBadParam s
  else if s.noDram then refuse stDramAbsent s
  else okay (mcStatusRegs.flatMap (fun r => beBytes 4 (s.mcReg controller.toNat r))) s

/-- MC_STATUS (R437). -/
def execMcStatus (h : Hdr) (controller : BitVec 8) (s : State) : Host.Outcome State Fault Refusal :=
  done (s.cmd h 0x00a0 (.mcStatus h controller) false (mcStatusBody h controller))

/-- MIG_STATUS; the watermark without a migration is a free value (R71, R438, log 3). -/
def migStatusBody (h : Hdr) : Body := fun _ s =>
  if ! devShape h 0 then refuse stBadParam s
  else if s.noDram then refuse stDramAbsent s
  else
    match s.mig with
    | some g =>
      okay ([if g.paused then 2 else 1, BitVec.ofNat 8 g.m, BitVec.ofNat 8 g.rank] ++ beBytes 8 g.w) s
    | none =>
      let d := s.draw 64
      okay ([0, 0xff, 0xff] ++ beBytes 8 d.1.toNat) d.2

/-- MIG_STATUS (R438). -/
def execMigStatus (h : Hdr) (s : State) : Host.Outcome State Fault Refusal :=
  done (s.cmd h 0x00a2 (.migStatus h) false (migStatusBody h))

/-! ### Rank retirement and migration (R132, R431–R434) -/

/-- RANK_RETIRE. A named rank that cannot be retired, the unused spare itself, ends the operation at once with a status
that the spec does not give. -/
def rankRetireBody (h : Hdr) (controller rank : BitVec 8) : Body := fun slot s =>
  let m := controller.toNat
  let x := rank.toNat
  if ! devShape h 2 || 5 < m || 3 < x || bitsOf (s.useCfg m) 1 0 < x then refuse stBadParam s
  else if s.noDram then refuse stDramAbsent s
  else if ! s.owns slot devRes then refuse stNotOwner s
  else if s.mig.isSome then refuse stMigrating s
  else if ! s.dram.set.contains m || ! s.spareFree m then refuse stNoResource s
  else
    match s.freeOp with
    | none => refuse stNoResource s
    | some n =>
      let s := (s.startOp n slot 0x00a1 (.migrate m x)).candidate m x
      if s.mig.isSome then okay (beBytes 2 n) s
      else
        let d := s.draw 16
        okay (beBytes 2 n) (d.2.endOpFree n (d.1.toNat % nStatus))

/-- RANK_RETIRE (R132, R431). -/
def execRankRetire (h : Hdr) (controller rank : BitVec 8) (s : State) : Host.Outcome State Fault Refusal :=
  done (s.cmd h 0x00a1 (.rankRetire h controller rank) false (rankRetireBody h controller rank))

/-- The position of controller `m` in the interleave set. -/
def State.setIndex (s : State) (m : Nat) : Nat := s.dram.set.idxOf m

/-- The address of offset `o` of data rank `x` of controller `m` (R408, R409). -/
def State.addrOf (s : State) (m x o : Nat) : Nat :=
  let cfg := s.useCfg m
  let l := (dataRanks cfg).idxOf x * rankCap cfg + o
  (l / 256 * s.dram.set.length + s.setIndex m) * 256 + l % 256

/-- A migration copies one word to the spare: a correctable error is corrected, an uncorrectable one is counted, latched and
reported as on every read, and written poisoned (R428, R432, R488, R542; DEDUCED, log 44). -/
def State.copyWord (s : State) (m a : Nat) (c : Cells) : State :=
  let p := s.place a
  if s.injected (19 + m) then ((s.useInjection).uncorrectable a p true false).putWord a 0 true
  else
    match s.finding a c with
    | .uncorrectable => (s.uncorrectable a p false false).putWord a 0 true
    | .correctable =>
      let s := s.bump F.MC_CE_CNT.count 1 m
      s.setErr a .asStored
    | .asStored => s

/-- Copies words from `a` on; `cells` is what the cells of the rank that is left hold. -/
def State.copyUnit (s : State) (m a : Nat) : List Cells → State
  | [] => s
  | c :: t => State.copyUnit (s.copyWord m a c) m (a + 8) t

/-- MIGRATION_UNIT_COPY: the 256-byte unit at the watermark has been copied, unless it is uninitialised or beyond the
addressable capacity (R410, R432). -/
def execMigrationUnitCopy (cells : List Cells) (s : State) : Host.Outcome State Fault Refusal :=
  match s.mig with
  | none => done s
  | some g =>
    if g.paused || ! s.serving g.m || rankCap (s.useCfg g.m) ≤ g.w then done s
    else
      let a := s.addrOf g.m g.rank g.w
      let s := if s.inDram a 256 && s.isInit a then s.copyUnit g.m a (cells.take 32 ++ List.replicate (32 - cells.length) .asStored) else s
      done (s.withMig (some { g with w := g.w + 256 }))

/-- The next waiting candidate migrates, the lowest controller first, if its spare is still unused (R431). -/
def State.nextMig (s : State) : State :=
  match s.migWait.find? (fun e => e.2.isSome && s.spareFree e.1) with
  | some (m, some x) => (s.withMigWait (mset (fun _ => none) s.migWait m none)).startMig m x
  | _ => s

/-- The operations that a RANK_RETIRE of a rank started and that have not ended. -/
def State.migOps (s : State) (m x : Nat) : List Nat :=
  (List.range 64).filter (fun n => match s.op n with
    | some o => o.kind == .migrate m x && ! o.done
    | none => false)

/-- MIGRATION_DONE: the rank is retired and held in self-refresh, MIGRATION state 2 is sent, and the next waiting candidate
follows (R431, R434). -/
def execMigrationDone (s : State) : Host.Outcome State Fault Refusal :=
  match s.mig with
  | none => done s
  | some g =>
    if g.paused || g.w < rankCap (s.useCfg g.m) then done s
    else
      let s := s.saveMap g.m 2 g.rank g.spare
      let s := (s.setFlag F.MC_STAT.retired_valid true g.m).setFl F.MC_STAT.retired_rank g.rank g.m
      let w := s.rg .MC_STAT g.m
      let s := s.setRg .MC_STAT (putBits (putBits w (9 + g.rank) (9 + g.rank) 1) (13 + g.rank) (13 + g.rank) 0) g.m
      let s := (s.withMig none).withMigWait (mset (fun _ => none) s.migWait g.m none)
      let s := s.event (s.ownerOf devRes) 5 0xff [2, BitVec.ofNat 8 g.m, BitVec.ofNat 8 g.rank]
      done (((s.migOps g.m g.rank).foldl (fun s n => s.endOpFree n stOk) s).nextMig)

/-! ### Scrub (R435) -/

/-- SCRUB. -/
def scrubBody (h : Hdr) (controller : BitVec 8) : Body := fun slot s =>
  let m := controller.toNat
  if ! devShape h 1 || (5 < m && m ≠ 0xff) then refuse stBadParam s
  else if s.noDram then refuse stDramAbsent s
  else if ! s.owns slot devRes then refuse stNotOwner s
  else if s.mig.isSome then refuse stMigrating s
  else if s.scrubOp.isSome then refuse stBusy s
  else
    match s.freeOp with
    | none => refuse stNoResource s
    | some n =>
      let mcs := s.dram.set.filter (fun k => m == 0xff || k == m)
      okay (beBytes 2 n) ((s.startOp n slot 0x00a3 (.scrub mcs)).withScrubOp (some (n, 0, [])))

/-- SCRUB (R435). -/
def execScrub (h : Hdr) (controller : BitVec 8) (s : State) : Host.Outcome State Fault Refusal :=
  done (s.cmd h 0x00a3 (.scrub h controller) false (scrubBody h controller))

/-- One word of a scrub's counts. -/
def State.scrubCount (s : State) (ce : Nat) (ue : List Nat) : State :=
  match s.scrubOp with
  | none => s
  | some (n, c, l) => s.withScrubOp (some (n, c + ce, ue.foldl (fun l a => if l.contains a then l else l ++ [a]) l))

/-- The scrub engine reads one word: a correctable error is corrected in the cells, an uncorrectable one is handled as on
any read (R428, R435). A word already found uncorrectable in this scrub is not found again. -/
def State.scrubWord (s : State) (a : Nat) (c : Cells) : State :=
  let p := s.place a
  let known := match s.scrubOp with
    | some (_, _, l) => l.contains (a / 8)
    | none => true
  if known || ! s.isInit a || s.deadMc p.m then s
  else
    let s := s.wake p
    if s.injected (19 + p.m) then ((s.useInjection).uncorrectable a p true false).scrubCount 0 [a / 8]
    else
      match s.finding a c with
      | .uncorrectable =>
        let s := s.setErr a .uncorrectable
        (s.uncorrectable a p false true).scrubCount 0 [a / 8]
      | .correctable =>
        let s := (s.bump F.MC_CE_CNT.count 1 p.m).scrubCount 1 []
        s.setErr a .asStored
      | .asStored => s

/-- The first address of each controller's part of an initialised region. -/
def State.regionHeads (s : State) : List Nat :=
  (s.inited.filter (fun e => e.2)).flatMap (fun e => (List.range s.dram.set.length).map (fun k => e.1 * 2 ^ 20 + 256 * k))

/-- The words that a scrub of some controllers still has to look at: one of each initialised region's ranks, and every word
that holds an error. -/
def State.scrubList (s : State) (mcs : List Nat) : List Nat :=
  (s.regionHeads ++ s.err.map (fun (e : Nat × Cells) => 8 * e.1)).filter (fun a => mcs.contains (s.place a).m)

/-- SCRUB_DONE: every initialised line has been read; the result counts corrected and uncorrectable words (R435). -/
def execScrubDone (op : BitVec 16) (s : State) : Host.Outcome State Fault Refusal :=
  match s.op op.toNat, s.scrubOp with
  | some o, some (n, _, _) =>
    if n ≠ op.toNat || o.done then done s
    else
      match o.kind with
      | .scrub mcs =>
        let s := (s.scrubList mcs).foldl (fun s a => s.scrubWord a .asStored) s
        let r := match s.scrubOp with
          | some (_, c, l) => sat 0xffffffff c + sat 0xffffffff l.length * 2 ^ 32
          | none => 0
        done ((s.withScrubOp none).endOp n stOk (BitVec.ofNat 64 r))
      | _ => done s
  | _, _ => done s

/-! ### Requests (R413–R418, R423–R430) -/

/-- A number for each source of requests, to tell sources apart. -/
def srcKey : DramSrc → Nat
  | .leat st => st.val
  | .tailrace st => 16 + st.val
  | .dcp => 32
  | .spill => 33
  | .migration => 34
  | .scrub => 35
  | .fill => 36
  | .yard c => 64 + c.val

/-- The reservation of a source in 0.1 GB/s units; only leats and tailrace writers have one (R413). -/
def State.reservation (s : State) : DramSrc → Nat
  | .leat st => s.fl F.STL_LEAT_RESV.resv st.val
  | .tailrace st => s.fl F.ACQ_RESV.resv st.val
  | .dcp | .spill | .yard _ | .migration | .scrub | .fill => 0

/-- The key of a source's token bucket at a controller. -/
def shareKey (m : Nat) (src : DramSrc) : Nat := m * 128 + srcKey src

/-- What is missing in a source's token bucket at controller `m`, in 1/(16 n) byte, n the members of S: the bucket fills at the
reservation ÷ n, that is by the reservation's code in each SCLK cycle (R414, log 43). -/
def State.shareUsed (s : State) (m : Nat) (src : DramSrc) : Nat :=
  let u := mget (fun _ => (0, 0)) s.shares (shareKey m src)
  u.1 - s.reservation src * (s.now - u.2)

/-- A real-time source is within its share: its bucket, 2 µs of its rate deep, is not empty (R414). -/
def State.inShare (s : State) (m : Nat) (src : DramSrc) : Bool := decide (s.shareUsed m src < 3200 * s.reservation src)

/-- A real-time source is in panic (R204, R413, R416). -/
def State.srcPanic (s : State) (src : DramSrc) : Bool :=
  s.reservation src != 0 && (match src with
    | .leat st => (s.stall st.val).panic
    | .tailrace st => s.bufInPanic st.val
    | .dcp | .spill | .yard _ | .migration | .scrub | .fill => false)

/-- The row of R414 in which a controller serves a request of a source. -/
def State.prioRow (s : State) (m : Nat) (src : DramSrc) : Nat :=
  if s.srcPanic src then 2
  else if s.inShare m src then 3
  else
    match src with
    | .migration | .scrub => 4
    | .leat _ | .tailrace _ | .dcp | .spill | .yard _ | .fill => 6

/-- A request in the real-time class; beyond the reservation it is best-effort (R413). -/
def State.realTime (s : State) (m : Nat) (src : DramSrc) : Bool := decide (s.prioRow m src ≤ 3)

/-- A request within its source's share takes the tokens of one 64-byte burst (R404, R414, log 43). -/
def State.takeTokens (s : State) (m : Nat) (src : DramSrc) : State :=
  if s.inShare m src then
    s.withShares (mset (fun _ => (0, 0)) s.shares (shareKey m src)
      (s.shareUsed m src + 1024 * s.dram.set.length, s.now))
  else s

/-- A tailrace writer's oldest write waits at controller `m` and goes before a request of `src`: it stands in an earlier row,
or in the same row and is older than the other tailrace writer's (R414, log 43). -/
def State.outranked (s : State) (m : Nat) (src : DramSrc) : Bool :=
  (List.finRange 16).any (fun st =>
    match mget (fun _ => []) s.wbuf st.val with
    | [] => false
    | e :: _ =>
      src != .tailrace st && (s.place e.addr).m == m
        && (decide (s.prioRow m (.tailrace st) < s.prioRow m src)
          || (match src with
            | .tailrace k => s.prioRow m (.tailrace st) == s.prioRow m src
                && decide (e.at_ < ((mget (fun _ => []) s.wbuf k.val).head?.map (fun x => x.at_)).getD 0)
            | .leat _ | .dcp | .spill | .yard _ | .migration | .scrub | .fill => false)))

/-- The row table after an activate of row `r`, its count, and whether the bank's tracker overflows with it (R425). -/
def trackRow (l : List (Nat × Nat)) (r : Nat) : List (Nat × Nat) × Nat × Bool :=
  match l.find? (fun e => e.1 == r) with
  | some e => (l.map (fun x => if x.1 = r then (r, e.2 + 1) else x), e.2 + 1, false)
  | none =>
    if l.length < 64 then (l ++ [(r, 1)], 1, false)
    else
      let low := l.foldl (fun b x => if x.2 < b then x.2 else b) ((l.head?.map (fun x => x.2)).getD 0)
      match l.findIdx? (fun x => x.2 == low) with
      | some k => (l.set k (r, low + 1), low + 1, true)
      | none => (l, 1, true)

/-- The key of a bank's tracker. -/
def Place.bankKey (p : Place) : Nat := ((p.m * 4 + p.rank) * 2 + p.sub) * 32 + p.bank

/-- A throttled source has activated the bank within the last µs, so its request waits; a real-time request never does
(R425). -/
def State.throttledNow (s : State) (src : DramSrc) (p : Place) : Bool :=
  s.flag F.MC_SYS_RD.en && ! s.realTime p.m src
    && (mget (fun _ => ({} : Tracker)) s.track p.bankKey).throttled.any (fun e => e.1 == srcKey src && decide (s.now < e.2 + usCyc))

/-- An activate of a place's row by a source: tracking, throttling and neighbour refresh (R425, R426). -/
def State.activateRow (s : State) (src : DramSrc) (p : Place) : State :=
  if ! s.flag F.MC_SYS_RD.en then s
  else
    let t := mget (fun _ => ({} : Tracker)) s.track p.bankKey
    let r := trackRow t.rows p.row
    let hot := decide (s.fl F.MC_SYS_RD.act_limit < r.2.1)
    let rt := s.realTime p.m src
    let known := t.throttled.any (fun e => e.1 == srcKey src)
    let throttle := hot && ! rt && ! known
    let t' : Tracker := { rows := r.1, overflowed := t.overflowed || r.2.2
                          throttled := if throttle then t.throttled ++ [(srcKey src, s.now)]
                            else t.throttled.map (fun e => if e.1 = srcKey src then (e.1, s.now) else e) }
    let s := s.withTrack (mset (fun _ => ({} : Tracker)) s.track p.bankKey t')
    let s := if throttle then s.bump F.MC_THROTTLE.count 1 p.m else s
    if (hot && rt) || t'.overflowed then
      let hit := Config.nbrDraw (s.fl F.MC_SYS_RD.p) s.freeCtr
      let s := s.withFreeCtr (s.freeCtr + 1)
      if hit then s.bump F.MC_NBR_REF.count 1 p.m else s
    else s

/-- What a served request does to the words: the tailrace writer's oldest buffered write; a Yard core's store; the scrub
engine's read; a read of another source. A migration's copies are MIGRATION_UNIT_COPY's, and a region holds the zero words of its
fill from REGION_FILL on. -/
def State.serveRequest (s : State) (src : DramSrc) (a : Nat) (store : Option (BitVec 64)) (c : Cells) : State :=
  match src with
  | .tailrace st => s.wbufDrain st.val
  | .migration | .fill => s
  | .scrub => s.scrubWord a c
  | .yard core =>
    match store with
    | some v => (s.writeWords (coreWriter core.val s.now) a [⟨v, false⟩]).noteWrite a 8
    | none => (s.readWord a c).2
  | .leat _ | .dcp | .spill => (s.readWord a c).2

/-- The address of a request: the tailrace writer's is that of its oldest buffered write (R417). -/
def State.requestAddr (s : State) (src : DramSrc) (addr : Nat) : Option Nat :=
  match src with
  | .tailrace st => (mget (fun _ => []) s.wbuf st.val).head?.map (fun e => e.addr)
  | _ => some (addr / 8 * 8)

/-- A request to an address needs the devices: a write does, a fill of a region that is not initialised, and what reads an
initialised region; a read, copy or scrub of an uninitialised region does not (R410). -/
def State.needsDevice (s : State) (src : DramSrc) (a : Nat) (store : Option (BitVec 64)) : Bool :=
  match src with
  | .tailrace _ => true
  | .yard _ => store.isSome || s.isInit a
  | .fill => ! s.isInit a
  | .leat _ | .dcp | .spill | .migration | .scrub => s.isInit a

/-- DRAM_REQUEST: a controller serves one request (R413–R430). It is held while the controller does not serve, while a request
that goes before it waits, and while its source is throttled on the bank; one that needs no device access changes nothing
(R410). -/
def execDramRequest (src : DramSrc) (addr : BitVec 64) (store : Option (BitVec 64)) (cells : Cells) (s : State) :
    Host.Outcome State Fault Refusal :=
  match s.requestAddr src addr.toNat with
  | none => done s
  | some a =>
    let p := s.place a
    if ! s.inDram a 8 || ! s.serving p.m || ! s.needsDevice src a store || s.outranked p.m src || s.throttledNow src p then done s
    else done ((((s.wake p).activateRow src p).takeTokens p.m src).serveRequest src a store cells)

/-- REGION_FILL: an uninitialised region holds zero words from now on (R410). -/
def execRegionFill (region : BitVec 20) (s : State) : Host.Outcome State Fault Refusal :=
  let a := region.toNat * 2 ^ 20
  if s.inDram a (2 ^ 20) && ! s.isInit a then
    done (s.setInit region.toNat)
  else done s

/-! ### Refresh, power-down, self-refresh (R419–R426) -/

/-- A rank of the interleave set. -/
def State.rankIn (s : State) (m r : Nat) : Bool := s.dram.set.contains m && (s.ranksOf m).contains r

/-- A rank is in self-refresh. -/
def State.asleep (s : State) (m r : Nat) : Bool := tbit (s.fl F.MC_STAT.self_refresh m) r

/-- A rank's refresh interval comes due: time passes until then, and the next interval begins (R419). -/
def State.toInterval (s : State) (m r : Nat) : State :=
  let t := s.refDue m r
  let s := s.advTo t
  s.setRankTimes m r { s.rankTimes m r with ref := t }

/-- REFRESH_INTERVAL: issued, with the postponed ones, when no panic defers it; else postponed below a debt of 4, and urgent
above (R416, R419, R421). A rank in self-refresh refreshes itself. -/
def execRefreshInterval (m : McIx) (r : Fin 4) (s : State) : Host.Outcome State Fault Refusal :=
  if ! s.rankIn m.val r.val || s.asleep m.val r.val then done s
  else
    let s := s.toInterval m.val r.val
    let d := s.rankDebt m.val r.val
    if ! s.anyPanic then done (s.setDebt m.val r.val 0)
    else if d < 4 then done (s.setDebt m.val r.val (d + 1))
    else done (s.bump F.MC_URGENT.count 1 m.val)

/-- A poll of one rank: its MR4 multiplier and temperature (R420, R422). -/
def State.pollRank (s : State) (m r : Nat) (mult temp : Nat) : State :=
  let s := s.withMr4 (mset (fun _ => 0) s.mr4 (4 * m + r) (min mult 2))
  (s.setHot m r (decide (s.fl F.MC_SYS_REF.thresh < temp))).followRate m r

/-- A controller's next poll comes: MC_SYS_REF.poll µs after the last (R420). -/
def State.toPoll (s : State) (m : Nat) : State :=
  let t := (s.mcTimes m).poll + s.fl F.MC_SYS_REF.poll * usCyc
  let s := s.advTo t
  s.setMcTimes m { s.mcTimes m with poll := t }

/-- MR4_POLL: `rates` and `temps` are what MR4 of each rank indicates (R420, R422). -/
def execMr4Poll (m : McIx) (rates : List (BitVec 2)) (temps : List (BitVec 7)) (s : State) :
    Host.Outcome State Fault Refusal :=
  if ! s.dram.set.contains m.val then done s
  else
    done ((s.ranksOf m.val).foldl
      (fun s r => match rates[r]?, temps[r]? with
        | some x, some t => s.pollRank m.val r x.toNat t.toNat
        | _, _ => s) (s.toPoll m.val))

/-- POWER_DOWN_ENTRY: a rank that has had no request for pd_timer × 100 ns enters precharge power-down (R416, R423). -/
def execPowerDownEntry (m : McIx) (r : Fin 4) (s : State) : Host.Outcome State Fault Refusal :=
  if s.rankIn m.val r.val && ! s.anyPanic && s.fl F.MC_SYS_PWR.pd_timer != 0 && ! s.asleep m.val r.val then
    let s := s.advTo ((s.rankTimes m.val r.val).req + s.fl F.MC_SYS_PWR.pd_timer * 160)
    done (s.setFl F.MC_STAT.power_down (putBits (s.fl F.MC_STAT.power_down m.val) r.val r.val 1) m.val)
  else done s

/-- A rank may enter self-refresh by itself (R424). -/
def State.maySleep (s : State) (m r : Nat) : Bool :=
  s.rankIn m r && ! s.flag F.MC_SYS_REF.policy && s.flag F.MC_SYS_PWR.sr_en && ! s.anyPanic && ! s.anyBusy
    && s.mig.isNone && s.scrubOp.isNone

/-- SELF_REFRESH_ENTRY: a rank that has had no request for sr_timer µs pays its debt and enters self-refresh (R424). -/
def execSelfRefreshEntry (m : McIx) (r : Fin 4) (s : State) : Host.Outcome State Fault Refusal :=
  if s.maySleep m.val r.val then
    let s := (s.advTo ((s.rankTimes m.val r.val).req + s.fl F.MC_SYS_PWR.sr_timer * usCyc)).setDebt m.val r.val 0
    let w := s.rg .MC_STAT m.val
    done (s.setRg .MC_STAT (putBits (putBits w (9 + r.val) (9 + r.val) 1) (13 + r.val) (13 + r.val) 0) m.val)
  else done s

/-- A controller's row-disturbance window of 32 ms ends, and the next begins (R425). -/
def State.toWindowEnd (s : State) (m : Nat) : State :=
  let t := (s.mcTimes m).win + 32 * msCyc
  let s := s.advTo t
  s.setMcTimes m { s.mcTimes m with win := t }

/-- ROW_DISTURBANCE_WINDOW_END: every entry of the controller's trackers is freed (R425). -/
def execRowDisturbanceWindowEnd (m : McIx) (s : State) : Host.Outcome State Fault Refusal :=
  let s := s.toWindowEnd m.val
  done (s.withTrack (mclear (fun k => decide (k / 256 = m.val)) s.track))

/-! ### Retraining after a warm start (R412) -/

/-- WARM_RETRAIN: a member that failed its recheck retrains after host-ready. -/
def execWarmRetrain (m : McIx) (s : State) : Host.Outcome State Fault Refusal :=
  if s.ready && s.flag F.MC_STAT.retraining m.val then
    done (s.withRetrain (mset (fun _ => false) s.retrain m.val true))
  else done s

/-- RETRAINING_COMPLETE: the member serves again, or, when retraining failed, reads of its addresses are poisoned and
writes discarded until the next cold start. The accesses of DCP commands that it held are served, in slot order (R412). -/
def execRetrainingComplete (m : McIx) (ok : Bool) (s : State) : Host.Outcome State Fault Refusal :=
  if mget (fun _ => false) s.retrain m.val then
    let s := (s.withRetrain (mset (fun _ => false) s.retrain m.val false)).withDead (mset (fun _ => false) s.dead m.val (! ok))
    done ((List.range 32).foldl State.serveWait (s.setFlag F.MC_STAT.retraining false m.val))
  else done s

end Sys2Proof.Machine
end

