-- ==== Sys2Proof/Machine/FaultCmds.lean ====
section
/-! DEFINITION. The fault commands, activations of fault sources from outside, faulty pairs, shadows, and the ends of block
resets (R62, R472–R489). -/

namespace Sys2Proof.Machine

open Sys2Proof

/-! ### Commands -/

/-- A 256-bit map of sources as 32 bytes: source i at bit (i mod 8) of byte ⌊i/8⌋ (R124). -/
def State.srcMap (s : State) (r : R) : List Byte := (List.range 8).flatMap (fun i => leBytes 4 (s.regNow r i 0))

/-- FAULT_READ (R477). -/
def faultReadBody (h : Hdr) : Body := fun _ s =>
  if ! devShape h 0 then refuse stBadParam s
  else
    okay (s.srcMap .FLC_LIVE ++ s.srcMap .FLC_STICKY ++ beBytes 1 (s.fl F.FLC_FIRST.source)
      ++ beBytes 1 (s.fl F.FLC_FIRST.valid) ++ beBytes 8 (s.rg64 .FLC_FIRST_TAG_LO .FLC_FIRST_TAG_HI)
      ++ beBytes 1 (s.fl F.FLC_FIRST.overflow)) s

/-- FAULT_READ (R477). -/
def execFaultRead (h : Hdr) (s : State) : Host.Outcome State Fault Refusal :=
  done (s.cmd h 0x0080 (.faultRead h) false (faultReadBody h))

/-- FAULT_CLEAR (R480, R483). -/
def faultClearBody (h : Hdr) (stickyMask : BitVec 256) (clearFirst : BitVec 8) : Body := fun slot s =>
  if ! devShape h 33 || 1 < clearFirst.toNat then refuse stBadParam s
  else if ! s.owns slot devRes then refuse stNotOwner s
  else okay [] (s.faultClear (fun n => stickyMask.getLsbD n) (clearFirst == 1))

/-- FAULT_CLEAR (R480, R483). -/
def execFaultClear (h : Hdr) (stickyMask : BitVec 256) (clearFirst : BitVec 8) (s : State) :
    Host.Outcome State Fault Refusal :=
  done (s.cmd h 0x0081 (.faultClear h stickyMask clearFirst) false (faultClearBody h stickyMask clearFirst))

/-- The reaction field of a source takes a code (R489). -/
def State.setReaction (s : State) (n code : Nat) : State :=
  s.setRg .FLC_REACT (putBits (s.rg .FLC_REACT (n / 8)) (n % 8 * 4 + 2) (n % 8 * 4) code) (n / 8)

/-- FAULT_REACTION (R485). -/
def faultReactionBody (h : Hdr) (source reaction : BitVec 8) : Body := fun slot s =>
  let n := source.toNat
  if ! devShape h 2 || srcReserved n || n == 9 || n == 10 || 5 < reaction.toNat then refuse stBadParam s
  else if ! s.owns slot devRes then refuse stNotOwner s
  else okay [] (s.setReaction n reaction.toNat)

/-- FAULT_REACTION (R485). -/
def execFaultReaction (h : Hdr) (source reaction : BitVec 8) (s : State) : Host.Outcome State Fault Refusal :=
  done (s.cmd h 0x0082 (.faultReaction h source reaction) false (faultReactionBody h source reaction))

/-- FAULT_INJECT (R488). -/
def faultInjectBody (h : Hdr) (source : BitVec 8) : Body := fun slot s =>
  let n := source.toNat
  if ! devShape h 1 || srcReserved n || noInject n then refuse stBadParam s
  else if ! s.owns slot devRes then refuse stNotOwner s
  else if isChecker n then
    if s.flag F.FLC_INJECT.pending then refuse stBusy s else okay [] (s.setRg .FLC_INJECT (n + 256))
  else okay [] (s.raise n 0xffff true)

/-- FAULT_INJECT (R488). -/
def execFaultInject (h : Hdr) (source : BitVec 8) (s : State) : Host.Outcome State Fault Refusal :=
  done (s.cmd h 0x0083 (.faultInject h source) false (faultInjectBody h source))

/-- A live source with a reaction of STALL_STOP or stronger affects the stall (R485). -/
def State.heldLive (s : State) (st : Nat) : Bool :=
  (List.range 256).any (fun n => s.srcLive n && stopsStall (s.reaction n) && (s.affected ⟨n, 0, false, none⟩).contains st)

/-- The hold of a stall ends, and its channels take their halt states (R147, R482, R485). -/
def State.endHold (s : State) (st : Nat) : State :=
  let s := s.setFlag F.STL_SEQ_STAT.fault_hold false st
  let x := s.stall st
  let s := s.setStall st { x with pinSafe := false }
  if s.running st then s else (s.chansOf st).foldl (fun s c => s.takeHalt c (s.haltCode st c) s.nowU) s

/-- FAULT_RELEASE (R118, R485). -/
def faultReleaseBody (h : Hdr) : Body := fun slot s =>
  let st := h.target.toNat
  if ! stallShape h 0 then refuse stBadParam s
  else if ! (s.owns slot st || s.owns slot devRes) then refuse stNotOwner s
  else if ! s.flag F.STL_SEQ_STAT.fault_hold st then okay [] s
  else if s.heldLive st then refuse stBusy s
  else okay [] (s.endHold st)

/-- FAULT_RELEASE (R118, R485). -/
def execFaultRelease (h : Hdr) (s : State) : Host.Outcome State Fault Refusal :=
  done (s.cmd h 0x0084 (.faultRelease h) false (faultReleaseBody h))

/-! ### Activations from outside (R47, R73, R472, R477) -/

/-- Sources whose detector follows state that other commands of the model change: their own events set and end them. -/
def ownEvents (n : Nat) : Bool := n == 8 || n == 9 || n == 10 || (decide (40 ≤ n) && decide (n ≤ 47)) || n == 255

/-- What a detector that fires says about its own part of the machine: a rail, the timing die, or a hopper line that fails its
ECC (R47, R73, R473). -/
def State.detected (s : State) (n : Nat) : State :=
  if n ≤ 6 then
    s.setRg .PCR_RAIL_STAT (putBits (putBits (s.rg .PCR_RAIL_STAT) n n 0) (8 + n) (8 + n) 1)
  else if n = 11 then s.setFlag F.PCR_SERVICE.timing_die_ok false
  else if 128 ≤ n ∧ n ≤ 143 then s.hopperFails (n - 128)
  else s

/-- FAULT_ACTIVATION: a detector fires with its detail, which for a rail is its number (R47, R472, R477). -/
def execFaultActivation (source : BitVec 8) (detail : BitVec 16) (s : State) : Host.Outcome State Fault Refusal :=
  let n := source.toNat
  if srcReserved n || ownEvents n then done s
  else
    let d := if n ≤ 6 then n else detail.toNat
    let s := s.detected n
    let s := if isCond n then (s.setCond n true).withCondDet (mset (fun _ => 0) s.condDet n d) else s
    done (s.raise n d false (if n = 31 then tailStall detail.toNat else none))

/-- WATCHDOG: the control core missed its watchdog (R472). -/
def execWatchdog (s : State) : Host.Outcome State Fault Refusal := done (s.raise 146 0)

/-- COND_SOURCE_INACTIVE: the condition of a source ends; its live bit follows while its pair reads validly (R475,
R477). -/
def execCondSourceInactive (source : BitVec 8) (s : State) : Host.Outcome State Fault Refusal :=
  let n := source.toNat
  if ! isCond n || ownEvents n then done s
  else
    let s := if n ≤ 6 then s.setRg .PCR_RAIL_STAT (putBits (s.rg .PCR_RAIL_STAT) n n 1) else s
    done (s.endCond n)

/-! ### Faulty pairs (R475, R476) -/

/-- The lowest source whose pair reads equal. -/
def State.wireLow (s : State) : Option Nat := (List.range 256).find? (fun n => s.srcBit .FLC_WIRE n)

/-- Source 255 follows FLC_WIRE: active while any bit is 1 (R476). -/
def State.followWire (s : State) : State :=
  match s.wireLow with
  | some n => if s.cond 255 then s else (s.setCond 255 true).raise 255 n
  | none => s.endCond 255

/-- FAULTY_PAIR: a pair reads equal, or reads validly again; the live bit then follows the source once more (R475,
R476). -/
def execFaultyPair (source : BitVec 8) (equal : Bool) (s : State) : Host.Outcome State Fault Refusal :=
  let n := source.toNat
  if srcReserved n || s.srcBit .FLC_WIRE n == equal then done s
  else if equal then done (s.setSrcBit .FLC_WIRE n true).followWire
  else
    let s := (s.setSrcBit .FLC_WIRE n false).followWire
    if n = 255 || ! isCond n then done s
    else if s.cond n then done (s.raise n (s.condDetail n))
    else done (s.endCond n)

/-! ### Shadows and the ends of block resets (R62, R486, R487) -/

/-- SHADOW_END: the shadow of a block ends, and each dependent that is live and no longer shadowed has a primary
activation (R486, R487). -/
def execShadowEnd (b : Blk) (s : State) : Host.Outcome State Fault Refusal :=
  match (s.shadows.find? (fun x => x.blk == b)).bind (fun x => x.endsAt) with
  | none => done s
  | some t =>
    let s := s.advTo t
    let s := s.withShadows (s.shadows.filter (fun x => x.blk != b))
    done ((List.range 256).foldl
      (fun s n => if dependent b n && s.srcLive n && ! s.shadowed n then
          s.activate ⟨n, s.condDetail n, false, none⟩
        else s) s)

/-- BLOCK_RESET_COMPLETE (R62, R486). -/
def execBlockResetComplete (b : Blk) (s : State) : Host.Outcome State Fault Refusal :=
  if s.inReset b then done (s.endBlock b) else done s

end Sys2Proof.Machine
end

