-- ==== Sys2Proof/Machine/Lanes.lean ====
section
/-! DEFINITION. The events of the host lanes and of the serial masters, and the DCP transport settings coming into use
(R92–R99, R140, R510–R512). -/

namespace Sys2Proof.Machine

open Sys2Proof

/-! ### Link states (R92–R95) -/

/-- A lane that may change its link state: enabled in the settings in use, without a test, not in block reset. -/
def State.laneOn (s : State) (k : LaneIx) : Bool :=
  tbit (s.lane k.val).eff 0 && ! s.testOn k.val && ! s.inReset (.hl k)

/-- The link state of a lane. -/
def State.linkState (s : State) (k : LaneIx) : Nat := s.fl F.HP_LINK_STAT.state k.val

/-- SIGNAL_DETECTED: DOWN to SIGNAL (R92). -/
def execSignalDetected (k : LaneIx) (s : State) : Host.Outcome State Fault Refusal :=
  if s.laneOn k && s.linkState k == 1 then
    let s := (s.setLane k.val { s.lane k.val with signal := true }).setFlag F.HP_RX_EQ_STAT.adapted false k.val
    done (s.laneTo k.val 2 false)
  else done s

/-- The conditions of UP beside block lock hold: hi_ber clear and no fault received (R92). -/
def State.linkClean (s : State) (k : Nat) : Bool := bitsOf (s.rg .HP_LINK_STAT k) 6 4 == 0

/-- What the transmit pins of a lane carry (R28, R81, R93, R98, R100). -/
inductive LaneTx where
  | hiZ | idle | frames | faultSequence | looped | partner | prbs31
  deriving DecidableEq, Repr

/-- What a lane transmits: nothing while high-impedance, the idle level while disabled, the test pattern or what a loop sends,
frames while UP, and else the sequence of Clause 46 by which the partner sees a fault (R28, R93, R98, R100). -/
def State.laneTx (s : State) (k : Nat) : LaneTx :=
  if ! s.drive.host.getLsbD k then .hiZ
  else if s.flag F.HP_TEST_CTL.prbs_gen k then .prbs31
  else if s.fl F.HP_TEST_CTL.loop k = 3 then .partner
  else if s.fl F.HP_TEST_CTL.loop k ≠ 0 then .looped
  else if ! tbit (s.lane k).eff 0 then .idle
  else if s.laneUp k then .frames
  else .faultSequence

/-- BLOCK_LOCK: SIGNAL to BLOCK_LOCK, and the 1 ms hold-off starts (R92). -/
def execBlockLock (k : LaneIx) (s : State) : Host.Outcome State Fault Refusal :=
  if s.laneOn k && s.linkState k == 2 then
    let l := s.lane k.val
    let s := s.setLane k.val { l with okSince := some s.now }
    let w := putBits (s.rg .HP_LINK_STAT k.val) 7 3 (1 + 16 * bit (tbit l.eff 3))
    done ((s.setRg .HP_LINK_STAT w k.val).laneTo k.val 3 false)
  else done s

/-- LINK_UP: 1 ms of unbroken block lock without hi_ber or faults; HOST_LINK_DOWN ends (R92, R94). -/
def execLinkUp (k : LaneIx) (s : State) : Host.Outcome State Fault Refusal :=
  match (s.lane k.val).okSince with
  | none => done s
  | some t =>
    if s.laneOn k && s.linkState k == 3 && s.linkClean k.val then
      let s := (s.advTo (t + msCyc)).setFl F.HP_LINK_STAT.state 4 k.val
      done ((s.bump F.HP_LINK_STAT.link_changes 1 k.val).endCond (40 + k.val))
    else done s

/-- What the loss of a condition of UP leaves in HP_LINK_STAT: the bit to set or clear, and the state (R92, R93). -/
def State.lossBits (s : State) (k : Nat) (why : LinkLoss) : State × Nat :=
  match why with
  | .blockLock => ((s.setRg .HP_LINK_STAT (putBits (s.rg .HP_LINK_STAT k) 7 3 0) k), 2)
  | .hiBer => (s.setFlag F.HP_LINK_STAT.hi_ber true k, 3)
  | .localFault => (s.setFlag F.HP_LINK_STAT.local_fault true k, 3)
  | .remoteFault => (s.setFlag F.HP_LINK_STAT.remote_fault true k, 3)

/-- The end of hi_ber or of a fault sequence clears its bit of HP_LINK_STAT (R92). -/
def State.lossEnds (s : State) (k : Nat) (why : LinkLoss) : State :=
  match why with
  | .blockLock => s
  | .hiBer => s.setFlag F.HP_LINK_STAT.hi_ber false k
  | .localFault => s.setFlag F.HP_LINK_STAT.local_fault false k
  | .remoteFault => s.setFlag F.HP_LINK_STAT.remote_fault false k

/-- LINK_DOWN: block lock is lost, hi_ber sets or a fault sequence arrives; a lane that is UP leaves UP at once, and the
hold-off stands still (R92, R93, R94). Or hi_ber clears or the fault sequence ends, and the hold-off starts again once every
condition of UP holds. -/
def execLinkDown (k : LaneIx) (news : LinkNews) (s : State) : Host.Outcome State Fault Refusal :=
  if ! (s.linkState k == 4 || s.linkState k == 3) then done s
  else
    match news with
    | .ends why =>
      let s := s.lossEnds k.val why
      if s.linkState k == 3 && s.linkClean k.val && (s.lane k.val).okSince.isNone then
        done (s.setLane k.val { s.lane k.val with okSince := some s.now })
      else done s
    | .begins why =>
      let r := s.laneCounts k.val
      let r := r.lossBits k.val why
      let s := r.1.laneTo k.val r.2 false
      done (s.setLane k.val { s.lane k.val with okSince := none })

/-- SIGNAL_LOSS: a lane that is not UP loses its block lock only, or its signal or PLL lock (R92). -/
def execSignalLoss (k : LaneIx) (lockOnly : Bool) (s : State) : Host.Outcome State Fault Refusal :=
  let st := s.linkState k
  if ! s.laneOn k || ! (st == 2 || st == 3) || (lockOnly && st == 2) then done s
  else
    let s := s.laneCounts k.val
    let s := s.setLane k.val { s.lane k.val with okSince := none, signal := lockOnly }
    let s := s.setRg .HP_LINK_STAT (putBits (s.rg .HP_LINK_STAT k.val) 7 3 0) k.val
    done (s.laneTo k.val (if lockOnly then 2 else 1) false)

/-! ### Settings and loops (R96–R99) -/

/-- LANE_SETTINGS_APPLY: 1 ms after the last changing write the lane starts with its settings as they stand (R96, R97). The
loss of UP is the lane's own write's when HP_PORT_CTL was among the writes (R94). -/
def execLaneSettingsApply (k : LaneIx) (s : State) : Host.Outcome State Fault Refusal :=
  match (s.lane k.val).applyAt with
  | none => done s
  | some t =>
    let s := s.advTo t
    done ((s.takeSettings k.val).startAgain k.val (s.lane k.val).ownApply)

/-- LOOP_TIMEOUT: the test loop ends and the lane starts again (R99). DESIGN CHOICE (log 83): HP_TEST_CTL.loop then reads 0. -/
def execLoopTimeout (k : LaneIx) (s : State) : Host.Outcome State Fault Refusal :=
  match (s.lane k.val).loopEnd with
  | none => done s
  | some t =>
    let s := (s.advTo t).setFl F.HP_TEST_CTL.loop 0 k.val
    let s := s.setLane k.val { s.lane k.val with loopEnd := none }
    done (s.startAgain k.val true)

/-- OWN_CHANGE_APPLY: OWN_CTL and OWN_UDP come into use (R140). -/
def execOwnChangeApply (s : State) : Host.Outcome State Fault Refusal :=
  match s.ownAt with
  | none => done s
  | some t =>
    let s := s.advTo t
    done ((s.withOwnEff (s.rd (R.addr .OWN_CTL), s.rd (R.addr .OWN_UDP))).withOwnAt none)

/-! ### Serial masters (R510–R512) -/

/-- PES_TRANSFER_BEGIN: the oldest requested transfer starts; a chip select held low for another one rises first (R511). -/
def execPesTransferBegin (j : Fin 4) (s : State) : Host.Outcome State Fault Refusal :=
  let p := s.pesm j.val
  match p.queue, p.running with
  | x :: _, false =>
    let s := s.setPesm j.val { p with running := true }
    done ((s.setFl F.PES_STAT.cs x.cs j.val).setFl F.PES_STAT.held (s.fl F.PES_STAT.held j.val &&& 2 ^ x.cs) j.val)
  | _, _ => done s

/-- The received bytes of a transfer enter PES_RX, word by word from word `w` on (R510). -/
def State.storeRx (s : State) (j i w : Nat) : Nat → List Byte → State
  | 0, _ => s
  | n + 1, l =>
    let b := l.take 4
    let k := 32 * i + w
    let old := s.rg .PES_RX j k
    State.storeRx (s.setRg .PES_RX (ofLe b + old / 2 ^ (8 * b.length) * 2 ^ (8 * b.length)) j k) j i (w + 1) n (l.drop 4)

/-- PES_TRANSFER_END: busy clears, done sets, the received bytes stand in PES_RX, and the chip select rises unless the
transfer holds it (R510, R511). `rx` holds one byte for each byte of the transfer. -/
def execPesTransferEnd (j : Fin 4) (rx : List Byte) (s : State) : Host.Outcome State Fault Refusal :=
  let p := s.pesm j.val
  match p.queue, p.running with
  | x :: t, true =>
    if rx.length ≠ x.len then done s
    else
      let s := (s.setPesm j.val { queue := t, running := false }).storeRx j.val x.cs 0 ((x.len + 3) / 4) rx
      let s := s.setFlag F.PES_XFER.done true j.val x.cs
      let h := s.fl F.PES_STAT.held j.val
      done (s.setFl F.PES_STAT.held (putBits h x.cs x.cs (bit x.hold)) j.val)
  | _, _ => done s

end Sys2Proof.Machine
end

