-- ==== Sys2Proof/Machine/Session.lean ====
section
/-! DEFINITION. Sessions, ownership and elections, the records of long operations, and frames that reach no command (R88,
R104, R106, R108–R115, R118–R125, R138, R139). -/

namespace Sys2Proof.Machine

open Sys2Proof

/-! ### HELLO (R108–R111) -/

/-- A lease that HELLO and RENEW accept: 0, or 100 to 60,000 ms (R113). -/
def leaseOk (ms : Nat) : Bool := ms == 0 || (decide (100 ≤ ms) && decide (ms ≤ 60000))

/-- The session whose HELLO this one repeats (R110). -/
def State.repeatedHello (s : State) (h : Hdr) (client : BitVec 64) : Option Session :=
  ((List.range 32).filterMap s.session).find? (fun x =>
    ! x.expired && x.helloOnly && x.client == client && x.bind == h.bind && x.helloSeq == h.seq)

/-- The slot whose session a takeover takes over: a live one before an expired one, the lowest slot (R110, log 32). -/
def State.takenOver (s : State) (h : Hdr) (client : BitVec 64) : Option Nat :=
  let mine (live : Bool) (n : Nat) : Bool := match s.session n with
    | some x => x.client == client && x.bind == h.bind && x.expired == ! live
    | none => false
  ((List.range 32).find? (mine true)).or ((List.range 32).find? (mine false))

/-- The slot for a new session: the lowest free one, else that of the session expired the longest (R109). -/
def State.helloSlot (s : State) : Option Nat :=
  match (List.range 32).find? (fun n => (s.session n).isNone) with
  | some n => some n
  | none =>
    let old := (List.range 32).filterMap (fun n => match s.session n with
      | some x => if x.expired then some (x.expiredAt, n) else none
      | none => none)
    (old.foldl (fun (b : Option (Nat × Nat)) e => match b with
      | some c => if e.1 < c.1 then some e else b
      | none => some e) none).map (fun e => e.2)

/-- Slots that hold no live session. -/
def State.freeSessions (s : State) : Nat := ((List.range 32).filter (fun n => ! s.live n)).length

/-- The resource byte of OWNER_CHANGE (R139). -/
def resByte (r : Nat) : Nat := if r = devRes then 0xff else r

/-- OWNER_CHANGE to a slot (R139). -/
def State.ownerChange (s : State) (to_ : Option Nat) (r : Nat) (old new : BitVec 16) (reason : Nat) : State :=
  s.event to_ 3 (resByte r)
    ([BitVec.ofNat 8 (resByte r)] ++ beBytes 2 old.toNat ++ beBytes 2 new.toNat ++ [BitVec.ofNat 8 reason])

/-- A new session in slot `n`; the slot's generation rises (R108–R111, R113). -/
def State.newSession (s : State) (n : Nat) (h : Hdr) (client : BitVec 64) (leaseMs : Nat) : State :=
  let s := s.closeSession n
  let gen := mget (fun _ => 0) s.slotGen n
  let lease := if leaseMs = 0 then 2000 else leaseMs
  let s := s.withSlotGen (mset (fun _ => 0) s.slotGen n (if gen = 2046 then 0 else gen + 1))
  s.setSession n (some ⟨gen, false, client, h.bind, lease, s.now + lease * msCyc, 0, h.seq + 1, h.seq, true, [], 0, none⟩)

/-- The reply to HELLO, kept as the session's first cached reply; it carries the HELLO's session field (R107, R111). -/
def State.helloReply (s : State) (n : Nat) (h : Hdr) : State :=
  match s.session n with
  | none => s
  | some x =>
    let par := beBytes 2 (s.handle (some n)).toNat ++ beBytes 4 x.leaseMs ++ beBytes 4 (s.rg .DEV_ID)
      ++ beBytes 1 s.level ++ beBytes 1 s.freeSessions
    let m : Msg := ⟨.reply, false, h.session, h.seq, h.target, 1, 0, par⟩
    (s.setSession n (some { x with cache := [m] })).sendDcp x.bind m

/-- A takeover: every ownership of the old session passes to the new one, the old session closes, and the new one gets its
reply and then an OWNER_CHANGE for each resource (R110, R139). -/
def State.takeOver (s : State) (old n : Nat) (h : Hdr) : State :=
  let was := s.handle (some old)
  let res := (List.range 17).filter (fun r => s.owns old r)
  let s := res.foldl (fun s r => s.setOwner r (some n)) s
  let s := (s.closeSession old).helloReply n h
  res.foldl (fun s r => s.ownerChange (some n) r was (s.handle (some n)) 2) s

/-- HELLO past checks 1 and 2 (R109, R110, R116). -/
def State.hello (s : State) (h : Hdr) (client : BitVec 64) (leaseMs : Nat) (flags : Nat) : State :=
  if h.session ≠ 0xffff then s.bounce h 1 stBadSession
  else if ! devShape h 13 || ! leaseOk leaseMs || decide (1 < flags) then s.bounce h 1 stBadParam
  else
    match s.repeatedHello h client with
    | some x => s.resendCached x h.seq
    | none =>
      match s.helloSlot with
      | none => s.bounce h 1 stNoResource
      | some n =>
        let old := if flags = 1 then s.takenOver h client else none
        let s := s.newSession n h client leaseMs
        match old with
        | some o => if o = n then s.helloReply n h else s.takeOver o n h
        | none => s.helloReply n h

/-- HELLO (R108–R111). -/
def execHello (h : Hdr) (client : BitVec 64) (leaseMs : BitVec 32) (flags : BitVec 8) (s : State) :
    Host.Outcome State Fault Refusal :=
  let r := s.heard h
  if ! r.1 then done (r.2.unheard h.bind (.hello h client leaseMs flags))
  else if h.version ≠ 2 then done (r.2.bounce h 1 stBadVersion)
  else if r.2.phase == .strapStop && h.bind == .mgmt then done (r.2.strapError h 1)
  else if ! (r.2.ready || r.2.phase == .bootRom) then done (r.2.bounce h 1 stBusy)
  else done (r.2.hello h client leaseMs.toNat flags.toNat)

/-! ### Ownership (R120–R122) -/

/-- CLAIM (R120). -/
def claimBody (h : Hdr) (prio : BitVec 8) : Body := fun slot s =>
  match targetRes h.target with
  | none => refuse stBadParam s
  | some r =>
    if h.plen ≠ 1 then refuse stBadParam s
    else
      match s.ownerOf r with
      | some o =>
        (.reply (if o = slot then stOk else stNotOwner) (beBytes 2 (s.handle (some o)).toNat), s)
      | none =>
        let e := (s.election r).getD ⟨s.now + msCyc, []⟩
        (.waits (.claim r), s.setElection r (some { e with claims := e.claims ++ [(slot, prio.toNat)] }))

/-- CLAIM (R120). -/
def execClaim (h : Hdr) (prio : BitVec 8) (s : State) : Host.Outcome State Fault Refusal :=
  done (s.cmd h 0x0002 (.claim h prio) true (claimBody h prio))

/-- RELEASE (R122). -/
def releaseBody (h : Hdr) : Body := fun slot s =>
  match targetRes h.target with
  | none => refuse stBadParam s
  | some r =>
    if h.plen ≠ 0 then refuse stBadParam s
    else if ! s.owns slot r then refuse stNotOwner s
    else okay [] (s.setOwner r none)

/-- RELEASE (R122). -/
def execRelease (h : Hdr) (s : State) : Host.Outcome State Fault Refusal :=
  done (s.cmd h 0x0003 (.release h) true (releaseBody h))

/-- GRANT: the ownership passes in one step, and the recipient gets OWNER_CHANGE (R122, R139). -/
def grantBody (h : Hdr) (toSession : BitVec 16) : Body := fun slot s =>
  match targetRes h.target, s.slotOf toSession with
  | some r, some n =>
    if h.plen ≠ 2 || ! s.live n then refuse stBadParam s
    else if ! s.owns slot r then refuse stNotOwner s
    else if n = slot then okay [] s
    else okay [] ((s.setOwner r (some n)).ownerChange (some n) r (s.handle (some slot)) (s.handle (some n)) 1)
  | _, _ => refuse stBadParam s

/-- GRANT (R122). -/
def execGrant (h : Hdr) (toSession : BitVec 16) (s : State) : Host.Outcome State Fault Refusal :=
  done (s.cmd h 0x0004 (.grant h toSession) true (grantBody h toSession))

/-- RENEW (R113). -/
def renewBody (h : Hdr) (leaseMs : BitVec 32) : Body := fun slot s =>
  if ! devShape h 4 || ! leaseOk leaseMs.toNat then refuse stBadParam s
  else
    match s.session slot with
    | none => refuse stBadParam s
    | some x =>
      let ms := if leaseMs = 0 then x.leaseMs else leaseMs.toNat
      okay (beBytes 4 ms) (s.setSession slot (some { x with leaseMs := ms, leaseEnd := s.now + ms * msCyc }))

/-- RENEW (R113). -/
def execRenew (h : Hdr) (leaseMs : BitVec 32) (s : State) : Host.Outcome State Fault Refusal :=
  done (s.cmd h 0x0005 (.renew h leaseMs) true (renewBody h leaseMs))

/-- BYE: ownerships are released and streams closed, then the reply, then the session closes (R115). -/
def byeBody (h : Hdr) : Body := fun slot s =>
  if ! devShape h 0 then refuse stBadParam s
  else (.last stOk [], (s.releaseAll slot).closeStreams slot)

/-- BYE (R115). -/
def execBye (h : Hdr) (s : State) : Host.Outcome State Fault Refusal :=
  done (s.cmd h 0x0006 (.bye h) true (byeBody h))

/-- OP_STATUS: reading a finished record frees it (R125). The percentage of a running operation is a free value (log 3). -/
def opStatusBody (h : Hdr) (op : BitVec 16) : Body := fun _ s =>
  if ! devShape h 2 then refuse stBadParam s
  else
    match s.op op.toNat with
    | none => okay (List.replicate 14 0) s
    | some o =>
      if o.done then
        okay ([2, 100] ++ beBytes 2 o.opcode.toNat ++ beBytes 2 o.status.toNat ++ beBytes 8 o.result.toNat)
          (s.setOp op.toNat none)
      else
        let d := s.draw 7
        okay ([1, BitVec.ofNat 8 (d.1.toNat % 101)] ++ beBytes 2 o.opcode.toNat ++ List.replicate 10 0) d.2

/-- OP_STATUS (R125). -/
def execOpStatus (h : Hdr) (op : BitVec 16) (s : State) : Host.Outcome State Fault Refusal :=
  done (s.cmd h 0x0007 (.opStatus h op) true (opStatusBody h op))

/-! ### Events of sessions -/

/-- A lease runs out: ownerships released, streams closed, the session expired, and OWNER_CHANGE for each stall to the
device owner (R113, R123, R139). -/
def execLeaseExpiry (slot : Fin 32) (s : State) : Host.Outcome State Fault Refusal :=
  let n := slot.val
  match s.session n with
  | none => done s
  | some x =>
    if x.expired then done s
    else
      let s := s.advTo x.leaseEnd
      let was := s.handle (some n)
      let stalls := (List.range 16).filter (fun r => s.owns n r)
      let s := (s.releaseAll n).closeStreams n
      let s := match s.session n with
        | some y => s.setSession n (some { y with expired := true, expiredAt := s.now })
        | none => s
      done (stalls.foldl (fun s r => s.ownerChange (s.ownerOf devRes) r was 0xffff 3) s)

/-- An expired session closes 60 s after its expiry (R114). -/
def execExpiredSessionClose (slot : Fin 32) (s : State) : Host.Outcome State Fault Refusal :=
  match s.session slot.val with
  | none => done s
  | some x => if x.expired then done ((s.advTo (x.expiredAt + 60000 * msCyc)).closeSession slot.val) else done s

/-- The winning claim of an election: the highest priority byte, then the lowest slot (R121). -/
def winner (claims : List (Nat × Nat)) : Option Nat :=
  (claims.foldl (fun (b : Option (Nat × Nat)) c => match b with
    | some w => if w.2 < c.2 ∨ (w.2 = c.2 ∧ c.1 < w.1) then some c else b
    | none => some c) none).map (fun c => c.1)

/-- An election closes: the winner owns the resource, and every claimant is answered (R121). -/
def execElectionClose (r : Fin 17) (s : State) : Host.Outcome State Fault Refusal :=
  match s.election r.val with
  | none => done s
  | some e =>
    let s := (s.advTo e.closeAt).setElection r.val none
    match winner e.claims with
    | none => done s
    | some w =>
      let s := s.setOwner r.val (some w)
      let par := beBytes 2 (s.handle (some w)).toNat
      done ((List.range 32).foldl
        (fun s n => s.answer n (.claim r.val) (if n = w then stOk else stNotOwner) par) s)

/-- A finished operation's record is freed 60 s after it finished (R125). -/
def execOpRecordExpiry (op : BitVec 16) (s : State) : Host.Outcome State Fault Refusal :=
  match s.op op.toNat with
  | none => done s
  | some o => if o.done then done ((s.advTo (o.doneAt + 60000 * msCyc)).setOp op.toNat none) else done s

/-! ### Frames that reach no command (R88, R104, R106) -/

/-- A malformed DCP frame is dropped, without a reply, and counted in OWN_DROP (R104, R106). A CMD of a reserved opcode is no
malformed frame: it fails at check 5, unless an earlier check fails (R112, R116, R124, log 80). -/
def execDcpFrameDrop (h : Hdr) (why : DcpDrop) (s : State) : Host.Outcome State Fault Refusal :=
  match why with
  | .shortFrame | .ipFragment | .udpChecksum | .reservedType =>
    let r := s.heard { h with plen := 0 }
    if r.1 then done (r.2.bump F.OWN_DROP.count 1) else done (r.2.unheard h.bind (.dcpFrameDrop h why))
  | .reservedOpcode opcode => done (s.cmd h opcode.toNat (.dcpFrameDrop h why) true (fun _ t => refuse stBadOpcode t))

/-- A received frame with a bad FCS is counted in HP_RX_FCS_ERR, any other that R88 does not deliver in HP_RX_DROP. DESIGN
CHOICE (log 77): a frame with a bad FCS counts in HP_RX_FCS_ERR alone. -/
def execRxFrameDrop (lane : LaneIx) (why : RxDrop) (s : State) : Host.Outcome State Fault Refusal :=
  if ! s.laneUp lane.val then done (s.relay lane (.rxFrameDrop lane why))
  else
    match why with
    | .badFcs => done (s.bump F.HP_RX_FCS_ERR.count 1 lane.val)
    | .notForPart | .macControl | .badLength => done (s.bump F.HP_RX_DROP.count 1 lane.val)

/-- The MAC address of a lane (R87). -/
def State.laneMac (s : State) (k : Nat) : BitVec 48 :=
  BitVec.ofNat 48 (s.rg .HP_MAC_LO k + s.rg .HP_MAC_HI k * 2 ^ 32)

/-- The lane answers an ARP request for its IPv4 address; with another address, or with none, the frame is dropped
(R88). -/
def execArpRequest (lane : LaneIx) (senderMac : BitVec 48) (targetIp : BitVec 32) (s : State) :
    Host.Outcome State Fault Refusal :=
  let k := lane.val
  if ! s.laneUp k then done (s.relay lane (.arpRequest lane senderMac targetIp))
  else if s.rg .HP_IPV4 k ≠ 0 ∧ targetIp.toNat = s.rg .HP_IPV4 k then
    done ((s.bump F.HP_RX_FRAMES.count 1 k).offer k
      (.arp lane (s.vlanTag k) senderMac (s.laneMac k) targetIp))
  else done (s.bump F.HP_RX_DROP.count 1 k)

/-- The lane answers an ICMP echo request to its IPv4 address (R88). -/
def execIcmpEchoRequest (lane : LaneIx) (senderMac : BitVec 48) (destIp : BitVec 32) (payload : List Byte) (s : State) :
    Host.Outcome State Fault Refusal :=
  let k := lane.val
  if ! s.laneUp k then done (s.relay lane (.icmpEchoRequest lane senderMac destIp payload))
  else if s.rg .HP_IPV4 k ≠ 0 ∧ destIp.toNat = s.rg .HP_IPV4 k then
    done ((s.bump F.HP_RX_FRAMES.count 1 k).offer k (.echo lane (s.vlanTag k) senderMac (s.ipOut k) payload))
  else done (s.bump F.HP_RX_DROP.count 1 k)

end Sys2Proof.Machine
end

