-- ==== Sys2Proof/Machine/StallCmds.lean ====
section
/-! DEFINITION. The stall commands: LOAD_SEQ, START, STOP, ARM, STATUS, SETFLAG and STALL_RESET (R116, R118, R130, R131,
R150, R155, R172, R177, R180, R181, R316). -/

namespace Sys2Proof.Machine

open Sys2Proof

/-- The checks 7 and 8 of a stall command and its octets, 0 when they pass (R71, R118, R130). -/
def State.stallCheck (s : State) (slot st : Nat) : Nat :=
  if s.level = 3 then stNoResource
  else if ! s.owns slot st then stNotOwner
  else if (s.octetsOf st).isEmpty then stNoResource
  else 0

/-- LOAD_SEQ (R130, R150, R179). -/
def loadSeqBody (h : Hdr) (table : BitVec 64) (entries : BitVec 32) : Body := fun slot s =>
  let st := h.target.toNat
  let a := table.toNat
  let n := entries.toNat
  if ! stallShape h 12 || a % 16 ≠ 0 || n = 0 || 65536 < n then refuse stBadParam s
  else if ! s.noDram && ! s.inDram a (16 * n) then refuse stBadParam s
  else if s.level = 3 then refuse stNoResource s
  else if s.noDram then refuse stDramAbsent s
  else
    let c := s.stallCheck slot st
    if c ≠ 0 then refuse c s
    else if s.busyStall st then refuse stStallRunning s
    else if s.calUsesStall st then refuse stBusy s
    else s.memAccess (.load st a n)

/-- LOAD_SEQ (R130, R150, R179). -/
def execLoadSeq (h : Hdr) (table : BitVec 64) (entries : BitVec 32) (s : State) : Host.Outcome State Fault Refusal :=
  done (s.cmd h 0x0030 (.loadSeq h table entries) false (loadSeqBody h table entries))

/-- The largest source_index of a start source (R130). -/
def sourceMax (source : Nat) : Nat := if source = 1 then 15 else if source = 3 then 3 else 0

/-- Some controller is retraining (R412). -/
def State.retrains (s : State) : Bool := s.dram.set.any (fun m => s.flag F.MC_STAT.retraining m)

/-- START (R130, R172). -/
def startBody (h : Hdr) (mode acq source sourceIndex : BitVec 8) (firstEntry : BitVec 16) : Body := fun slot s =>
  let st := h.target.toNat
  if ! stallShape h 6 || 3 < mode.toNat || 1 < acq.toNat || 3 < source.toNat then refuse stBadParam s
  else if s.level = 3 then refuse stNoResource s
  else if s.noDram then refuse stDramAbsent s
  else
    let c := s.stallCheck slot st
    if c ≠ 0 then refuse c s
    else if s.busyStall st then refuse stStallRunning s
    else if s.flag F.STL_SEQ_STAT.fault_hold st then refuse stFaultHold s
    else if s.mig.isSome then refuse stMigrating s
    else if sourceMax source.toNat < sourceIndex.toNat then refuse stBadParam s
    else if s.retrains || s.startBusy st || (s.stall st).stops.any (fun p => p.cause == 6) then refuse stBusy s
    else
      let reserved := ! s.flag F.ACQ_CTL.normal st
      let r := s.runCheck st mode.toNat firstEntry.toNat (acq == 1) reserved
      if r.1 ≠ 0 then refuse r.1 r.2
      else (.waits (.start st),
        r.2.acceptRun st mode.toNat (acq == 1) reserved ⟨source.toNat, sourceIndex.toNat⟩ firstEntry.toNat)

/-- START (R130, R172). -/
def execStart (h : Hdr) (mode acq source sourceIndex : BitVec 8) (firstEntry : BitVec 16) (s : State) :
    Host.Outcome State Fault Refusal :=
  done (s.cmd h 0x0031 (.start h mode acq source sourceIndex firstEntry) false
    (startBody h mode acq source sourceIndex firstEntry))

/-- No vector (R130, R131). -/
def noVector : List Byte := beBytes 8 (2 ^ 64 - 1)

/-- How long the segment in play of a running stall still lasts, as the instant of its end. -/
def State.segEndT (s : State) (st : Nat) : Nat :=
  let x := s.stall st
  match x.cur, x.vec with
  | some p, some v => x.t0 + (s.vecSpan st p.ent p.ent.vectors - s.vecSpan st p.ent (v - x.segFirst))
  | _, _ => 0

/-- When STOP stops a running stall (R177): the next boundary at least 40 ns ahead, or the end of the segment in play, of
the next one in its last 40 ns. -/
def State.stopWhen (s : State) (st atWhen : Nat) : StopAt :=
  let x := s.stall st
  if atWhen = 0 then .atTime (s.nowU + 64 * unitsPerCyc)
  else if s.segEndT st < s.nowU + 64 * unitsPerCyc then .segEnd (x.segFirst + 1)
  else .segEnd x.segFirst

/-- STOP (R130, R177, R180). -/
def stopBody (h : Hdr) (atWhen : BitVec 8) : Body := fun slot s =>
  let st := h.target.toNat
  if ! stallShape h 1 || 1 < atWhen.toNat then refuse stBadParam s
  else
    let c := s.stallCheck slot st
    if c ≠ 0 then refuse c s
    else
      let x := s.stall st
      if s.stState st = stArmed then okay noVector ((s.disarm st).answerAll (.start st) stOk [])
      else if s.running st then
        (.waits (.stop st), s.setStall st { x with stops := x.stops ++ [⟨2, s.stopWhen st atWhen.toNat⟩] })
      else okay (match x.lastRun with
        | some v => beBytes 8 v
        | none => noVector) s

/-- STOP (R130, R177, R180). -/
def execStop (h : Hdr) (atWhen : BitVec 8) (s : State) : Host.Outcome State Fault Refusal :=
  done (s.cmd h 0x0032 (.stop h atWhen) false (stopBody h atWhen))

/-- ARM (R316). -/
def armBody (h : Hdr) : Body := fun slot s =>
  let st := h.target.toNat
  if ! stallShape h 0 then refuse stBadParam s
  else
    let c := s.stallCheck slot st
    if c ≠ 0 then refuse c s
    else if ! s.busyStall st || ! s.windowMode st then refuse stBadParam s
    else
      let w := s.fl F.ACQ_WIN_STAT.state st
      if w = winPost then refuse stBusy s
      else if w = 0 then
        let x := s.stall st
        okay [] (s.setStall st { x with win := { x.win with armed := true } })
      else okay [] (s.enterFill st)

/-- ARM (R316). -/
def execArm (h : Hdr) (s : State) : Host.Outcome State Fault Refusal :=
  done (s.cmd h 0x0033 (.arm h) false (armBody h))

/-- The reply parameters of STATUS (R131). -/
def State.statusBytes (s : State) (st : Nat) : List Byte :=
  let ff := if s.flag F.STL_FIRST_FAIL_CH.valid st then s.rg64 .STL_FIRST_FAIL_LO .STL_FIRST_FAIL_HI st else 2 ^ 64 - 1
  let own : BitVec 16 := if (s.election st).isSome then 0xffff else s.handle (s.ownerOf st)
  beBytes 1 (s.stState st) ++ beBytes 1 (s.fl F.STL_SEQ_STAT.cause st) ++ beBytes 2 own.toNat
    ++ beBytes 2 (s.fl F.STL_SEQ_ENTRY.entry st) ++ beBytes 2 (s.rg .STL_FLAGS st)
    ++ beBytes 8 (s.stall st).vcount.toNat ++ beBytes 8 ff

/-- STATUS (R118, R131). -/
def statusBody (h : Hdr) : Body := fun _ s =>
  let st := h.target.toNat
  if ! stallShape h 0 then refuse stBadParam s
  else if s.level = 3 then refuse stNoResource s
  else okay (s.statusBytes st) s

/-- STATUS (R118, R131). -/
def execStatus (h : Hdr) (s : State) : Host.Outcome State Fault Refusal :=
  done (s.cmd h 0x0034 (.status h) false (statusBody h))

/-- SETFLAG (R130, R155). -/
def setflagBody (h : Hdr) (mask value : BitVec 8) : Body := fun slot s =>
  let st := h.target.toNat
  if ! stallShape h 2 then refuse stBadParam s
  else
    let c := s.stallCheck slot st
    if c ≠ 0 then refuse c s
    else
      let old := BitVec.ofNat 8 (s.fl F.STL_FLAGS.hostflag st)
      let new := (old &&& ~~~mask) ||| (value &&& mask)
      okay [new] (s.controlFlit 0 |>.setFl F.STL_FLAGS.hostflag new.toNat st)

/-- SETFLAG (R130, R155). -/
def execSetflag (h : Hdr) (mask value : BitVec 8) (s : State) : Host.Outcome State Fault Refusal :=
  done (s.cmd h 0x0035 (.setflag h mask value) false (setflagBody h mask value))

/-- STALL_RESET (R57, R130, R181). -/
def stallResetBody (h : Hdr) : Body := fun slot s =>
  let st := h.target.toNat
  if ! stallShape h 0 then refuse stBadParam s
  else
    let c := s.stallCheck slot st
    if c ≠ 0 then refuse c s
    else if s.running st then (.waits (.stallReset st), s.stallResetBegin st stBusy)
    else okay [] (s.stallResetBegin st stBusy)

/-- STALL_RESET (R57, R130, R181). -/
def execStallReset (h : Hdr) (s : State) : Host.Outcome State Fault Refusal :=
  done (s.cmd h 0x0036 (.stallReset h) false (stallResetBody h))

end Sys2Proof.Machine
end

