-- ==== Sys2Proof/Machine/Streams.lean ====
section
/-! DEFINITION. The stream commands and the events of queues and streams (R118, R130, R133–R137, R309, R310, R355–R378). -/

namespace Sys2Proof.Machine

open Sys2Proof

/-! ### Stream commands -/

/-- The target that names a queue (R130). -/
def queueTarget (q : Nat) : BitVec 8 :=
  match tailStall q with
  | some st => BitVec.ofNat 8 st
  | none => if q < 512 then tgDev else tgYard

/-- A queue number and the target that goes with it. -/
def queueShape (h : Hdr) (q n : Nat) : Bool := decide (q < 32768) && h.target == queueTarget q && h.plen == n

/-- The ownership that STREAM_OPEN needs (R118). -/
def State.mayOpen (s : State) (slot q : Nat) : Bool :=
  match tailStall q with
  | some st => s.owns slot st
  | none => s.owns slot devRes || (decide (1024 ≤ q) && s.ownsStall slot)

/-- STREAM_OPEN (R134, R135, R371). -/
def streamOpenBody (h : Hdr) (queue maxPayload : BitVec 16) (limit : BitVec 32) (flushUs : BitVec 16) : Body := fun slot s =>
  let q := queue.toNat
  let m := maxPayload.toNat
  if ! queueShape h q 10 || m < 256 || plenMax h.bind < m || 4096 < limit.toNat || flushUs.toNat = 0 || 10000 < flushUs.toNat
  then refuse stBadParam s
  else if ! s.mayOpen slot q then refuse stNotOwner s
  else if (s.stream q).isSome || s.flag F.QM_CFG.consumer q then refuse stNoResource s
  else if s.inReset .qm then refuse stBusy s
  else
    match s.session slot with
    | none => refuse stBadSession s
    | some x =>
      okay [] (s.setStream q (some
        { slot := slot, gen := x.gen, target := h.target, maxPayload := m, flushUs := flushUs.toNat, limit := limit }))

/-- STREAM_OPEN (R134, R135, R371). -/
def execStreamOpen (h : Hdr) (queue maxPayload : BitVec 16) (limit : BitVec 32) (flushUs : BitVec 16) (s : State) :
    Host.Outcome State Fault Refusal :=
  done (s.cmd h 0x0040 (.streamOpen h queue maxPayload limit flushUs) false
    (streamOpenBody h queue maxPayload limit flushUs))

/-- `a` does not lie behind `b`, modulo 2^32. -/
def notBehind (a b : BitVec 32) : Bool := decide ((a - b).toNat < 2 ^ 31)

/-- A credit is valid (R136). -/
def Stream.creditOk (t : Stream) (ack limit : BitVec 32) : Bool :=
  notBehind t.next ack && decide ((limit - ack).toNat ≤ 4096) && notBehind ack t.ack && notBehind limit t.limit

/-- A valid credit replaces both values; on a tailrace queue the floor rises to ack (R136, R309). -/
def State.takeCredit (s : State) (q : Nat) (t : Stream) (ack limit : BitVec 32) : State :=
  let s := s.setStream q (some { t with ack := ack, limit := limit })
  if (tailStall q).isSome && notBehind ack t.floor then s.raiseFloor q ack else s

/-- The stream that a command's session opened, or the status that the command gets (R118, R378). -/
def State.ownStream (s : State) (slot q : Nat) : Option Stream × Nat :=
  match s.stream q with
  | none => (none, stBadParam)
  | some t => if t.slot = slot then (some t, stOk) else (none, stNotOwner)

/-- CREDIT (R136). -/
def creditBody (h : Hdr) (queue : BitVec 16) (ack limit : BitVec 32) : Body := fun slot s =>
  let q := queue.toNat
  if ! queueShape h q 10 then refuse stBadParam s
  else
    match s.ownStream slot q with
    | (none, c) => refuse c s
    | (some t, _) =>
      if t.creditOk ack limit then okay (beBytes 4 ack.toNat ++ beBytes 4 limit.toNat) (s.takeCredit q t ack limit)
      else refuse stBadParam s

/-- CREDIT (R136). -/
def execCredit (h : Hdr) (queue : BitVec 16) (ack limit : BitVec 32) (s : State) : Host.Outcome State Fault Refusal :=
  done (s.cmd h 0x0041 (.credit h queue ack limit) false (creditBody h queue ack limit))

/-- A CREDIT frame of a live session takes effect when it is valid (R136). -/
def State.creditFrame (s : State) (h : Hdr) (q : Nat) (ack limit : BitVec 32) : State :=
  match s.slotOf h.session with
  | none => s
  | some slot =>
    match s.session slot, s.stream q with
    | some x, some t =>
      if x.bind = h.bind ∧ ¬ x.expired ∧ t.slot = slot ∧ t.creditOk ack limit ∧ h.plen = 8 then
        s.takeCredit q t ack limit
      else s
    | _, _ => s

/-- CREDIT frame: no reply (R136). DESIGN CHOICE (log 81): a CREDIT frame of a version other than 2 has no effect and is
counted nowhere; the rule speaks of a CMD's version only. -/
def execCreditFrame (h : Hdr) (queue : BitVec 16) (ack limit : BitVec 32) (s : State) : Host.Outcome State Fault Refusal :=
  let r := s.heard h
  if ! r.1 then done (r.2.unheard h.bind (.creditFrame h queue ack limit))
  else if r.2.ready && h.version == 2 then done (r.2.creditFrame h queue.toNat ack limit)
  else done r.2

/-- STREAM_CLOSE (R137, R368). -/
def streamCloseBody (h : Hdr) (queue : BitVec 16) : Body := fun slot s =>
  let q := queue.toNat
  if ! queueShape h q 2 then refuse stBadParam s
  else
    match s.ownStream slot q with
    | (none, c) => refuse c s
    | (some t, _) => okay (beBytes 4 (if t.buf.isEmpty then t.next else t.next + 1).toNat) (s.closeStream q)

/-- STREAM_CLOSE (R137, R368). -/
def execStreamClose (h : Hdr) (queue : BitVec 16) (s : State) : Host.Outcome State Fault Refusal :=
  done (s.cmd h 0x0042 (.streamClose h queue) false (streamCloseBody h queue))

/-- REWIND (R137, R310). -/
def rewindBody (h : Hdr) (queue : BitVec 16) (fromSeq : BitVec 32) : Body := fun slot s =>
  let q := queue.toNat
  if ! queueShape h q 6 || (tailStall q).isNone then refuse stBadParam s
  else
    match s.ownStream slot q with
    | (none, c) => refuse c s
    | (some t, _) =>
      if ! notBehind fromSeq t.ack || ! notBehind t.next fromSeq then refuse stBadParam s
      else if ! notBehind fromSeq t.floor then refuse stRewindLost s
      else okay [] (s.setStream q (some { t with resend := if fromSeq = t.next then none else some fromSeq }))

/-- REWIND (R137, R310). -/
def execRewind (h : Hdr) (queue : BitVec 16) (fromSeq : BitVec 32) (s : State) : Host.Outcome State Fault Refusal :=
  done (s.cmd h 0x0043 (.rewind h queue fromSeq) false (rewindBody h queue fromSeq))

/-! ### Queue events -/

/-- A producer may push into a queue (R359). -/
def mayPush (p : Producer) (q : Nat) : Bool :=
  let system := decide (64 ≤ q) && decide (q < 512)
  let user := decide (1024 ≤ q)
  match p with
  | .acq st => user || tailStall q == some st.val
  | .failLog _ | .window _ | .yard _ => system || user
  | .lane k => q == k.val
  | .collector => q == 8

/-- How a producer accounts for a refused packet (R301, R366, R392). -/
def State.refusedBy (s : State) (p : Producer) (q : Nat) (ws : List (BitVec 64 × Bool)) : State :=
  match p with
  | .acq st =>
    let cause := if s.inReset .acq || s.inReset .qm then 4 else if s.spillRoom q 2 then 2 else 3
    match ws with
    | [a, b] => s.lose q cause { recOf a.1 b.1 with stall := st.val }
    | _ => s
  | .failLog st => s.bump F.STL_FAIL_LOG_DROP.count 1 st.val
  | .window st => s.setFlag F.ACQ_WIN_STAT.note_lost true st.val
  | .yard c =>
    let k := s.core c.val
    (s.setCore c.val (if k.work.isSome then { k with full := true } else k)).bump F.YRD_REFUSED.count 1
  | .lane k => s.setFl F.TB_TSQ_STAT.overflow (putBits (s.fl F.TB_TSQ_STAT.overflow) k.val k.val 1)
  | .collector => s.setFlag F.FLC_STAT.q_lost true

/-- A consumer takes the oldest word: the stream engine into the frame that it may send, or a Yard core (R134, R368). -/
def State.consume (s : State) (q : Nat) (parityBad : Bool) : State :=
  match s.stream q with
  | some t => if t.resend.isSome then s else s.popStream q parityBad
  | none => if s.flag F.QM_CFG.consumer q then (s.pop q parityBad).2 else s

/-- The consumer would take a word now. -/
def State.consumes (s : State) (q : Nat) : Bool :=
  match s.stream q with
  | some t => t.resend.isNone && t.maySend && s.headFits q false && ! (s.queue q).headWaits t.buf
  | none => s.flag F.QM_CFG.consumer q && ! (s.queue q).words.isEmpty

/-- QUEUE_PUSH: a producer offers a packet; with `popHere` a pop takes a word in the cycle of its first word (R355, R356,
R365–R370). -/
def execQueuePush (q : QIx) (p : Producer) (words : List (BitVec 64 × Bool)) (popHere : Bool) (s : State) :
    Host.Outcome State Fault Refusal :=
  let n := words.length
  if ! mayPush p q.val || n = 0 || 4096 < n || s.qSize q.val < n then done s
  else
    let s := match p with
      | .acq _ => if (tailStall q.val).isSome then s.reclaim q.val n 4096 else s
      | _ => s
    let pops := popHere && s.consumes q.val
    let fits := s.pushOk q.val n pops
    let s := if popHere then s.consume q.val false else s
    let s := match p with
      | .acq st => if fits then s.noteDest st.val q.val else s
      | _ => s
    if fits then done (s.pushAll q.val (packet words)) else done ((s.refusePush q.val).refusedBy p q.val words)

/-- QUEUE_POP: the queue's consumer pops the oldest word (R368, R369, R372). -/
def execQueuePop (q : QIx) (parityBad : Bool) (s : State) : Host.Outcome State Fault Refusal :=
  done (s.consume q.val parityBad)

/-- SPILL_READBACK, held while a controller of the region retrains (R375–R377, R412). -/
def execSpillReadback (q : QIx) (cells : Cells) (s : State) : Host.Outcome State Fault Refusal :=
  done (if s.spillHeld q.val then s else s.readback q.val cells)

/-! ### Stream frames -/

/-- The next retained frame of a resend is sent again (R137, R309). -/
def State.resendNext (s : State) (q : Nat) (t : Stream) (r : BitVec 32) : State :=
  match t.frames.find? (fun f => notBehind f.seq r) with
  | none => s.setStream q (some { t with resend := none })
  | some f =>
    (s.setStream q (some { t with resend := if f.seq + 1 = t.next then none else some (f.seq + 1) })).sendStream
      q t true f.seq f.payload

/-- No further word fits the frame in hand: the head word does not, or the payload leaves no room for one (R134). -/
def State.frameFull (s : State) (q : Nat) (t : Stream) : Bool :=
  decide (t.maxPayload < payloadLen t.buf + 8)
    || (! (s.queue q).words.isEmpty && ! (s.queue q).headWaits t.buf && ! s.headFits q false)

/-- STREAM_FRAME_SEND: a frame is resent, or a new one is filled and sent when it is full or when flush_us has passed and
the queue holds no further word (R134, R135, R137). -/
def execStreamFrameSend (q : QIx) (s : State) : Host.Outcome State Fault Refusal :=
  match s.stream q.val with
  | none => done s
  | some t =>
    match t.resend with
    | some r => done (s.resendNext q.val t r)
    | none =>
      if ! t.maySend then done s
      else
        let s := s.fillFrame q.val 1200
        match s.stream q.val with
        | none => done s
        | some t =>
          if t.buf.isEmpty then done (if (s.queue q.val).words.isEmpty then (s.pop q.val).2 else s)
          else if s.frameFull q.val t then done (s.sendFrame q.val)
          else if (s.queue q.val).depth = 0 then done ((s.advTo (t.firstAt + t.flushUs * usCyc)).sendFrame q.val)
          else done s

end Sys2Proof.Machine
end

