-- ==== Sys2Proof/Machine/TackCmds.lean ====
section
/-! DEFINITION. The tack-store and firmware commands and IDENT (R67, R75, R126, R132, R508, R517, R518). -/

namespace Sys2Proof.Machine

open Sys2Proof

/-! ### The tack store (R132, R517) -/

/-- An offset and a length that the tack-store commands accept (R132). -/
def tackRange (off len : Nat) : Bool := off % 64 == 0 && len % 64 == 0 && decide (64 ≤ len) && decide (len ≤ 8192)

/-- An offset in a reserved region reads 0 (R517). -/
def tackReserved (a : Nat) : Bool :=
  (decide (0x3e0000 ≤ a) && decide (a < 0x400000)) || (decide (0xe80000 ≤ a) && decide (a < 0xf00000))

/-- The bytes of the tack store as TACK_READ returns them (R517). -/
def State.tackRead (s : State) (off len : Nat) : List Byte :=
  (List.range len).map (fun k => if tackReserved (off + k) then 0 else s.tackB (off + k))

/-- TACK_READ (R132, R517). -/
def tackReadBody (h : Hdr) (offset : BitVec 32) (len : BitVec 16) : Body := fun _ s =>
  let a := offset.toNat
  let n := len.toNat
  if ! devShape h 6 || ! tackRange a n || 0x1000000 < a + n then refuse stBadParam s
  else okay (s.tackRead a n) (s.checkTack a)

/-- TACK_READ (R132, R517). -/
def execTackRead (h : Hdr) (offset : BitVec 32) (len : BitVec 16) (s : State) : Host.Outcome State Fault Refusal :=
  done (s.cmd h 0x0090 (.tackRead h offset len) true (tackReadBody h offset len))

/-- TACK_WRITE: the range lies in the user area (R132, R517). -/
def tackWriteBody (h : Hdr) (offset : BitVec 32) (len : BitVec 16) (data : List Byte) : Body := fun slot s =>
  let a := offset.toNat
  let n := len.toNat
  if ! devShape h (6 + n) || data.length ≠ n || ! tackRange a n || a < 0xf00000 || 0x1000000 < a + n then
    refuse stBadParam s
  else if ! s.owns slot devRes then refuse stNotOwner s
  else okay [] (s.setTack a data)

/-- TACK_WRITE (R132, R517). -/
def execTackWrite (h : Hdr) (offset : BitVec 32) (len : BitVec 16) (data : List Byte) (s : State) :
    Host.Outcome State Fault Refusal :=
  done (s.cmd h 0x0091 (.tackWrite h offset len data) true (tackWriteBody h offset len data))

/-! ### Firmware (R67, R75, R132) -/

/-- The slot that does not run: 0 A, 1 B. -/
def State.inactive (s : State) : Nat := 1 - s.fl F.PCR_BOOT_STAT.active_slot

/-- The tack-store offset of a firmware slot. -/
def slotBase (k : Nat) : Nat := if k = 0 then 0x20000 else 0x200000

/-- The verified mark of a slot (R77). -/
def slotValid (k : Nat) : FRef := if k = 0 then F.PCR_BOOT_STAT.slot_a_valid else F.PCR_BOOT_STAT.slot_b_valid

/-- The bytes of a firmware slot, by offset from its base. -/
def State.slotImage (s : State) (k : Nat) : List (Nat × Byte) :=
  (s.tack.filter (fun e => decide (slotBase k ≤ e.1) && decide (e.1 < slotBase k + 1966080))).map
    (fun e => (e.1 - slotBase k, e.2))

/-- Whether the image of a slot verifies (R67). -/
def State.slotVerifies (s : State) (k : Nat) : Bool := Config.verifies (s.slotImage k)

/-- A slot is marked as written since its last verification, or no longer (R76, log 85). -/
def State.markSlot (s : State) (k : Nat) (on : Bool) : State :=
  s.withFwWritten (BitVec.ofNat 2 (putBits s.fwWritten.toNat k k (bit on)))

/-- FW_WRITE: writes the inactive slot and marks it unverified (R132, R517). -/
def fwWriteBody (h : Hdr) (offset : BitVec 32) (len : BitVec 16) (data : List Byte) : Body := fun slot s =>
  let a := offset.toNat
  let n := len.toNat
  if ! devShape h (6 + n) || data.length ≠ n || ! tackRange a n || 1966080 < a + n then refuse stBadParam s
  else if ! s.owns slot devRes then refuse stNotOwner s
  else okay [] (((s.setTack (slotBase s.inactive + a) data).setFlag (slotValid s.inactive) false).markSlot s.inactive true)

/-- FW_WRITE (R132, R517). -/
def execFwWrite (h : Hdr) (offset : BitVec 32) (len : BitVec 16) (data : List Byte) (s : State) :
    Host.Outcome State Fault Refusal :=
  done (s.cmd h 0x0092 (.fwWrite h offset len data) true (fwWriteBody h offset len data))

/-- FW_VERIFY: from its acceptance on the slot is valid or invalid as its content verifies (R76, R132). -/
def fwVerifyBody (h : Hdr) : Body := fun slot s =>
  if ! devShape h 0 then refuse stBadParam s
  else if ! s.owns slot devRes then refuse stNotOwner s
  else acceptOp 0x0093 .fwVerify slot (if s.freeOp.isSome then s.markSlot s.inactive false else s)

/-- FW_VERIFY (R132). -/
def execFwVerify (h : Hdr) (s : State) : Host.Outcome State Fault Refusal :=
  done (s.cmd h 0x0093 (.fwVerify h) true (fwVerifyBody h))

/-- The image of a slot verifies, and nothing was written to the slot since its verification began (R67, R76). -/
def State.slotPasses (s : State) (k : Nat) : Bool := s.slotVerifies k && ! tbit s.fwWritten.toNat k

/-- FW_VERIFY ends with its outcome, which the bytes of the inactive slot decide: an event that brings another has no effect
(R67, R76, R132, log 85). -/
def execFwVerifyDone (op : BitVec 16) (ok : Bool) (s : State) : Host.Outcome State Fault Refusal :=
  match s.op op.toNat with
  | some o =>
    if o.kind = .fwVerify ∧ ! o.done ∧ ok = s.slotPasses s.inactive then
      done ((s.setFlag (slotValid s.inactive) ok).endOpFree op.toNat (if ok then stOk else stVerifyFail))
    else done s
  | none => done s

/-- The offset of a slot pointer record. -/
def pointerAt (k : Nat) : Nat := 0x10000 + 0x40 * k

/-- The generation of a slot pointer record, none when its CRC fails (R75, R518). -/
def State.pointerGen (s : State) (k : Nat) : Option Nat := (s.record (pointerAt k)).map (fun r => ofLe (r.take 4))

/-- The valid slot pointer record with the higher generation: its number and generation (R75). -/
def State.pointer (s : State) : Option (Nat × Nat) :=
  match s.pointerGen 0, s.pointerGen 1 with
  | some a, some b => if a < b then some (1, b) else some (0, a)
  | some a, none => some (0, a)
  | none, some b => some (1, b)
  | none, none => none

/-- The slot that the pointer records name; slot A without a valid record (log 12). -/
def State.bootSlot (s : State) : Nat :=
  match s.pointer with
  | some p => (s.tackB (pointerAt p.1 + 4)).toNat % 2
  | none => 0

/-- Writes the pointer record that does not hold the current generation (R75). -/
def State.writePointer (s : State) (slot : Nat) : State :=
  match s.pointer with
  | some p => s.setTack (pointerAt (1 - p.1)) (record64 (leBytes 4 (p.2 + 1) ++ [BitVec.ofNat 8 slot]))
  | none => s.setTack (pointerAt 0) (record64 (leBytes 4 1 ++ [BitVec.ofNat 8 slot]))

/-- FW_ACTIVATE (R75, R132). -/
def fwActivateBody (h : Hdr) : Body := fun slot s =>
  if ! devShape h 0 then refuse stBadParam s
  else if ! s.owns slot devRes then refuse stNotOwner s
  else if ! s.flag (slotValid s.inactive) then refuse stVerifyFail s
  else okay [] (s.writePointer s.inactive)

/-- FW_ACTIVATE (R75, R132). -/
def execFwActivate (h : Hdr) (s : State) : Host.Outcome State Fault Refusal :=
  done (s.cmd h 0x0094 (.fwActivate h) true (fwActivateBody h))

/-! ### IDENT (R508) -/

/-- IDENT. -/
def identBody (h : Hdr) : Body := fun _ s =>
  if ! devShape h 0 then refuse stBadParam s
  else
    okay (beBytes 4 (s.rg .DEV_ID) ++ beBytes 1 (s.rg .DEV_STEP) ++ beBytes 8 (s.rg64 .DEV_SERIAL_LO .DEV_SERIAL_HI)
      ++ beBytes 8 (s.rg .DEV_MAC_LO + s.rg .DEV_MAC_HI % 2 ^ 16 * 2 ^ 32)) s

/-- IDENT (R508). -/
def execIdent (h : Hdr) (s : State) : Host.Outcome State Fault Refusal :=
  done (s.cmd h 0x0095 (.ident h) true (identBody h))

end Sys2Proof.Machine
end

