-- ==== Sys2Proof/Machine/TimeBase.lean ====
section
/-! DEFINITION. Network time, alarms, SYNC, TRIG_IN, and IEEE 1588 (R173, R174, R240–R243, R304, R440–R454, R527). -/

namespace Sys2Proof.Machine

open Sys2Proof

/-! ### Start events from outside (R173, R174) -/

/-- A start event of a source and index takes place now: armed stalls with their prefill complete start; an alarm that
finds the prefill incomplete is missed. -/
def State.startOn (s : State) (source index : Nat) : State :=
  let edge := s.now
  (List.range 16).foldl
    (fun s st =>
      let x := s.stall st
      if s.stState st == stArmed && x.src == ⟨source, index⟩ && x.startAt.isNone then
        if x.prefilled then s.startEvent st edge
        else if source = 1 then s.setFlag F.STL_SEQ_STAT.start_missed true st else s
      else s) s

/-- A trigger event of a code and index reaches every stall (R304). -/
def State.triggerAll (s : State) (code index : Nat) : State :=
  (List.range 16).foldl (fun s st => if s.running st then s.trigEvent st code index (s.tagNow st) else s) s

/-! ### Commands of network time (R442–R445) -/

/-- The device-owner check, then a body. -/
def ownDevice (body : Body) : Body := fun slot s => if s.owns slot devRes then body slot s else refuse stNotOwner s

/-- TIME_READ (R443). -/
def timeReadBody (h : Hdr) : Body := fun _ s =>
  if ! devShape h 0 then refuse stBadParam s
  else
    let t := ntSplit s.nt
    okay (beBytes 8 s.cnt.toNat ++ beBytes 8 t.1 ++ beBytes 4 t.2.1 ++ beBytes 2 t.2.2
      ++ [BitVec.ofNat 8 (bit (s.flag F.TB_STAT.valid))]) s

/-- TIME_READ (R443). -/
def execTimeRead (h : Hdr) (s : State) : Host.Outcome State Fault Refusal :=
  done (s.cmd h 0x0070 (.timeRead h) false (timeReadBody h))

/-- A time in 2^−16 ns. -/
def ofTime (sec ns sub : Nat) : Nat := (sec * 1000000000 + ns) * 65536 + sub

/-- TIME_SET (R444, R445). -/
def timeSetBody (h : Hdr) (sec : BitVec 64) (ns : BitVec 32) (subns : BitVec 16) (rate : BitVec 64) : Body := fun slot s =>
  if ! devShape h 22 || 2 ^ 48 ≤ sec.toNat || 1000000000 ≤ ns.toNat || 2 ^ 30 < rate.toInt.natAbs then refuse stBadParam s
  else
    ownDevice (fun _ s =>
      let o : Int := (ofTime sec.toNat ns.toNat subns.toNat : Int) - ntOf 0 rate.toInt s.cnt.toNat
      if s.servoRuns then refuse stBusy s
      else if o < 0 then refuse stBadParam s
      else okay [] ((s.setTimeRate o rate.toInt).setFlag F.TB_STAT.valid true)) slot s

/-- TIME_SET (R444, R445). -/
def execTimeSet (h : Hdr) (sec : BitVec 64) (ns : BitVec 32) (subns : BitVec 16) (rate : BitVec 64) (s : State) :
    Host.Outcome State Fault Refusal :=
  done (s.cmd h 0x0071 (.timeSet h sec ns subns rate) false (timeSetBody h sec ns subns rate))

/-- TIME_STEP (R444, R445). -/
def timeStepBody (h : Hdr) (deltaNs : BitVec 64) : Body := fun slot s =>
  if ! devShape h 8 then refuse stBadParam s
  else
    ownDevice (fun _ s =>
      let o : Int := (s.ofs : Int) + deltaNs.toInt * 65536
      if s.servoRuns then refuse stBusy s
      else if ! ofsOk o then refuse stBadParam s
      else okay [] (s.withOfs o.toNat)) slot s

/-- TIME_STEP (R444, R445). -/
def execTimeStep (h : Hdr) (deltaNs : BitVec 64) (s : State) : Host.Outcome State Fault Refusal :=
  done (s.cmd h 0x0072 (.timeStep h deltaNs) false (timeStepBody h deltaNs))

/-! ### Alarms (R451–R453) -/

/-- The TOUT that an action drives (R452). -/
def toutOf (action : Nat) : Option Nat :=
  if 1 ≤ action ∧ action ≤ 4 then some (action - 1) else if 5 ≤ action ∧ action ≤ 8 then some (action - 5) else none

/-- Some armed alarm other than `a` drives TOUT `n`. -/
def State.toutDriven (s : State) (a n : Nat) : Bool :=
  (List.range 16).any (fun b => b != a && (match s.alarm b with
    | some x => toutOf x.action == some n
    | none => false))

/-- TOUT `n` goes low when no armed alarm drives it (R452). -/
def State.toutLow (s : State) (n : Nat) : State :=
  if s.toutDriven 16 n then s
  else (s.withToutLvl (BitVec.ofNat 4 (putBits s.toutLvl.toNat n n 0))).withTout
    (mset (fun _ => ({} : Pulse)) (mset (fun _ => ({} : Pulse)) s.tout n {}) (4 + n) {})

/-- The first counter value at or after `c` whose network time reaches `t`, among the next `n`. -/
def State.firstNt (s : State) (t : Int) (c : Nat) : Nat → Nat
  | 0 => c
  | n + 1 => if t ≤ ntOf s.ofs s.rate c then c else State.firstNt s t (c + 1) n

/-- The cycle in which an alarm fires: the first SCLK edge at which network time reaches τ − 40 ns, and not the edge on which
it was set (R451, R453). -/
def State.alarmCycle (s : State) (x : Alarm) : Nat :=
  let t : Int := (x.tau : Int) - 40 * 65536
  let guess := ((t - s.ofs) * 2 ^ 40 / (40960 * (2 ^ 40 + s.rate)) - 2).toNat
  let c := s.firstNt t guess 8
  max (s.now + (c - s.cnt.toNat)) (x.setAt + 1)

/-- The next scheduled time of a periodic alarm after a firing at network time `nt`, and the times skipped (R453). -/
def Alarm.next (x : Alarm) (nt : Int) : Nat × Nat :=
  if x.late then (x.tau + ((nt - x.tau) / x.period + 1).toNat * x.period, 0)
  else
    let k := ((nt + 40 * 65536 - x.tau) / x.period).toNat
    (x.tau + (k + 1) * x.period, k)

/-- A firing's action on TOUT, 40 ns later (R452). -/
def State.toutAction (s : State) (action : Nat) : State :=
  match toutOf action with
  | none => s
  | some n =>
    if action ≤ 4 then
      let p := mget (fun _ => ({} : Pulse)) s.tout n
      let q : Pulse := { p with riseAt := if p.high then p.riseAt else some (s.now + 64), fallAt := some (s.now + 128) }
      s.withTout (mset (fun _ => ({} : Pulse)) s.tout n q)
    else s.withTout (mset (fun _ => ({} : Pulse)) s.tout (4 + n) { riseAt := some (s.now + 64) })

/-- Alarm `a`, armed as `x`, fires (R173, R174, R304, R451–R453). -/
def State.fireAlarm (s : State) (a : Nat) (x : Alarm) : State :=
  let s := s.advTo (s.alarmCycle x)
  let s := if s.flag F.TB_STAT.valid then s else s.setFlag F.TB_ALARM_STAT.invalid true a
  let s := s.toutAction x.action
  let s := if x.period = 0 then (s.setAlarm a none).setFlag F.TB_ALARM_STAT.armed false a
    else
      let n := x.next s.nt
      (s.setAlarm a (some { x with tau := n.1, setAt := s.now, late := false })).bump F.TB_ALARM_STAT.skipped n.2 a
  let starts := (List.range 16).any (fun st => s.stState st == stArmed && (s.stall st).src == ⟨1, a⟩)
  let s := if starts then s.controlFlit 0 else s
  (s.startOn 1 a).triggerAll 5 a

/-- An alarm whose firing falls on the present edge fires (R453). -/
def State.fireDue (s : State) (a : Nat) : State :=
  match s.alarm a with
  | none => s
  | some x => if ! s.clockStopped && decide (s.alarmCycle x ≤ s.now) then s.fireAlarm a x else s

/-- An alarm is disarmed by a command or a reset (R453). -/
def State.disarmAlarm (s : State) (a : Nat) : State :=
  match s.alarm a with
  | none => s
  | some x =>
    let s := (s.setAlarm a none).setFlag F.TB_ALARM_STAT.armed false a
    match toutOf x.action with
    | some n => s.toutLow n
    | none => s

/-- ALARM_SET; a firing on the same edge takes place first (R451–R453). -/
def alarmSetBody (h : Hdr) (alarm action : BitVec 8) (sec : BitVec 64) (ns : BitVec 32) (periodNs : BitVec 64) : Body :=
  fun slot s =>
  let a := alarm.toNat
  let p := periodNs.toNat
  if ! devShape h 22 || 15 < a || 8 < action.toNat || 2 ^ 48 ≤ sec.toNat || 1000000000 ≤ ns.toNat
      || (p ≠ 0 && (p < 1000 || 1000000000000 < p)) then refuse stBadParam s
  else
    ownDevice (fun _ s =>
      if (toutOf action.toNat).any (fun n => s.toutDriven a n) then refuse stNoResource s
      else
        let tau := ofTime sec.toNat ns.toNat 0
        let s := (s.fireDue a).disarmAlarm a
        let s := s.setAlarm a (some ⟨tau, p * 65536, action.toNat, s.now, decide ((tau : Int) ≤ s.nt)⟩)
        let old := s.flag F.TB_ALARM_STAT.invalid a
        okay [] (s.setRg .TB_ALARM_STAT (1 + bit (p != 0) * 2 + bit old * 4 + action.toNat * 2 ^ 8) a)) slot s

/-- ALARM_SET (R451–R453). -/
def execAlarmSet (h : Hdr) (alarm action : BitVec 8) (sec : BitVec 64) (ns : BitVec 32) (periodNs : BitVec 64) (s : State) :
    Host.Outcome State Fault Refusal :=
  done (s.cmd h 0x0073 (.alarmSet h alarm action sec ns periodNs) false (alarmSetBody h alarm action sec ns periodNs))

/-- ALARM_CANCEL; a firing on the same edge takes place first (R453). -/
def alarmCancelBody (h : Hdr) (alarm : BitVec 8) : Body := fun slot s =>
  if ! devShape h 1 || 15 < alarm.toNat then refuse stBadParam s
  else ownDevice (fun _ s => okay [] ((s.fireDue alarm.toNat).disarmAlarm alarm.toNat)) slot s

/-- ALARM_CANCEL (R453). -/
def execAlarmCancel (h : Hdr) (alarm : BitVec 8) (s : State) : Host.Outcome State Fault Refusal :=
  done (s.cmd h 0x0074 (.alarmCancel h alarm) false (alarmCancelBody h alarm))

/-- ALARM_FIRE (R173, R174, R304, R451–R453). -/
def execAlarmFire (a : Fin 16) (s : State) : Host.Outcome State Fault Refusal :=
  match s.alarm a.val with
  | none => done s
  | some x =>
    if s.clockStopped then done s else done (s.fireAlarm a.val x)

/-- TOUT_PULSE: the next edge of TOUTn; a toggle acts while an armed alarm drives the output (R452). -/
def execToutPulse (n : Fin 4) (s : State) : Host.Outcome State Fault Refusal :=
  match (mget (fun _ => ({} : Pulse)) s.tout (4 + n.val)).riseAt with
  | some t =>
    let s := (s.advTo t).withTout (mset (fun _ => ({} : Pulse)) s.tout (4 + n.val) {})
    let b := s.toutDriven 16 n.val && ! tbit s.toutLvl.toNat n.val
    done (s.withToutLvl (BitVec.ofNat 4 (putBits s.toutLvl.toNat n.val n.val (bit b))))
  | none =>
    match (mget (fun _ => ({} : Pulse)) s.tout n.val) with
    | p =>
      match p.high, p.riseAt, p.fallAt with
      | false, some t, _ =>
        let s := s.advTo t
        done ((s.withTout (mset (fun _ => ({} : Pulse)) s.tout n.val { p with riseAt := none, high := true })).withToutLvl
          (BitVec.ofNat 4 (putBits s.toutLvl.toNat n.val n.val 1)))
      | true, _, some t =>
        let s := s.advTo t
        done ((s.withTout (mset (fun _ => ({} : Pulse)) s.tout n.val { p with fallAt := none, high := false })).withToutLvl
          (BitVec.ofNat 4 (putBits s.toutLvl.toNat n.val n.val 0)))
      | _, _, _ => done s

/-! ### Transmit stamps (R448–R450) -/

/-- A transmit stamp of a lane enters its queue, or is dropped (R449). -/
def State.stamp (s : State) (k type seqId : Nat) (c : BitVec 64) : State :=
  let r := s.push k (packet [(BitVec.ofNat 64 (type * 2 ^ 12 + seqId % 2 ^ 12), false), (c, false)])
  if r.1 then r.2 else r.2.setFl F.TB_TSQ_STAT.overflow (putBits (s.fl F.TB_TSQ_STAT.overflow) k k 1)

/-- Pops up to `n` stamps of a queue as reply bytes. -/
def State.popStamps (s : State) (q : Nat) : Nat → List (List Byte) × State
  | 0 => ([], s)
  | n + 1 =>
    match s.pop q with
    | (none, s) => ([], s)
    | (some a, s) =>
      match s.pop q with
      | (none, s) => ([], s)
      | (some b, s) =>
        let r := State.popStamps s q n
        ((beBytes 2 a.data.toNat ++ beBytes 8 b.data.toNat) :: r.1, r.2)

/-- TSQ_READ (R450). -/
def tsqReadBody (h : Hdr) (port max : BitVec 8) : Body := fun slot s =>
  let k := port.toNat
  if ! devShape h 2 || 7 < k || max.toNat = 0 || 64 < max.toNat then refuse stBadParam s
  else
    ownDevice (fun _ s =>
      let r := s.popStamps k max.toNat
      let o := s.fl F.TB_TSQ_STAT.overflow
      okay ([BitVec.ofNat 8 r.1.length, BitVec.ofNat 8 (bit (tbit o k))] ++ r.1.flatten)
        (r.2.setFl F.TB_TSQ_STAT.overflow (putBits o k k 0))) slot s

/-- TSQ_READ (R450). -/
def execTsqRead (h : Hdr) (port max : BitVec 8) (s : State) : Host.Outcome State Fault Refusal :=
  done (s.cmd h 0x0075 (.tsqRead h port max) false (tsqReadBody h port max))

/-! ### SYNC and TRIG_IN (R173, R240–R243, R304, R332, R527) -/

/-- SYNC_OUT_PULSE: the next edge of SYNC_OUT: a scheduled pulse rises out_dly root cycles after its REFCLK edge and falls
40 ns later; a part that is not master drives SYNC_OUT low (R240). -/
def execSyncOutPulse (s : State) : Host.Outcome State Fault Refusal :=
  if ! s.flag F.TB_SYNC_CTL.master then done ((s.withSyncDue []).withSyncOut {})
  else
    match s.syncOut.high, s.syncOut.fallAt, s.syncDue with
    | true, some t, _ => done (((s.advTo (ceilDiv t 8)).withSyncOut {}).withSyncFell (some t))
    | _, _, e :: rest =>
      let t := 8 * e + s.syncDelay
      done (((s.advTo (ceilDiv t 8)).withSyncDue rest).withSyncOut { high := true, fallAt := some (t + 512) })
    | _, _, [] => done s

/-- The mean of up to 16 measurements of 625/4096 ps, to the nearest 0.25 ps; a tie is resolved by a free value (R243,
log 3). -/
def State.syncMean (s : State) (l : List Nat) : Nat × State :=
  let sum := l.foldl (· + ·) 0 * 625
  let n := l.length * 1024
  if n = 0 then (0, s)
  else if 2 * (sum % n) = n then
    let d := s.draw 1
    (sum / n + d.1.toNat, d.2)
  else ((2 * sum + n) / (2 * n), s)

/-- The SYNC measurement of a pulse: N in units of 625/4096 ps, to the REFCLK edge of the present cycle (R243, R332). -/
def State.syncMeasure (s : State) (n : Nat) : State :=
  let l := n :: s.syncMs.take (min 15 (s.fl F.TB_SYNC_MEAS.n))
  let r := s.syncMean l
  let s := ((r.2.withSyncMs l).setFl F.TB_SYNC_MEAS.m_mean r.1).setFl F.TB_SYNC_MEAS.n l.length
  let cp := s.cnt.toNat % 2 ^ 48
  let cs := (cp + 2 ^ 48 - n / 4096) % 2 ^ 48
  let s := (s.setRg64 .TIM_START_C_LO .TIM_START_C_HI cs 0).setRg .TIM_START_F (n % 4096) 0
  let s := (s.setRg64 .TIM_STOP_C_LO .TIM_STOP_C_HI cp 0).setRg .TIM_STOP_F 0 0
  (s.setRg64 .TIM_RESULT_LO .TIM_RESULT_HI n 0).bump F.TIM_COUNT.count 1 0

/-- The capture delay of SYNC_IN in units of 625/4096 ps, to the nearest one (R244). -/
def State.syncTrim (s : State) : Nat := (s.fl F.TB_SYNC_TRIM.trim * 2048 + 625) / 1250

/-- The REFCLK edge that samples a rise of SYNC_IN `lead` before the one that comes `edges` after the next, once delayed, and the time N from the delayed
rise to it; REFCLK rises every 16 SCLK cycles (R239, R241, R244). -/
def State.syncEdge (s : State) (edges lead : Nat) : Nat × Nat :=
  let e := ((s.now + 15) / 16 + edges) * 16
  if s.syncTrim ≤ lead then (e, lead - s.syncTrim) else (e + 16, lead + 65536 - s.syncTrim)

/-- SYNC_IN was sampled low at the 4 REFCLK edges before edge `e`: they have been sampled since in_en was set, and since the
pulse of the last boundary, which was sampled high at 4 edges or more unless it was short (R241). -/
def State.syncWasLow (s : State) (e : Nat) : Bool :=
  decide ((s.syncFrom + 15) / 16 * 16 + 64 ≤ e) && (match s.syncLast with
    | some (b, short) => decide (b + (if short then 80 else 128) ≤ e)
    | none => true)

/-- SYNC_EPOCH_BOUNDARY: SYNC_IN rises `lead` units of 625/4096 ps before the REFCLK edge that comes `edges` after the next, and the edge that samples it
high, after the capture delay, is the boundary (R173, R239–R244, R332). -/
def execSyncEpochBoundary (short disagree : Bool) (edges lead : BitVec 16) (s : State) : Host.Outcome State Fault Refusal :=
  let e := s.syncEdge edges.toNat lead.toNat
  if ! s.flag F.TB_SYNC_CTL.in_en || ! s.syncWasLow e.1 then done s
  else
    let s := ((s.advTo e.1).withSyncLast (some (e.1, short))).bump F.TB_SYNC_COUNT.count 1
    let s := s.setRg64 .TB_SYNC_CNT_LO .TB_SYNC_CNT_HI s.cnt.toNat
    let s := if short then s.setFlag F.TB_SYNC_STAT.short true else s
    let s := if disagree then s.setFlag F.TB_SYNC_STAT.disagree true else s
    let s := if s.flag F.TB_SYNC_CTL.meas_en then s.syncMeasure e.2 else s
    done (s.startOn 2 0)

/-- TRIG latch `n` of a stall keeps its earliest edge and its latest (R152, R154). -/
def Stall.latchTrig (x : Stall) (n t : Nat) : Stall :=
  let others := x.trigAt.filter (fun e => e.1 != n)
  { x with trigAt := others ++ (match x.trigAt.filter (fun e => e.1 == n) with
      | [] => [(n, t)]
      | a :: _ => [a, (n, t)]) }

/-- TRIG_IN_EDGE: an edge is sampled on TRIG_INn (R152, R173, R304, R527). -/
def execTrigInEdge (n : Fin 4) (rising : Bool) (s : State) : Host.Outcome State Fault Refusal :=
  if tbit s.trigIn.toNat n.val == rising then done s
  else
    let s := s.withTrigIn (BitVec.ofNat 4 (putBits s.trigIn.toNat n.val n.val (bit rising)))
    if ! rising then done s
    else
      let s := s.withOctets.foldl (fun s st => s.setStall st ((s.stall st).latchTrig n.val s.nowU)) s
      done ((s.startOn 3 n.val).triggerAll 1 n.val)

/-! ### IEEE 1588 (R445–R448) -/

/-- The record of a port. -/
def State.port (s : State) (k : Nat) : Ptp := mget (fun _ => ({} : Ptp)) s.ptp k

/-- Stores the record of a port. -/
def State.setPort (s : State) (k : Nat) (p : Ptp) : State := s.withPtp (mset (fun _ => ({} : Ptp)) s.ptp k p)

/-- Sends a PTP message over the transport of the messages that the port received last (R446, log 82): code 0 Sync, 1
Delay_Req, 8 Follow_Up, 9 Delay_Resp, 11 Announce. Over UDP the event messages, codes 0 and 1, go to port 319 and the general
ones to port 320. An Announce carries priority1 (R447). -/
def State.sendPtp (s : State) (k type seqId time : Nat) : State :=
  match (List.finRange 8).find? (fun j => j.val == k) with
  | none => s
  | some j =>
    s.offer k (.ptp j (s.vlanTag k) (if (s.port k).udp then some (s.ipOut k, if type < 8 then 319 else 320) else none)
      (BitVec.ofNat 4 type) (BitVec.ofNat 8 (s.fl F.TB_PTP_CTL.domain k)) (BitVec.ofNat 16 seqId) time
      (if type = 11 then some (BitVec.ofNat 8 (s.fl F.TB_PTP_CTL.priority1 k)) else none))

/-- A time in 2^−16 ns as nanoseconds, rounded down or up by a free value when it is not whole (log 3). -/
def State.toNs (s : State) (x : Int) : Int × State :=
  if x % 65536 = 0 then (x / 65536, s)
  else
    let d := s.draw 1
    (x / 65536 + d.1.toNat, d.2)

/-- The role-1 servo takes an offset: a step, or a rate of the servo's own choice within its range, and the lock (R445,
R447). -/
def State.servo (s : State) (k : Nat) (off : Int) : State :=
  let p := s.port k
  let s := if 100000 * 65536 < off.natAbs then
      let o : Int := (s.ofs : Int) - off
      if ofsOk o then s.withOfs o.toNat else s
    else
      let d := s.draw 32
      let r : Int := (d.1.toNat % (2 ^ 31 + 1) : Nat) - 2 ^ 30
      let o := d.2.rateOffset r
      if ofsOk o then d.2.setTimeRate o r else d.2
  let close := if off.natAbs ≤ 100 * 65536 then p.close + 1 else 0
  let s := s.setPort k { p with close := close }
  let s := s.setFlag F.TB_STAT.holdover false
  if 16 ≤ close ∧ ! s.flag F.TB_STAT.locked then (s.setFlag F.TB_STAT.locked true).setFlag F.TB_STAT.valid true else s

/-- An exchange is complete: offset from the master and mean path delay (R447). -/
def State.exchange (s : State) (k : Nat) (t4 : Nat) : State :=
  let p := s.port k
  let t2 := ntOf s.ofs s.rate p.t2.toNat
  let t3 := ntOf s.ofs s.rate p.t3.toNat
  let off : Int := ((t2 - p.t1) - (t4 - t3)) / 2
  let dly : Int := ((t2 - p.t1) + (t4 - t3)) / 2
  let s := s.setPort k { p with wait := .none }
  if s.fl F.TB_PTP_CTL.role k = 1 then s.servo k off
  else
    let a := s.toNs off
    let b := a.2.toNs dly
    let o := max (-(2 ^ 31)) (min (2 ^ 31 - 1) a.1)
    let d := max 0 (min (2 ^ 32 - 1) b.1)
    (b.2.setRg .TB_PTP_OFS (ofSigned o 32)).setRg .TB_PTP_DLY d.toNat

/-- A slave port has t1 and t2 and sends Delay_Req (R446–R449). -/
def State.delayReq (s : State) (k t1 : Nat) : State :=
  let p := s.port k
  let n := p.seqId + 1
  let s := s.setPort k { p with wait := .delayResp, t1 := t1, t3 := s.cnt, seqId := n }
  (s.sendPtp k 1 n.toNat 0).stamp k 1 n.toNat s.cnt

/-- A PTP message reaches a port of role 1 or 3 (R446, R447). -/
def State.ptpSlave (s : State) (k : Nat) (msg : PtpMsg) : State :=
  let p := s.port k
  match msg with
  | .announce _ better => if better then s.setPort k { p with master := true } else s
  | .sync _ twoStep t1 stamp =>
    if ! p.master then s
    else
      let s := s.setPort k { p with t2 := stamp, wait := .followUp }
      if twoStep then s else s.delayReq k t1
  | .followUp _ t1 => if p.wait = .followUp then s.delayReq k t1 else s
  | .delayResp _ t4 => if p.wait = .delayResp then s.exchange k t4 else s
  | .delayReq _ _ _ | .other _ => s

/-- A PTP message reaches a master port (R447). -/
def State.ptpMaster (s : State) (k : Nat) (msg : PtpMsg) : State :=
  match msg with
  | .delayReq _ n stamp =>
    if s.flag F.TB_STAT.valid then s.sendPtp k 9 n.toNat (ntOf s.ofs s.rate stamp.toNat).toNat else s
  | _ => s

/-- The domain of a message. -/
def ptpDomain : PtpMsg → BitVec 8
  | .sync d _ _ _ | .followUp d _ | .delayReq d _ _ | .delayResp d _ | .announce d _ | .other d => d

/-- PTP_MESSAGE_RX over EtherType 0x88F7 or UDP; a lane without an IPv4 address drops a UDP message (R88, R446, R447). -/
def execPtpMessageRx (k : LaneIx) (frame : PtpFrame) (s : State) : Host.Outcome State Fault Refusal :=
  let role := s.fl F.TB_PTP_CTL.role k.val
  if ! s.laneUp k.val then done (s.relay k (.ptpMessageRx k frame))
  else if role = 0 || (frame.udp && s.rg .HP_IPV4 k.val == 0) then done (s.bump F.HP_RX_DROP.count 1 k.val)
  else
    let s := s.bump F.HP_RX_FRAMES.count 1 k.val
    let s := s.setPort k.val { s.port k.val with udp := frame.udp }
    if (ptpDomain frame.msg).toNat ≠ s.fl F.TB_PTP_CTL.domain k.val then done s
    else if role = 2 then done (s.ptpMaster k.val frame.msg)
    else done (s.ptpSlave k.val frame.msg)

/-- PTP_SYNC_INTERVAL: a master port sends Announce, Sync and Follow_Up; `stamp` is the stamp of the Sync (R447–R449). -/
def execPtpSyncInterval (k : LaneIx) (stamp : BitVec 64) (s : State) : Host.Outcome State Fault Refusal :=
  if s.fl F.TB_PTP_CTL.role k.val = 2 ∧ s.flag F.TB_STAT.valid then
    let p := s.port k.val
    let n := p.seqId
    let s := s.setPort k.val { p with seqId := n + 1 }
    let s := (s.sendPtp k.val 11 n.toNat 0).sendPtp k.val 0 n.toNat 0
    let s := if s.laneUp k.val then s.stamp k.val 0 n.toNat stamp else s
    done (s.sendPtp k.val 8 n.toNat (ntOf s.ofs s.rate stamp.toNat).toNat)
  else done s

/-- PTP_HOLDOVER: 8 sync intervals without Sync on the slave port; the rate is kept (R447). -/
def execPtpHoldover (s : State) : Host.Outcome State Fault Refusal :=
  match (List.range 8).find? (fun k => s.fl F.TB_PTP_CTL.role k == 1) with
  | some k =>
    done (((s.setPort k { s.port k with close := 0, wait := .none }).setFlag F.TB_STAT.locked false).setFlag
      F.TB_STAT.holdover true)
  | none => done s

end Sys2Proof.Machine
end

