-- ==== Sys2Proof/Machine/Yard.lean ====
section
/-! DEFINITION. The Yard: images and their checks, instances, operations and their ends, flag writes and the release of
results (R381–R396, R399–R402). -/

namespace Sys2Proof.Machine

open Sys2Proof

/-! ### Template images (R381–R383) -/

/-- No queue, no slot, no flow. -/
def yNone : Nat := 0xffff
/-- The instance's trigger queue as an in_q. -/
def yTrig : Nat := 0x8000

/-- Operations of a template. -/
def tOps (img : List Byte) : Nat := leAt img 2 2
/-- Edges of a template. -/
def tEdges (img : List Byte) : Nat := leAt img 4 2
/-- Bytes of the parameter block. -/
def tParamLen (img : List Byte) : Nat := leAt img 6 2
/-- Trigger queue. -/
def tTrig (img : List Byte) : Nat := leAt img 8 2
/-- Packets of the trigger queue per instance. -/
def tBatch (img : List Byte) : Nat := leAt img 10 2
/-- Flow of triggered instances. -/
def tFlow (img : List Byte) : Nat := leAt img 12 2
/-- Stall whose YARDFLAGs the template may write. -/
def tStall (img : List Byte) : Nat := leAt img 14 1
/-- Queue of the instance report. -/
def tReport (img : List Byte) : Nat := leAt img 16 2

/-- A field of operation `j`. -/
def opAt (img : List Byte) (j o n : Nat) : Nat := leAt img (64 + 16 * j + o) n
/-- Service code. -/
def opService (img : List Byte) (j : Nat) : Nat := opAt img j 0 2
/-- Queue popped. -/
def opIn (img : List Byte) (j : Nat) : Nat := opAt img j 2 2
/-- Queue pushed. -/
def opOut (img : List Byte) (j : Nat) : Nat := opAt img j 4 2
/-- Packets popped. -/
def opPkts (img : List Byte) (j : Nat) : Nat := opAt img j 6 2
/-- State slot. -/
def opState (img : List Byte) (j : Nat) : Nat := opAt img j 12 2
/-- The result flag. -/
def opResult (img : List Byte) (j : Nat) : Bool := tbit (opAt img j 14 1) 0
/-- The run_on_fail flag. -/
def opOnFail (img : List Byte) (j : Nat) : Bool := tbit (opAt img j 14 1) 1

/-- The edges, as (from, to). -/
def edgesOf (img : List Byte) : List (Nat × Nat) :=
  (List.range (tEdges img)).map (fun k => let a := 64 + 16 * tOps img + 4 * k
                                          (leAt img a 2, leAt img (a + 2) 2))

/-- Predecessors of operation `j`. -/
def predsOf (img : List Byte) (j : Nat) : Nat := ((edgesOf img).filter (fun e => e.2 == j)).length

/-- The default parameter block. -/
def tParams (img : List Byte) : List Byte := padTo (tParamLen img) (img.drop (64 + 16 * tOps img + 4 * tEdges img))

/-- The length that R383 gives an image. -/
def tLen (img : List Byte) : Nat := 64 + 16 * tOps img + 4 * tEdges img + (tParamLen img + 7) / 8 * 8

/-- The queue that an operation pops. -/
def inQueue (img : List Byte) (j : Nat) : Nat := if opIn img j = yTrig then tTrig img else opIn img j

/-- Every byte of a list is 0. -/
def allZero (l : List Byte) : Bool := l.all (fun b => b == 0)

/-! ### The checks of YARD_LOAD (R384, R399) -/

/-- The image of a module slot. -/
def State.modImg (s : State) (m : Nat) : List Byte := mget (fun _ => []) s.mods m

/-- The image of a template slot. -/
def State.tmplImg (s : State) (t : Nat) : List Byte := mget (fun _ => []) s.tmpl t

/-- A queue field that names Q0–Q63, Q512–Q1023 or a reserved code (check 6). -/
def badQueue (q : Nat) : Bool := q != yNone && (reservedQueue q || decide (32768 ≤ q))

/-- Check 1 of a template: a reserved format, field or bit, or a header value outside its range. -/
def tmplForm (img : List Byte) : Bool :=
  leAt img 0 2 == 1 && allZero ((img.drop 15).take 1) && allZero ((img.drop 18).take 2) && allZero ((img.drop 24).take 40)
    && decide (1 ≤ tOps img) && decide (tOps img ≤ 1024) && decide (tEdges img ≤ 8192) && decide (tParamLen img ≤ 1024)
    && decide (1 ≤ tBatch img) && decide (tBatch img ≤ 4096) && (decide (tFlow img < 1024) || tFlow img == yNone)
    && (decide (tStall img < 16) || tStall img == 0xff)
    && (List.range (tOps img)).all (fun j => decide (opAt img j 14 1 < 4) && opAt img j 15 1 == 0
      && (decide (opState img j < 1024) || opState img j == yNone))

/-- The least parameter bytes of a service (R397, R399); BIN_DECIDE's follow its n. -/
def State.paramNeed (s : State) (img : List Byte) (j : Nat) : Nat :=
  match opService img j with
  | 1 => 8
  | 2 => 24
  | 3 => 4 + 16 * leAt (tParams img) (opAt img j 8 2) 1
  | 4 => 16
  | 5 => 8
  | 6 => 24
  | 8 => 16
  | n => if 256 ≤ n then leAt (s.modImg (n - 256)) 30 2 else 0

/-- Check 7: the service code is reserved, or names an empty module slot. -/
def State.badService (s : State) (n : Nat) : Bool :=
  ! (decide (1 ≤ n) && decide (n ≤ 9)) && ! (decide (256 ≤ n) && decide (n < 512) && ! (s.modImg (n - 256)).isEmpty)

/-- The first failing check of a template image for a slot, 0 when every check passes (R384). SEARCH_BINARY without a state
slot fails check 10. -/
def State.tmplCheck (s : State) (img : List Byte) (slot : Nat) : Nat :=
  let js := List.range (tOps img)
  if ! tmplForm img then 1
  else if img.length ≠ tLen img then 2
  else if leAt img 20 4 ≠ (crc32 (img.drop 64)).toNat then 3
  else if (edgesOf img).any (fun e => ! (decide (e.1 < e.2) && decide (e.2 < tOps img))) then 4
  else if js.any (fun j => decide (255 < predsOf img j)) then 5
  else if badQueue (tTrig img) || badQueue (tReport img)
      || js.any (fun j => badQueue (opOut img j) || (opIn img j != yTrig && badQueue (opIn img j))) then 6
  else if js.any (fun j => s.badService (opService img j)) then 7
  else if (tTrig img != yNone && s.tmpl.any (fun e => e.1 != slot && tTrig e.2 == tTrig img))
      || (tTrig img == yNone && js.any (fun j => opIn img j == yTrig)) then 8
  else if 1 < (js.filter (opResult img)).length then 9
  else if js.any (fun j => decide (tParamLen img < opAt img j 8 2 + opAt img j 10 2)
      || decide (opAt img j 10 2 < s.paramNeed img j) || (opService img j == 4 && opState img j == yNone)) then 10
  else if ! (s.tmplImg slot).isEmpty then 11
  else 0

/-- Bytes of code and of data of a module. -/
def mLen (img : List Byte) : Nat := leAt img 8 4 + leAt img 12 4

/-- The first failing check of a module image for a slot, 0 when every check passes (R399). -/
def State.modCheck (s : State) (img : List Byte) (slot : Nat) : Nat :=
  if leAt img 0 2 ≠ 1 || ! allZero ((img.drop 2).take 2) || ! allZero ((img.drop 48).take 16)
      || decide (leAt img 8 4 ≤ leAt img 4 4) || decide (458752 < leAt img 16 4) || decide (leAt img 16 4 < mLen img)
      || leAt img 24 4 == 0 || decide (60000000 < leAt img 24 4) || decide (6 < leAt img 28 1) then 1
  else if img.length ≠ 64 + mLen img then 2
  else if leAt img 44 4 ≠ (crc32 (img.drop 64)).toNat then 3
  else if ! (s.modImg slot).isEmpty then 11
  else 0

/-! ### Ports of user modules (R399, R400) -/

/-- An operation's parameters. -/
def opParams (params img : List Byte) (j : Nat) : List Byte := (params.drop (opAt img j 8 2)).take (opAt img j 10 2)

/-- The queue number of extra port `i` of a module. -/
def portQueue (mod p : List Byte) (i : Nat) : Nat := leAt p (leAt mod (32 + 2 * i) 2) 2

/-- Some port of a module's operation names a queue that check 6 forbids. -/
def State.badPorts (s : State) (params img : List Byte) (j : Nat) : Bool :=
  let n := opService img j
  let mod := s.modImg (n - 256)
  decide (256 ≤ n) && (List.range (leAt mod 28 1)).any (fun i => badQueue (portQueue mod (opParams params img j) i))

/-! ### Instances (R385–R387) -/

/-- The YRD_STAT states: 0 running, 1 quiescing, 2 quiesced (R403). -/
def State.yState (s : State) : Nat := s.fl F.YRD_STAT.state

/-- Slots are free for an instance of a template, and its flow's window is open (R385, R386, R394). -/
def State.instRoom (s : State) (img : List Byte) (flow : Nat) : Bool :=
  decide (s.slotsHeld + tOps img ≤ 65536) && (flow == yNone || decide (s.outstanding flow < 4096))

/-- An instance is created: it takes the next number, its flow's next sequence number and a slot for each operation
(R385–R387, R394). -/
def State.createInst (s : State) (slot flow : Nat) (params : List Byte) : State :=
  let img := s.tmplImg slot
  let ops := (List.range (tOps img)).map (fun j =>
    let n := predsOf img j
    ({ counter := n, readyAt := if n = 0 then some s.now else none } : YOp))
  let f := s.flow flow
  let fl := if flow = yNone then none else some (flow, f.next)
  let s := if flow = yNone then s else s.setFlow flow { f with next := f.next + 1 }
  (s.withInsts (s.insts ++ [⟨s.nextInst, slot, fl, params, tStall img, tReport img, ops, [], false⟩])).withNextInst (s.nextInst + 1)

/-- The instance with a number. -/
def State.inst (s : State) (num : BitVec 32) : Option Inst := s.insts.find? (fun x => x.num == num)

/-- Stores an instance. -/
def State.setInst (s : State) (x : Inst) : State :=
  s.withInsts (s.insts.map (fun y => if y.num = x.num then x else y))

/-- Stores an operation of an instance. -/
def Inst.setOp (x : Inst) (j : Nat) (o : YOp) : Inst := { x with ops := x.ops.set j o }

/-- An operation of an instance. -/
def Inst.op (x : Inst) (j : Nat) : YOp := (x.ops[j]?).getD { counter := 0, status := some 0 }

/-- Some operation of the instance ended with a status other than OK (R388). -/
def Inst.failed (x : Inst) : Bool := x.ops.any (fun o => match o.status with
  | some c => c != 0
  | none => false)

/-! ### Outputs (R392–R395) -/

/-- Makes an output of a template's operation: a push that its queue refuses is lost and counted; a flag write goes to the
template's stall. Answers whether a push was refused. -/
def State.emitOut (s : State) (stall : Nat) (o : YOut) : Bool × State :=
  match o with
  | .push q ws =>
    if q = yNone || ws.isEmpty then (false, s)
    else
      let p := s.push q ws
      if p.1 then (false, p.2) else (true, p.2.bump F.YRD_REFUSED.count 1)
  | .flag m v =>
    if stall < 16 then
      (false, (s.withYflags (mset (fun _ => []) s.yflags stall (mget (fun _ => []) s.yflags stall ++ [(s.now, m, v)]))))
    else (false, s)

/-- Makes outputs in order. -/
def State.emitOuts (s : State) (stall : Nat) : List YOut → Bool × State
  | [] => (false, s)
  | o :: t =>
    let a := s.emitOut stall o
    let b := State.emitOuts a.2 stall t
    (a.1 || b.1, b.2)

/-- The words that outputs hold. -/
def heldWords (l : List YOut) : Nat := l.foldl (fun n o => n + (match o with
  | .push _ ws => ws.length
  | .flag _ _ => 0)) 0

/-- Holds outputs in a release store of 512 words: words beyond are lost, which is answered (R395). -/
def holdOuts (held : List YOut) : List YOut → Bool × List YOut
  | [] => (false, held)
  | .flag m v :: t => holdOuts (held ++ [.flag m v]) t
  | .push q ws :: t =>
    if q = yNone then holdOuts held t
    else
      let room := 512 - heldWords held
      let r := holdOuts (held ++ [.push q (ws.take room)]) t
      (r.1 || decide (room < ws.length), r.2)

/-- Marks the last of the words as the end of a packet (R355). -/
def endMark (ws : List QWord) : List QWord := packet (ws.map (fun w => (w.data, w.poison)))

/-! ### Popping (R388, R389) -/

/-- Pops a word for a core; a spilled word is brought back first. -/
def State.popCore (s : State) (q : Nat) : Option QWord × State :=
  (if (s.queue q).words.isEmpty then s.readback q .asStored else s).pop q

/-- Pops one packet, at most `n` words. -/
def State.popPacket (s : State) (q : Nat) : Nat → List QWord × State
  | 0 => ([], s)
  | n + 1 =>
    match s.popCore q with
    | (none, s) => ([], s)
    | (some w, s) =>
      if w.last then ([w], s)
      else
        let r := State.popPacket s q n
        (w :: r.1, r.2)

/-- Pops `n` packets. -/
def State.popPackets (s : State) (q : Nat) : Nat → List QWord × State
  | 0 => ([], s)
  | n + 1 =>
    let a := s.popPacket q 4096
    let b := State.popPackets a.2 q n
    (a.1 ++ b.1, b.2)

/-- The packets that an operation asks for, and those it pops: what is there of them (R382, R388). -/
def State.wantPkts (s : State) (img : List Byte) (j : Nat) : Nat × Nat :=
  let q := inQueue img j
  if opIn img j = yNone then (0, 0)
  else
    let have_ := (s.queue q).pkts
    let want := if opPkts img j ≠ 0 then opPkts img j else if opIn img j = yTrig then tBatch img else have_
    (want, min want have_)

/-- A skipped operation pops and discards what it would have consumed (R388). -/
def State.discardIn (s : State) (img : List Byte) (j : Nat) : State :=
  if opPkts img j = 0 ∧ opIn img j ≠ yTrig then s else (s.popPackets (inQueue img j) (s.wantPkts img j).2).2

/-! ### Ends of operations and instances (R387, R388, R394–R396) -/

/-- The report word of an instance (R396). -/
def Inst.reportWord (x : Inst) : BitVec 64 :=
  let bad := x.ops.filterMap (fun o => match o.status with
    | some c => if c = 0 then none else some c
    | none => none)
  BitVec.ofNat 64 (x.num.toNat + (bad.head?.getD 0) * 2 ^ 32 + sat 65535 bad.length * 2 ^ 48)

/-- An instance leaves: what it holds is released, and it reports (R394–R396). -/
def State.releaseInst (s : State) (x : Inst) : State :=
  let s := s.withInsts (s.insts.filter (fun y => y.num != x.num))
  let s := (s.emitOuts x.stall (x.held.map (fun o => match o with
    | .push q ws => .push q (endMark ws)
    | .flag m v => .flag m v))).2
  if x.report = yNone then s else (s.emitOut x.stall (.push x.report (packet [(x.reportWord, false)]))).2

/-- A flow releases its ended instances in sequence order, at most `n` (R394). -/
def State.releaseFlow (s : State) (f : Nat) : Nat → State
  | 0 => s
  | n + 1 =>
    match s.insts.find? (fun x => x.flow == some (f, (s.flow f).rel)) with
    | none => s
    | some x =>
      if x.ended then
        State.releaseFlow ((s.setFlow f { s.flow f with rel := (s.flow f).rel + 1 }).releaseInst x) f n
      else s

/-- An instance ends when all its operations have (R387). -/
def State.endInst (s : State) (num : BitVec 32) : State :=
  match s.inst num with
  | none => s
  | some x =>
    if x.ended || ! x.ops.all (fun o => o.status.isSome) then s
    else
      let x := { x with ended := true }
      let s : State := (s.setInst x).withYended (s.yended + 1)
      match x.flow with
      | none => s.releaseInst x
      | some (f, _) => s.releaseFlow f 4096

/-- Operation `j` has its status: it is counted, its successors' counters fall, and those that reach 0 become ready
(R387, R388). -/
def State.finishOp (s : State) (img : List Byte) (num : BitVec 32) (j status : Nat) : State :=
  match s.inst num with
  | none => s
  | some x =>
    let s := if status = 0 then s else s.bump F.YRD_OPSTAT.count 1 (status - 1)
    let x := x.setOp j { x.op j with status := some status, core := none }
    let ops := x.ops.zipIdx.map (fun (e : YOp × Nat) =>
      let k := ((edgesOf img).filter (fun g => g.1 == j && g.2 == e.2)).length
      if k = 0 then e.1
      else { e.1 with counter := e.1.counter - k
                      readyAt := if e.1.counter ≤ k ∧ ! x.failed then some s.now else e.1.readyAt })
    s.setInst { x with ops := ops }

/-- Operations that became ready in a failed instance: those without run_on_fail are skipped, the others are ready. They
are met in ascending index order, `n` of them left (R388). -/
def State.skipOps (s : State) (img : List Byte) (num : BitVec 32) : Nat → State
  | 0 => s
  | n + 1 =>
    let j := tOps img - (n + 1)
    let s := match s.inst num with
      | none => s
      | some x =>
        let o := x.op j
        if o.counter = 0 ∧ o.status.isNone ∧ o.readyAt.isNone then
          if opOnFail img j then s.setInst (x.setOp j { o with readyAt := some s.now })
          else (s.discardIn img j).finishOp img num j 1
        else s
    State.skipOps s img num n

/-- An operation ends with a status, and everything that follows from it (R387, R388). -/
def State.endOperation (s : State) (num : BitVec 32) (j status : Nat) : State :=
  match s.inst num with
  | none => s
  | some x =>
    let img := s.tmplImg x.tmpl
    ((s.finishOp img num j status).skipOps img num (tOps img)).endInst num

/-! ### State slots (R390) -/

/-- Bytes of a state slot. -/
def State.slotBytes (s : State) (slot o n : Nat) : List Byte :=
  (List.range n).map (fun k => mget (fun _ => (0 : Byte)) s.ystate (slot * 256 + o + k))

/-- Writes bytes of a state slot. -/
def State.setSlot (s : State) (slot o : Nat) : List Byte → State
  | [] => s
  | b :: t =>
    State.setSlot (s.withYstate (mset (fun _ => (0 : Byte)) s.ystate (slot * 256 + o % 256) b)) slot (o + 1) t

/-- A state slot is zeroed. -/
def State.zeroSlot (s : State) (slot : Nat) : State :=
  s.withYstate (mclear (fun a => decide (a / 256 = slot)) s.ystate)

end Sys2Proof.Machine
end

