-- ==== Sys2Proof/Machine/YardServ.lean ====
section
/-! DEFINITION. The vendor services of the Yard and the acts of user modules: what an operation does with the words that it
popped, its outputs and its status (R388, R393, R397, R398, R400, R429). -/

namespace Sys2Proof.Machine

open Sys2Proof

/-- What a service answers: its status, its outputs in order, and the state. -/
structure YRes where
  status : Nat
  outs : List YOut
  st : State

/-- Status OK of R388. -/
def yOk : Nat := 0
/-- BAD_INPUT of R388. -/
def yBadInput : Nat := 2
/-- OUT_FULL of R388. -/
def yOutFull : Nat := 3
/-- TIMEOUT of R388. -/
def yTimeout : Nat := 4
/-- MODULE_FAULT of R388. -/
def yModuleFault : Nat := 5

/-! ### Packets and records -/

/-- The packets among popped words. -/
def packetsOf : List QWord → List (List QWord)
  | [] => []
  | w :: t =>
    if w.last then [w] :: packetsOf t
    else
      match packetsOf t with
      | [] => [[w]]
      | p :: ps => (w :: p) :: ps

/-- The records among popped words: packets of two words (R295, R397). -/
def recordsOf (ws : List QWord) : List Rec :=
  (packetsOf ws).filterMap (fun p => match p with
    | [a, b] => some (recOf a.data b.data)
    | _ => none)

/-- A packet of clean words. -/
def mkPacket (l : List (BitVec 64)) : List QWord := packet (l.map (fun d => (d, false)))

/-- A word of a number. -/
def w64 (n : Nat) : BitVec 64 := BitVec.ofNat 64 n

/-- A word of an integer. -/
def i64 (x : Int) : BitVec 64 := BitVec.ofNat 64 (ofSigned x 64)

/-- A record's payload as a signed 40-bit number. -/
def Rec.signed (r : Rec) : Int := toSigned r.payload 40

/-- A service that only pushes. -/
def pushes (q : Nat) (ps : List (List (BitVec 64))) (s : State) : YRes := ⟨yOk, ps.map (fun p => .push q (mkPacket p)), s⟩

/-- A service whose input cannot be used. -/
def badInput (s : State) : YRes := ⟨yBadInput, [], s⟩

/-! ### Services 1, 2 and 3 -/

/-- DATALOG_FORMAT. -/
def datalog (q : Nat) (p : List Byte) (rs : List Rec) (s : State) : YRes :=
  pushes q (rs.zipIdx.map (fun e => [e.1.word0, e.1.word1,
    w64 (leAt p 0 4 + leAt p 4 2 * 2 ^ 32 + e.2 % 2 ^ 16 * 2 ^ 48)])) s

/-- Sets bit `n` of the map at `base`; a poisoned word stays poisoned. Answers whether its address lies in DRAM and no block
reset discards the access (R388, R436). -/
def State.setMapBit (s : State) (by_ : Writer) (base n : Nat) : Bool × State :=
  let a := base + n / 64 * 8
  if s.inDram a 8 && ! s.memReset a 8 then
    let r := s.readWord a
    (true, (r.2.writeEach by_ a [⟨r.1.data ||| BitVec.ofNat 64 (2 ^ (n % 64)), r.1.poison⟩]).noteWrite a 8)
  else (false, s)

/-- The vector of a fail record, counted from the first vector of the map, modulo 2^40 (R397). -/
def vecOffset (vec0 : Nat) (r : Rec) : Nat := (r.payload + 2 ^ 40 - vec0 % 2 ^ 40) % 2 ^ 40

/-- The bit of the map that a fail record sets. -/
def mapBitOf (vec0 : Nat) (r : Rec) : Nat := vecOffset vec0 r * 128 + r.chan % 128

/-- One fail record sets its bit in the map. -/
def markBit (by_ : Writer) (base : Nat) (t : Bool × State) (n : Nat) : Bool × State :=
  match t.2.setMapBit by_ base n with
  | (inside, s) => (t.1 && inside, s)

/-- The source of a FAIL record: detail bits [7:4] (R264). -/
def Rec.failSource (r : Rec) : Nat := r.detail / 16 % 16

/-- FAILMAP_BUILD over the FAIL records whose source is 1 to 4 (R264): records mapped, records out of range. -/
def failmap (by_ : Writer) (q : Nat) (p : List Byte) (rs : List Rec) (s : State) : YRes :=
  let base := leAt p 0 8
  let vec0 := leAt p 8 8
  let cnt := leAt p 16 4
  let fails := rs.filter (fun r => r.type == 1 && decide (1 ≤ r.failSource) && decide (r.failSource ≤ 4))
  let inside := fails.filter (fun r => decide (vecOffset vec0 r < cnt))
  let t := (inside.map (mapBitOf vec0)).foldl (markBit by_ base) (true, s)
  if t.1 then pushes q [[w64 inside.length, w64 (fails.length - inside.length)]] t.2 else badInput t.2

/-- A rule's comparison of BIN_DECIDE. -/
def binOp (op : Nat) (a b : Int) : Bool :=
  match op with
  | 0 => decide (a < b)
  | 1 => decide (a ≤ b)
  | 2 => decide (a = b)
  | 3 => decide (a ≥ b)
  | 4 => decide (a > b)
  | _ => decide (a ≠ b)

/-- BIN_DECIDE on the first packet popped. -/
def binDecide (q : Nat) (p : List Byte) (ps : List (List QWord)) (s : State) : YRes :=
  let n := leAt p 0 1
  let mask := BitVec.ofNat 8 (leAt p 2 1)
  let ws := ps.head?.getD []
  let at_ (i o k : Nat) : Nat := leAt p (4 + 16 * i + o) k
  if n = 0 || 16 < n || 4096 < ws.length || (List.range n).any (fun i => decide (5 < at_ i 2 1)) then badInput s
  else
    let hit := (List.range n).find? (fun i => match ws[at_ i 0 2]? with
      | some w => binOp (at_ i 2 1) w.data.toInt (toSigned (at_ i 8 8) 64)
      | none => false)
    let bin := match hit with
      | some i => at_ i 3 1
      | none => leAt p 1 1
    let rule := hit.getD 0xff
    ⟨yOk, [.push q (mkPacket [w64 (bin + rule * 256)])] ++ (if mask = 0 then [] else [.flag mask (BitVec.ofNat 8 bin)]), s⟩

/-! ### Service 4: SEARCH_BINARY (R398) -/

/-- What a search keeps in its state slot, the outputs so far, and whether it zeroed the slot. -/
structure Search where
  step : Nat
  lost : Bool
  code : Nat
  cnt : Nat
  sum : Int
  outs : List YOut
  ctr : Nat
  zeroed : Bool := false

/-- The search that a state slot holds: step at byte 0, lost at 1, code at 2, cnt at 8, sum at 16 (log 10). -/
def State.loadSearch (s : State) (slot : Nat) : Search :=
  let f (o n : Nat) : Nat := ofLe (s.slotBytes slot o n)
  ⟨f 0 1, f 1 1 % 2 == 1, f 2 2, f 8 8, toSigned (f 16 16) 128, [], s.freeCtr, false⟩

/-- The bytes of a search in its slot. -/
def Search.bytes (x : Search) : List Byte :=
  leBytes 1 x.step ++ leBytes 1 (bit x.lost) ++ leBytes 2 x.code ++ leBytes 4 0 ++ leBytes 8 x.cnt
    ++ leBytes 16 (ofSigned x.sum 128)

/-- Parameters of a search: bits, cmp, marker, flag, source, thr. -/
structure SearchPar where
  bits : Nat
  cmp : Nat
  marker : Nat
  flag : Nat
  source : Nat
  thr : Int

/-- The parameters of a search. -/
def searchPar (p : List Byte) : SearchPar :=
  ⟨leAt p 0 1, leAt p 1 1, leAt p 2 1, leAt p 3 1, leAt p 4 1, toSigned (leAt p 8 8) 64⟩

/-- Parameters that R397 lists. -/
def SearchPar.ok (a : SearchPar) : Bool :=
  decide (1 ≤ a.bits) && decide (a.bits ≤ 16) && decide (a.cmp ≤ 1) && decide (a.marker ≤ 7) && decide (a.flag ≤ 7)
    && decide (a.source ≤ 1)

/-- A MARK of the search's marker: one decision (R398). A step beyond the last bit, which only foreign data in the slot can
give, has a free trial code (log 3). -/
def Search.decision (x : Search) (a : SearchPar) (q : Nat) : Search :=
  let known := decide (x.step < a.bits)
  let trial := if known then x.code ||| 2 ^ (a.bits - 1 - x.step) else (Config.free x.ctr 16).toNat
  let obs : Int := if a.source = 0 then roundDiv x.sum x.cnt else x.cnt
  let hold := (a.source == 0 && x.cnt == 0)
    || (if a.cmp = 0 then decide (obs > a.thr) else decide (obs < a.thr))
  let code := if hold then x.code else trial
  let fl : YOut := .flag (BitVec.ofNat 8 (2 ^ a.flag)) (BitVec.ofNat 8 (bit hold * 2 ^ a.flag))
  let step := x.step + 1
  let ctr := if known then x.ctr else x.ctr + 1
  if step = a.bits then
    let w := code % 2 ^ 16 + a.bits * 2 ^ 16 + 2 ^ 24 + bit x.lost * 2 ^ 25
    ⟨0, false, 0, 0, 0, x.outs ++ [fl, .push q (mkPacket [w64 w])], ctr, true⟩
  else ⟨step, x.lost, code, 0, 0, x.outs ++ [fl], ctr, x.zeroed⟩

/-- One record of a search (R398). -/
def Search.take (a : SearchPar) (q : Nat) (x : Search) (r : Rec) : Search :=
  if r.type = 6 then
    if a.source = 0 ∧ ! tbit r.detail 5 then { x with sum := x.sum + r.signed, cnt := x.cnt + 1 } else x
  else if r.type = 1 then (if a.source = 1 then { x with cnt := x.cnt + 1 } else x)
  else if r.type = 4 then { x with lost := true }
  else if r.type = 3 ∧ r.detail % 16 = 2 ∧ r.detail / 16 % 16 = a.marker then x.decision a q
  else x

/-- SEARCH_BINARY (R398). A finished search zeroes its slot. -/
def search (q : Nat) (p : List Byte) (slot : Nat) (rs : List Rec) (s : State) : YRes :=
  let a := searchPar p
  if ! a.ok then badInput s
  else
    let x := rs.foldl (Search.take a q) (s.loadSearch slot)
    let s : State := s.withFreeCtr x.ctr
    ⟨yOk, x.outs, (if x.zeroed then s.zeroSlot slot else s).setSlot slot 0 x.bytes⟩

/-! ### Services 5 to 8 -/

/-- The fundamental bin of a spectrum: `fund_bin`, or for 0 the largest bin above bin 2, which the spec does not compute: a
free bin from 3 to 2^(p−1) (R397, log 3). -/
def fundBin (e : Nat) (p : List Byte) (xs : List Int) : Nat :=
  let f := leAt p 4 4
  if f ≠ 0 then f else 3 + (Config.spectrum (p.take 8) xs 3).toNat % (2 ^ (e - 1) - 2)

/-- SPECTRUM_MEASURE: the ratios are free functions of the parameters and samples (log 3). -/
def spectrum (q : Nat) (p : List Byte) (rs : List Rec) (s : State) : YRes :=
  let e := leAt p 0 1
  let xs := ((rs.filter (fun r => r.type == 5 && ! tbit r.payload 32)).map (fun r => toSigned r.payload 32)).take (2 ^ e)
  if e < 8 || 16 < e || 2 < leAt p 1 1 || leAt p 2 1 < 2 || 10 < leAt p 2 1 || xs.length < 2 ^ e then badInput s
  else pushes q [(List.range 3).map (Config.spectrum (p.take 8) xs) ++ [w64 (fundBin e p xs)]] s

/-- HISTOGRAM. -/
def histogram (q : Nat) (p : List Byte) (rs : List Rec) (s : State) : YRes :=
  let bins := leAt p 4 4
  let lo := toSigned (leAt p 8 8) 64
  let width := leAt p 16 8
  let xs := (rs.filter (fun r => r.type == leAt p 0 1)).map Rec.signed
  if bins = 0 || 4094 < bins || width = 0 then badInput s
  else
    let ix := xs.map (fun x => (x - lo) / (width : Int))
    let inside := ix.filterMap (fun i => if 0 ≤ i ∧ i < (bins : Int) then some i.toNat else none)
    let counts := (List.range bins).map (fun k => w64 (inside.filter (fun i => i == k)).length)
    pushes q [counts ++ [w64 (ix.filter (fun i => decide (i < 0))).length,
      w64 (ix.filter (fun i => decide ((bins : Int) ≤ i))).length]] s

/-- A quotient whose rounding the spec does not state: exact, or one of its two neighbours (log 3). -/
def State.nearby (s : State) (floor : Int) (exact : Bool) : Int × State :=
  if exact then (floor, s)
  else
    let d := s.draw 1
    (floor + d.1.toNat, d.2)

/-- INTERVAL_STATS. Without a result, min, max, mean and deviation are free (log 3). -/
def intervalStats (q : Nat) (rs : List Rec) (s : State) : YRes :=
  let iv := rs.filter (fun r => r.type == 6)
  let xs := (iv.filter (fun r => ! tbit r.detail 5)).map Rec.signed
  let n := xs.length
  let touts := iv.length - n
  match xs with
  | [] =>
    let a := s.draw 64
    let b := a.2.draw 64
    let c := b.2.draw 64
    let d := c.2.draw 64
    pushes q [[0, w64 touts, a.1, b.1, c.1, d.1]] d.2
  | x :: t =>
    let sum := xs.foldl (· + ·) 0
    let sq := xs.foldl (fun a v => a + v * v) 0
    let mean := s.nearby (sum * 65536 / (n : Int)) (sum * 65536 % (n : Int) == 0)
    let dev : Nat := ((n : Int) * sq - sum * sum).toNat
    let root := Nat.sqrt (dev * 2 ^ 32 / (n * n))
    let std := mean.2.nearby (root : Int) (root * root * (n * n) == dev * 2 ^ 32)
    pushes q [[w64 n, w64 touts, i64 (t.foldl min x), i64 (t.foldl max x), i64 mean.1, i64 std.1]] std.2

/-- The characters of FRAME records, each as data byte and K bit (R284). -/
def charsOf (rs : List Rec) : List Nat :=
  (rs.filter (fun r => r.type == 8)).flatMap (fun r =>
    (List.range (bitsOf r.payload 39 38 + 1)).map (fun i => bitsOf r.payload (9 * i + 8) (9 * i)))

/-- One byte of DRAM for a core: none when it lies outside installed DRAM, is poisoned, or a block reset discards the access
(R388, R429, R436). -/
def State.coreByte (s : State) (a : Nat) : Option Nat × State :=
  if s.inDram a 1 && ! s.memReset a 1 then
    let r := s.readWord (a / 8 * 8)
    (if r.1.poison then none else some (r.1.data.toNat >>> (8 * (a % 8)) % 256), r.2)
  else (none, s)

/-- Compares characters with those expected from position `pos` on: mismatches and the first one's index. -/
def State.compareChars (s : State) (base len pos miss : Nat) (first : Option Nat) :
    List Nat → Option (Nat × Option Nat) × State
  | [] => (some (miss, first), s)
  | c :: t =>
    let a := base + 2 * (pos % len)
    let x := s.coreByte a
    let y := x.2.coreByte (a + 1)
    match x.1, y.1 with
    | some d, some k =>
      let same := decide (c = d + k % 2 * 256)
      State.compareChars y.2 base len (pos + 1) (miss + bit (! same)) (if same then first else first.or (some pos)) t
    | _, _ => (none, y.2)

/-- FRAME_CHECK: the position is kept in the first eight bytes of a named state slot (log 10). -/
def frameCheck (q : Nat) (p : List Byte) (slot : Nat) (rs : List Rec) (s : State) : YRes :=
  let base := leAt p 0 8
  let len := leAt p 8 4
  let cs := charsOf rs
  let pos := if slot = yNone then 0 else ofLe (s.slotBytes slot 0 8)
  if len = 0 then badInput s
  else
    let r := s.compareChars base len pos 0 none cs
    match r.1 with
    | none => badInput r.2
    | some (miss, first) =>
      let s := if slot = yNone then r.2 else r.2.setSlot slot 0 (leBytes 8 (pos + cs.length))
      pushes q [[w64 cs.length, w64 miss, match first with
        | some i => w64 i
        | none => 0xffffffffffffffff]] s

/-! ### Vendor services (R397) -/

/-- A record of a type that R288 reserves: no service can use it (R388, log 92). -/
def Rec.unusable (r : Rec) : Bool := r.type == 0 || decide (8 < r.type)

/-- The services that use records of named types and say nothing of others: FAILMAP_BUILD, SPECTRUM_MEASURE, HISTOGRAM,
INTERVAL_STATS and FRAME_CHECK (R397). -/
def typedService (code : Nat) : Bool := code == 2 || (decide (5 ≤ code) && decide (code ≤ 8))

/-- A vendor service on the words that it popped: `short` says that fewer packets were present than it asked for (R388). -/
def vendor (by_ : Writer) (code q slot : Nat) (p : List Byte) (ws : List QWord) (short : Bool) (s : State) : YRes :=
  let rs := recordsOf ws
  if short || (code ≠ 9 && ws.any (fun w => w.poison)) || (typedService code && rs.any Rec.unusable) then badInput s
  else
    match code with
    | 1 => datalog q p rs s
    | 2 => failmap by_ q p rs s
    | 3 => binDecide q p (packetsOf ws) s
    | 4 => search q p slot rs s
    | 5 => spectrum q p rs s
    | 6 => histogram q p rs s
    | 7 => intervalStats q rs s
    | 8 => frameCheck q p slot rs s
    | _ => ⟨yOk, (packetsOf ws).map (fun x => .push q x), s⟩

/-! ### User modules (R400) -/

/-- The queue of a module's port for popping or pushing: port 0 is in_q or out_q. -/
def portOf (img mod p : List Byte) (j : Nat) (port : Nat) (push : Bool) : Nat :=
  if port = 0 then (if push then opOut img j else if opIn img j = yNone then yNone else inQueue img j)
  else if port ≤ leAt mod 28 1 && tbit (leAt mod 29 1) (port - 1) == push then portQueue mod p (port - 1)
  else yNone

/-- One act of a module: the pops, pushes, flags, state bytes and stores that R400 allows it. -/
def State.moduleAct (s : State) (by_ : Writer) (img mod p : List Byte) (j : Nat) (r : Bool × List YOut) (a : ModAct) :
    (Bool × List YOut) × State :=
  match a with
  | .pop port =>
    let q := portOf img mod p j port.val false
    if q = yNone then (r, s)
    else
      match s.popCore q with
      | (some w, s) => ((r.1 || w.poison, r.2), s)
      | (none, s) => (r, s)
  | .push port ws =>
    let q := portOf img mod p j port.val true
    ((r.1, r.2 ++ [.push q (mkPacket ws)]), s)
  | .flag m v => ((r.1, r.2 ++ [.flag m v]), s)
  | .state off v => (r, if opState img j = yNone then s else s.setSlot (opState img j) off.toNat [v])
  | .store addr v =>
    let a := addr.toNat / 8 * 8
    if s.inDram a 8 && ! s.memReset a 8 then (r, (s.writeWords by_ a [⟨v, false⟩]).noteWrite a 8) else ((true, r.2), s)

/-- The acts of a module in order. -/
def State.moduleActs (s : State) (by_ : Writer) (img mod p : List Byte) (j : Nat) (r : Bool × List YOut) :
    List ModAct → (Bool × List YOut) × State
  | [] => (r, s)
  | a :: t =>
    let x := s.moduleAct by_ img mod p j r a
    State.moduleActs x.2 by_ img mod p j x.1 t

/-- A user module's operation: what it did, and its status; fewer packets than in_pkts are BAD_INPUT, and a status other
than 0, 2 and 3 is MODULE_FAULT (R388, R400). -/
def userModule (by_ : Writer) (img mod p : List Byte) (j : Nat) (acts : List ModAct) (status : Nat) (short : Bool) (s : State) : YRes :=
  let r := s.moduleActs by_ img mod p j (false, []) acts
  let c := if r.1.1 || short then yBadInput else if status = 0 ∨ status = 2 ∨ status = 3 then status else yModuleFault
  ⟨c, r.1.2, r.2⟩

/-! ### Held accesses (R412) -/

/-- An act of a module needs a controller that is retraining: a store there, or a pop of a queue whose spilled words lie
there. -/
def State.actHeld (s : State) (img mod p : List Byte) (j : Nat) : ModAct → Bool
  | .store addr _ => s.inDram (addr.toNat / 8 * 8) 8 && s.memRetrains (addr.toNat / 8 * 8) 8
  | .pop port =>
    let q := portOf img mod p j port.val false
    q != yNone && s.spillHeld q
  | .push _ _ | .flag _ _ | .state _ _ => false

/-- The DRAM addresses that a vendor service on its words needs: FAILMAP_BUILD's map words and FRAME_CHECK's expected
characters (R397). -/
def State.serviceAddrs (s : State) (code slot : Nat) (p : List Byte) (ws : List QWord) : List Nat :=
  let rs := recordsOf ws
  match code with
  | 2 =>
    let fails := rs.filter (fun r => r.type == 1 && decide (1 ≤ r.failSource) && decide (r.failSource ≤ 4)
      && decide (vecOffset (leAt p 8 8) r < leAt p 16 4))
    fails.map (fun r => leAt p 0 8 + mapBitOf (leAt p 8 8) r / 64 * 8)
  | 8 =>
    let pos := if slot = yNone then 0 else ofLe (s.slotBytes slot 0 8)
    (List.range (charsOf rs).length).map (fun i => (leAt p 0 8 + 2 * ((pos + i) % leAt p 8 4)) / 8 * 8)
  | _ => []

/-- An operation cannot end yet: an access of it is held by a controller that is retraining. -/
def State.serviceHeld (s : State) (img mod : List Byte) (code j : Nat) (p : List Byte) (ws : List QWord)
    (acts : List ModAct) : Bool :=
  if code < 256 then (s.serviceAddrs code (opState img j) p ws).any (fun a => s.inDram a 8 && s.memRetrains a 8)
  else acts.any (s.actHeld img mod p j)

/-! ### The end of a run -/

/-- The outputs of an operation: held for release when it has the result flag in a flow, else made at once; a lost word or
a refused push makes it OUT_FULL (R392, R395). -/
def State.outputs (s : State) (x : Inst) (result : Bool) (r : YRes) : Nat × State :=
  if result && x.flow.isSome then
    let h := holdOuts x.held r.outs
    (if h.1 then yOutFull else r.status, match s.inst x.num with
      | some y => s.setInst { y with held := h.2 }
      | none => s)
  else
    let e := s.emitOuts x.stall r.outs
    (if e.1 then yOutFull else r.status, e.2)

end Sys2Proof.Machine
end

