-- ==== Sys2Proof/Machine/YardCmds.lean ====
section
/-! DEFINITION. The Yard's commands and events (R71, R118, R384–R391, R393, R401, R402). -/

namespace Sys2Proof.Machine

open Sys2Proof

/-! ### Loading and unloading (R384, R399, R401) -/

/-- Check 6 for a Yard command whose parameters take `n` bytes. -/
def yardShape (h : Hdr) (n : Nat) : Bool := h.target == tgYard && h.plen == n

/-- The slot numbers of a kind: templates 0–4,095, modules 0–255. -/
def yardSlotOk (kind slot : Nat) : Bool := (kind == 0 && decide (slot < 4096)) || (kind == 1 && decide (slot < 256))

/-- Check 8 of a Yard command, and that the Yard is not in block reset; 0 when they pass. -/
def State.yardCheck (s : State) (slot : Nat) : Nat :=
  if ! s.owns slot devRes then stNotOwner else if s.inReset .yrd then stBusy else 0

/-- YARD_LOAD (R125, R384). -/
def yardLoadBody (h : Hdr) (kind : BitVec 8) (slot : BitVec 16) (image : BitVec 64) (imageLen : BitVec 32) : Body := fun sl s =>
  if ! yardShape h 15 || ! yardSlotOk kind.toNat slot.toNat then refuse stBadParam s
  else
    let c := s.yardCheck sl
    if c ≠ 0 then refuse c s
    else acceptOp 0x0060 (.yardLoad kind.toNat slot.toNat image.toNat imageLen.toNat) sl s

/-- YARD_LOAD (R125, R384). -/
def execYardLoad (h : Hdr) (kind : BitVec 8) (slot : BitVec 16) (image : BitVec 64) (imageLen : BitVec 32) (s : State) :
    Host.Outcome State Fault Refusal :=
  done (s.cmd h 0x0060 (.yardLoad h kind slot image imageLen) false (yardLoadBody h kind slot image imageLen))

/-- The bytes of DRAM from `a` on as a load reads them; a poisoned word reads 0 (R429). -/
def State.dramBytes (s : State) (a n : Nat) : List Byte × State :=
  let first := a / 8 * 8
  let r := s.readWords first ((a + n + 7) / 8 - a / 8)
  (((bytesOfWords r.1).drop (a - first)).take n, r.2)

/-- A template is loaded: its pending count starts at 0, and the state slots that it names are zeroed (R390). -/
def State.putTemplate (s : State) (slot : Nat) (img : List Byte) : State :=
  let s : State := (s.withTmpl (mset (fun _ => []) s.tmpl slot img)).withTrigPend (mset (fun _ => 0) s.trigPend slot 0)
  (List.range (tOps img)).foldl (fun s j => if opState img j = yNone then s else s.zeroSlot (opState img j)) s

/-- YARD_LOAD ends: the slot is filled when every check passes, else the result is the first check that fails. An image
outside installed DRAM fails check 2 (R384). -/
def execYardLoadDone (op : BitVec 16) (s : State) : Host.Outcome State Fault Refusal :=
  let n := op.toNat
  match s.op n with
  | some o =>
    match o.kind with
    | .yardLoad kind slot a len =>
      if o.done || s.inReset .yrd then done s
      else if ! s.inDram a len || len = 0 then done (s.endOp n stBadParam 2)
      else if s.memHeld a len then done (s.opTimeout n o (s.memReset a len))
      else
        let r := s.dramBytes a len
        let s := r.2
        let c := if kind = 0 then s.tmplCheck r.1 slot else s.modCheck r.1 slot
        if c ≠ 0 then done (s.endOp n stBadParam (BitVec.ofNat 64 c))
        else if kind = 0 then done ((s.putTemplate slot r.1).endOpFree n stOk)
        else done ((s.withMods (mset (fun _ => []) s.mods slot r.1)).endOpFree n stOk)
    | _ => done s
  | none => done s

/-- A template of a slot has a live instance. -/
def State.tmplLive (s : State) (slot : Nat) : Bool := s.insts.any (fun x => x.tmpl == slot && ! x.ended)

/-- A loaded template names a module. -/
def State.modNamed (s : State) (m : Nat) : Bool :=
  s.tmpl.any (fun e => (List.range (tOps e.2)).any (fun j => opService e.2 j == 256 + m))

/-- YARD_UNLOAD (R401). -/
def yardUnloadBody (h : Hdr) (kind : BitVec 8) (slot : BitVec 16) : Body := fun sl s =>
  let n := slot.toNat
  if ! yardShape h 3 || ! yardSlotOk kind.toNat n then refuse stBadParam s
  else
    let c := s.yardCheck sl
    if c ≠ 0 then refuse c s
    else if kind = 0 then
      if s.tmplLive n then refuse stBusy s
      else okay [] (((s.withTmpl (mset (fun _ => []) s.tmpl n [])).withTrigPend
        (mset (fun _ => 0) s.trigPend n 0)).withDue (s.due.filter (fun d => d != n)))
    else if s.modNamed n then refuse stBusy s
    else okay [] (s.withMods (mset (fun _ => []) s.mods n []))

/-- YARD_UNLOAD (R401). -/
def execYardUnload (h : Hdr) (kind : BitVec 8) (slot : BitVec 16) (s : State) : Host.Outcome State Fault Refusal :=
  done (s.cmd h 0x0061 (.yardUnload h kind slot) false (yardUnloadBody h kind slot))

/-! ### Instances (R385, R386) -/

/-- YARD_SUBMIT (R385, R400). -/
def yardSubmitBody (h : Hdr) (template flow plen : BitVec 16) (data : List Byte) : Body := fun sl s =>
  let t := template.toNat
  let f := flow.toNat
  let n := plen.toNat
  let img := s.tmplImg t
  let params := data ++ (tParams img).drop n
  let st := tStall img
  if ! yardShape h (6 + n) || data.length ≠ n then refuse stBadParam s
  else if s.inReset .yrd && (s.owns sl devRes || s.ownsStall sl) then refuse stBusy s
  else if img.isEmpty || tParamLen img < n || (1023 < f && f ≠ yNone)
      || (List.range (tOps img)).any (s.badPorts params img) then refuse stBadParam s
  else if st ≠ 0xff ∧ s.level = 3 then refuse stNoResource s
  else if ! (s.owns sl devRes || (if st = 0xff then s.ownsStall sl else s.owns sl st)) then refuse stNotOwner s
  else if ! s.instRoom img f then refuse stNoResource s
  else if s.yState ≠ 0 then refuse stBusy s
  else okay (beBytes 4 s.nextInst.toNat) (s.createInst t f params)

/-- YARD_SUBMIT (R385, R400). -/
def execYardSubmit (h : Hdr) (template flow plen : BitVec 16) (data : List Byte) (s : State) :
    Host.Outcome State Fault Refusal :=
  done (s.cmd h 0x0062 (.yardSubmit h template flow plen data) false (yardSubmitBody h template flow plen data))

/-- INSTANCE_CREATE: the oldest due instance is created when the Yard runs and slots and its flow's window are free
(R386, R401). -/
def execInstanceCreate (s : State) : Host.Outcome State Fault Refusal :=
  match s.due with
  | [] => done s
  | t :: rest =>
    let img := s.tmplImg t
    if s.yState ≠ 0 || s.inReset .yrd || ! s.instRoom img (tFlow img) then done s
    else done ((s.withDue rest).createInst t (tFlow img) (tParams img))

/-! ### Quiesce (R401) and YARD_STATUS (R402) -/

/-- YARD_QUIESCE (R401). -/
def yardQuiesceBody (h : Hdr) : Body := fun sl s =>
  if ! yardShape h 0 then refuse stBadParam s
  else
    let c := s.yardCheck sl
    if c ≠ 0 then refuse c s
    else if s.yState ≠ 0 then refuse stBusy s
    else
      match s.freeOp with
      | none => refuse stNoResource s
      | some n =>
        okay (beBytes 2 n) ((s.startOp n sl 0x0063 (.quiesce s.yended)).setFl F.YRD_STAT.state 1)

/-- YARD_QUIESCE (R401). -/
def execYardQuiesce (h : Hdr) (s : State) : Host.Outcome State Fault Refusal :=
  done (s.cmd h 0x0063 (.yardQuiesce h) false (yardQuiesceBody h))

/-- The quiesce ends once no instance is live; its result is the number that ended meanwhile (R401). -/
def execYardQuiesceDone (op : BitVec 16) (s : State) : Host.Outcome State Fault Refusal :=
  match s.op op.toNat with
  | some o =>
    match o.kind with
    | .quiesce base =>
      if o.done || s.liveInsts ≠ 0 then done s
      else
        let s := if s.yState = 1 then s.setFl F.YRD_STAT.state 2 else s
        done (s.endOp op.toNat stOk (BitVec.ofNat 64 (s.yended - base)))
    | _ => done s
  | none => done s

/-- Due instances are created in notice order as long as they fit, at most `n` (R386, R401). -/
def State.createDue (s : State) : Nat → State
  | 0 => s
  | n + 1 =>
    match s.due with
    | [] => s
    | t :: rest =>
      let img := s.tmplImg t
      if s.instRoom img (tFlow img) then
        State.createDue ((s.withDue rest).createInst t (tFlow img) (tParams img)) n
      else s

/-- YARD_RESUME: creation resumes, the due triggered instances that fit first (R401). -/
def yardResumeBody (h : Hdr) : Body := fun sl s =>
  if ! yardShape h 0 then refuse stBadParam s
  else
    let c := s.yardCheck sl
    if c ≠ 0 then refuse c s
    else
      let s := s.setFl F.YRD_STAT.state 0
      okay [] (s.createDue s.due.length)

/-- YARD_RESUME (R401). -/
def execYardResume (h : Hdr) (s : State) : Host.Outcome State Fault Refusal :=
  done (s.cmd h 0x0064 (.yardResume h) false (yardResumeBody h))

/-- The mask of the cores that wait for work. -/
def State.asleepMask (s : State) : Nat := maskOf 32 (fun c => (s.core c).asleep)

/-- YARD_STATUS (R402). -/
def yardStatusBody (h : Hdr) : Body := fun _ s =>
  if ! yardShape h 0 then refuse stBadParam s
  else okay (beBytes 1 s.yState ++ beBytes 2 s.tmpl.length ++ beBytes 2 s.mods.length ++ beBytes 4 s.liveInsts
    ++ beBytes 4 s.slotsHeld ++ beBytes 4 s.readyOps ++ beBytes 4 s.asleepMask) s

/-- YARD_STATUS (R402). -/
def execYardStatus (h : Hdr) (s : State) : Host.Outcome State Fault Refusal :=
  done (s.cmd h 0x0065 (.yardStatus h) false (yardStatusBody h))

/-! ### Cores (R389–R391) -/

/-- The core may run a service: a user module's declaration allows it (R389, R399). -/
def State.coreMay (s : State) (core service : Nat) : Bool :=
  decide (service < 256) || (let m := leAt (s.modImg (service - 256)) 20 4
                             m == 0 || tbit m core)

/-- No older operation that has not ended names the same state slot (R390). -/
def State.slotTurn (s : State) (x : Inst) (j : Nat) : Bool :=
  let img := s.tmplImg x.tmpl
  let slot := opState img j
  slot == yNone
    || ((s.insts.takeWhile (fun y => y.num != x.num)).all (fun y =>
          y.ops.zipIdx.all (fun e => e.1.status.isSome || opState (s.tmplImg y.tmpl) e.2 != slot))
        && (x.ops.zipIdx.take j).all (fun e => e.1.status.isSome || opState img e.2 != slot))

/-- The oldest ready operation that a core may run, as its instance and index (R389). -/
def State.nextWork (s : State) (core : Nat) : Option (Inst × Nat) :=
  (s.insts.flatMap (fun x => (List.range x.ops.length).map (fun j => (x, j)))).find? (fun e =>
    (e.1.op e.2).isReady && (e.1.op e.2).readyAt.isSome
      && s.coreMay core (opService (s.tmplImg e.1.tmpl) e.2) && s.slotTurn e.1 e.2)

/-- The bin of a waiting time in SCLK cycles (R402). -/
def waitBin (cycles : Nat) : Nat :=
  let ns := cycles * 625 / 1000
  if ns < 64 then 0 else min 15 (Nat.log2 ns - 5)

/-- The histograms that select an operation count its waiting time (R402). -/
def State.countWait (s : State) (t j service wait : Nat) : State :=
  (List.range 16).foldl
    (fun s k =>
      let sel := if s.flag F.YRD_HIST_SEL.by_service k then s.fl F.YRD_HIST_SEL.service k == service
        else s.fl F.YRD_HIST_SEL.template k == t && s.fl F.YRD_HIST_SEL.op k == j
      if s.flag F.YRD_HIST_SEL.en k && sel then s.bump F.YRD_HIST.count 1 k (waitBin wait) else s) s

/-- A checker injection at YARD_MEM_ECC meets a core's next memory read (R488). -/
def State.checkYardMem (s : State) (core : Nat) : State :=
  if s.injected 145 then s.useInjection.raise 145 core true else s

/-- WORK_REQUEST: the core gets the oldest ready operation that it may run, or sleeps. A vendor service pops its packets
as it starts (R382, R389). -/
def execWorkRequest (core : Fin 32) (s : State) : Host.Outcome State Fault Refusal :=
  let c := core.val
  let k := s.core c
  if k.work.isSome || s.inReset .yrd then done s
  else
    match s.nextWork c with
    | none => done (s.setCore c { k with asleep := true })
    | some (x, j) =>
      let img := s.tmplImg x.tmpl
      let o := x.op j
      let service := opService img j
      if decide (service < 256) && opIn img j != yNone && s.spillHeld (inQueue img j) then done s
      else
        let s := (s.setInst (x.setOp j { o with core := some c })).countWait x.tmpl j service (s.now - o.readyAt.getD s.now)
        let s := s.checkYardMem c
        let n := s.wantPkts img j
        let p := if service < 256 then s.popPackets (inQueue img j) n.2 else ([], s)
        let k := p.2.core c
        done (p.2.setCore c { k with work := some (x.num, j), asleep := false, startAt := s.now, input := p.1
                                     short := decide (n.2 < n.1) })

/-- The core is free again; its run enters its log, which keeps two seconds (R402). -/
def State.freeCore (s : State) (c : Nat) : State :=
  let k := s.core c
  s.setCore c { k with work := none, input := [], short := false, full := false
                       log := k.log.filter (fun e => decide (s.now < e.2 + 2000 * msCyc)) ++ [(k.startAt, s.now)] }

/-- OPERATION_COMPLETE: the service on the core ends, once no DRAM access of it is held (R412); a push of the core that its
queue refused makes it OUT_FULL (R387, R388, R392–R400). -/
def execOperationComplete (core : Fin 32) (acts : List ModAct) (status : BitVec 3) (s : State) :
    Host.Outcome State Fault Refusal :=
  let k := s.core core.val
  match k.work with
  | none => done s
  | some (num, j) =>
    match s.inst num with
    | none => done s
    | some x =>
      let img := s.tmplImg x.tmpl
      let code := opService img j
      let p := opParams x.params img j
      let by_ := coreWriter core.val k.startAt
      if s.serviceHeld img (s.modImg (code - 256)) code j p k.input acts then done s
      else
        let s := s.freeCore core.val
        let r : YRes :=
          if code < 256 then vendor by_ code (opOut img j) (opState img j) p k.input k.short s
          else if s.badPorts x.params img j then badInput s
          else userModule by_ img (s.modImg (code - 256)) p j acts status.toNat k.short s
        let e := r.st.outputs x (opResult img j) r
        done (e.2.endOperation num j (if k.full then yOutFull else e.1))

/-- The run-time limit of an operation in µs (R391). -/
def State.opLimit (s : State) (service : Nat) : Nat :=
  let l := s.fl F.YRD_CTL.op_limit
  if service < 256 then l else min l (leAt (s.modImg (service - 256)) 24 4)

/-- OPERATION_TIMEOUT: the operation ends with TIMEOUT and is reported. What a user module did before its limit stays done:
its words stay popped, its packets pushed or held; a vendor service has made no output (R391, log 55). -/
def execOperationTimeout (cut : CutOff) (s : State) : Host.Outcome State Fault Refusal :=
  let core := cut.core
  let k := s.core core.val
  match k.work with
  | none => done s
  | some (num, j) =>
    match s.inst num with
    | none => done s
    | some x =>
      let img := s.tmplImg x.tmpl
      let code := opService img j
      let s := s.advTo (k.startAt + s.opLimit code * usCyc)
      let s :=
        if code < 256 || s.badPorts x.params img j then s
        else
          let r := userModule (coreWriter core.val k.startAt) img (s.modImg (code - 256)) (opParams x.params img j) j cut.acts 0 k.short s
          (r.st.outputs x (opResult img j) r).2
      done (((s.freeCore core.val).raise 32 core.val).endOperation num j yTimeout)

/-- YARDFLAG_UPDATE: the oldest released flag write reaches its stall (R393). -/
def execYardflagUpdate (st : StallIx) (s : State) : Host.Outcome State Fault Refusal :=
  match mget (fun _ => []) s.yflags st.val with
  | [] => done s
  | e :: t =>
    let s := s.advTo (e.1 + 1)
    let old := BitVec.ofNat 8 (s.fl F.STL_FLAGS.yardflag st.val)
    let new := (old &&& ~~~e.2.1) ||| (e.2.2 &&& e.2.1)
    done (((s.withYflags (mset (fun _ => []) s.yflags st.val t)).controlFlit 0).setFl F.STL_FLAGS.yardflag new.toNat st.val)

end Sys2Proof.Machine
end

