-- ==== Sys2Proof/Machine/Mgmt.lean ====
section
/-! DEFINITION. The management target: inbound fragments and the commands that they spell, outbound fragments, the alert
response, and transactions that are discarded (R43, R105, R106, R514–R516, R529). -/

namespace Sys2Proof.Machine

open Sys2Proof

/-! ### Inbound (R515) -/

/-- The effect of a DCP message that the target received: that of its command. Every other constructor is no DCP message. -/
def dcpEffect (i : Instr) (s : State) : Host.Outcome State Fault Refusal :=
  match i with
  | .hello h client leaseMs flags => execHello h client leaseMs flags s
  | .claim h prio => execClaim h prio s
  | .release h => execRelease h s
  | .grant h toSession => execGrant h toSession s
  | .renew h leaseMs => execRenew h leaseMs s
  | .bye h => execBye h s
  | .opStatus h op => execOpStatus h op s
  | .readReg h addr count => execReadReg h addr count s
  | .writeReg h addr count values => execWriteReg h addr count values s
  | .modifyReg h addr mask value => execModifyReg h addr mask value s
  | .readRegList h count addrs => execReadRegList h count addrs s
  | .writeMem h addr len data => execWriteMem h addr len data s
  | .readMem h addr len => execReadMem h addr len s
  | .fillMem h addr len pattern => execFillMem h addr len pattern s
  | .copyMem h src dst len => execCopyMem h src dst len s
  | .loadSeq h table entries => execLoadSeq h table entries s
  | .start h mode acq source sourceIndex firstEntry => execStart h mode acq source sourceIndex firstEntry s
  | .stop h atWhen => execStop h atWhen s
  | .arm h => execArm h s
  | .status h => execStatus h s
  | .setflag h mask value => execSetflag h mask value s
  | .stallReset h => execStallReset h s
  | .streamOpen h queue maxPayload limit flushUs => execStreamOpen h queue maxPayload limit flushUs s
  | .credit h queue ack limit => execCredit h queue ack limit s
  | .streamClose h queue => execStreamClose h queue s
  | .rewind h queue fromSeq => execRewind h queue fromSeq s
  | .calRun h items count channels => execCalRun h items count channels s
  | .calRead h channel item => execCalRead h channel item s
  | .calCommit h => execCalCommit h s
  | .selftestRun h tests => execSelftestRun h tests s
  | .selftestRead h => execSelftestRead h s
  | .yardLoad h kind slot image imageLen => execYardLoad h kind slot image imageLen s
  | .yardUnload h kind slot => execYardUnload h kind slot s
  | .yardSubmit h template flow plen data => execYardSubmit h template flow plen data s
  | .yardQuiesce h => execYardQuiesce h s
  | .yardResume h => execYardResume h s
  | .yardStatus h => execYardStatus h s
  | .timeRead h => execTimeRead h s
  | .timeSet h sec ns subns rate => execTimeSet h sec ns subns rate s
  | .timeStep h deltaNs => execTimeStep h deltaNs s
  | .alarmSet h alarm action sec ns periodNs => execAlarmSet h alarm action sec ns periodNs s
  | .alarmCancel h alarm => execAlarmCancel h alarm s
  | .tsqRead h port max => execTsqRead h port max s
  | .faultRead h => execFaultRead h s
  | .faultClear h stickyMask clearFirst => execFaultClear h stickyMask clearFirst s
  | .faultReaction h source reaction => execFaultReaction h source reaction s
  | .faultInject h source => execFaultInject h source s
  | .faultRelease h => execFaultRelease h s
  | .tackRead h offset len => execTackRead h offset len s
  | .tackWrite h offset len data => execTackWrite h offset len data s
  | .fwWrite h offset len data => execFwWrite h offset len data s
  | .fwVerify h => execFwVerify h s
  | .fwActivate h => execFwActivate h s
  | .ident h => execIdent h s
  | .mcStatus h controller => execMcStatus h controller s
  | .rankRetire h controller rank => execRankRetire h controller rank s
  | .migStatus h => execMigStatus h s
  | .scrub h controller => execScrub h controller s
  | .creditFrame h queue ack limit => execCreditFrame h queue ack limit s
  | _ => done s

/-- A message is dropped and counted (R515). -/
def State.dropInbound (s : State) : State :=
  (s.withMgt { s.mgt with inPart := none }).bump F.OWN_DROP.count 1

/-- A complete message is handled as a frame (R515). -/
def State.inbound (s : State) (l : List Byte) : Host.Outcome State Fault Refusal :=
  match decodeDcp l with
  | .dropped => done s.dropInbound
  | .unknown h opcode => execDcpFrameDrop h (.reservedOpcode opcode) (s.withMgt { s.mgt with inPart := none })
  | .cmd i => dcpEffect i (s.withMgt { s.mgt with inPart := none })

/-- The target's own seven-bit address, 0b101_1aaa from the straps (R33, R43). -/
def State.busAddress (s : State) : Nat := 0x58 + s.fl F.DEV_STRAP.i2ca

/-- The target answers a transaction: it is on, and the controller addresses it (R43). -/
def State.busMine (s : State) : Bool := s.mgmtOn && s.mgt.to_.all (fun a => a.toNat == s.busAddress)

/-- The controller's transactions are at an address from now on: a block read is at that of the last block write (log 28). -/
def State.toBus (s : State) (a : BitVec 7) : State := s.withMgt { s.mgt with to_ := some a }

/-- BLOCK_WRITE: a 0xD0 fragment, byte 0 its flags (R514, R515); a transaction at another address is not answered (R43). -/
def execBlockWrite (frag : BusWrite) (pecOk : Bool) (s : State) : Host.Outcome State Fault Refusal :=
  let s := s.toBus frag.bus
  match frag.bytes with
  | [] => done s
  | b :: t =>
    if ! s.busMine then done s
    else if ! pecOk then done s.dropInbound
    else
      let part := if b.getLsbD 0 then some [] else s.mgt.inPart
      match part with
      | none => done s.dropInbound
      | some l =>
        if b.getLsbD 1 then s.inbound (l ++ t) else done (s.withMgt { s.mgt with inPart := some (l ++ t) })

/-! ### Outbound (R516) -/

/-- The next fragment of the oldest waiting message: its first-and-last byte and at most 254 bytes. -/
def Mgt.next (g : Mgt) : List Byte × Mgt :=
  match g.out with
  | [] => ([0], g)
  | m :: t =>
    let l := (msgBytes m).drop g.pos
    let last := decide (l.length ≤ 254)
    let f := BitVec.ofNat 8 (bit (g.pos == 0) + 2 * bit last) :: l.take 254
    (f, if last then { g with out := t, pos := 0 } else { g with pos := g.pos + 254 })

/-- BLOCK_READ: 0xD1 takes the next fragment; a message leaves when its last fragment has been read (R514, R516). -/
def execBlockRead (s : State) : Host.Outcome State Fault Refusal :=
  if ! s.busMine then done s
  else
    let r := s.mgt.next
    done (s.withMgt { r.2 with last := some r.1, bus := r.1 })

/-- BLOCK_READ_REPEAT: 0xD2 repeats the last fragment (R514). -/
def execBlockReadRepeat (s : State) : Host.Outcome State Fault Refusal :=
  if ! s.busMine then done s else done (s.withMgt { s.mgt with bus := s.mgt.last.getD [0] })

/-- MGT_ALERT_L is driven low while a message waits (R516). -/
def State.alerting (s : State) : Bool := s.mgmtOn && ! s.mgt.out.isEmpty

/-- ALERT_RESPONSE: while it drives MGT_ALERT_L, the target answers with its own address (R33, R43, R516); the byte on the bus
is given as the seven-bit address. -/
def execAlertResponse (s : State) : Host.Outcome State Fault Refusal :=
  if s.alerting then done (s.withMgt { s.mgt with bus := [BitVec.ofNat 8 s.busAddress] })
  else done s

/-- SCL_LOW_TIMEOUT: the transaction is discarded; a message partly received is dropped (R515, R529). -/
def execSclLowTimeout (s : State) : Host.Outcome State Fault Refusal :=
  if s.mgmtOn && s.mgt.inPart.isSome then done s.dropInbound else done s

end Sys2Proof.Machine
end

