-- ==== Sys2Proof/Machine/Power.lean ====
section
/-! DEFINITION. Supplies, clocks, resets and start-up (R26–R33, R44–R76, R411, R412, R464, R525). -/

namespace Sys2Proof.Machine

open Sys2Proof

/-! ### Supply inputs (R46, R48, R49) -/

/-- An input that rises is in range: above 2.65 V and not above 5.75 V, in units of 25 mV (R46). -/
def inRange (v : BitVec 8) : Bool := decide (106 < v.toNat) && decide (v.toNat ≤ 230)

/-- An input is in range: it has risen above 2.65 V, or was in range and has not fallen below 2.55 V, and is not above 5.75 V
(R46). -/
def staysInRange (was : Bool) (v : BitVec 8) : Bool := inRange v || (was && decide (102 ≤ v.toNat) && decide (v.toNat ≤ 230))

/-- The in-range flag of an input. -/
def okFlag : Input → FRef
  | .vmain => F.PCR_SUPPLY_STAT.vmain_ok
  | .vaux => F.PCR_SUPPLY_STAT.vaux_ok

/-- The voltage field of an input. -/
def voltField : Input → FRef
  | .vmain => F.PCR_SUPPLY_STAT.vmain_v
  | .vaux => F.PCR_SUPPLY_STAT.vaux_v

/-- The code of an input in fault details: 0 VMAIN, 1 VAUX. -/
def inputCode : Input → Nat
  | .vmain => 0
  | .vaux => 1

/-- The other input. -/
def otherInput : Input → Input
  | .vmain => .vaux
  | .vaux => .vmain

/-- The input that the part runs from. -/
def State.selected (s : State) : Input := if s.flag F.PCR_SUPPLY_STAT.on_vaux then .vaux else .vmain

/-! ### What a reset keeps (R57) -/

/-- Registers that keep their stored value. -/
def State.keepRegs (s old : State) (l : List R) : State := l.foldl (fun s r => s.setRg r (old.rg r)) s

/-- The condition sources that a reset leaves to their detectors: supply redundancy, lost clocks, temperature, and over a warm
reset, which leaves the rails on, the rails (R47, R477). -/
def keepCond (s : State) (warm : Bool) : SMap Bool :=
  mclear (fun n => ! (n == 8 || n == 9 || n == 10 || n == 147 || (warm && decide (n ≤ 6)))) s.condOn

/-- Reports of a switch-over, which no reset or start-up holds back (R60). -/
def switchReports (l : List Report) : List Report := l.filter (fun r => r.src == 7)

/-- The part is held in cold reset with the given bit of PCR_RESET_CAUSE; supply readings, the presence of REFCLK and the
tack store stay (R26, R56, R57, R59). -/
def State.coldTo (s : State) (cause : Nat) : State :=
  let t : State := { State.reset with
    pending := s.pending, out := s.out, now := s.now, freeCtr := s.freeCtr, tack := s.tack, trigIn := s.trigIn
    tap := s.tap, wrstLow := s.wrstLow, fwWritten := s.fwWritten, reports := switchReports s.reports
    condOn := keepCond s false, condDet := s.condDet, vmainAt := s.vmainAt }
  let t := t.keepRegs s [.DEV_STEP, .PCR_SUPPLY_STAT]
  let t := (t.setFl F.PCR_SUPPLY_STAT.switch_count 0).setFl F.PCR_CLK_STAT.refclk_present (s.fl F.PCR_CLK_STAT.refclk_present)
  t.setRg .PCR_RESET_CAUSE (2 ^ cause)

/-- The supply-loss record (R49, R518). -/
def State.lossRecord (s : State) : State :=
  let first := s.rg .FLC_FIRST
  s.setTack 0x10100 (record64 (leBytes 8 s.cnt.toNat ++ leBytes 1 (s.rg .PCR_RESET_CAUSE)
    ++ leBytes 1 (bitsOf first 7 0) ++ leBytes 1 (bitsOf first 13 8) ++ [0] ++ leBytes 2 (s.rg .FLC_FIRST_DETAIL) ++ [0, 0]
    ++ leBytes 8 (s.rg64 .FLC_FIRST_TAG_LO .FLC_FIRST_TAG_HI) ++ leBytes 1 (s.rg .PCR_RAIL_STAT % 128)))

/-- Supply loss: outputs high-impedance, the record written, the part held in cold reset (R49). -/
def State.supplyLoss (s : State) : State := s.lossRecord.coldTo 1

/-- The bit of PCR_RESET_CAUSE of a warm reset (R77). -/
def warmBit : WarmCause → Nat
  | .pin => 2
  | .cmd => 3
  | .fault => 4
  | .clock => 5

/-- Registers that keep their value across a warm reset (R31, R57, R77, R481). -/
def warmKept : List R :=
  [.DEV_STEP, .DEV_STRAP, .DEV_TEMP, .PCR_SUPPLY_STAT, .PCR_CLK_STAT, .PCR_BOOT_STAT, .MC_SYS_CFG, .FLC_FIRST,
    .FLC_FIRST_TAG_LO, .FLC_FIRST_TAG_HI, .FLC_FIRST_DETAIL]

/-- Every rank of the interleave set is in self-refresh (R58). -/
def State.sleepAll (s : State) : State :=
  s.dram.set.foldl (fun s m => s.setFl F.MC_STAT.self_refresh (2 ^ (bitsOf (s.useCfg m) 1 0 + 1) - 1) m) s

/-- The part is held in warm reset: the ranks in self-refresh, the outputs released, sessions cleared, queues lost, stalls
stopped, the registers reset but for those that are kept (R26, R57–R59, R75). -/
def State.warmTo (s : State) (c : WarmCause) : State :=
  let t : State := { State.reset with
    pending := s.pending, out := s.out, now := s.now, cnt := s.cnt, freeCtr := s.freeCtr, phase := .warmHold
    startIn := s.startIn, everReady := s.everReady, clockStopped := s.clockStopped, tack := s.tack, trigIn := s.trigIn
    tap := s.tap, wrstLow := s.wrstLow, fwWritten := s.fwWritten, reports := switchReports s.reports
    condOn := keepCond s true, condDet := s.condDet, vmainAt := s.vmainAt
    mem := s.mem, psn := s.psn, err := s.err, inited := s.inited, wrote := s.wrote, dram := s.dram, dead := s.dead
    mig := s.mig.map (fun (g : Mig) => { g with paused := true, w := g.w / 2 ^ 20 * 2 ^ 20 })
    ofs := s.ofs, rate := s.rate, rateLo := s.rateLo, nextInst := s.nextInst, yended := s.yended }
  let t := (t.keepRegs s warmKept).setRg .PCR_RAIL_STAT (s.rg .PCR_RAIL_STAT % 128)
  let t := (List.range 6).foldl (fun t m => t.setRg .MC_CFG (s.rg .MC_CFG m) m) t
  let t := (t.setFlag F.FLC_STAT.alarm (s.flag F.FLC_STAT.alarm)).setFlag F.TB_STAT.valid
    (s.flag F.TB_STAT.valid && decide (c ≠ .clock))
  (t.setRg .PCR_RESET_CAUSE (2 ^ warmBit c)).sleepAll

/-- A warm reset begins. Before the first host-ready after a cold reset the start-up restarts as a cold start, with the
sampled straps; in cold reset nothing further happens (R31, R60). -/
def State.beginWarm (s : State) (c : WarmCause) : State :=
  if s.phase == .coldHold then s
  else if s.everReady then s.warmTo c
  else (s.coldTo (warmBit c)).keepRegs s [.DEV_STRAP]

/-! ### Reset commands (R56–R60, R78, R482) -/

/-- The filter of PORST_L and WRST_L: whether a low level of `ns` nanoseconds starts a reset. One below 20 ns does not, one of
50 ns or longer does; in between a free value decides (R525, log 3). -/
def State.pinFilter (s : State) (ns : Nat) : Bool × State :=
  if ns < 20 then (false, s)
  else if 50 ≤ ns then (true, s)
  else
    let d := s.draw 1
    (d.1 == 1, d.2)

/-- COLD_RESET: PORST_L low for `low` ns, which a part that holds itself in cold reset after a supply loss does not count as a reset of its
own (R50, R63, log 86); the accepted command, 1 ms after its reply; a supply loss when no input is in range. -/
def execColdReset (cause : ColdCause) (s : State) : Host.Outcome State Fault Refusal :=
  match cause with
  | .porst low =>
    let f := s.pinFilter low.toNat
    if ! f.1 || (s.phase == .coldHold && s.flag F.PCR_RESET_CAUSE.cold_supply) then done f.2 else done (f.2.coldTo 0)
  | .cmd =>
    match s.resetAt with
    | some (t, .cold) => done ((s.advTo t).coldTo 0)
    | _ => done s
  | .supply =>
    if s.flag F.PCR_SUPPLY_STAT.vmain_ok || s.flag F.PCR_SUPPLY_STAT.vaux_ok || s.flag F.PCR_RESET_CAUSE.cold_supply then done s
    else done s.supplyLoss

/-- The accepted reset that is a warm reset of the given cause, when its moment comes. -/
def State.dueWarm (s : State) (c : WarmCause) : Option State :=
  match s.resetAt with
  | some (t, .warm d) => if d = c then some (s.advTo t) else none
  | _ => none

/-- WARM_RESET: WRST_L low for `low` ns, which holds the part until WARM_START; the accepted command, 1 ms after its reply; the fault
reaction; a lost clock, whose own events are REFCLK_LOSS and PLL_UNLOCK. -/
def execWarmReset (cause : WarmRequest) (s : State) : Host.Outcome State Fault Refusal :=
  match cause with
  | .pin low =>
    let f := s.pinFilter low.toNat
    if f.1 then done ((f.2.withWrstLow true).beginWarm .pin) else done f.2
  | .clock => if s.clockStopped then done (s.beginWarm .clock) else done s
  | .cmd =>
    match s.dueWarm .cmd with
    | some t => done (t.beginWarm .cmd)
    | none => done s
  | .fault =>
    match s.dueWarm .fault with
    | some t => done (t.beginWarm .fault)
    | none => done s

/-- DEVICE_RESET: 100 µs after the reaction a warm reset begins (R482). -/
def execDeviceReset (s : State) : Host.Outcome State Fault Refusal :=
  match s.dueWarm .fault with
  | some t => done (t.beginWarm .fault)
  | none => done s

/-! ### Start-up (R63–R72, R75, R76, R411, R412, R464) -/

/-- Step 4: the collector is armed, and every condition that holds activates (R64, R477). -/
def State.arm (s : State) : State :=
  s.condOn.foldl (fun s e => if e.2 then s.raise e.1 (s.condDetail e.1) else s) s

/-- The DDR5 outputs of the given controllers take their first driven states: CSx_L and RESET_L high (R28). -/
def State.driveDram (s : State) (l : List Nat) : State :=
  let m := BitVec.ofNat 6 (maskOf 6 (fun k => l.contains k))
  s.withDrive { s.drive with ddr := m, ddrCs := m, ddrReset := m }

/-- Step 6: identity from the tack store (R64, R508, R517). -/
def State.loadIdentity (s : State) : State :=
  let s := s.setRg64 .DEV_SERIAL_LO .DEV_SERIAL_HI (s.tackLe 8 8)
  (s.setRg .DEV_MAC_LO (s.tackLe 16 4)).setRg .DEV_MAC_HI (s.tackLe 20 2)

/-- Step 6: the saved DRAM configuration; without a valid record no controller is enabled (R406, R518). -/
def State.loadDramCfg (s : State) : State :=
  let r := (s.record 0x10400).getD []
  let s := s.setRg .MC_SYS_CFG (ofLe (r.take 4))
  (List.range 6).foldl (fun s m => s.setRg .MC_CFG (ofLe ((r.drop (4 + 4 * m)).take 4)) m) s

/-- Step 6: the retirement map of a controller. After a cold start a rank whose migration had started counts as retired
(R75, R518). -/
def State.loadMap (s : State) (cold : Bool) (m : Nat) : State :=
  let r := (s.record (0x10200 + 0x40 * m)).getD []
  let st := ofLe (r.take 1)
  let rank := ofLe ((r.drop 1).take 1)
  let spare := ofLe ((r.drop 2).take 1)
  if st = 0 then s
  else
    let s := (s.setFlag F.MC_STAT.spare_used true m).setFl F.MC_STAT.spare_rank spare m
    if st = 2 ∨ cold then
      let s := (s.setFlag F.MC_STAT.retired_valid true m).setFl F.MC_STAT.retired_rank rank m
      if st = 2 then s else s.saveMap m 2 rank spare
    else s

/-- Step 7a of a cold start: the enabled controllers train; those that pass form the interleave set (R407, R411, R72). -/
def State.trainCold (s : State) (trained : BitVec 6) : State :=
  let en := if s.flag F.DEV_STRAP.nodram then [] else (List.range 6).filter (fun m => s.flag F.MC_CFG.enable m)
  let set := en.filter (fun m => trained.getLsbD m)
  let s := (s.withDram ⟨(List.range 6).map (fun m => BitVec.ofNat 32 (s.rg .MC_CFG m)), s.fl F.MC_SYS_CFG.rate, set⟩).driveDram en
  let s := (en.filter (fun m => ! trained.getLsbD m)).foldl (fun s m => s.raise (13 + m) m) s
  set.foldl State.startTimers (s.setFl F.PCR_CLK_STAT.mc_pll_lock (set.foldl (fun a m => a + 2 ^ m) 0))

/-- Step 7a of a warm start: each member leaves self-refresh and is rechecked; one that fails retrains after host-ready, and a
retired rank stays in self-refresh (R412, R434). -/
def State.recheck (s : State) (trained : BitVec 6) : State :=
  let s := s.driveDram s.dram.set
  s.dram.set.foldl
    (fun s m =>
      let keep := if s.flag F.MC_STAT.retired_valid m then 2 ^ s.fl F.MC_STAT.retired_rank m else 0
      let s := (s.setFl F.MC_STAT.self_refresh keep m).startTimers m
      if trained.getLsbD m then s else (s.setFlag F.MC_STAT.retraining true m).raise (13 + m) m) s

/-- Step 7b: the timing die passes, and the calibration records are loaded, or fails (R64, R73, R464). -/
def State.timingStep (s : State) (inp : StartIn) : State :=
  let s := (s.setFl F.DEV_TEMP.tj_sys inp.tjSys.toNat).setFlag F.DEV_TEMP.tim_valid inp.timingOk
  if inp.timingOk then
    let s := (s.setFl F.DEV_TEMP.tj_tim inp.tjTim.toNat).setFlag F.PCR_SERVICE.timing_die_ok true
    s.loadRecords.withDrive { s.drive with tim := true }
  else
    let s := (s.setFlag F.PCR_SERVICE.timing_die_ok false).setCond 11 true
    (s.withCondDet (mset (fun _ => 0) s.condDet 11 0)).raise 11 0

/-- Step 7c: the host lanes take their strapped settings (R33, R64, R77). -/
def State.lanesStep (s : State) : State :=
  (List.range 8).foldl (fun s k => ((s.laneDefaults k).takeSettings k).laneStart k false) s

/-- Step 7d: a migration resumes from its checkpoint (R75, R434). -/
def State.resumeMig (s : State) : State :=
  match s.mig with
  | none => s
  | some g =>
    let s := s.withMig (some { g with paused := false })
    (s.setFlag F.PCR_RESET_CAUSE.migration_resumed true).event (s.ownerOf devRes) 5 0xff
      [1, BitVec.ofNat 8 g.m, BitVec.ofNat 8 g.rank]

/-- The boot ROM serves alone: both slots failed, and the management target and HL0, unless STRAP_MGMT keeps the lanes down,
take firmware (R33, R67). -/
def State.stayInRom (s : State) : State := (((s.withPhase .bootRom).laneDefaults 0).takeSettings 0).laneStart 0 false

/-- Steps 6 and 7. -/
def State.startService (s : State) (inp : StartIn) (cold : Bool) : State :=
  let s := s.loadIdentity.loadDramCfg
  let s := (List.range 6).foldl (fun s m => s.loadMap cold m) s
  let s := if cold then s.trainCold inp.trained else s.recheck inp.trained
  ((s.timingStep inp).lanesStep).resumeMig

/-- Step 5: the slot that boots, by the pointer record or by fallback. The other slot is marked invalid when it was written
and not verified since, and else valid as its content verifies (R67, R75–R77, log 85). -/
def State.bootStep (s : State) (inp : StartIn) (cold : Bool) : State :=
  let a := s.bootSlot
  let b := 1 - a
  let back := ! s.slotVerifies a
  let other := s.slotVerifies b && (back || ! tbit s.fwWritten.toNat b)
  let s := (s.setFlag (slotValid a) (! back)).setFlag (slotValid b) other
  if back && ! other then (s.setFl F.PCR_BOOT_STAT.active_slot a).stayInRom
  else
    let k := if back then b else a
    let s := (s.setFl F.PCR_BOOT_STAT.active_slot k).setFlag F.PCR_BOOT_STAT.fallback back
    let s := s.setFl F.PCR_BOOT_STAT.build (Config.build (s.slotImage k)).toNat
    (s.setFlag F.PCR_RESET_CAUSE.boot_fallback back).startService inp cold

/-- Steps 4 to 7: the control core starts, and its outputs take their first driven states, MOSI low; a strap error stops it in
the boot ROM (R28, R33, R64). -/
def State.startCore (s : State) (inp : StartIn) (cold : Bool) : State :=
  let s := (s.withDrive { s.drive with ctl := true, mosi := 0 }).withPhase (if cold then .coldUp else .warmUp)
  let s := s.arm
  if s.flag F.DEV_STRAP.rsvd then s.withPhase .strapStop else s.bootStep inp cold

/-- COLD_START: PORST_L rises with an input in range. Straps are sampled, unless a warm reset restarted the start-up, the
input is selected and the rails ramp (R31, R46–R48, R60, R63, R64 steps 1 and 2). While WRST_L is low the start-up does not
begin: the low level is a warm reset request before the first host-ready (R26, R60, log 86). -/
def execColdStart (inp : StartIn) (s : State) : Host.Outcome State Fault Refusal :=
  let main := staysInRange (s.flag F.PCR_SUPPLY_STAT.vmain_ok) inp.vmainV
  let aux := staysInRange (s.flag F.PCR_SUPPLY_STAT.vaux_ok) inp.vauxV
  if s.phase == .coldHold && (main || aux) then
    let s := if s.rg .PCR_RESET_CAUSE / 4 % 16 = 0 then s.setRg .DEV_STRAP inp.straps.toNat else s
    let s := (s.setFlag F.PCR_SUPPLY_STAT.vmain_ok main).setFlag F.PCR_SUPPLY_STAT.vaux_ok aux
    let s := (s.setFl F.PCR_SUPPLY_STAT.vmain_v inp.vmainV.toNat).setFl F.PCR_SUPPLY_STAT.vaux_v inp.vauxV.toNat
    let s := s.setFlag F.PCR_SUPPLY_STAT.on_vaux (! main)
    if s.wrstLow then done (s.setRg .PCR_RESET_CAUSE (2 ^ warmBit .pin))
    else done (((s.withPhase .coldRails).withStartIn (some inp)).setFl F.PCR_RAIL_STAT.rail_ok 127)
  else done s

/-- ROOT_PLL_LOCK: steps 3 to 7 of a cold start; the time base starts at 0 with offset and rate 0 (R52, R64, R65, R440). -/
def execRootPllLock (s : State) : Host.Outcome State Fault Refusal :=
  match s.phase, s.startIn with
  | .coldRails, some inp =>
    let s := (s.setFlag F.PCR_CLK_STAT.refclk_present true).setFlag F.PCR_CLK_STAT.root_lock true
    let s := (s.setCond 9 false).setCond 10 false
    done (((s.withClockStopped false).withCnt 0).startCore inp true)
  | _, _ => done s

/-- HOST_READY: steps 7a to 7d have ended; READY rises, while an input is in range and the clocks run (R64, R70, R71). -/
def execHostReady (s : State) : Host.Outcome State Fault Refusal :=
  if (s.phase == .coldUp || s.phase == .warmUp) && ! s.clockStopped
      && (s.flag F.PCR_SUPPLY_STAT.vmain_ok || s.flag F.PCR_SUPPLY_STAT.vaux_ok) then
    done ((s.withPhase .ready).withEverReady true)
  else done s

/-- WARM_START: the warm-reset request ends, a low WRST_L with it; the warm start follows unless the clocks are stopped (R54,
R69, R75). -/
def execWarmStart (inp : StartIn) (s : State) : Host.Outcome State Fault Refusal :=
  let s := s.withWrstLow false
  if s.phase == .warmHold && ! s.clockStopped then done (s.startCore inp false) else done s

/-! ### Supply events (R46, R48–R50) -/

/-- INPUT_LEAVES_RANGE: a switch-over, a redundancy fault, or a supply loss, during a reset or start-up as well (R48, R60). -/
def execInputLeavesRange (i : Input) (loss : InputLoss) (s : State) : Host.Outcome State Fault Refusal :=
  if ! s.flag (okFlag i) then done s
  else
    let t := (s.setFlag (okFlag i) false).setFl (voltField i) loss.volts.toNat
    let t := match loss.other with
      | some v => (t.setFlag (okFlag (otherInput i)) false).setFl (voltField (otherInput i)) v.toNat
      | none => t
    if ! t.flag (okFlag (otherInput i)) then done t.supplyLoss
    else if s.selected = i then
      let t := (t.setFlag F.PCR_SUPPLY_STAT.on_vaux (decide (i = .vmain))).bump F.PCR_SUPPLY_STAT.switch_count 1
      done (t.raise 7 (inputCode (otherInput i)))
    else done ((t.setCond 8 true).raise 8 (inputCode i))

/-- INPUT_ENTERS_RANGE: the input's voltage rises above 2.65 V; redundancy returns when the unselected input does. The first
input that enters range while neither is in range becomes the selected one (R48). -/
def execInputEntersRange (i : Input) (volts : BitVec 8) (s : State) : Host.Outcome State Fault Refusal :=
  let t := s.setFl (voltField i) volts.toNat
  if ! inRange volts || s.flag (okFlag i) then done t
  else
    let t := if ! t.flag (okFlag (otherInput i)) then t.setFlag F.PCR_SUPPLY_STAT.on_vaux (decide (i = .vaux)) else t
    let t := t.setFlag (okFlag i) true
    let t := if i = .vmain then t.withVmainAt t.now else t
    if t.cond 8 && t.selected ≠ i then done (t.endCond 8) else done t

/-- RETURN_TO_VMAIN: VMAIN has stayed in range for return_delay and no hold is set (R48). -/
def execReturnToVmain (s : State) : Host.Outcome State Fault Refusal :=
  if s.flag F.PCR_SUPPLY_STAT.on_vaux && s.flag F.PCR_SUPPLY_STAT.vmain_ok && ! s.flag F.PCR_SUPPLY_CTL.return_hold
      && s.phase != .coldHold then
    done ((s.advTo (s.vmainAt + max 1 (s.fl F.PCR_SUPPLY_CTL.return_delay) * msCyc)).toVmain)
  else done s

/-! ### Clock events (R53–R55) -/

/-- A clock is lost after step 3 of the start-up: the source is raised, the loss is marked, and a warm reset follows that
lasts until the clock is back; the time base stands still (R54, R55). -/
def State.clockLoss (s : State) (src : Nat) : State :=
  let s := ((s.setCond src true).setFlag F.PCR_CLK_STAT.refclk_lost true).raise src 0
  (s.settle.withClockStopped true).beginWarm .clock

/-- REFCLK_LOSS (R54). -/
def execRefclkLoss (s : State) : Host.Outcome State Fault Refusal :=
  if ! s.flag F.PCR_CLK_STAT.refclk_present then done s
  else
    let t := s.setFlag F.PCR_CLK_STAT.refclk_present false
    if s.clockStopped then done t else done (t.clockLoss 9)

/-- PLL_UNLOCK: the root PLL loses lock while REFCLK is present (R55). -/
def execPllUnlock (s : State) : Host.Outcome State Fault Refusal :=
  if ! s.flag F.PCR_CLK_STAT.root_lock || ! s.flag F.PCR_CLK_STAT.refclk_present || s.clockStopped then done s
  else done ((s.setFlag F.PCR_CLK_STAT.root_lock false).clockLoss 10)

/-- A lost clock is back. The clocks run again once REFCLK is present and the root PLL has lock, and a warm start follows when
the part waits for it in warm reset and WRST_L is not low (R26, R54, R55, R69). -/
def State.clockBack (s : State) (src : Nat) (inp : StartIn) : State :=
  let s := s.endCond src
  if s.phase == .warmHold && s.clockStopped && s.flag F.PCR_CLK_STAT.root_lock then
    let s := s.withClockStopped false
    if s.wrstLow then s else s.startCore inp false
  else s

/-- REFCLK_RETURN: REFCLK has been present for 1 ms (R54). -/
def execRefclkReturn (inp : StartIn) (s : State) : Host.Outcome State Fault Refusal :=
  if s.flag F.PCR_CLK_STAT.refclk_present then done s
  else done ((s.setFlag F.PCR_CLK_STAT.refclk_present true).clockBack 9 inp)

/-- PLL_RELOCK: the root PLL has relocked (R55). -/
def execPllRelock (inp : StartIn) (s : State) : Host.Outcome State Fault Refusal :=
  if s.flag F.PCR_CLK_STAT.root_lock || ! s.flag F.PCR_CLK_STAT.refclk_present then done s
  else done ((s.setFlag F.PCR_CLK_STAT.root_lock true).clockBack 10 inp)

/-! ### Test access port (R44) -/

/-- JTAG_TRST: the level of JTAG_TRST_L; low holds the test access port in Test-Logic-Reset, and the part's function is
unaffected. -/
def execJtagTrst (low : Bool) (s : State) : Host.Outcome State Fault Refusal := done (s.withTap (s.tap.trstTo low))

end Sys2Proof.Machine
end

