-- ==== Sys2Proof/Machine/RegCmds.lean ====
section
/-! DEFINITION. The rows of the table that are a WRITE_REG of one register with an effect of its own. Each is WRITE_REG
with count 1 (R127, R500); what the write does is in RegWrite.lean. -/

namespace Sys2Proof.Machine

open Sys2Proof

/-! ### Resets (R56, R60, R61, R77, R78) -/

/-- WRITE_REG to PCR_RESET_CTL that asks for a warm reset: it begins 1 ms after the reply (R78). -/
def execPcrResetCtlWarm (h : Hdr) (value : Word) (s : State) : Host.Outcome State Fault Refusal :=
  done (s.oneReg h (.pcrResetCtlWarm h value) (R.addr .PCR_RESET_CTL) value.toNat)

/-- WRITE_REG to PCR_RESET_CTL that asks for a cold reset: it begins 1 ms after the reply (R78). -/
def execPcrResetCtlCold (h : Hdr) (value : Word) (s : State) : Host.Outcome State Fault Refusal :=
  done (s.oneReg h (.pcrResetCtlCold h value) (R.addr .PCR_RESET_CTL) value.toNat)

/-- WRITE_REG to PCR_BLOCK_RST that resets a host lane (R60, R61). -/
def execBlockRstHl (h : Hdr) (k : LaneIx) (s : State) : Host.Outcome State Fault Refusal :=
  done (s.oneReg h (.blockRstHl h k) (R.addr .PCR_BLOCK_RST) (2 ^ k.val))

/-- WRITE_REG to PCR_BLOCK_RST that resets a DRAM controller (R60, R61, R436). -/
def execBlockRstMc (h : Hdr) (m : McIx) (s : State) : Host.Outcome State Fault Refusal :=
  done (s.oneReg h (.blockRstMc h m) (R.addr .PCR_BLOCK_RST) (2 ^ (8 + m.val)))

/-- WRITE_REG to PCR_BLOCK_RST that resets the queue manager (R60, R61, R378). -/
def execBlockRstQm (h : Hdr) (s : State) : Host.Outcome State Fault Refusal :=
  done (s.oneReg h (.blockRstQm h) (R.addr .PCR_BLOCK_RST) (2 ^ 14))

/-- WRITE_REG to PCR_BLOCK_RST that resets the Yard (R60, R61, R401). -/
def execBlockRstYrd (h : Hdr) (s : State) : Host.Outcome State Fault Refusal :=
  done (s.oneReg h (.blockRstYrd h) (R.addr .PCR_BLOCK_RST) (2 ^ 15))

/-- WRITE_REG to PCR_BLOCK_RST that resets the acquisition engine (R60, R61, R303). -/
def execBlockRstAcq (h : Hdr) (s : State) : Host.Outcome State Fault Refusal :=
  done (s.oneReg h (.blockRstAcq h) (R.addr .PCR_BLOCK_RST) (2 ^ 16))

/-- WRITE_REG to PCR_BLOCK_RST that resets the decimation chains (R60, R61). -/
def execBlockRstFlt (h : Hdr) (s : State) : Host.Outcome State Fault Refusal :=
  done (s.oneReg h (.blockRstFlt h) (R.addr .PCR_BLOCK_RST) (2 ^ 17))

/-- WRITE_REG to PCR_BLOCK_RST that resets the time-interval units (R60, R61). -/
def execBlockRstTim (h : Hdr) (s : State) : Host.Outcome State Fault Refusal :=
  done (s.oneReg h (.blockRstTim h) (R.addr .PCR_BLOCK_RST) (2 ^ 18))

/-- WRITE_REG to PCR_BLOCK_RST that resets the framers (R60, R61). -/
def execBlockRstFrm (h : Hdr) (s : State) : Host.Outcome State Fault Refusal :=
  done (s.oneReg h (.blockRstFrm h) (R.addr .PCR_BLOCK_RST) (2 ^ 19))

/-- WRITE_REG to PCR_BLOCK_RST that resets the calibration engine (R60, R61, R467). -/
def execBlockRstCal (h : Hdr) (s : State) : Host.Outcome State Fault Refusal :=
  done (s.oneReg h (.blockRstCal h) (R.addr .PCR_BLOCK_RST) (2 ^ 20))

/-! ### Supplies and host lanes (R48, R84, R96–R101) -/

/-- WRITE_REG to PCR_SUPPLY_CTL, whose force_return returns to VMAIN at once (R48). -/
def execForceReturn (h : Hdr) (value : Word) (s : State) : Host.Outcome State Fault Refusal :=
  done (s.oneReg h (.forceReturn h value) (R.addr .PCR_SUPPLY_CTL) value.toNat)

/-- WRITE_REG to HP_PORT_CTL[k] (R84, R96). -/
def execHpPortCtlWrite (h : Hdr) (k : LaneIx) (value : Word) (s : State) : Host.Outcome State Fault Refusal :=
  done (s.oneReg h (.hpPortCtlWrite h k value) (R.addr .HP_PORT_CTL k.val) value.toNat)

/-- WRITE_REG to HP_PORT_CTL[k] with restart: the lane starts again (R96). -/
def execRestart (h : Hdr) (k : LaneIx) (value : Word) (s : State) : Host.Outcome State Fault Refusal :=
  done (s.oneReg h (.restart h k value) (R.addr .HP_PORT_CTL k.val) value.toNat)

/-- WRITE_REG to HP_REF_CTL[k] (R84, R96). -/
def execHpRefCtlWrite (h : Hdr) (k : LaneIx) (value : Word) (s : State) : Host.Outcome State Fault Refusal :=
  done (s.oneReg h (.hpRefCtlWrite h k value) (R.addr .HP_REF_CTL k.val) value.toNat)

/-- WRITE_REG to HP_TEST_CTL[k] that sets or clears a test loop (R98, R99). -/
def execTestLoopSet (h : Hdr) (k : LaneIx) (value : Word) (s : State) : Host.Outcome State Fault Refusal :=
  done (s.oneReg h (.testLoopSet h k value) (R.addr .HP_TEST_CTL k.val) value.toNat)

/-- WRITE_REG to HP_TEST_CTL[k] that starts or stops the pattern generator (R100). -/
def execPrbsGen (h : Hdr) (k : LaneIx) (value : Word) (s : State) : Host.Outcome State Fault Refusal :=
  done (s.oneReg h (.prbsGen h k value) (R.addr .HP_TEST_CTL k.val) value.toNat)

/-- WRITE_REG to HP_TEST_CTL[k] that starts or stops the pattern checker (R100). -/
def execPrbsChk (h : Hdr) (k : LaneIx) (value : Word) (s : State) : Host.Outcome State Fault Refusal :=
  done (s.oneReg h (.prbsChk h k value) (R.addr .HP_TEST_CTL k.val) value.toNat)

/-! ### DCP transports, partition and stall flags (R140, R143–R147, R152) -/

/-- WRITE_REG to OWN_CTL: the change applies 1 ms after the reply (R140). -/
def execOwnCtlWrite (h : Hdr) (value : Word) (s : State) : Host.Outcome State Fault Refusal :=
  done (s.oneReg h (.ownCtlWrite h value) (R.addr .OWN_CTL) value.toNat)

/-- WRITE_REG to OWN_UDP: the change applies 1 ms after the reply (R140). -/
def execOwnUdpWrite (h : Hdr) (value : Word) (s : State) : Host.Outcome State Fault Refusal :=
  done (s.oneReg h (.ownUdpWrite h value) (R.addr .OWN_UDP) value.toNat)

/-- WRITE_REG to DEV_PART[s] (R143–R147). -/
def execDevPartWrite (h : Hdr) (st : StallIx) (value : Word) (s : State) : Host.Outcome State Fault Refusal :=
  done (s.oneReg h (.devPartWrite h st value) (R.addr .DEV_PART st.val) value.toNat)

/-- WRITE_REG to STL_FLAGS[s]: the host flags (R152). -/
def execStlFlagsWrite (h : Hdr) (st : StallIx) (value : Word) (s : State) : Host.Outcome State Fault Refusal :=
  done (s.oneReg h (.stlFlagsWrite h st value) (R.addr .STL_FLAGS st.val) value.toNat)

/-! ### Time base (R240, R243, R444–R447) -/

/-- WRITE_REG to TB_SYNC_CTL with emit: a SYNC pulse is scheduled (R240). -/
def execEmit (h : Hdr) (value : Word) (s : State) : Host.Outcome State Fault Refusal :=
  done (s.oneReg h (.emit h value) (R.addr .TB_SYNC_CTL) value.toNat)

/-- WRITE_REG to TB_SYNC_CTL that changes meas_en: TIM0 begins or ends the SYNC measurement (R243, R332). -/
def execMeasEnWrite (h : Hdr) (value : Word) (s : State) : Host.Outcome State Fault Refusal :=
  done (s.oneReg h (.measEnWrite h value) (R.addr .TB_SYNC_CTL) value.toNat)

/-- WRITE_REG to TB_SYNC_TRIM (R241, R243). -/
def execTbSyncTrimWrite (h : Hdr) (value : Word) (s : State) : Host.Outcome State Fault Refusal :=
  done (s.oneReg h (.tbSyncTrimWrite h value) (R.addr .TB_SYNC_TRIM) value.toNat)

/-- WRITE_REG to TB_RATE_HI: the rate takes effect with the held low half (R444). -/
def execTbRateHiWrite (h : Hdr) (value : Word) (s : State) : Host.Outcome State Fault Refusal :=
  done (s.oneReg h (.tbRateHiWrite h value) (R.addr .TB_RATE_HI) value.toNat)

/-- WRITE_REG to TB_PTP_CTL[k] (R447). -/
def execPtpRoleWrite (h : Hdr) (k : LaneIx) (value : Word) (s : State) : Host.Outcome State Fault Refusal :=
  done (s.oneReg h (.ptpRoleWrite h k value) (R.addr .TB_PTP_CTL k.val) value.toNat)

/-! ### Acquisition, time intervals, queues (R304, R323, R324, R363, R364) -/

/-- WRITE_REG to ACQ_SOFT[s]: a software trigger (R304). -/
def execAcqSoftTrig (h : Hdr) (st : StallIx) (s : State) : Host.Outcome State Fault Refusal :=
  done (s.oneReg h (.acqSoftTrig h st) (R.addr .ACQ_SOFT st.val) 1)

/-- WRITE_REG to TIM_ARM[u]: a gate opening (R323). -/
def execTimArmWrite (h : Hdr) (u : Fin 16) (s : State) : Host.Outcome State Fault Refusal :=
  done (s.oneReg h (.timArmWrite h u) (R.addr .TIM_ARM u.val) 1)

/-- WRITE_REG to TIM_CTL[u] (R324). -/
def execTimCtlEnWrite (h : Hdr) (u : Fin 16) (value : Word) (s : State) : Host.Outcome State Fault Refusal :=
  done (s.oneReg h (.timCtlEnWrite h u value) (R.addr .TIM_CTL u.val) value.toNat)

/-- WRITE_REG to QM_CFG[q] (R360–R363). -/
def execQmCfgWrite (h : Hdr) (q : QIx) (value : Word) (s : State) : Host.Outcome State Fault Refusal :=
  done (s.oneReg h (.qmCfgWrite h q value) (R.addr .QM_CFG q.val) value.toNat)

/-- WRITE_REG to QM_CFG[q] with flush over its present settings: every word not yet popped is discarded (R364). -/
def execFlush (h : Hdr) (q : QIx) (s : State) : Host.Outcome State Fault Refusal :=
  done (s.oneReg h (.flush h q) (R.addr .QM_CFG q.val) (2 ^ 13 + s.rg .QM_CFG q.val % 2 ^ 13))

/-! ### Faults, serial masters, DRAM (R406, R422, R480, R503, R510, R511) -/

/-- WRITE_REG to FLC_FIRST with 1 to valid: the first record is cleared (R480). -/
def execFlcFirstValidWrite (h : Hdr) (s : State) : Host.Outcome State Fault Refusal :=
  done (s.oneReg h (.flcFirstValidWrite h) (R.addr .FLC_FIRST) 0x100)

/-- WRITE_REG to FLC_STICKY[i]: sticky bits are cleared (R480). -/
def execFlcStickyWrite (h : Hdr) (i : Fin 8) (value : Word) (s : State) : Host.Outcome State Fault Refusal :=
  done (s.oneReg h (.flcStickyWrite h i value) (R.addr .FLC_STICKY i.val) value.toNat)

/-- WRITE_REG to PES_XFER[i] with start: a transfer is requested (R510). -/
def execPesXferStart (h : Hdr) (j : Fin 4) (i : Fin 8) (value : Word) (s : State) : Host.Outcome State Fault Refusal :=
  done (s.oneReg h (.pesXferStart h j i value) (R.addr .PES_XFER j.val i.val) value.toNat)

/-- WRITE_REG to PES_CFG[j] (R511). -/
def execPesCfgWrite (h : Hdr) (j : Fin 4) (value : Word) (s : State) : Host.Outcome State Fault Refusal :=
  done (s.oneReg h (.pesCfgWrite h j value) (R.addr .PES_CFG j.val) value.toNat)

/-- WRITE_REG to MC_CFG[m]: saved, used after the next cold start (R406). -/
def execMcCfgWrite (h : Hdr) (m : McIx) (value : Word) (s : State) : Host.Outcome State Fault Refusal :=
  done (s.oneReg h (.mcCfgWrite h m value) (R.addr .MC_CFG m.val) value.toNat)

/-- WRITE_REG to MC_SYS_CFG: saved, used after the next cold start (R406). -/
def execMcSysCfgWrite (h : Hdr) (value : Word) (s : State) : Host.Outcome State Fault Refusal :=
  done (s.oneReg h (.mcSysCfgWrite h value) (R.addr .MC_SYS_CFG) value.toNat)

/-- WRITE_REG to MC_SYS_REF: the refresh policy (R419, R422). -/
def execPolicyWrite (h : Hdr) (value : Word) (s : State) : Host.Outcome State Fault Refusal :=
  done (s.oneReg h (.policyWrite h value) (R.addr .MC_SYS_REF) value.toNat)

end Sys2Proof.Machine
end

