-- ==== Sys2Proof/Machine/StallEvents.lean ====
section
/-! DEFINITION. The events of a stall's run: the lookahead's entry reads, line requests and arrivals, prefill, vectors,
starvation, stops, and the events of channels and framers (R151, R157, R176, R181, R185, R196–R198, R205–R209, R253,
R270–R273, R280, R293, R429, R473). An event whose condition does not hold changes nothing (log 2). -/

namespace Sys2Proof.Machine

open Sys2Proof

/-! ### The lookahead and the leat -/

/-- The lookahead of an armed or running stall goes on and its earlier requests have been issued (R151). -/
def State.canRead (s : State) (st : Nat) : Bool :=
  let x := s.stall st
  s.busyStall st && x.look.mode == .going && ! (x.waiting.any (fun r => decide (r.from_ < r.upto)))

/-- SEQ_ENTRY_READ (R151, R159–R164, R170). -/
def execSeqEntryRead (st : StallIx) (s : State) : Host.Outcome State Fault Refusal :=
  if s.canRead st.val then done ((s.lookStep st.val).judgeLeat st.val) else done s

/-- The leat issues its oldest waiting request (R196). -/
def Stall.issue (x : Stall) : Stall :=
  match x.waiting.filter (fun r => decide (r.from_ < r.upto)) with
  | [] => { x with waiting := [] }
  | r :: t =>
    { x with inflight := x.inflight ++ [⟨r.pid, r.from_, r.base + r.from_, false, false⟩]
             waiting := if r.from_ + 1 < r.upto then { r with from_ := r.from_ + 1 } :: t else t }

/-- LINE_REQUEST (R196, R207). -/
def execLineRequest (st : StallIx) (s : State) : Host.Outcome State Fault Refusal :=
  if s.busyStall st.val && decide (0 < s.credits st.val) then done (s.setStall st.val (s.stall st.val).issue)
  else done s

/-- A starvation whose deadline lies before now takes effect (R205). -/
def State.checkStarve (s : State) (st : Nat) : State :=
  if s.busyStall st && ! (s.stall st).starved then
    match s.firstAbsent st with
    | some (vec, t0, line) => if deadline t0 < s.nowU then s.starve st vec line else s
    | none => s
  else s

/-- A line of a play belongs to the resident region (R200). -/
def Stall.toResident (x : Stall) (pid : Nat) : Bool := x.plays.any (fun p => p.pid == pid && p.resident)

/-- The oldest outstanding line arrives and is held, poisoned when its DRAM words or its flit were bad (R196, R429,
R473). -/
def State.arrive (s : State) (st : Nat) (bad : Bool) : State :=
  let x := s.stall st
  match x.inflight.find? (fun r => ! r.lost) with
  | none => s
  | some r =>
    let s := s.setStall st { x with inflight := x.inflight.erase r }
    let f := s.checkFlit 2 (some st) bad
    let s := f.2
    if r.dead || ! s.busyStall st then s
    else
      let l := s.readLine r.line
      let s := l.2.2
      let y := s.stall st
      (s.setStall st { y with held := y.held ++ [⟨r.pid, r.off, r.line, l.1, l.2.1 || f.1, y.toResident r.pid⟩] }).judgeLeat st

/-- LINE_ARRIVAL (R196, R205, R207, R429, R473). -/
def execLineArrival (st : StallIx) (flitParityBad : Bool) (s : State) : Host.Outcome State Fault Refusal :=
  done ((s.checkStarve st.val).arrive st.val flitParityBad)

/-- The prefill of an armed stall is complete (R198). -/
def State.prefillDone (s : State) (st : Nat) : Bool :=
  let x := s.stall st
  s.stState st == stArmed && ! x.prefilled && x.inflight.all (fun r => r.lost)
    && (s.credits st == 0
      || (x.look.mode != .going && ! (x.waiting.any (fun r => decide (r.from_ < r.upto)))))

/-- PREFILL_COMPLETE: for source 0 it is the start event, else the START reply is sent (R130, R173, R198). -/
def execPrefillComplete (st : StallIx) (s : State) : Host.Outcome State Fault Refusal :=
  if s.prefillDone st.val then
    let x := s.stall st.val
    let s := s.setStall st.val { x with prefilled := true }
    if x.src.source = 0 then done ((s.advTo (s.now + 1)).startEvent st.val (s.now + 1))
    else done (s.answerAll (.start st.val) stOk [])
  else done s

/-- STARVATION (R205, R206). -/
def execStarvation (st : StallIx) (s : State) : Host.Outcome State Fault Refusal :=
  if s.busyStall st.val && ! (s.stall st.val).starved then
    match s.firstAbsent st.val with
    | some (vec, t0, line) => done ((s.advToU (deadline t0)).starve st.val vec line)
    | none => done s
  else done s

/-! ### Vectors and stops -/

/-- VECTOR_T0 (R146, R157, R169, R175, R209). -/
def execVectorT0 (st : StallIx) (s : State) : Host.Outcome State Fault Refusal :=
  match s.canPlay st.val with
  | some n => done (s.playVector st.val n)
  | none => done s

/-- STOP_BOUNDARY: at the boundary the highest cause that is due stops the stall (R176–R178). -/
def execStopBoundary (st : StallIx) (s : State) : Host.Outcome State Fault Refusal :=
  match s.stopCauses st.val with
  | [] => done s
  | c :: t => if s.running st.val then done (s.stopAt st.val (t.foldl max c)) else done s

/-- STALL_RESET_COMPLETE: the stall has stopped and a stall reset is waiting (R181). -/
def execStallResetComplete (st : StallIx) (s : State) : Host.Outcome State Fault Refusal :=
  if ! s.running st.val && (s.stall st.val).stops.any (fun p => p.cause == 6) then done (s.stallResetDone st.val)
  else done s

/-! ### Channels -/

/-- The path with the SETF pairs of a channel taken out of its first play. -/
def Stall.takeSetf (x : Stall) (ch : Nat) : Stall :=
  { x with path := match frontPlay x.path with
      | .play q :: t => .play { q with setf := q.setf.filter (fun e => e.1 != ch) } :: t
      | l => l }

/-- SETF_PHASE_RESET: the T0 of the next segment passes for a channel that a SETF before it names (R185, R231). -/
def execSetfPhaseReset (ch : ChIx) (s : State) : Host.Outcome State Fault Refusal :=
  match s.stallOfChan ch.val with
  | none => done s
  | some st =>
    match s.canPlay st with
    | none => done s
    | some n =>
      let mine := n.p.setf.filter (fun e => e.1 == ch.val)
      if n.first && ! mine.isEmpty then
        let s := s.advToU n.t0
        let s := mine.foldl (fun s e => s.setInc e.1 e.2) s
        let s := s.setStall st ((s.stall st).takeSetf ch.val)
        if s.flag F.CHN_TG_CTL.mode ch.val && ! ((s.stall st).mode == 3 && ch.val % 2 == 1) then
          done (s.phaseReset ch.val n.t0)
        else done s
      else done s

/-- Every event that may lie less than 70 ps after a compare event of a channel is placed: the stall has stopped, or no
vector to come can hold one (R223, R248). -/
def State.cmpKnown (s : State) (st ch : Nat) (e : CmpEvt) : Bool :=
  ! s.running st || decide (e.at_ + sep ≤ skewed (s.stall st).tNext (s.cmpSkew ch))

/-- COMPARE_EVENT: the next placed compare event of a channel reaches its instant; after the stop boundary the last one
discards a window that stays open (R253–R255, R257). -/
def execCompareEvent (ch : ChIx) (h l : Bool) (s : State) : Host.Outcome State Fault Refusal :=
  let c := s.chan ch.val
  match s.stallOfChan ch.val, c.cmp with
  | some st, e :: t =>
    if s.cmpKnown st ch.val e then
      let s := ((s.advToU e.at_).setChan ch.val { c with cmp := t }).compareEvent st ch.val e h l
      done (if s.running st then s else s.cutWin st ch.val)
    else done s
  | _, _ => done s

/-- The vector that holds grid sample `k` of a stall (R293). -/
def Stall.holder (x : Stall) (k : Nat) : Option Nat :=
  if 2 * (x.tNext - x.epoch) ≤ 625 * k then none
  else (x.t0s.find? (fun e => decide (2 * (e.2 - x.epoch) ≤ 625 * k))).map (fun e => e.1)

/-- The channel's inputs are sampled on the grid: its stall runs, and it is no odd channel of a PAIR-mode stall (R228,
R293). -/
def State.gridOn (s : State) (st ch : Nat) : Bool := s.running st && ! ((s.stall st).mode == 3 && ch % 2 == 1)

/-- The state of a channel's last grid sample before an EDGE_CAPTURE; a free value before sample −1 is known (R293). -/
def State.lastGrid (s : State) (ch : Nat) : (Nat × Nat) × State :=
  match (s.chan ch).grid with
  | g :: _ => (g, s)
  | [] =>
    let d := s.draw 2
    ((0, d.1.toNat), d.2)

/-- Sample −1 of a channel, which has no sample before it (R293). -/
def State.firstSample (s : State) (ch code : Nat) : State :=
  if (s.chan ch).grid.isEmpty then (s.setChan ch { s.chan ch with grid := [(0, code)] }).noteSample ch code else s

/-- Grid sample `k`, in vector `v`, differs from the sample before it (R252, R254, R293). -/
def State.gridEdge (s : State) (st ch k v code : Nat) : State :=
  let x := s.stall st
  let g := s.lastGrid ch
  let s := g.2
  if k < g.1.1 ∨ code = g.1.2 then s
  else
    let c := s.chan ch
    let s := s.advToU (skewed (x.epoch + 625 * k / 2) (s.cmpSkew ch))
    let s := s.setChan ch { c with grid := (k, code) :: (if c.win.isSome then g.1 :: c.grid.drop 1 else [g.1]) }
    let s := (s.noteSample ch g.1.2).noteSample ch code
    if s.flag F.CHN_CMP_CTL.mask ch || ! tbit c.caps ((x.vec.getD 0) - v) then s
    else s.form ch ⟨2, 0, st, ch, code + 4 * g.1.2, k % 2 ^ 56, v % 2 ^ 40⟩

/-- EDGE_CAPTURE: grid sample `k` of a channel differs from the sample before it, or sample −1 is taken, for which `k` is
none (R254, R293). -/
def execEdgeCapture (ch : ChIx) (k : Option Nat) (h l : Bool) (s : State) : Host.Outcome State Fault Refusal :=
  match s.stallOfChan ch.val with
  | none => done s
  | some st =>
    let code := s.sample ch.val h l
    if ! s.gridOn st ch.val then done s
    else
      match k with
      | none => done (s.firstSample ch.val code)
      | some k =>
        match (s.stall st).holder k with
        | none => done s
        | some v => done (s.gridEdge st ch.val k v code)

/-- The equaliser window of a channel in units of 0.25 ps (R270). -/
def eqSpan (mode : Nat) : Nat := if mode = 3 then 1280000 else 2560000

/-- One receiver at the end of an adaptation window: `trained` and `code` are its codes, `step` the step chosen, −1 at 0;
answers the new code and whether the step was held at the bound (R272, R273). -/
def eqStep (trained code : Nat) (step : Nat) (train : Bool) : Nat × Bool :=
  let want : Int := (code : Int) + step - 1
  let lo : Int := if train then 0 else max 0 ((trained : Int) - 2)
  let hi : Int := if train then 15 else min 15 ((trained : Int) + 2)
  if want < lo ∨ hi < want then (code, ! train) else (want.toNat, false)

/-- One receiver of a channel at the end of a window (R271–R273). -/
def State.eqReceiver (s : State) (ch : Nat) (code trained frozen bound : FRef) (trans step : Nat) (still : Bool) : State :=
  if still || decide (trans < 64) then s.setFlag frozen true ch
  else
    let r := eqStep (s.fl trained ch) (s.fl code ch) step (s.flag F.CHN_EQ_CTL.train ch)
    let s := (s.setFlag frozen false ch).setFl code r.1 ch
    if r.2 then s.setFlag bound true ch else s

/-- EQ_WINDOW_END: an adaptation window of a running stall's channel ends (R270–R273). -/
def execEqWindowEnd (ch : ChIx) (transH transL : BitVec 13) (stepH stepL : Fin 3) (s : State) :
    Host.Outcome State Fault Refusal :=
  match s.stallOfChan ch.val with
  | none => done s
  | some st =>
    let x := s.stall st
    if ! s.running st || (x.mode == 3 && ch.val % 2 == 1) then done s
    else
      let c := s.chan ch.val
      let o := ch.val / 8
      let s := s.advToU (skewed (x.epoch + (c.eqWin + 1) * eqSpan x.mode) (s.cmpSkew ch.val))
      let s := s.setChan ch.val { c with eqWin := c.eqWin + 1 }
      let mine := s.flag F.FRM_RX_CTL.en o && s.rxChan o == ch.val
      let still := ! s.flag F.CHN_EQ_CTL.adapt_en ch.val || (mine && (s.framer o).idleSeen)
      let s := s.setRg .CHN_EQ_WIN (min 4096 transH.toNat + min 4096 transL.toNat * 2 ^ 16) ch.val
      let s := s.eqReceiver ch.val F.CHN_EQ_STAT.code_h F.CHN_EQ_CTL.trained_h F.CHN_EQ_STAT.frozen_h F.CHN_EQ_STAT.bound_h
        transH.toNat stepH.val still
      let s := s.eqReceiver ch.val F.CHN_EQ_STAT.code_l F.CHN_EQ_CTL.trained_l F.CHN_EQ_STAT.frozen_l F.CHN_EQ_STAT.bound_l
        transL.toNat stepL.val still
      done (if mine then s.setFramer o { s.framer o with idleSeen := false } else s)

/-! ### Framers -/

/-- FRAMER_CHARACTER: the decoder takes the stream bits that are ready, up to the ten of a group. A character that the encoder completes was taken into the drive
events when its first vector was formatted, so the event changes nothing more (R276–R282). -/
def execFramerCharacter (o : OctIx) (tx : Bool) (s : State) : Host.Outcome State Fault Refusal :=
  match s.stallOfOct o.val with
  | none => done s
  | some st =>
    if tx then done s else done (s.framerBits st o.val 10)

end Sys2Proof.Machine
end

