-- ==== Sys2Proof/Machine/TimEvents.lean ====
section
/-! DEFINITION. The events of the time-interval units: gates, edges, results (R320–R331). -/

namespace Sys2Proof.Machine

open Sys2Proof

/-! ### Gates (R323, R324) -/

/-- The gate of a unit is a GATE pin. A soft gate is opened by its register write; a marker gate follows its bit at the T0
that changes it (`State.markGates`). -/
def State.pinGate (s : State) (u : Nat) : Bool := s.fl F.TIM_CTL.gate_src u == 1 && ! s.timSync u

/-- TIM_GATE_OPEN: the GATE pin is sampled high (R323). -/
def execTimGateOpen (u : Fin 16) (s : State) : Host.Outcome State Fault Refusal :=
  if s.pinGate u.val && ! (s.tim u.val).gateOpen then done (s.openGate u.val s.nowU) else done s

/-- TIM_GATE_CLOSE: the GATE pin is sampled low (R323, R324). -/
def execTimGateClose (u : Fin 16) (s : State) : Host.Outcome State Fault Refusal :=
  if s.pinGate u.val && (s.tim u.val).gateOpen then done (s.closeGate u.val) else done s

/-! ### Results (R326–R330) -/

/-- The SCLK cycle in which the low 48 bits of the counter were, or will be, `c`, the nearest one. -/
def State.cycleOf (s : State) (c : BitVec 48) : Nat :=
  ((s.now : Int) + toSigned (c - s.cnt.setWidth 48).toNat 48).toNat

/-- The channel of a source, when it is a comparator (R321). -/
def State.timChan (s : State) (src ix : FRef) (u : Nat) : Option Nat :=
  if s.fl src u ≤ 1 then some (32 * (u / 4) + s.fl ix u) else none

/-- D of a source (R327). -/
def State.timD (s : State) (u : Nat) (ch : Option Nat) : Int :=
  match ch with
  | some c => if s.flag F.TIM_CTL.deskew_en u then roundDiv (toSigned (s.fl F.CHN_CMP_SKEW.skew c) 16 * 1024) 625 else 0
  | none => 0

/-- The smallest and largest payload of an INTERVAL record (R329). -/
def satN (n : Int) : Int := max (-(2 ^ 39)) (min (2 ^ 39 - 1) n)

/-- The INTERVAL record of a result (R329, R330). -/
def State.intervalRecord (s : State) (u : Nat) (n : Int) (timeout : Bool) : State :=
  match s.timStall u with
  | none => s
  | some st =>
    if ! s.running st then s
    else
      let t := s.tim u
      let a := s.timChan F.TIM_START_SRC.src F.TIM_START_SRC.index u
      let b := s.timChan F.TIM_STOP_SRC.src F.TIM_STOP_SRC.index u
      let big := satN n != n
      let tag : Int := (((t.startT : Int) - ((s.stall st).epoch / unitsPerCyc : Nat)) * 4096 - t.fs - s.timD u a) / 512
      let r : Rec := ⟨6, 0, st, (a.or b).getD 0xff, u + 16 * bit big + 32 * bit timeout, (tag % 2 ^ 56).toNat,
        ofSigned (satN n) 40⟩
      let s := if big then s.setFlag F.TIM_STAT.ovf true u else s
      s.form (144 + u) r

/-- Writes the result registers of a unit (R328). -/
def State.timResult (s : State) (u : Nat) (cs : Nat) (fs : Nat) (cp fp : Nat) (n : Int) : State :=
  let s := (s.setRg64 .TIM_START_C_LO .TIM_START_C_HI cs u).setRg .TIM_START_F fs u
  let s := (s.setRg64 .TIM_STOP_C_LO .TIM_STOP_C_HI cp u).setRg .TIM_STOP_F fp u
  (s.setRg64 .TIM_RESULT_LO .TIM_RESULT_HI (ofSigned n 64) u).bump F.TIM_COUNT.count 1 u

/-- A unit delivers a result and is dead for 200 ns from cycle `from_` (R324, R328, R331). -/
def State.deliverTim (s : State) (u cp fp : Nat) (n : Int) (timeout : Bool) (from_ : Nat) : State :=
  let t := s.tim u
  let s := s.timResult u t.cs t.fs cp fp n
  let s := (s.setTim u { t with deadAt := from_ + 320, doneAt := s.nowU }).setFlag F.TIM_STAT.done true u
  let s := if timeout then s.setFlag F.TIM_STAT.timeout true u else s
  (s.intervalRecord u n timeout).setTimState u tmDead

/-- An instant in units of 625/4096 ps: `f` such units before SCLK edge `t` (R326). -/
def lsbAt (t f : Nat) : Nat := t * 4096 - f

/-- An edge at an instant in LSB can come from a unit's source: the marker loopback gives the edges of its MKR ball, of the
polarity selected, each within the 25 ps of R246; the other sources come from outside (R237, R321). -/
def State.edgeFrom (s : State) (src ix edge : FRef) (u lsb : Nat) : Bool :=
  s.fl src u != 3 || s.mkrLog.any (fun e =>
    e.2.1 == s.fl ix u && e.2.2 == (s.fl edge u == 0) && decide (lsb * 625 ≤ (e.1 + 100) * 1024)
      && decide (e.1 * 1024 ≤ lsb * 625 + 102400))

/-- TIM_START_EDGE: the first qualifying start edge, at or after the gate's opening; `c` and `f` are its count and fraction
(R321, R324, R326). -/
def execTimStartEdge (u : Fin 16) (c : BitVec 48) (f : BitVec 12) (s : State) : Host.Outcome State Fault Refusal :=
  let t := s.cycleOf c
  let at_ := lsbAt t f.toNat
  if s.timState u.val = tmWaitStart ∧ ! s.timSync u.val ∧ (s.tim u.val).openAt * 1024 ≤ at_ * 625
      ∧ (s.advTo t).edgeFrom F.TIM_START_SRC.src F.TIM_START_SRC.index F.TIM_START_SRC.edge u.val at_ then
    let s := s.advTo t
    let soft := s.fl F.TIM_CTL.gate_src u.val == 0
    let x := s.tim u.val
    done ((s.setTim u.val { x with cs := c.toNat, fs := f.toNat, startT := t, stops := 0
                                   gateOpen := x.gateOpen && ! soft }).setTimState u.val tmWaitStop)
  else done s

/-- N of R327. -/
def State.timN (s : State) (u : Nat) (cp fp : Nat) : Int :=
  let t := s.tim u
  let ds := s.timD u (s.timChan F.TIM_START_SRC.src F.TIM_START_SRC.index u)
  let dp := s.timD u (s.timChan F.TIM_STOP_SRC.src F.TIM_STOP_SRC.index u)
  ((2 ^ 48 + cp - t.cs) % 2 ^ 48 : Nat) * 4096 + t.fs - fp + ds - dp

/-- A stop edge at an instant in LSB can be taken by a unit that waits for it: it follows the start edge, comes before the
timeout's expiry, and its source can give it (R321, R324). -/
def State.stopMay (s : State) (u lsb : Nat) : Bool :=
  let x := s.tim u
  let from_ := lsbAt x.startT x.fs
  let us := s.fl F.TIM_TIMEOUT.timeout u
  decide (from_ < lsb) && (us == 0 || decide (lsb < from_ + us * usCyc * 4096))
    && s.edgeFrom F.TIM_STOP_SRC.src F.TIM_STOP_SRC.index F.TIM_STOP_SRC.edge u lsb

/-- A unit takes a stop edge; the last one completes the measurement with N (R324, R327). -/
def State.takeStop (s : State) (u t cp fp : Nat) (n : Int) : State :=
  let x := s.tim u
  if x.stops + 1 < s.fl F.TIM_CTL.stop_count u then s.setTim u { x with stops := x.stops + 1 }
  else s.deliverTim u cp fp n false t

/-- TIM_STOP_EDGE: a qualifying stop edge. One within 20 ps of the start edge counts or not, and its N is any number: both
are free values (R324, R327, R334). -/
def execTimStopEdge (u : Fin 16) (c : BitVec 48) (f : BitVec 12) (s : State) : Host.Outcome State Fault Refusal :=
  let t := s.cycleOf c
  let at_ := lsbAt t f.toNat
  let x := s.tim u.val
  if s.timState u.val = tmWaitStop ∧ ! s.timSync u.val ∧ (s.advTo t).stopMay u.val at_ then
    let s := s.advTo t
    if (at_ - lsbAt x.startT x.fs) * 625 ≤ 81920 then
      let d := s.draw 65
      if d.1.getLsbD 64 then done (d.2.takeStop u.val t c.toNat f.toNat (d.1.setWidth 64).toInt) else done d.2
    else done (s.takeStop u.val t c.toNat f.toNat (s.timN u.val c.toNat f.toNat))
  else done s

/-- TIM_TIMEOUT: the timeout expires; stop registers and N read 0 (R324, R328). -/
def execTimTimeout (u : Fin 16) (s : State) : Host.Outcome State Fault Refusal :=
  let us := s.fl F.TIM_TIMEOUT.timeout u.val
  if s.timState u.val = tmWaitStop ∧ ! s.timSync u.val ∧ us ≠ 0 then
    let t := (s.tim u.val).startT + us * usCyc
    done ((s.advTo t).deliverTim u.val 0 0 0 true t)
  else done s

/-- TIM_DEAD_END: 200 ns after the stop or the expiry (R324). -/
def execTimDeadEnd (u : Fin 16) (s : State) : Host.Outcome State Fault Refusal :=
  if s.timState u.val = tmDead ∧ ! s.timSync u.val then
    let s := s.advTo (s.tim u.val).deadAt
    if s.flag F.TIM_CTL.repeat_ u.val then done (s.setTimState u.val tmWaitGate)
    else done ((s.setFlag F.TIM_CTL.en false u.val).setTimState u.val tmOff)
  else done s

end Sys2Proof.Machine
end

