-- ==== Sys2Proof/Machine/Dispatch.lean ====
section
/-! DEFINITION. The effect of each command: one arm for each row of spec/opcode_table.json. -/

namespace Sys2Proof.Machine

open Sys2Proof

/-- The effect of a command on everything but the queue of waiting commands. -/
def exec (i : Instr) (s : State) : Host.Outcome State Fault Refusal :=
  match i with
  | .hello h client leaseMs flags => Sys2Proof.Machine.execHello h client leaseMs flags s
  | .claim h prio => Sys2Proof.Machine.execClaim h prio s
  | .release h => Sys2Proof.Machine.execRelease h s
  | .grant h toSession => Sys2Proof.Machine.execGrant h toSession s
  | .renew h leaseMs => Sys2Proof.Machine.execRenew h leaseMs s
  | .bye h => Sys2Proof.Machine.execBye h s
  | .opStatus h op => Sys2Proof.Machine.execOpStatus h op s
  | .readReg h addr count => Sys2Proof.Machine.execReadReg h addr count s
  | .writeReg h addr count values => Sys2Proof.Machine.execWriteReg h addr count values s
  | .modifyReg h addr mask value => Sys2Proof.Machine.execModifyReg h addr mask value s
  | .readRegList h count addrs => Sys2Proof.Machine.execReadRegList h count addrs s
  | .writeMem h addr len data => Sys2Proof.Machine.execWriteMem h addr len data s
  | .readMem h addr len => Sys2Proof.Machine.execReadMem h addr len s
  | .fillMem h addr len pattern => Sys2Proof.Machine.execFillMem h addr len pattern s
  | .copyMem h src dst len => Sys2Proof.Machine.execCopyMem h src dst len s
  | .loadSeq h table entries => Sys2Proof.Machine.execLoadSeq h table entries s
  | .start h mode acq source sourceIndex firstEntry => Sys2Proof.Machine.execStart h mode acq source sourceIndex firstEntry s
  | .stop h atWhen => Sys2Proof.Machine.execStop h atWhen s
  | .arm h => Sys2Proof.Machine.execArm h s
  | .status h => Sys2Proof.Machine.execStatus h s
  | .setflag h mask value => Sys2Proof.Machine.execSetflag h mask value s
  | .stallReset h => Sys2Proof.Machine.execStallReset h s
  | .streamOpen h queue maxPayload limit flushUs => Sys2Proof.Machine.execStreamOpen h queue maxPayload limit flushUs s
  | .credit h queue ack limit => Sys2Proof.Machine.execCredit h queue ack limit s
  | .creditFrame h queue ack limit => Sys2Proof.Machine.execCreditFrame h queue ack limit s
  | .streamClose h queue => Sys2Proof.Machine.execStreamClose h queue s
  | .rewind h queue fromSeq => Sys2Proof.Machine.execRewind h queue fromSeq s
  | .calRun h items count channels => Sys2Proof.Machine.execCalRun h items count channels s
  | .calRead h channel item => Sys2Proof.Machine.execCalRead h channel item s
  | .calCommit h => Sys2Proof.Machine.execCalCommit h s
  | .selftestRun h tests => Sys2Proof.Machine.execSelftestRun h tests s
  | .selftestRead h => Sys2Proof.Machine.execSelftestRead h s
  | .yardLoad h kind slot image imageLen => Sys2Proof.Machine.execYardLoad h kind slot image imageLen s
  | .yardUnload h kind slot => Sys2Proof.Machine.execYardUnload h kind slot s
  | .yardSubmit h template flow plen data => Sys2Proof.Machine.execYardSubmit h template flow plen data s
  | .yardQuiesce h => Sys2Proof.Machine.execYardQuiesce h s
  | .yardResume h => Sys2Proof.Machine.execYardResume h s
  | .yardStatus h => Sys2Proof.Machine.execYardStatus h s
  | .timeRead h => Sys2Proof.Machine.execTimeRead h s
  | .timeSet h sec ns subns rate => Sys2Proof.Machine.execTimeSet h sec ns subns rate s
  | .timeStep h deltaNs => Sys2Proof.Machine.execTimeStep h deltaNs s
  | .alarmSet h alarm action sec ns periodNs => Sys2Proof.Machine.execAlarmSet h alarm action sec ns periodNs s
  | .alarmCancel h alarm => Sys2Proof.Machine.execAlarmCancel h alarm s
  | .tsqRead h port max => Sys2Proof.Machine.execTsqRead h port max s
  | .faultRead h => Sys2Proof.Machine.execFaultRead h s
  | .faultClear h stickyMask clearFirst => Sys2Proof.Machine.execFaultClear h stickyMask clearFirst s
  | .faultReaction h source reaction => Sys2Proof.Machine.execFaultReaction h source reaction s
  | .faultInject h source => Sys2Proof.Machine.execFaultInject h source s
  | .faultRelease h => Sys2Proof.Machine.execFaultRelease h s
  | .tackRead h offset len => Sys2Proof.Machine.execTackRead h offset len s
  | .tackWrite h offset len data => Sys2Proof.Machine.execTackWrite h offset len data s
  | .fwWrite h offset len data => Sys2Proof.Machine.execFwWrite h offset len data s
  | .fwVerify h => Sys2Proof.Machine.execFwVerify h s
  | .fwActivate h => Sys2Proof.Machine.execFwActivate h s
  | .ident h => Sys2Proof.Machine.execIdent h s
  | .mcStatus h controller => Sys2Proof.Machine.execMcStatus h controller s
  | .rankRetire h controller rank => Sys2Proof.Machine.execRankRetire h controller rank s
  | .migStatus h => Sys2Proof.Machine.execMigStatus h s
  | .scrub h controller => Sys2Proof.Machine.execScrub h controller s
  | .dcpFrameDrop h why => Sys2Proof.Machine.execDcpFrameDrop h why s
  | .rxFrameDrop lane why => Sys2Proof.Machine.execRxFrameDrop lane why s
  | .arpRequest lane senderMac targetIp => Sys2Proof.Machine.execArpRequest lane senderMac targetIp s
  | .icmpEchoRequest lane senderMac destIp payload => Sys2Proof.Machine.execIcmpEchoRequest lane senderMac destIp payload s
  | .fillMemDone op => Sys2Proof.Machine.execFillMemDone op s
  | .copyMemDone op => Sys2Proof.Machine.execCopyMemDone op s
  | .calRunDone op meas => Sys2Proof.Machine.execCalRunDone op meas s
  | .calCommitDone op => Sys2Proof.Machine.execCalCommitDone op s
  | .selftestDone op found => Sys2Proof.Machine.execSelftestDone op found s
  | .yardLoadDone op => Sys2Proof.Machine.execYardLoadDone op s
  | .yardQuiesceDone op => Sys2Proof.Machine.execYardQuiesceDone op s
  | .fwVerifyDone op ok => Sys2Proof.Machine.execFwVerifyDone op ok s
  | .scrubDone op => Sys2Proof.Machine.execScrubDone op s
  | .opRecordExpiry op => Sys2Proof.Machine.execOpRecordExpiry op s
  | .pcrResetCtlWarm h value => Sys2Proof.Machine.execPcrResetCtlWarm h value s
  | .pcrResetCtlCold h value => Sys2Proof.Machine.execPcrResetCtlCold h value s
  | .blockRstHl h k => Sys2Proof.Machine.execBlockRstHl h k s
  | .blockRstMc h m => Sys2Proof.Machine.execBlockRstMc h m s
  | .blockRstQm h => Sys2Proof.Machine.execBlockRstQm h s
  | .blockRstYrd h => Sys2Proof.Machine.execBlockRstYrd h s
  | .blockRstAcq h => Sys2Proof.Machine.execBlockRstAcq h s
  | .blockRstFlt h => Sys2Proof.Machine.execBlockRstFlt h s
  | .blockRstTim h => Sys2Proof.Machine.execBlockRstTim h s
  | .blockRstFrm h => Sys2Proof.Machine.execBlockRstFrm h s
  | .blockRstCal h => Sys2Proof.Machine.execBlockRstCal h s
  | .blockResetComplete b => Sys2Proof.Machine.execBlockResetComplete b s
  | .forceReturn h value => Sys2Proof.Machine.execForceReturn h value s
  | .hpPortCtlWrite h k value => Sys2Proof.Machine.execHpPortCtlWrite h k value s
  | .restart h k value => Sys2Proof.Machine.execRestart h k value s
  | .hpRefCtlWrite h k value => Sys2Proof.Machine.execHpRefCtlWrite h k value s
  | .laneSettingsApply k => Sys2Proof.Machine.execLaneSettingsApply k s
  | .testLoopSet h k value => Sys2Proof.Machine.execTestLoopSet h k value s
  | .loopTimeout k => Sys2Proof.Machine.execLoopTimeout k s
  | .prbsGen h k value => Sys2Proof.Machine.execPrbsGen h k value s
  | .prbsChk h k value => Sys2Proof.Machine.execPrbsChk h k value s
  | .ownCtlWrite h value => Sys2Proof.Machine.execOwnCtlWrite h value s
  | .ownUdpWrite h value => Sys2Proof.Machine.execOwnUdpWrite h value s
  | .ownChangeApply => Sys2Proof.Machine.execOwnChangeApply s
  | .devPartWrite h st value => Sys2Proof.Machine.execDevPartWrite h st value s
  | .stlFlagsWrite h st value => Sys2Proof.Machine.execStlFlagsWrite h st value s
  | .emit h value => Sys2Proof.Machine.execEmit h value s
  | .syncOutPulse => Sys2Proof.Machine.execSyncOutPulse s
  | .measEnWrite h value => Sys2Proof.Machine.execMeasEnWrite h value s
  | .tbSyncTrimWrite h value => Sys2Proof.Machine.execTbSyncTrimWrite h value s
  | .tbRateHiWrite h value => Sys2Proof.Machine.execTbRateHiWrite h value s
  | .ptpRoleWrite h k value => Sys2Proof.Machine.execPtpRoleWrite h k value s
  | .acqSoftTrig h st => Sys2Proof.Machine.execAcqSoftTrig h st s
  | .timArmWrite h u => Sys2Proof.Machine.execTimArmWrite h u s
  | .timCtlEnWrite h u value => Sys2Proof.Machine.execTimCtlEnWrite h u value s
  | .qmCfgWrite h q value => Sys2Proof.Machine.execQmCfgWrite h q value s
  | .flush h q => Sys2Proof.Machine.execFlush h q s
  | .flcFirstValidWrite h => Sys2Proof.Machine.execFlcFirstValidWrite h s
  | .flcStickyWrite h ix value => Sys2Proof.Machine.execFlcStickyWrite h ix value s
  | .pesXferStart h j ix value => Sys2Proof.Machine.execPesXferStart h j ix value s
  | .pesTransferBegin j => Sys2Proof.Machine.execPesTransferBegin j s
  | .pesTransferEnd j rx => Sys2Proof.Machine.execPesTransferEnd j rx s
  | .pesCfgWrite h j value => Sys2Proof.Machine.execPesCfgWrite h j value s
  | .mcCfgWrite h m value => Sys2Proof.Machine.execMcCfgWrite h m value s
  | .mcSysCfgWrite h value => Sys2Proof.Machine.execMcSysCfgWrite h value s
  | .policyWrite h value => Sys2Proof.Machine.execPolicyWrite h value s
  | .coldReset cause => Sys2Proof.Machine.execColdReset cause s
  | .coldStart inp => Sys2Proof.Machine.execColdStart inp s
  | .rootPllLock => Sys2Proof.Machine.execRootPllLock s
  | .hostReady => Sys2Proof.Machine.execHostReady s
  | .warmReset cause => Sys2Proof.Machine.execWarmReset cause s
  | .warmStart inp => Sys2Proof.Machine.execWarmStart inp s
  | .warmRetrain m => Sys2Proof.Machine.execWarmRetrain m s
  | .inputLeavesRange ix loss => Sys2Proof.Machine.execInputLeavesRange ix loss s
  | .inputEntersRange ix volts => Sys2Proof.Machine.execInputEntersRange ix volts s
  | .returnToVmain => Sys2Proof.Machine.execReturnToVmain s
  | .refclkLoss => Sys2Proof.Machine.execRefclkLoss s
  | .refclkReturn inp => Sys2Proof.Machine.execRefclkReturn inp s
  | .pllUnlock => Sys2Proof.Machine.execPllUnlock s
  | .pllRelock inp => Sys2Proof.Machine.execPllRelock inp s
  | .jtagTrst low => Sys2Proof.Machine.execJtagTrst low s
  | .trigInEdge n rising => Sys2Proof.Machine.execTrigInEdge n rising s
  | .syncEpochBoundary short disagree edges lead => Sys2Proof.Machine.execSyncEpochBoundary short disagree edges lead s
  | .linkUp k => Sys2Proof.Machine.execLinkUp k s
  | .linkDown k news => Sys2Proof.Machine.execLinkDown k news s
  | .vectorT0 st => Sys2Proof.Machine.execVectorT0 st s
  | .seqEntryRead st => Sys2Proof.Machine.execSeqEntryRead st s
  | .lineRequest st => Sys2Proof.Machine.execLineRequest st s
  | .lineArrival st flitParityBad => Sys2Proof.Machine.execLineArrival st flitParityBad s
  | .prefillComplete st => Sys2Proof.Machine.execPrefillComplete st s
  | .starvation st => Sys2Proof.Machine.execStarvation st s
  | .stopBoundary st => Sys2Proof.Machine.execStopBoundary st s
  | .stallResetComplete st => Sys2Proof.Machine.execStallResetComplete st s
  | .setfPhaseReset ch => Sys2Proof.Machine.execSetfPhaseReset ch s
  | .compareEvent ch h l => Sys2Proof.Machine.execCompareEvent ch h l s
  | .edgeCapture ch k h l => Sys2Proof.Machine.execEdgeCapture ch k h l s
  | .eqWindowEnd ch transH transL stepH stepL => Sys2Proof.Machine.execEqWindowEnd ch transH transL stepH stepL s
  | .framerCharacter o tx => Sys2Proof.Machine.execFramerCharacter o tx s
  | .recordAccept source flitParityBad => Sys2Proof.Machine.execRecordAccept source flitParityBad s
  | .gapPairWrite st dest => Sys2Proof.Machine.execGapPairWrite st dest s
  | .timePairPeriodic st => Sys2Proof.Machine.execTimePairPeriodic st s
  | .autoTrigger st => Sys2Proof.Machine.execAutoTrigger st s
  | .windowRearm st => Sys2Proof.Machine.execWindowRearm st s
  | .trigOutPulse n => Sys2Proof.Machine.execTrigOutPulse n s
  | .timGateOpen u => Sys2Proof.Machine.execTimGateOpen u s
  | .timGateClose u => Sys2Proof.Machine.execTimGateClose u s
  | .timStartEdge u c f => Sys2Proof.Machine.execTimStartEdge u c f s
  | .timStopEdge u c f => Sys2Proof.Machine.execTimStopEdge u c f s
  | .timTimeout u => Sys2Proof.Machine.execTimTimeout u s
  | .timDeadEnd u => Sys2Proof.Machine.execTimDeadEnd u s
  | .fltInputSample c => Sys2Proof.Machine.execFltInputSample c s
  | .queuePush q p words popHere => Sys2Proof.Machine.execQueuePush q p words popHere s
  | .queuePop q parityBad => Sys2Proof.Machine.execQueuePop q parityBad s
  | .spillReadback q cells => Sys2Proof.Machine.execSpillReadback q cells s
  | .streamFrameSend q => Sys2Proof.Machine.execStreamFrameSend q s
  | .leaseExpiry slot => Sys2Proof.Machine.execLeaseExpiry slot s
  | .expiredSessionClose slot => Sys2Proof.Machine.execExpiredSessionClose slot s
  | .electionClose r => Sys2Proof.Machine.execElectionClose r s
  | .instanceCreate => Sys2Proof.Machine.execInstanceCreate s
  | .workRequest core => Sys2Proof.Machine.execWorkRequest core s
  | .operationComplete core acts status => Sys2Proof.Machine.execOperationComplete core acts status s
  | .operationTimeout cut => Sys2Proof.Machine.execOperationTimeout cut s
  | .yardflagUpdate st => Sys2Proof.Machine.execYardflagUpdate st s
  | .dramRequest src addr store cells => Sys2Proof.Machine.execDramRequest src addr store cells s
  | .regionFill region => Sys2Proof.Machine.execRegionFill region s
  | .refreshInterval m r => Sys2Proof.Machine.execRefreshInterval m r s
  | .mr4Poll m rates temps => Sys2Proof.Machine.execMr4Poll m rates temps s
  | .powerDownEntry m r => Sys2Proof.Machine.execPowerDownEntry m r s
  | .selfRefreshEntry m r => Sys2Proof.Machine.execSelfRefreshEntry m r s
  | .rowDisturbanceWindowEnd m => Sys2Proof.Machine.execRowDisturbanceWindowEnd m s
  | .migrationUnitCopy cells => Sys2Proof.Machine.execMigrationUnitCopy cells s
  | .migrationDone => Sys2Proof.Machine.execMigrationDone s
  | .alarmFire a => Sys2Proof.Machine.execAlarmFire a s
  | .toutPulse n => Sys2Proof.Machine.execToutPulse n s
  | .ptpMessageRx k frame => Sys2Proof.Machine.execPtpMessageRx k frame s
  | .ptpSyncInterval k stamp => Sys2Proof.Machine.execPtpSyncInterval k stamp s
  | .ptpHoldover => Sys2Proof.Machine.execPtpHoldover s
  | .faultActivation source detail => Sys2Proof.Machine.execFaultActivation source detail s
  | .watchdog => Sys2Proof.Machine.execWatchdog s
  | .deviceReset => Sys2Proof.Machine.execDeviceReset s
  | .shadowEnd b => Sys2Proof.Machine.execShadowEnd b s
  | .blockWrite frag pecOk => Sys2Proof.Machine.execBlockWrite frag pecOk s
  | .blockRead => Sys2Proof.Machine.execBlockRead s
  | .blockReadRepeat => Sys2Proof.Machine.execBlockReadRepeat s
  | .alertResponse => Sys2Proof.Machine.execAlertResponse s
  | .sclLowTimeout => Sys2Proof.Machine.execSclLowTimeout s
  | .signalDetected k => Sys2Proof.Machine.execSignalDetected k s
  | .blockLock k => Sys2Proof.Machine.execBlockLock k s
  | .signalLoss k lockOnly => Sys2Proof.Machine.execSignalLoss k lockOnly s
  | .faultyPair source equal => Sys2Proof.Machine.execFaultyPair source equal s
  | .condSourceInactive source => Sys2Proof.Machine.execCondSourceInactive source s
  | .retrainingComplete m ok => Sys2Proof.Machine.execRetrainingComplete m ok s

end Sys2Proof.Machine
end

