-- ==== Sys2Proof/Safety.lean ====
section
/-! DEFINITION. The terms in which claims about the part are stated: a DCP command that passes the checks of the command
engine, the reply that ends it, the DCP opcode of each command, and the invariants of the part. -/

namespace Sys2Proof.Machine

open Sys2Proof

/-! ### A command that passes checks 1 to 5 (R111, R112, R116) -/

/-- A command frame with header `h` is executed at once by the session `x` in `slot`: the part is in service and hears it,
the version is right, the session is live and bound to the sender, no earlier command of it waits, and the sequence number
is the expected one. -/
structure Admits (s : State) (h : Hdr) (slot : Nat) (x : Session) : Prop where
  fresh : s.resuming = false
  ready : s.phase = .ready
  heard : (s.heard h).1 = true
  version : h.version = 2
  handle : s.slotOf h.session = some slot
  session : s.session slot = some x
  bound : x.bind = h.bind
  live : x.expired = false
  turn : s.mustWait h = false
  inOrder : h.seq = x.nextSeq

/-- A command frame with header `h` arrives and passes checks 1 and 2: the part hears it, the version is right, and the part
serves commands, in service or in the boot-ROM state. -/
structure Arrives (s : State) (h : Hdr) : Prop where
  fresh : s.resuming = false
  heard : (s.heard h).1 = true
  version : h.version = 2
  serves : s.phase = .ready ∨ s.phase = .bootRom

/-- The state with the arriving frame counted (R88). -/
def State.arrived (s : State) (h : Hdr) : State := (s.heard h).2

/-- The state in which an admitted command makes its own checks: the frame is counted, the session's sequence number is
used and its lease starts again (R88, R111, R113). -/
def State.taken (s : State) (h : Hdr) (slot : Nat) (x : Session) : State := (s.heard h).2.accept slot x

/-- The end of an admitted command with an answer: the reply is sent and kept for retransmission, or waits, and what
detectors reported is acted on (R107, R111, R112, R478). -/
def State.ends (u : State) (slot : Nat) (h : Hdr) (opcode : Nat) (a : Ans) : State :=
  ((u.finish slot h opcode a).withResuming false).settle

/-- The end of a command that is answered at once (R107, R111). -/
def State.replies (u : State) (slot : Nat) (h : Hdr) (opcode status : Nat) (params : List Byte) : State :=
  u.ends slot h opcode (.reply status params)

/-- The end of a command whose reply waits (R112). -/
def State.waitsFor (u : State) (slot : Nat) (h : Hdr) (opcode : Nat) (k : WaitKind) : State :=
  u.ends slot h opcode (.waits k)

/-- A write of the value `v` to one register by the session in `slot` passes every check of R500: the register has writable
fields and its owner is the session, no field takes a code that is not assigned, the service level serves the register, its
block is not in reset, no running stall, unit or chain forbids it, and no other rule drops it. -/
structure WriteOk (u : State) (slot : Nat) (r : R) (i j v : Nat) : Prop where
  field : writable r i j = true
  owner : ∃ res, u.regRes r i j = some res ∧ u.owns slot res = true
  code : u.badCode [(r.addr i j, v)] r i j v = false
  served : ¬ (u.level = 3 ∧ timingDie (r.addr i j) = true)
  inService : u.addrInReset (r.addr i j) = false
  calm : u.runningDrop r i j v = false
  kept : u.otherDrop [(r.addr i j, v)] r i j v = 0

/-- The register, its indices and the value that each row which is a write of one register writes (R127, and the rows of
the opcode table with an effect of their own). -/
def rowWrite (s : State) : Instr → Option (R × Nat × Nat × Nat)
  | .pcrResetCtlWarm _ v => some (.PCR_RESET_CTL, 0, 0, v.toNat)
  | .pcrResetCtlCold _ v => some (.PCR_RESET_CTL, 0, 0, v.toNat)
  | .blockRstHl _ k => some (.PCR_BLOCK_RST, 0, 0, 2 ^ k.val)
  | .blockRstMc _ m => some (.PCR_BLOCK_RST, 0, 0, 2 ^ (8 + m.val))
  | .blockRstQm _ => some (.PCR_BLOCK_RST, 0, 0, 2 ^ 14)
  | .blockRstYrd _ => some (.PCR_BLOCK_RST, 0, 0, 2 ^ 15)
  | .blockRstAcq _ => some (.PCR_BLOCK_RST, 0, 0, 2 ^ 16)
  | .blockRstFlt _ => some (.PCR_BLOCK_RST, 0, 0, 2 ^ 17)
  | .blockRstTim _ => some (.PCR_BLOCK_RST, 0, 0, 2 ^ 18)
  | .blockRstFrm _ => some (.PCR_BLOCK_RST, 0, 0, 2 ^ 19)
  | .blockRstCal _ => some (.PCR_BLOCK_RST, 0, 0, 2 ^ 20)
  | .forceReturn _ v => some (.PCR_SUPPLY_CTL, 0, 0, v.toNat)
  | .hpPortCtlWrite _ k v => some (.HP_PORT_CTL, k.val, 0, v.toNat)
  | .restart _ k v => some (.HP_PORT_CTL, k.val, 0, v.toNat)
  | .hpRefCtlWrite _ k v => some (.HP_REF_CTL, k.val, 0, v.toNat)
  | .testLoopSet _ k v => some (.HP_TEST_CTL, k.val, 0, v.toNat)
  | .prbsGen _ k v => some (.HP_TEST_CTL, k.val, 0, v.toNat)
  | .prbsChk _ k v => some (.HP_TEST_CTL, k.val, 0, v.toNat)
  | .ownCtlWrite _ v => some (.OWN_CTL, 0, 0, v.toNat)
  | .ownUdpWrite _ v => some (.OWN_UDP, 0, 0, v.toNat)
  | .devPartWrite _ st v => some (.DEV_PART, st.val, 0, v.toNat)
  | .stlFlagsWrite _ st v => some (.STL_FLAGS, st.val, 0, v.toNat)
  | .emit _ v => some (.TB_SYNC_CTL, 0, 0, v.toNat)
  | .measEnWrite _ v => some (.TB_SYNC_CTL, 0, 0, v.toNat)
  | .tbSyncTrimWrite _ v => some (.TB_SYNC_TRIM, 0, 0, v.toNat)
  | .tbRateHiWrite _ v => some (.TB_RATE_HI, 0, 0, v.toNat)
  | .ptpRoleWrite _ k v => some (.TB_PTP_CTL, k.val, 0, v.toNat)
  | .acqSoftTrig _ st => some (.ACQ_SOFT, st.val, 0, 1)
  | .timArmWrite _ u => some (.TIM_ARM, u.val, 0, 1)
  | .timCtlEnWrite _ u v => some (.TIM_CTL, u.val, 0, v.toNat)
  | .qmCfgWrite _ q v => some (.QM_CFG, q.val, 0, v.toNat)
  | .flush _ q => some (.QM_CFG, q.val, 0, 2 ^ 13 + s.rg .QM_CFG q.val % 2 ^ 13)
  | .flcFirstValidWrite _ => some (.FLC_FIRST, 0, 0, 0x100)
  | .flcStickyWrite _ i v => some (.FLC_STICKY, i.val, 0, v.toNat)
  | .pesXferStart _ j i v => some (.PES_XFER, j.val, i.val, v.toNat)
  | .pesCfgWrite _ j v => some (.PES_CFG, j.val, 0, v.toNat)
  | .mcCfgWrite _ m v => some (.MC_CFG, m.val, 0, v.toNat)
  | .mcSysCfgWrite _ v => some (.MC_SYS_CFG, 0, 0, v.toNat)
  | .policyWrite _ v => some (.MC_SYS_REF, 0, 0, v.toNat)
  | _ => none

/-- Some long operation of the given slot and kind is on record under `n`, not done. -/
def State.runsOp (s : State) (n slot : Nat) (opcode : Nat) (k : OpKind) : Prop :=
  ∃ o, s.op n = some o ∧ o.slot = slot ∧ o.opcode = BitVec.ofNat 16 opcode ∧ o.kind = k ∧ o.done = false

/-! ### Opcodes (R66, R124–R132) -/

/-- The DCP opcode of each command that a session sends; the rows that write one register are WRITE_REG. -/
def opcodeOf : Instr → Nat
  | .dcpFrameDrop _ (.reservedOpcode op) => op.toNat
  | .hello .. => 0x0001
  | .claim .. => 0x0002
  | .release .. => 0x0003
  | .grant .. => 0x0004
  | .renew .. => 0x0005
  | .bye .. => 0x0006
  | .opStatus .. => 0x0007
  | .readReg .. => 0x0010
  | .modifyReg .. => 0x0012
  | .readRegList .. => 0x0013
  | .writeMem .. => 0x0020
  | .readMem .. => 0x0021
  | .fillMem .. => 0x0022
  | .copyMem .. => 0x0023
  | .loadSeq .. => 0x0030
  | .start .. => 0x0031
  | .stop .. => 0x0032
  | .arm .. => 0x0033
  | .status .. => 0x0034
  | .setflag .. => 0x0035
  | .stallReset .. => 0x0036
  | .streamOpen .. => 0x0040
  | .credit .. => 0x0041
  | .streamClose .. => 0x0042
  | .rewind .. => 0x0043
  | .calRun .. => 0x0050
  | .calRead .. => 0x0051
  | .calCommit .. => 0x0052
  | .selftestRun .. => 0x0053
  | .selftestRead .. => 0x0054
  | .yardLoad .. => 0x0060
  | .yardUnload .. => 0x0061
  | .yardSubmit .. => 0x0062
  | .yardQuiesce .. => 0x0063
  | .yardResume .. => 0x0064
  | .yardStatus .. => 0x0065
  | .timeRead .. => 0x0070
  | .timeSet .. => 0x0071
  | .timeStep .. => 0x0072
  | .alarmSet .. => 0x0073
  | .alarmCancel .. => 0x0074
  | .tsqRead .. => 0x0075
  | .faultRead .. => 0x0080
  | .faultClear .. => 0x0081
  | .faultReaction .. => 0x0082
  | .faultInject .. => 0x0083
  | .faultRelease .. => 0x0084
  | .tackRead .. => 0x0090
  | .tackWrite .. => 0x0091
  | .fwWrite .. => 0x0092
  | .fwVerify .. => 0x0093
  | .fwActivate .. => 0x0094
  | .ident .. => 0x0095
  | .mcStatus .. => 0x00a0
  | .rankRetire .. => 0x00a1
  | .migStatus .. => 0x00a2
  | .scrub .. => 0x00a3
  | _ => 0x0011

/-! ### Invariants -/

/-- A property of the next state, when there is one. -/
def Keeps (P : State → Prop) (o : Host.Outcome State Fault Refusal) : Prop :=
  match o with
  | .next t => P t
  | .fault _ => True
  | .refused _ => True

/-- Every indexed piece of state is in its one canonical form: registers, sessions, owners, operations, stalls, channels,
queues, streams, DRAM, the tack store, timers, the Yard and the rest. Equal contents are then equal states. -/
structure State.Canon (s : State) : Prop where
  regs : mwf regRst s.regs = true
  latch : mwf (fun _ => none) s.latch = true
  sess : mwf (fun _ => none) s.sess = true
  slotGen : mwf (fun _ => 0) s.slotGen = true
  owner : mwf (fun _ => none) s.owner = true
  elect : mwf (fun _ => none) s.elect = true
  ops : mwf (fun _ => none) s.ops = true
  lanes : mwf (fun _ => ({} : Lane)) s.lanes = true
  condOn : mwf (fun _ => false) s.condOn = true
  condDet : mwf (fun _ => 0) s.condDet = true
  lastEvt : mwf (fun _ => none) s.lastEvt = true
  seenAt : mwf (fun _ => none) s.seenAt = true
  stalls : mwf (fun _ => ({} : Stall)) s.stalls = true
  chans : mwf (fun _ => ({} : Chan)) s.chans = true
  framers : mwf (fun _ => ({} : Framer)) s.framers = true
  queues : mwf (fun _ => ({} : QState)) s.queues = true
  streams : mwf (fun _ => none) s.streams = true
  srcBuf : mwf (fun _ => []) s.srcBuf = true
  loss : mwf (fun _ => none) s.loss = true
  lossOld : mwf (fun _ => none) s.lossOld = true
  timePend : mwf (fun _ => []) s.timePend = true
  wbuf : mwf (fun _ => []) s.wbuf = true
  mem : mwf (fun _ => (0 : Byte)) s.mem = true
  psn : mwf (fun _ => 0) s.psn = true
  err : mwf (fun _ => Cells.asStored) s.err = true
  inited : mwf (fun _ => false) s.inited = true
  wrote : mwf (fun _ => ({} : Wrote)) s.wrote = true
  shares : mwf (fun _ => (0, 0)) s.shares = true
  migWait : mwf (fun _ => none) s.migWait = true
  track : mwf (fun _ => ({} : Tracker)) s.track = true
  mr4 : mwf (fun _ => 0) s.mr4 = true
  rankT : mwf (fun _ => ({} : RankTimes)) s.rankT = true
  mcT : mwf (fun _ => ({} : McTimes)) s.mcT = true
  dead : mwf (fun _ => false) s.dead = true
  retrain : mwf (fun _ => false) s.retrain = true
  bufPanic : mwf (fun _ => false) s.bufPanic = true
  tack : mwf (fun _ => 0) s.tack = true
  tims : mwf (fun _ => ({} : Tim)) s.tims = true
  flts : mwf (fun _ => ({} : Flt)) s.flts = true
  fltBits : mwf (fun _ => []) s.fltBits = true
  alarms : mwf (fun _ => none) s.alarms = true
  ptp : mwf (fun _ => ({} : Ptp)) s.ptp = true
  tmpl : mwf (fun _ => []) s.tmpl = true
  mods : mwf (fun _ => []) s.mods = true
  trigPend : mwf (fun _ => 0) s.trigPend = true
  flows : mwf (fun _ => ({} : Flow)) s.flows = true
  ystate : mwf (fun _ => (0 : Byte)) s.ystate = true
  cores : mwf (fun _ => ({} : Core)) s.cores = true
  yflags : mwf (fun _ => []) s.yflags = true
  cal : mwf (fun _ => ({} : CalElem)) s.cal = true
  tests : mwf (fun _ => none) s.tests = true
  pes : mwf (fun _ => ({} : Pes)) s.pes = true
  trigOut : mwf (fun _ => ({} : Pulse)) s.trigOut = true
  tout : mwf (fun _ => ({} : Pulse)) s.tout = true

/-- The shadow of a stall's reset stays without an end only while that stall reset is pending (R181, R486). -/
def State.shadowsInv (s : State) : Prop :=
  ∀ x ∈ s.shadows, ∀ st : StallIx, x.blk = .stall st → x.endsAt = none →
    (s.stall st.val).stops.any (fun p => p.cause == 6) = true

end Sys2Proof.Machine
end

