-- ==== Sys2Proof/WellFormed.lean ====
section
/-! DEFINITION. Which terms of `Instr` are commands that a sender or the outside can form: a header whose parameter length
fits its field, lists no longer than what carries them. A command that is well formed may still fail its checks. -/

namespace Sys2Proof

/-- A header's parameter length fits the 16-bit field (R105). -/
def Hdr.wf (h : Hdr) : Bool := decide (h.plen < 65536)

/-- A module pushes packets of at least one word (R366, R400). -/
def ModAct.wf : ModAct → Bool
  | .push _ ws => decide (ws ≠ [])
  | .pop _ | .flag .. | .state .. | .store .. => true

/-- The opcodes that R124 to R132 assign. -/
def assignedOpcodes : List Nat :=
  [0x01, 0x02, 0x03, 0x04, 0x05, 0x06, 0x07, 0x10, 0x11, 0x12, 0x13, 0x20, 0x21, 0x22, 0x23, 0x30, 0x31, 0x32, 0x33, 0x34,
    0x35, 0x36, 0x40, 0x41, 0x42, 0x43, 0x50, 0x51, 0x52, 0x53, 0x54, 0x60, 0x61, 0x62, 0x63, 0x64, 0x65, 0x70, 0x71, 0x72,
    0x73, 0x74, 0x75, 0x80, 0x81, 0x82, 0x83, 0x84, 0x90, 0x91, 0x92, 0x93, 0x94, 0x95, 0xa0, 0xa1, 0xa2, 0xa3]

/-- A reserved opcode is one that is not assigned (R124). -/
def DcpDrop.wf : DcpDrop → Bool
  | .reservedOpcode opcode => ! assignedOpcodes.contains opcode.toNat
  | .shortFrame | .ipFragment | .udpChecksum | .reservedType => true

/-- A timestamp in a message is a 48-bit count of seconds and a nanosecond field; the operand is in units of 2^−16 ns (R446). -/
def PtpMsg.wf : PtpMsg → Bool
  | .sync _ _ t _ | .followUp _ t | .delayResp _ t => decide (t < 2 ^ 64 * 1000000000)
  | .delayReq .. | .announce .. | .other _ => true

/-- A command is well formed: the parameter list of a DCP command is no longer than its parameter length says (R105); a
received burst fits what receives it (R425, R432, R510, R514); a packet has at least one word (R366). -/
def Instr.wf : Instr → Bool
  | .hello h _ _ _ => h.wf
  | .claim h _ => h.wf
  | .release h => h.wf
  | .grant h _ => h.wf
  | .renew h _ => h.wf
  | .bye h => h.wf
  | .opStatus h _ => h.wf
  | .readReg h _ _ => h.wf
  | .writeReg h _ _ values => h.wf && decide (4 * values.length ≤ h.plen)
  | .modifyReg h _ _ _ => h.wf
  | .readRegList h _ addrs => h.wf && decide (4 * addrs.length ≤ h.plen)
  | .writeMem h _ _ data => h.wf && decide (data.length ≤ h.plen)
  | .readMem h _ _ => h.wf
  | .fillMem h _ _ _ => h.wf
  | .copyMem h _ _ _ => h.wf
  | .loadSeq h _ _ => h.wf
  | .start h _ _ _ _ _ => h.wf
  | .stop h _ => h.wf
  | .arm h => h.wf
  | .status h => h.wf
  | .setflag h _ _ => h.wf
  | .stallReset h => h.wf
  | .streamOpen h _ _ _ _ => h.wf
  | .credit h _ _ _ => h.wf
  | .creditFrame h _ _ _ => h.wf
  | .streamClose h _ => h.wf
  | .rewind h _ _ => h.wf
  | .calRun h _ _ channels => h.wf && decide (channels.length ≤ h.plen)
  | .calRead h _ _ => h.wf
  | .calCommit h => h.wf
  | .selftestRun h _ => h.wf
  | .selftestRead h => h.wf
  | .yardLoad h _ _ _ _ => h.wf
  | .yardUnload h _ _ => h.wf
  | .yardSubmit h _ _ _ data => h.wf && decide (data.length ≤ h.plen)
  | .yardQuiesce h => h.wf
  | .yardResume h => h.wf
  | .yardStatus h => h.wf
  | .timeRead h => h.wf
  | .timeSet h _ _ _ _ => h.wf
  | .timeStep h _ => h.wf
  | .alarmSet h _ _ _ _ _ => h.wf
  | .alarmCancel h _ => h.wf
  | .tsqRead h _ _ => h.wf
  | .faultRead h => h.wf
  | .faultClear h _ _ => h.wf
  | .faultReaction h _ _ => h.wf
  | .faultInject h _ => h.wf
  | .faultRelease h => h.wf
  | .tackRead h _ _ => h.wf
  | .tackWrite h _ _ data => h.wf && decide (data.length ≤ h.plen)
  | .fwWrite h _ _ data => h.wf && decide (data.length ≤ h.plen)
  | .fwVerify h => h.wf
  | .fwActivate h => h.wf
  | .ident h => h.wf
  | .mcStatus h _ => h.wf
  | .rankRetire h _ _ => h.wf
  | .migStatus h => h.wf
  | .scrub h _ => h.wf
  | .dcpFrameDrop h why => h.wf && why.wf
  | .rxFrameDrop _ _ => true
  | .arpRequest _ _ _ => true
  | .icmpEchoRequest _ _ _ payload => decide (payload.length < 65536)
  | .fillMemDone _ => true
  | .copyMemDone _ => true
  | .calRunDone _ meas => meas.all (fun m => decide (m.resid.length ≤ 256))
  | .calCommitDone _ => true
  | .selftestDone _ _ => true
  | .yardLoadDone _ => true
  | .yardQuiesceDone _ => true
  | .fwVerifyDone _ _ => true
  | .scrubDone _ => true
  | .opRecordExpiry _ => true
  | .pcrResetCtlWarm h _ => h.wf
  | .pcrResetCtlCold h _ => h.wf
  | .blockRstHl h _ => h.wf
  | .blockRstMc h _ => h.wf
  | .blockRstQm h => h.wf
  | .blockRstYrd h => h.wf
  | .blockRstAcq h => h.wf
  | .blockRstFlt h => h.wf
  | .blockRstTim h => h.wf
  | .blockRstFrm h => h.wf
  | .blockRstCal h => h.wf
  | .blockResetComplete _ => true
  | .forceReturn h _ => h.wf
  | .hpPortCtlWrite h _ _ => h.wf
  | .restart h _ _ => h.wf
  | .hpRefCtlWrite h _ _ => h.wf
  | .laneSettingsApply _ => true
  | .testLoopSet h _ _ => h.wf
  | .loopTimeout _ => true
  | .prbsGen h _ _ => h.wf
  | .prbsChk h _ _ => h.wf
  | .ownCtlWrite h _ => h.wf
  | .ownUdpWrite h _ => h.wf
  | .ownChangeApply => true
  | .devPartWrite h _ _ => h.wf
  | .stlFlagsWrite h _ _ => h.wf
  | .emit h _ => h.wf
  | .syncOutPulse => true
  | .measEnWrite h _ => h.wf
  | .tbSyncTrimWrite h _ => h.wf
  | .tbRateHiWrite h _ => h.wf
  | .ptpRoleWrite h _ _ => h.wf
  | .acqSoftTrig h _ => h.wf
  | .timArmWrite h _ => h.wf
  | .timCtlEnWrite h _ _ => h.wf
  | .qmCfgWrite h _ _ => h.wf
  | .flush h _ => h.wf
  | .flcFirstValidWrite h => h.wf
  | .flcStickyWrite h _ _ => h.wf
  | .pesXferStart h _ _ _ => h.wf
  | .pesTransferBegin _ => true
  | .pesTransferEnd _ rx => decide (rx.length ≤ 128)
  | .pesCfgWrite h _ _ => h.wf
  | .mcCfgWrite h _ _ => h.wf
  | .mcSysCfgWrite h _ => h.wf
  | .policyWrite h _ => h.wf
  | .coldReset _ => true
  | .coldStart _ => true
  | .rootPllLock => true
  | .hostReady => true
  | .warmReset _ => true
  | .warmStart _ => true
  | .warmRetrain _ => true
  | .inputLeavesRange _ _ => true
  | .inputEntersRange _ _ => true
  | .returnToVmain => true
  | .refclkLoss => true
  | .refclkReturn _ => true
  | .pllUnlock => true
  | .pllRelock _ => true
  | .jtagTrst _ => true
  | .trigInEdge _ _ => true
  | .syncEpochBoundary _ _ _ _ => true
  | .linkUp _ => true
  | .linkDown _ _ => true
  | .vectorT0 _ => true
  | .seqEntryRead _ => true
  | .lineRequest _ => true
  | .lineArrival _ _ => true
  | .prefillComplete _ => true
  | .starvation _ => true
  | .stopBoundary _ => true
  | .stallResetComplete _ => true
  | .setfPhaseReset _ => true
  | .compareEvent _ _ _ => true
  | .edgeCapture _ _ _ _ => true
  | .eqWindowEnd _ _ _ _ _ => true
  | .framerCharacter _ _ => true
  | .recordAccept _ _ => true
  | .gapPairWrite _ _ => true
  | .timePairPeriodic _ => true
  | .autoTrigger _ => true
  | .windowRearm _ => true
  | .trigOutPulse _ => true
  | .timGateOpen _ => true
  | .timGateClose _ => true
  | .timStartEdge _ _ _ => true
  | .timStopEdge _ _ _ => true
  | .timTimeout _ => true
  | .timDeadEnd _ => true
  | .fltInputSample _ => true
  | .queuePush _ _ words _ => decide (words ≠ [])
  | .queuePop _ _ => true
  | .spillReadback _ _ => true
  | .streamFrameSend _ => true
  | .leaseExpiry _ => true
  | .expiredSessionClose _ => true
  | .electionClose _ => true
  | .instanceCreate => true
  | .workRequest _ => true
  | .operationComplete _ acts _ => acts.all ModAct.wf
  | .operationTimeout cut => cut.acts.all ModAct.wf
  | .yardflagUpdate _ => true
  | .dramRequest _ _ _ _ => true
  | .regionFill _ => true
  | .refreshInterval _ _ => true
  | .mr4Poll _ rates temps => decide (rates.length ≤ 4) && decide (temps.length ≤ 4)
  | .powerDownEntry _ _ => true
  | .selfRefreshEntry _ _ => true
  | .rowDisturbanceWindowEnd _ => true
  | .migrationUnitCopy cells => decide (cells.length ≤ 32)
  | .migrationDone => true
  | .alarmFire _ => true
  | .toutPulse _ => true
  | .ptpMessageRx _ frame => frame.msg.wf
  | .ptpSyncInterval _ _ => true
  | .ptpHoldover => true
  | .faultActivation _ _ => true
  | .watchdog => true
  | .deviceReset => true
  | .shadowEnd _ => true
  | .blockWrite frag _ => decide (1 ≤ frag.bytes.length) && decide (frag.bytes.length ≤ 255)
  | .blockRead => true
  | .blockReadRepeat => true
  | .alertResponse => true
  | .sclLowTimeout => true
  | .signalDetected _ => true
  | .blockLock _ => true
  | .signalLoss _ _ => true
  | .faultyPair _ _ => true
  | .condSourceInactive _ => true
  | .retrainingComplete _ _ => true

end Sys2Proof
end

