-- ==== Sys2Proof/Certificates/Slice0/Obligations.lean ====
section
/-! DEFINITION. The statements about the part, for the provers. `u` names the state in which an admitted command makes its
own checks (`State.taken`), and `State.replies` ends the command with its reply. -/

open Sys2Proof Sys2Proof.Machine

/-- The block's interface: in every state, a step with command c at the front of the queue answers what c does to the
state with the rest of the queue. [05_command_protocol] -/
def Obligations.StepRunsFrontCommand : Prop :=
  ∀ (c : Instr) (rest : List Instr) (s : State),
    step (s.withPending (c :: rest)) = exec c (s.withPending rest)

/-- The model's choice (log 1): with an empty queue, the oldest held command whose session no longer waits for a reply
is executed; with none, the step answers the state one SCLK cycle later, in which the time-base counter is one higher
unless a lost clock has stopped it; memory, queues and stalls are unchanged and, where no held DRAM access reaches its
10 ms, so are registers, sessions and what was sent. [R112, R412, R440, 16_network_time] -/
def Obligations.StepOnEmptyQueue : Prop :=
  ∀ s : State, s.pending = [] →
    (∀ c, s.releasable = some c → step s = exec c ((s.withHeld (s.held.erase c)).withResuming true)) ∧
    (s.releasable = none → ∃ t, step s = .next t ∧ t.now = s.now + 1 ∧
      t.cnt = (if s.clockStopped then s.cnt else s.cnt + 1) ∧ t.mem = s.mem ∧ t.queues = s.queues ∧ t.stalls = s.stalls ∧
      ((∀ n x w, s.session n = some x → x.wait = some w → ∀ d acc, w.kind = .mem d acc → s.now + 1 < d) →
        t.regs = s.regs ∧ t.sess = s.sess ∧ t.out = s.out))

/-- The state of the part in cold reset: every indexed piece of state is in canonical form, no shadow is open, no
command waits or is held, no slot holds a session, no resource has an owner, no operation is on record, and the
time-base counter is 0. The reset state itself is the model's choice of the moment (log 20). [R57, R108, R118, R440]
-/
def Obligations.InvariantsAtReset : Prop :=
  State.reset.Canon ∧ State.reset.shadowsInv ∧ State.reset.pending = [] ∧ State.reset.held = [] ∧
    State.reset.phase = .coldHold ∧ (∀ n, State.reset.session n = none) ∧ (∀ r, State.reset.ownerOf r = none) ∧
    (∀ n, State.reset.op n = none) ∧ State.reset.cnt = 0

/-- From every state whose registers, sessions, owners, queues, DRAM, poison tags, tack store and other indexed pieces
of state are in canonical form (addresses rising, nothing listed at its default), a step to a next state leaves all of
them so. DRAM's canonical form is among them. [R7, R108, R410, R517] -/
def Obligations.EveryStepKeepsCanonicalForm : Prop :=
  ∀ s t : State, s.Canon → step s = .next t → t.Canon

/-- From every state in which each shadow of a stall without an end time belongs to a stall whose stall reset is
pending, a step to a next state leaves this so: no shadow outlives the stall reset that opened it. [R181, R486] -/
def Obligations.EveryStepKeepsStallShadows : Prop :=
  ∀ s t : State, s.shadowsInv → step s = .next t → t.shadowsInv

/-- In every state every command of the table answers a next state: no command faults and none is refused by the
model. That next state is the settled form of some state, so every report that the command's detectors made has been
acted on. [R66, R116, R124, R478] -/
def Obligations.EveryCommandAnswersNextState : Prop :=
  ∀ (c : Instr) (s : State), ∃ v : State, exec c s = .next v.settle

/-- For every command that a session sends and whose frame the part hears: with a version other than 2 the next state
is the one with the frame counted and a BAD_VERSION reply sent (no sequence number is used and no cache is written);
with version 2, while the part is neither in service nor in the boot-ROM state, it is the one with the frame counted
and a BUSY reply sent. A part that a strap error stopped answers over the management target with the strap error's
status, which the spec does not give (a free value, log 3). [R33, R66, R106, R116, R126] -/
def Obligations.VersionAndServiceAreCheckedFirst : Prop :=
  ∀ (c : Instr) (h : Hdr) (s : State), hdrOf c = some h → s.resuming = false → (s.heard h).1 = true →
    (h.version ≠ 2 →
      exec c s = .next ((s.arrived h).bounce h (opcodeOf c) stBadVersion).settle) ∧
    (h.version = 2 → s.phase ≠ .ready → s.phase ≠ .bootRom → ¬ (s.phase = .strapStop ∧ h.bind = .mgmt) →
      exec c s = .next ((s.arrived h).bounce h (opcodeOf c) stBusy).settle) ∧
    (h.version = 2 → s.phase = .strapStop → h.bind = .mgmt →
      exec c s = .next ((s.withFreeCtr (s.freeCtr + 1)).bounce h (opcodeOf c) (Config.free s.freeCtr 16).toNat).settle)

/-- For every command but HELLO that passes checks 1 and 2: if its handle names no session, or names a session bound
to another lane or address, the next state is the one with a BAD_SESSION reply sent; if it names an expired session of
the sender, a LEASE_EXPIRED reply is sent and that session is closed. [R109, R114, R116] -/
def Obligations.WrongSessionGetsBadSession : Prop :=
  ∀ (c : Instr) (h : Hdr) (s : State), hdrOf c = some h → opcodeOf c ≠ 0x0001 → Arrives s h →
    (s.slotOf h.session = none →
      exec c s = .next ((s.arrived h).bounce h (opcodeOf c) stBadSession).settle) ∧
    (∀ slot x, s.slotOf h.session = some slot → s.session slot = some x → x.bind ≠ h.bind →
      exec c s = .next ((s.arrived h).bounce h (opcodeOf c) stBadSession).settle) ∧
    (∀ slot x, s.slotOf h.session = some slot → s.session slot = some x → x.bind = h.bind → x.expired = true →
      exec c s = .next (((s.arrived h).bounce h (opcodeOf c) stLeaseExpired).closeSession slot).settle)

/-- For every command but HELLO of a live session of the sender that passes checks 1 to 3: while the reply to an
earlier command of the session waits, or earlier commands of it are held, the command is put behind the held ones and
has no other effect (holding is the model's reading of R112, log 1). Else, with n the session's next sequence number
modulo 2^32: if its sequence is one of n - 16 to n - 1, the reply cached for it is sent again with the retry flag set,
and with none cached nothing is sent (the model's choice, log 78); if it is neither n nor one of these, the reply is
BAD_SEQUENCE with parameter n. The command is not executed and n stays. [R111, R112, R116] -/
def Obligations.SequenceOfASession : Prop :=
  ∀ (c : Instr) (h : Hdr) (s : State) (slot : Nat) (x : Session), hdrOf c = some h → opcodeOf c ≠ 0x0001 →
    Arrives s h → s.slotOf h.session = some slot → s.session slot = some x → x.bind = h.bind → x.expired = false →
    (s.mustWait h = true →
      exec c s = .next ((s.arrived h).withHeld ((s.arrived h).held ++ [c])).settle) ∧
    (s.mustWait h = false →
      (∀ m, (1 ≤ (x.nextSeq - h.seq).toNat ∧ (x.nextSeq - h.seq).toNat ≤ 16) →
        x.cache.find? (fun r => r.seq == h.seq) = some m →
          exec c s = .next ((s.arrived h).sendDcp x.bind { m with retry := true }).settle) ∧
      ((1 ≤ (x.nextSeq - h.seq).toNat ∧ (x.nextSeq - h.seq).toNat ≤ 16) →
        x.cache.find? (fun r => r.seq == h.seq) = none → exec c s = .next (s.arrived h).settle) ∧
      (16 < (x.nextSeq - h.seq).toNat →
        exec c s = .next ((s.arrived h).bounce h (opcodeOf c) stBadSequence (beBytes 4 x.nextSeq.toNat)).settle))

/-- For every command of a live session of the sender that passes checks 1 to 4 in the boot-ROM state and whose opcode
is neither of the session and ownership group (0x0001 to 0x0007) nor of the tack-store and firmware group (0x0090 to
0x0095): the sequence number is used, the lease starts again, and the reply is BAD_OPCODE. [R67, R126] -/
def Obligations.BootRomServesTwoGroups : Prop :=
  ∀ (c : Instr) (h : Hdr) (s : State) (slot : Nat) (x : Session), hdrOf c = some h →
    7 < opcodeOf c → (opcodeOf c < 0x0090 ∨ 0x0095 < opcodeOf c) →
    Arrives s h → s.phase = .bootRom → s.slotOf h.session = some slot → s.session slot = some x → x.bind = h.bind →
    x.expired = false → s.mustWait h = false → h.seq = x.nextSeq →
      exec c s = .next (((s.arrived h).accept slot x).replies slot h (opcodeOf c) stBadOpcode [])

/-- For a command executed at once that changes nothing but is answered with a status and parameters, with no
detector's report waiting: the sender's session has its next sequence number used, its lease started again, and the
reply (type REPLY, its own handle, the command's sequence, target and opcode, that status and those parameters) put at
the front of its replay cache, which keeps 16. Every other session, every owner, election, stall, channel, queue,
stream, operation, timer, Yard, calibration, time and DRAM state, the tack store and the poison tags are unchanged,
and so is every register but the four frame counters of the host lanes. [R88, R107, R111, R113, R118] -/
def Obligations.AnswerFrame : Prop :=
  ∀ (s : State) (h : Hdr) (slot : Nat) (x : Session) (op status : Nat) (p : List Byte), Admits s h slot x →
    s.reports = [] →
    let t := (s.taken h slot x).replies slot h op status p
    t.session slot = some { x with
      nextSeq := x.nextSeq + 1, leaseEnd := s.now + x.leaseMs * msCyc, helloOnly := false
      cache := ((⟨.reply, false, h.session, h.seq, h.target, BitVec.ofNat 16 op, BitVec.ofNat 16 status, p⟩ : Msg)
        :: x.cache).take 16 } ∧
    (∀ n, n ≠ slot → t.session n = s.session n) ∧
    (∀ a : Nat, (∀ k : LaneIx, a ∉ [R.addr .HP_RX_FRAMES k.val, R.addr .HP_RX_DROP k.val, R.addr .HP_TX_FRAMES k.val,
      R.addr .HP_TX_DROP k.val]) → mget regRst t.regs a = mget regRst s.regs a) ∧
    t.owner = s.owner ∧ t.elect = s.elect ∧ t.ops = s.ops ∧ t.stalls = s.stalls ∧ t.chans = s.chans ∧
    t.framers = s.framers ∧ t.queues = s.queues ∧ t.streams = s.streams ∧ t.mem = s.mem ∧ t.psn = s.psn ∧
    t.err = s.err ∧ t.inited = s.inited ∧ t.dram = s.dram ∧ t.mig = s.mig ∧ t.tack = s.tack ∧ t.tims = s.tims ∧
    t.flts = s.flts ∧ t.alarms = s.alarms ∧ t.ofs = s.ofs ∧ t.rate = s.rate ∧ t.insts = s.insts ∧ t.mods = s.mods ∧
    t.tmpl = s.tmpl ∧ t.flows = s.flows ∧ t.cores = s.cores ∧ t.cal = s.cal ∧ t.tests = s.tests ∧ t.pes = s.pes ∧
    t.lanes = s.lanes ∧ t.phase = s.phase ∧ t.now = s.now ∧ t.cnt = s.cnt ∧ t.pending = s.pending ∧ t.held = s.held

/-- A HELLO that the part hears in service, of version 2, session 0xFFFF, target 0xFF, 13 bytes of parameters, a lease
of 0 or 100 to 60,000 ms and flags 0 or 1: without an earlier one that it repeats and with a slot for it, a session is
created in that slot and the reply sent; with takeover and an earlier session of the same client and binding in
another slot, the ownerships of that session pass to the new one and it is closed; a repeat gets the cached reply
again. The new session is bound to the sender, holds the lease given (2,000 ms for 0), expects the HELLO's sequence +
1, and has the slot's generation raised by 1 from its last, with 0 after 2,046. [R108, R109, R110, R111, R113, R116]
-/
def Obligations.HelloCreatesSession : Prop :=
  ∀ (s : State) (h : Hdr) (client : BitVec 64) (lease : BitVec 32) (flags : BitVec 8), Arrives s h →
    h.session = 0xffff → h.target = 0xff → h.plen = 13 → leaseOk lease.toNat = true → flags.toNat ≤ 1 →
    let u := s.arrived h
    (∀ y, u.repeatedHello h client = some y →
      exec (.hello h client lease flags) s = .next (u.resendCached y h.seq).settle) ∧
    (∀ n, u.repeatedHello h client = none → u.helloSlot = some n →
      (flags.toNat = 0 ∨ u.takenOver h client = none ∨ u.takenOver h client = some n →
        exec (.hello h client lease flags) s
          = .next ((u.newSession n h client lease.toNat).helloReply n h).settle) ∧
      (∀ o, flags.toNat = 1 → u.takenOver h client = some o → o ≠ n →
        exec (.hello h client lease flags) s
          = .next ((u.newSession n h client lease.toNat).takeOver o n h).settle) ∧
      (u.newSession n h client lease.toNat).session n = some ⟨mget (fun _ => 0) (u.closeSession n).slotGen n, false,
        client, h.bind, if lease.toNat = 0 then 2000 else lease.toNat,
        u.now + (if lease.toNat = 0 then 2000 else lease.toNat) * msCyc, 0, h.seq + 1, h.seq, true, [], 0, none⟩ ∧
      mget (fun _ => 0) (u.newSession n h client lease.toNat).slotGen n =
        (if mget (fun _ => 0) (u.closeSession n).slotGen n = 2046 then 0
          else mget (fun _ => 0) (u.closeSession n).slotGen n + 1)) ∧
    (u.repeatedHello h client = none → u.helloSlot = none →
      exec (.hello h client lease flags) s = .next (u.bounce h 1 stNoResource).settle)

/-- For an admitted CLAIM (1 byte) of a stall or the device: an owned resource is answered at once with its owner, OK
for the claimant and NOT_OWNER otherwise; of an unowned one, the claim joins the open election or opens one that
closes 1 ms later, and the reply waits. RELEASE by the owner leaves the resource unowned. GRANT by the owner to
another live session makes that session the owner and sends it OWNER_CHANGE with reason 1; to itself it changes
nothing. A session that does not own the resource gets NOT_OWNER for RELEASE and GRANT. [R118, R120, R122, R139] -/
def Obligations.OwnershipCommandsComplete : Prop :=
  ∀ (s : State) (h : Hdr) (slot : Nat) (x : Session) (r : Nat), Admits s h slot x → targetRes h.target = some r →
    let u := s.taken h slot x
    (∀ prio : BitVec 8, h.plen = 1 →
      (∀ o, u.ownerOf r = some o → exec (.claim h prio) s = .next (u.replies slot h 0x0002
        (if o = slot then stOk else stNotOwner) (beBytes 2 (u.handle (some o)).toNat))) ∧
      (∀ e, u.ownerOf r = none → u.election r = some e → exec (.claim h prio) s = .next
        ((u.setElection r (some { e with claims := e.claims ++ [(slot, prio.toNat)] })).waitsFor slot h 0x0002
          (.claim r))) ∧
      (u.ownerOf r = none → u.election r = none → exec (.claim h prio) s = .next
        ((u.setElection r (some ⟨u.now + msCyc, [(slot, prio.toNat)]⟩)).waitsFor slot h 0x0002 (.claim r)))) ∧
    (h.plen = 0 → u.owns slot r = true →
      exec (.release h) s = .next ((u.setOwner r none).replies slot h 0x0003 stOk [])) ∧
    (h.plen = 0 → u.owns slot r = false → exec (.release h) s = .next (u.replies slot h 0x0003 stNotOwner [])) ∧
    (∀ (to_ : BitVec 16) (n : Nat), h.plen = 2 → u.slotOf to_ = some n → u.live n = true →
      (u.owns slot r = true → n ≠ slot → exec (.grant h to_) s = .next
        (((u.setOwner r (some n)).ownerChange (some n) r (u.handle (some slot)) (u.handle (some n)) 1).replies slot h
          0x0004 stOk [])) ∧
      (u.owns slot r = true → n = slot → exec (.grant h to_) s = .next (u.replies slot h 0x0004 stOk [])) ∧
      (u.owns slot r = false → exec (.grant h to_) s = .next (u.replies slot h 0x0004 stNotOwner [])))

/-- When the election of a resource closes, the winner is a claimant whose priority no claim exceeds and whose slot is
the lowest among the claims of that priority. It becomes the owner, the election is over, and every claimant that
waits is answered with the winner's handle, the winner with OK and the others with NOT_OWNER. The order in which the
claims arrived plays no part: an election with the same claims in another order has the same winner. While the
election is open the resource's owner is the one that it had. [R121] -/
def Obligations.ElectionPicksHighestPriority : Prop :=
  (∀ (claims : List (Nat × Nat)) (w : Nat), winner claims = some w →
    ∃ p, (w, p) ∈ claims ∧ ∀ n q, (n, q) ∈ claims → q < p ∨ (q = p ∧ w ≤ n)) ∧
  (∀ claims : List (Nat × Nat), claims ≠ [] → ∃ w, winner claims = some w) ∧
  (∀ (c d : List (Nat × Nat)), c.Perm d → winner c = winner d) ∧
  (∀ (s : State) (r : Fin 17) (e : Election) (w : Nat), s.election r.val = some e → winner e.claims = some w →
    let v := ((s.advTo e.closeAt).setElection r.val none).setOwner r.val (some w)
    exec (.electionClose r) s = .next ((List.range 32).foldl (fun t n => t.answer n (.claim r.val)
      (if n = w then stOk else stNotOwner) (beBytes 2 (v.handle (some w)).toNat)) v).settle ∧
    (s.Canon → v.ownerOf r.val = some w ∧ v.election r.val = none))

/-- For an admitted command with target 0xFF: RENEW (4 bytes, 0 or 100 to 60,000 ms) restarts the lease with the
length given, 0 keeping it, and returns it. BYE (no parameters) releases the session's ownerships, closes its streams,
sends its reply and closes the session. OP_STATUS (2 bytes) of no operation returns state 0; of a finished one state
2, 100 per cent, the opcode, status and result, and frees the record; of a running one state 1, a percentage of 0 to
100 that the spec does not fix (a free value, log 3), the opcode and zeros. When the lease of a live session runs out,
its ownerships are released and its streams closed, the session is marked expired at that moment, and the device owner
gets OWNER_CHANGE with reason 3 for each stall it owned. An expired session closes 60 s after it expired. The record
of a finished operation is freed 60 s after it finished. [R113, R114, R115, R123, R125, R139] -/
def Obligations.SessionsAreKeptAndEnd : Prop :=
  (∀ (s : State) (h : Hdr) (slot : Nat) (x : Session), Admits s h slot x → h.target = 0xff →
     let u := s.taken h slot x
     (∀ (ms : BitVec 32) (y : Session), h.plen = 4 → leaseOk ms.toNat = true → u.session slot = some y →
       exec (.renew h ms) s = .next ((u.setSession slot (some { y with
           leaseMs := if ms = 0 then y.leaseMs else ms.toNat
           leaseEnd := u.now + (if ms = 0 then y.leaseMs else ms.toNat) * msCyc })).replies slot h 0x0005 stOk
         (beBytes 4 (if ms = 0 then y.leaseMs else ms.toNat)))) ∧
     (h.plen = 0 → exec (.bye h) s = .next (((u.releaseAll slot).closeStreams slot).ends slot h 0x0006 (.last stOk []))) ∧
     (∀ op : BitVec 16, h.plen = 2 →
       (u.op op.toNat = none → exec (.opStatus h op) s = .next (u.replies slot h 0x0007 stOk (List.replicate 14 0))) ∧
       (∀ o, u.op op.toNat = some o → o.done = true → exec (.opStatus h op) s = .next
         ((u.setOp op.toNat none).replies slot h 0x0007 stOk ([2, 100] ++ beBytes 2 o.opcode.toNat
           ++ beBytes 2 o.status.toNat ++ beBytes 8 o.result.toNat))) ∧
       (∀ o, u.op op.toNat = some o → o.done = false → ∃ percent : Byte, percent.toNat ≤ 100 ∧
         exec (.opStatus h op) s = .next ((u.withFreeCtr (u.freeCtr + 1)).replies slot h 0x0007 stOk
           ([1, percent] ++ beBytes 2 o.opcode.toNat ++ List.replicate 10 0))))) ∧
  (∀ (s : State) (n : Fin 32) (x : Session), s.session n.val = some x → x.expired = false →
    let a := s.advTo x.leaseEnd
    let b := (a.releaseAll n.val).closeStreams n.val
    ∀ y, b.session n.val = some y →
      exec (.leaseExpiry n) s = .next (((List.range 16).filter (fun r => a.owns n.val r)).foldl
        (fun t r => t.ownerChange (t.ownerOf devRes) r (a.handle (some n.val)) 0xffff 3)
        (b.setSession n.val (some { y with expired := true, expiredAt := b.now }))).settle) ∧
  (∀ (s : State) (n : Fin 32) (x : Session), s.session n.val = some x → x.expired = true →
    exec (.expiredSessionClose n) s
      = .next ((s.advTo (x.expiredAt + 60000 * msCyc)).closeSession n.val).settle) ∧
  (∀ (s : State) (op : BitVec 16) (o : OpRec), s.op op.toNat = some o → o.done = true →
    exec (.opRecordExpiry op) s = .next ((s.advTo (o.doneAt + 60000 * msCyc)).setOp op.toNat none).settle)

/-- A malformed DCP frame that the part hears is dropped without a reply and counted in OWN_DROP; a command of a
reserved opcode that passes checks 1 to 4 gets BAD_OPCODE. On a lane that is UP, a frame with a bad FCS is counted in
HP_RX_FCS_ERR and any other undelivered frame in HP_RX_DROP. An ARP request for the lane's IPv4 address, and an ICMP
echo request to it, is counted and answered on the lane; for any other address, or while the lane has none, it is
dropped and counted in HP_RX_DROP. [R88, R103, R104, R106, R116, R124] -/
def Obligations.FramesWithoutCommand : Prop :=
  (∀ (s : State) (h : Hdr) (why : DcpDrop), why ∈ [DcpDrop.shortFrame, .ipFragment, .udpChecksum, .reservedType] →
    (s.heard { h with plen := 0 }).1 = true →
    exec (.dcpFrameDrop h why) s = .next ((s.heard { h with plen := 0 }).2.bump F.OWN_DROP.count 1).settle) ∧
  (∀ (s : State) (h : Hdr) (slot : Nat) (x : Session) (op : BitVec 16), Admits s h slot x →
    exec (.dcpFrameDrop h (.reservedOpcode op)) s
      = .next ((s.taken h slot x).replies slot h op.toNat stBadOpcode [])) ∧
  (∀ (s : State) (k : LaneIx) (why : RxDrop), s.laneUp k.val = true →
    (why = .badFcs → exec (.rxFrameDrop k why) s = .next (s.bump F.HP_RX_FCS_ERR.count 1 k.val).settle) ∧
    (why ≠ .badFcs → exec (.rxFrameDrop k why) s = .next (s.bump F.HP_RX_DROP.count 1 k.val).settle)) ∧
  (∀ (s : State) (k : LaneIx) (mac : BitVec 48) (ip : BitVec 32) (data : List Byte), s.laneUp k.val = true →
    (s.rg .HP_IPV4 k.val ≠ 0 ∧ ip.toNat = s.rg .HP_IPV4 k.val →
      exec (.arpRequest k mac ip) s = .next ((s.bump F.HP_RX_FRAMES.count 1 k.val).offer k.val
        (.arp k (s.vlanTag k.val) mac (s.laneMac k.val) ip)).settle ∧
      exec (.icmpEchoRequest k mac ip data) s = .next ((s.bump F.HP_RX_FRAMES.count 1 k.val).offer k.val
        (.echo k (s.vlanTag k.val) mac (s.ipOut k.val) data)).settle) ∧
    (s.rg .HP_IPV4 k.val = 0 ∨ ip.toNat ≠ s.rg .HP_IPV4 k.val →
      exec (.arpRequest k mac ip) s = .next (s.bump F.HP_RX_DROP.count 1 k.val).settle ∧
      exec (.icmpEchoRequest k mac ip data) s = .next (s.bump F.HP_RX_DROP.count 1 k.val).settle))

/-- For every register of the part except the two that show the two halves of a sequencer stack's entries, and every
index that its table gives it: the register found at the address computed from the register's base and strides is that
register with those indices, so no two of these registers share an address and none hides another. [R498, R499, R508]
-/
def Obligations.RegisterMapUnambiguous : Prop :=
  ∀ (r : R) (i j : Nat), r ≠ .STL_STACK_A → r ≠ .STL_STACK_B → i < r.row.n1 → j < r.row.n2 →
    regAt (r.addr i j) = some (r, i, j)

/-- For each row of the opcode table that is a write of one register (resets and block resets, force_return, the
host-lane settings and tests, the DCP transports, the partition, the host flags, SYNC, rate and PTP roles, the
software trigger, the time-interval units, the queue descriptors and flush, the fault records, the serial masters and
the DRAM settings), executed for a session with target 0xFF and 10 parameter bytes: if the session owns the register,
every field is assigned, the service level and the block serve it, and no running unit or drop rule forbids it, the
next state is that with the value written to that register, over the die link's parity check where it lies on the
timing die, and the reply OK. The rows are pcrResetCtlWarm, pcrResetCtlCold, blockRstHl, blockRstMc, blockRstQm,
blockRstYrd, blockRstAcq, blockRstFlt, blockRstTim, blockRstFrm, blockRstCal, forceReturn, hpPortCtlWrite, restart,
hpRefCtlWrite, testLoopSet, prbsGen, prbsChk, ownCtlWrite, ownUdpWrite, devPartWrite, stlFlagsWrite, emit,
measEnWrite, tbSyncTrimWrite, tbRateHiWrite, ptpRoleWrite, acqSoftTrig, timArmWrite, timCtlEnWrite, qmCfgWrite, flush,
flcFirstValidWrite, flcStickyWrite, pesXferStart, pesCfgWrite, mcCfgWrite, mcSysCfgWrite, policyWrite. [R127, R500,
R501, R505] -/
def Obligations.RegisterWriteRowsComplete : Prop :=
  ∀ (c : Instr) (s : State) (h : Hdr) (slot : Nat) (x : Session) (r : R) (i j v : Nat),
    hdrOf c = some h → rowWrite s c = some (r, i, j, v) → Admits s h slot x → h.target = 0xff → h.plen = 10 →
    WriteOk (s.taken h slot x) slot r i j v →
      let u := s.taken h slot x
      exec c s = .next (((if timingDie (r.addr i j) then u.controlFlit 0 else u).applyReg r i j v).replies slot h 0x0011
        stOk [])

/-- For each row that writes one register, executed for a session with target 0xFF and 10 parameter bytes, the
register having writable fields and an owner resource: a value with a code that is not assigned gets BAD_PARAM; else a
timing-die register at service level MGMT_ONLY gets NO_RESOURCE; else a session that does not own the register gets
NOT_OWNER; else a register of a block in reset gets BUSY; else a write that a running stall, unit or chain forbids
gets STALL_RUNNING; else a write that another drop rule names gets that rule's status. In each case nothing but the
reply happens. [R500, R506] -/
def Obligations.RegisterWriteChecksInOrder : Prop :=
  ∀ (c : Instr) (s : State) (h : Hdr) (slot : Nat) (x : Session) (r : R) (i j v res : Nat),
    hdrOf c = some h → rowWrite s c = some (r, i, j, v) → Admits s h slot x → h.target = 0xff → h.plen = 10 →
    let u := s.taken h slot x
    let a := r.addr i j
    u.regRes r i j = some res →
    (u.badCode [(a, v)] r i j v = true → exec c s = .next (u.replies slot h 0x0011 stBadParam [])) ∧
    (u.badCode [(a, v)] r i j v = false →
      ((u.level = 3 ∧ timingDie a = true) → exec c s = .next (u.replies slot h 0x0011 stNoResource [])) ∧
      (¬ (u.level = 3 ∧ timingDie a = true) →
        (u.owns slot res = false → exec c s = .next (u.replies slot h 0x0011 stNotOwner [])) ∧
        (u.owns slot res = true →
          (u.addrInReset a = true → exec c s = .next (u.replies slot h 0x0011 stBusy [])) ∧
          (u.addrInReset a = false →
            (u.runningDrop r i j v = true → exec c s = .next (u.replies slot h 0x0011 stStallRunning [])) ∧
            (u.runningDrop r i j v = false → u.otherDrop [(a, v)] r i j v ≠ 0 →
              exec c s = .next (u.replies slot h 0x0011 (u.otherDrop [(a, v)] r i j v) []))))))

/-- For an executed command with target 0xFF, 1 to 256 registers at addresses that are multiples of 4 inside register
blocks, and the parameter length that its list needs: READ_REG and READ_REG_LIST return the values that the reads
give, in order, with the reads' side effects. WRITE_REG whose writes pass every check makes them in ascending address
order and answers OK; if one fails it makes none of them and answers that check's status. MODIFY_REG of a register
without read-to-clear fields that passes makes one write of the merged word and returns the register before and after;
of an address without a register it returns zeros. [R127, R500, R501, R502, R503] -/
def Obligations.RegisterCommandsComplete : Prop :=
  ∀ (s : State) (h : Hdr) (slot : Nat) (x : Session), Admits s h slot x → h.target = 0xff →
    let u := s.taken h slot x
    (∀ (addr : BitVec 32) (n : BitVec 16), h.plen = 6 → countOk n.toNat = true →
      addrsOk (regRange addr.toNat n.toNat) = true → exec (.readReg h addr n) s = .next
        ((u.regReads (regRange addr.toNat n.toNat)).2.replies slot h 0x0010 stOk
          (wordBytes (u.regReads (regRange addr.toNat n.toNat)).1))) ∧
    (∀ (n : BitVec 16) (l : List (BitVec 32)), h.plen = 2 + 4 * n.toNat → l.length = n.toNat → countOk n.toNat = true →
      addrsOk (l.map BitVec.toNat) = true → exec (.readRegList h n l) s = .next
        ((u.regReads (l.map BitVec.toNat)).2.replies slot h 0x0013 stOk (wordBytes (u.regReads (l.map BitVec.toNat)).1))) ∧
    (∀ (addr : BitVec 32) (n : BitVec 16) (l : List Word), h.plen = 6 + 4 * n.toNat → l.length = n.toNat →
      countOk n.toNat = true → addrsOk (regRange addr.toNat n.toNat) = true →
      let w := (regRange addr.toNat n.toNat).zip (l.map BitVec.toNat)
      (u.writesStatus u w slot w = 0 →
        exec (.writeReg h addr n l) s = .next ((u.applyWrites w).replies slot h 0x0011 stOk [])) ∧
      (u.writesStatus u w slot w ≠ 0 →
        exec (.writeReg h addr n l) s = .next (u.replies slot h 0x0011 (u.writesStatus u w slot w) []))) ∧
    (∀ addr mask value : BitVec 32, h.plen = 12 → addrsOk [addr.toNat] = true →
      (regAt addr.toNat = none →
        exec (.modifyReg h addr mask value) s = .next (u.replies slot h 0x0012 stOk (List.replicate 8 0))) ∧
      (∀ r i j, regAt addr.toNat = some (r, i, j) → hasRc r = false →
        let w := [(addr.toNat, modifyWord r.row (u.peekReg addr.toNat) mask.toNat value.toNat)]
        u.writesStatus u w slot w = 0 → exec (.modifyReg h addr mask value) s = .next
          ((u.applyWrites w).replies slot h 0x0012 stOk
            (beBytes 4 (u.peekReg addr.toNat) ++ beBytes 4 ((u.applyWrites w).peekReg addr.toNat)))))

/-- For the stall's sequence control and record registers, the channel's timing, level and compare registers, the
framer, filter, acquisition, alarm-free time-base and Yard registers that have no effect of their own: a write gives
the register its writable fields from the value written and keeps its other bits, and changes no other register and no
other piece of state. [R222, R248, R500, R505, R506] -/
def Obligations.PlainRegisterWriteFrame : Prop :=
  ∀ (s : State) (r : R) (i j v : Nat), s.Canon → r ∈ [R.DEV_MKR_DLY, .STL_SEQ_CTL, .STL_TS_PERIOD, .STL_HOP_CTL,
      .STL_LEAT_RESV, .STL_FAIL_LOG_CTL, .STL_FAIL_LOG_MAX, .STL_MATCH_CTL, .STL_FLAGS, .CHN_TG_CTL, .CHN_FR_INC_LO,
      .CHN_FR_INC_HI, .CHN_DRV_SKEW, .CHN_CMP_SKEW, .CHN_CMP_CTL, .FRM_TX_CTL, .FRM_RX_CTL, .ACQ_CTL, .ACQ_RESV,
      .ACQ_TRIG_CTL, .ACQ_AUTO, .ACQ_WIN_CTL, .ACQ_ROUTE, .FLT_CTL, .FLT_CIC, .FLT_DC, .TIM_ASSIGN, .QM_SPILL,
      .PES_CFG, .PES_CS_ASSIGN, .PES_TX, .OWN_MEMWIN_BASE, .OWN_MEMWIN_LIMIT, .HP_VLAN, .HP_IPV4] →
    (∀ r' i' j', r'.addr i' j' ≠ r.addr i j → (s.applyReg r i j v).rg r' i' j' = s.rg r' i' j') ∧
    (s.applyReg r i j v).rg r i j = mergeWrite r.row (s.rg r i j) v % 2 ^ 32 ∧
    s.applyReg r i j v = s.withRegs (s.applyReg r i j v).regs

/-- An executed WRITE_REG to PCR_RESET_CTL by the device owner, with target 0xFF and 10 parameter bytes, that sets the
warm bit with the key 0x5752 or the cold bit with the key 0x4352, and not both bits, with no reset already accepted,
no report of a detector waiting, and host-ready reached since the last cold reset: the reply OK is sent, nothing is
reset yet, and the reset is due 1 ms after the moment of the command. When that reset then comes, it begins at that
moment: from there on the part holds in the reset asked for. [R78] -/
def Obligations.ResetBeginsOneMillisecondAfterReply : Prop :=
  ∀ (s : State) (h : Hdr) (slot : Nat) (x : Session) (v : Word), Admits s h slot x → h.target = 0xff → h.plen = 10 →
    s.owns slot devRes = true → s.reports = [] → s.resetAt = none → s.everReady = true →
    let u := s.taken h slot x
    (v.toNat % 4 = 1 → v.toNat / 2 ^ 16 = 0x5752 →
      exec (.pcrResetCtlWarm h v) s
        = .next ((u.withResetAt (some (s.now + msCyc, .warm .cmd))).replies slot h 0x0011 stOk []) ∧
      (∀ t, exec (.pcrResetCtlWarm h v) s = .next t → t.resetAt = some (s.now + msCyc, .warm .cmd) ∧
        t.phase = .ready ∧ t.now = s.now ∧
        ∃ t', exec (.warmReset .cmd) t = .next t' ∧ t'.now = s.now + msCyc ∧ t'.phase = .warmHold)) ∧
    (v.toNat % 4 = 2 → v.toNat / 2 ^ 16 = 0x4352 →
      exec (.pcrResetCtlCold h v) s
        = .next ((u.withResetAt (some (s.now + msCyc, .cold))).replies slot h 0x0011 stOk []) ∧
      (∀ t, exec (.pcrResetCtlCold h v) s = .next t → t.resetAt = some (s.now + msCyc, .cold) ∧
        t.phase = .ready ∧ t.now = s.now ∧
        ∃ t', exec (.coldReset .cmd) t = .next t' ∧ t'.now = s.now + msCyc ∧ t'.phase = .coldHold))

/-- For an executed command with target 0xFF and the parameter length of its table row, with DRAM in service:
WRITE_MEM of 8 to 8,192 bytes (address and length multiples of 8) inside installed DRAM, by the device owner or inside
the memory window of a stall that the session owns, stores its words and answers OK. READ_MEM returns the words, OK
with first_poison 0xFFFF_FFFF when none is poisoned, and POISON with the byte offset of the first poisoned word
otherwise. While a controller that either needs retrains, the access is held and the reply waits, at most 10 ms; a
controller in block reset ends it with TIMEOUT. FILL_MEM and COPY_MEM (multiples of 64, not empty, for COPY_MEM ranges
that do not meet) take the lowest free operation record, answer OK with its handle, and run on; with no record free
they get NO_RESOURCE. [R118, R119, R125, R128, R129, R410, R412, R429, R436] -/
def Obligations.MemoryCommandsComplete : Prop :=
  ∀ (s : State) (h : Hdr) (slot : Nat) (x : Session), Admits s h slot x → h.target = 0xff →
    let u := s.taken h slot x
    u.noDram = false →
    (∀ (addr : BitVec 64) (len : BitVec 32), addr.toNat % 8 = 0 → memLenOk len.toNat = true →
      u.inDram addr.toNat len.toNat = true →
      (∀ data : List Byte, h.plen = 12 + len.toNat → data.length = len.toNat →
        u.mayWrite slot addr.toNat len.toNat = true →
        (u.memHeld addr.toNat len.toNat = false → exec (.writeMem h addr len data) s = .next
          (((u.writeWords (dcpWriter u.now) addr.toNat (wordsOfBytes (len.toNat / 8) data)).noteWrite addr.toNat
            len.toNat).replies slot h 0x0020 stOk [])) ∧
        (u.memReset addr.toNat len.toNat = true →
          exec (.writeMem h addr len data) s = .next (u.replies slot h 0x0020 stTimeout [])) ∧
        (u.memReset addr.toNat len.toNat = false → u.memRetrains addr.toNat len.toNat = true →
          exec (.writeMem h addr len data) s = .next
            (u.waitsFor slot h 0x0020 (.mem (u.now + 10 * msCyc) (.write addr.toNat len.toNat data))))) ∧
      (h.plen = 12 →
        let r := u.readWords addr.toNat (len.toNat / 8)
        (u.memHeld addr.toNat len.toNat = false →
          (r.1.findIdx? (fun w => w.poison) = none → exec (.readMem h addr len) s = .next
            (r.2.replies slot h 0x0021 stOk (beBytes 4 0xffffffff ++ bytesOfWords r.1))) ∧
          (∀ k, r.1.findIdx? (fun w => w.poison) = some k → exec (.readMem h addr len) s = .next
            (r.2.replies slot h 0x0021 stPoison (beBytes 4 (8 * k) ++ bytesOfWords r.1)))) ∧
        (u.memReset addr.toNat len.toNat = true →
          exec (.readMem h addr len) s = .next (u.replies slot h 0x0021 stTimeout [])) ∧
        (u.memReset addr.toNat len.toNat = false → u.memRetrains addr.toNat len.toNat = true →
          exec (.readMem h addr len) s = .next
            (u.waitsFor slot h 0x0021 (.mem (u.now + 10 * msCyc) (.read addr.toNat len.toNat)))))) ∧
    (∀ addr len pattern : BitVec 64, h.plen = 24 → addr.toNat % 64 = 0 → len.toNat % 64 = 0 → len.toNat ≠ 0 →
      u.inDram addr.toNat len.toNat = true → u.mayWrite slot addr.toNat len.toNat = true →
      (∀ n, u.freeOp = some n → exec (.fillMem h addr len pattern) s = .next
        ((u.startOp n slot 0x0022 (.fill addr.toNat len.toNat pattern)).replies slot h 0x0022 stOk (beBytes 2 n))) ∧
      (u.freeOp = none → exec (.fillMem h addr len pattern) s = .next (u.replies slot h 0x0022 stNoResource []))) ∧
    (∀ src dst len : BitVec 64, h.plen = 24 → src.toNat % 64 = 0 → dst.toNat % 64 = 0 → len.toNat % 64 = 0 →
      len.toNat ≠ 0 → rangesMeet src.toNat len.toNat dst.toNat len.toNat = false →
      u.inDram src.toNat len.toNat = true → u.inDram dst.toNat len.toNat = true →
      u.mayWrite slot dst.toNat len.toNat = true →
      (∀ n, u.freeOp = some n → exec (.copyMem h src dst len) s = .next
        ((u.startOp n slot 0x0023 (.copy src.toNat dst.toNat len.toNat)).replies slot h 0x0023 stOk (beBytes 2 n))) ∧
      (u.freeOp = none → exec (.copyMem h src dst len) s = .next (u.replies slot h 0x0023 stNoResource [])))

/-- When a running FILL_MEM ends and no touched controller is held, every word of its range has been given the pattern
and the operation ends with OK and a result that the spec does not fix (a free value, log 3). When a running COPY_MEM
ends, its words have been copied with their poison, the result is the number of poisoned words, and the status is
POISON when that is not 0 and OK otherwise. Either ends with TIMEOUT while a controller that it needs is in block
reset or retrains, in the second case no sooner than 10 ms after it began. [R125, R128, R129, R412, R429, R436] -/
def Obligations.MemoryOperationsEnd : Prop :=
  ∀ (s : State) (op : BitVec 16) (o : OpRec), s.op op.toNat = some o → o.done = false →
    (∀ a len pattern, o.kind = .fill a len pattern →
      (s.memHeld a len = false → exec (.fillMemDone op) s
        = .next (((s.fillWords (dcpWriter o.startAt) a pattern (len / 8)).noteWrite a len).endOpFree op.toNat stOk).settle) ∧
      (s.memHeld a len = true →
        exec (.fillMemDone op) s = .next (s.opTimeout op.toNat o (s.memReset a len)).settle)) ∧
    (∀ a b len, o.kind = .copy a b len →
      (s.memHeld a len = false → s.memHeld b len = false →
        exec (.copyMemDone op) s = .next (((s.copyWords (dcpWriter o.startAt) a b (len / 8)).2.noteWrite b len).endOp
          op.toNat (if (s.copyWords (dcpWriter o.startAt) a b (len / 8)).1 = 0 then stOk else stPoison)
          (BitVec.ofNat 64 (s.copyWords (dcpWriter o.startAt) a b (len / 8)).1)).settle) ∧
      (s.memHeld a len = true ∨ s.memHeld b len = true → exec (.copyMemDone op) s
        = .next (s.opTimeout op.toNat o (s.memReset a len || s.memReset b len)).settle))

/-- For every executed WRITE_MEM that answers OK, with no controller whose retraining failed, no word of DRAM with a
stored error, no checker injection pending and no detector's report waiting: afterwards byte i of the data stands at
address addr + i, each stored word is clean of poison, every byte outside the range reads as before and every word
outside it keeps its poison tag. [R5, R128, R410, R430, R542] -/
def Obligations.WriteMemStoresItsBytesOnly : Prop :=
  ∀ (s t : State) (h : Hdr) (slot : Nat) (x : Session) (addr : BitVec 64) (len : BitVec 32) (data : List Byte),
    Admits s h slot x → h.target = 0xff → h.plen = 12 + len.toNat → data.length = len.toNat → s.Canon →
    addr.toNat % 8 = 0 → memLenOk len.toNat = true → s.dead = [] → s.err = [] →
    s.flag F.FLC_INJECT.pending = false → s.reports = [] →
    let u := s.taken h slot x
    u.noDram = false → u.inDram addr.toNat len.toNat = true → u.memHeld addr.toNat len.toNat = false →
    u.mayWrite slot addr.toNat len.toNat = true →
    exec (.writeMem h addr len data) s = .next t →
      (∀ (i : Nat) (hi : i < data.length), t.memByte (addr.toNat + i) = data[i]) ∧
      (∀ i, i < len.toNat → t.poisoned (addr.toNat + i) = false) ∧
      (∀ a, a < addr.toNat ∨ addr.toNat + len.toNat ≤ a → t.memByte a = s.memByte a) ∧
      (∀ w, 8 * w < addr.toNat ∨ addr.toNat + len.toNat ≤ 8 * w →
        mget (fun _ => 0) t.psn w = mget (fun _ => 0) s.psn w)

/-- Reading words changes neither the bytes of DRAM nor the poison tags nor the initialisation map, whatever errors
the read finds; it delivers as many words as were asked for; and in a region that is not initialised every word read
is 0 and clean. [R128, R410, R428, R429] -/
def Obligations.ReadMemLeavesMemory : Prop :=
  ∀ (s : State) (a n : Nat), (s.readWords a n).1.length = n ∧ (s.readWords a n).2.mem = s.mem ∧
    (s.readWords a n).2.psn = s.psn ∧ (s.readWords a n).2.inited = s.inited ∧
    (∀ c, s.isInit a = false → s.readWord a c = (⟨0, false⟩, s))

/-- For an executed command to a stall with the parameter length of its table row, at a service level that allows it,
by the owner of a stall that holds octets (STATUS needs neither ownership nor octets): LOAD_SEQ of a table inside DRAM
into an idle stall that calibration does not use loads it when every entry passes, and records the first failing entry
and reason otherwise; while a controller of the table's DRAM retrains the load is held, at most 10 ms. START that
passes its conditions is accepted and its reply waits. STOP disarms an armed stall at once, has a running stall stop
and its reply wait, and of any other stall returns its last vector count. ARM begins the fill of a window, or waits
for the run to begin. STATUS returns the stall's figures. SETFLAG changes the masked host flags and returns the new
ones. STALL_RESET of a running stall waits for its end; of another it resets at once. [R118, R130, R131, R150, R155,
R172, R177, R180, R181, R316, R412] -/
def Obligations.StallCommandsComplete : Prop :=
  ∀ (s : State) (h : Hdr) (slot : Nat) (x : Session) (st : Nat), Admits s h slot x → h.target.toNat = st → st < 16 →
    let u := s.taken h slot x
    u.level ≠ 3 →
    (h.plen = 0 → exec (.status h) s = .next (u.replies slot h 0x0034 stOk (u.statusBytes st))) ∧
    (u.owns slot st = true → u.octetsOf st ≠ [] →
      (∀ (table : BitVec 64) (n : BitVec 32), h.plen = 12 → table.toNat % 16 = 0 → n.toNat ≠ 0 → n.toNat ≤ 65536 →
        u.noDram = false → u.inDram table.toNat (16 * n.toNat) = true → u.busyStall st = false →
        u.calUsesStall st = false →
        let r := u.scanLoad table.toNat n.toNat 0 n.toNat
        (u.memHeld table.toNat (16 * n.toNat) = false → r.1 = none → exec (.loadSeq h table n) s
          = .next ((r.2.loadTable st table.toNat n.toNat).replies slot h 0x0030 stOk [])) ∧
        (∀ e, u.memHeld table.toNat (16 * n.toNat) = false → r.1 = some e → exec (.loadSeq h table n) s
          = .next ((r.2.loadErr st e.1 e.2).replies slot h 0x0030 (if e.2 = 10 then stPoison else stBadParam) [])) ∧
        (u.memReset table.toNat (16 * n.toNat) = false → u.memRetrains table.toNat (16 * n.toNat) = true →
          exec (.loadSeq h table n) s = .next (u.waitsFor slot h 0x0030
            (.mem (u.now + 10 * msCyc) (.load st table.toNat n.toNat))))) ∧
      (∀ (mode acq source ix : BitVec 8) (first : BitVec 16), h.plen = 6 → mode.toNat ≤ 3 → acq.toNat ≤ 1 →
        source.toNat ≤ 3 → ix.toNat ≤ sourceMax source.toNat → u.noDram = false → u.busyStall st = false →
        u.flag F.STL_SEQ_STAT.fault_hold st = false → u.mig = none → u.retrains = false → u.startBusy st = false →
        (u.stall st).stops.any (fun p => p.cause == 6) = false →
        let r := u.runCheck st mode.toNat first.toNat (acq == 1) (! u.flag F.ACQ_CTL.normal st)
        (r.1 = 0 → exec (.start h mode acq source ix first) s = .next
          ((r.2.acceptRun st mode.toNat (acq == 1) (! u.flag F.ACQ_CTL.normal st) ⟨source.toNat, ix.toNat⟩
            first.toNat).waitsFor slot h 0x0031 (.start st))) ∧
        (r.1 ≠ 0 → exec (.start h mode acq source ix first) s = .next (r.2.replies slot h 0x0031 r.1 []))) ∧
      (∀ atWhen : BitVec 8, h.plen = 1 → atWhen.toNat ≤ 1 →
        (u.stState st = stArmed → exec (.stop h atWhen) s
          = .next (((u.disarm st).answerAll (.start st) stOk []).replies slot h 0x0032 stOk noVector)) ∧
        (u.running st = true → u.stState st ≠ stArmed → exec (.stop h atWhen) s = .next
          ((u.setStall st { u.stall st with
              stops := (u.stall st).stops ++ [⟨2, u.stopWhen st atWhen.toNat⟩] }).waitsFor slot h 0x0032 (.stop st))) ∧
        (u.running st = false → u.stState st ≠ stArmed → exec (.stop h atWhen) s = .next (u.replies slot h 0x0032 stOk
          (match (u.stall st).lastRun with
            | some v => beBytes 8 v
            | none => noVector)))) ∧
      (h.plen = 0 → u.busyStall st = true → u.windowMode st = true → u.fl F.ACQ_WIN_STAT.state st ≠ winPost →
        (u.fl F.ACQ_WIN_STAT.state st = 0 → exec (.arm h) s = .next ((u.setStall st { u.stall st with
          win := { (u.stall st).win with armed := true } }).replies slot h 0x0033 stOk [])) ∧
        (u.fl F.ACQ_WIN_STAT.state st ≠ 0 →
          exec (.arm h) s = .next ((u.enterFill st).replies slot h 0x0033 stOk []))) ∧
      (∀ mask value : BitVec 8, h.plen = 2 →
        let new : BitVec 8 := (BitVec.ofNat 8 (u.fl F.STL_FLAGS.hostflag st) &&& ~~~mask) ||| (value &&& mask)
        exec (.setflag h mask value) s
          = .next (((u.controlFlit 0).setFl F.STL_FLAGS.hostflag new.toNat st).replies slot h 0x0035 stOk [new])) ∧
      (h.plen = 0 →
        (u.running st = true →
          exec (.stallReset h) s = .next ((u.stallResetBegin st stBusy).waitsFor slot h 0x0036 (.stallReset st))) ∧
        (u.running st = false →
          exec (.stallReset h) s = .next ((u.stallResetBegin st stBusy).replies slot h 0x0036 stOk []))))

/-- For an executed STOP, ARM, SETFLAG or STALL_RESET with legal parameters: at service level MGMT_ONLY it gets
NO_RESOURCE; else a session that does not own the stall gets NOT_OWNER; else a stall without octets gives NO_RESOURCE;
nothing but the reply happens. STATUS at MGMT_ONLY gets NO_RESOURCE. [R71, R116, R118, R130] -/
def Obligations.StallCommandsNeedOwnerAndService : Prop :=
  ∀ (c : Instr) (s : State) (h : Hdr) (slot : Nat) (x : Session) (st : Nat), Admits s h slot x → h.target.toNat = st →
    st < 16 →
    ((∃ atWhen : BitVec 8, c = .stop h atWhen ∧ h.plen = 1 ∧ atWhen.toNat ≤ 1) ∨ (c = .arm h ∧ h.plen = 0) ∨
      (∃ m v : BitVec 8, c = .setflag h m v ∧ h.plen = 2) ∨ (c = .stallReset h ∧ h.plen = 0)) →
    let u := s.taken h slot x
    (u.level = 3 → exec c s = .next (u.replies slot h (opcodeOf c) stNoResource [])) ∧
    (u.level ≠ 3 → u.owns slot st = false → exec c s = .next (u.replies slot h (opcodeOf c) stNotOwner [])) ∧
    (u.level ≠ 3 → u.owns slot st = true → u.octetsOf st = [] →
      exec c s = .next (u.replies slot h (opcodeOf c) stNoResource [])) ∧
    (h.plen = 0 → u.level = 3 → exec (.status h) s = .next (u.replies slot h 0x0034 stNoResource []))

/-- For an executed SETFLAG by the owner of a stall with octets, with no detector's report and no checker injection
waiting: host flag k of the stall is afterwards bit k of value where bit k of mask is set and what it was otherwise;
the reply carries the eight flags; every other register but the lanes' frame counters is unchanged, and so is every
stall. [R130, R152, R155] -/
def Obligations.SetflagChangesMaskedHostFlags : Prop :=
  ∀ (s t : State) (h : Hdr) (slot : Nat) (x : Session) (st : Nat) (mask value : BitVec 8), Admits s h slot x →
    h.target.toNat = st → st < 16 → h.plen = 2 → s.level ≠ 3 → s.owns slot st = true → s.octetsOf st ≠ [] →
    s.reports = [] → s.flag F.FLC_INJECT.pending = false → s.Canon → exec (.setflag h mask value) s = .next t →
      (∀ k : Nat, k < 8 → tbit (t.fl F.STL_FLAGS.hostflag st) k
        = (if mask.getLsbD k then value.getLsbD k else tbit (s.fl F.STL_FLAGS.hostflag st) k)) ∧
      (∀ y, t.session slot = some y → (y.cache.head?.map (fun m => (m.status, m.params)))
        = some (0, [BitVec.ofNat 8 (t.fl F.STL_FLAGS.hostflag st)])) ∧
      (∀ r i j, r.addr i j ≠ R.addr .STL_FLAGS st → (∀ k : LaneIx, r.addr i j ∉ [R.addr .HP_RX_FRAMES k.val,
        R.addr .HP_TX_FRAMES k.val, R.addr .HP_TX_DROP k.val, R.addr .HP_RX_DROP k.val]) → t.rg r i j = s.rg r i j) ∧
      t.stalls = s.stalls ∧ t.chans = s.chans ∧ t.mem = s.mem

/-- For an executed command whose target goes with its queue and whose length is that of its table row: STREAM_OPEN
with 256 or more bytes of payload that the transport carries, a limit up to 4,096 and a flush time of 1 to 10,000 µs,
by a session with the ownership that the queue needs, on a queue without a consumer, opens a stream for that session.
CREDIT of its own stream that is valid replaces ack and limit and returns them. STREAM_CLOSE returns the next sequence
and closes the stream. REWIND of a tailrace stream to a sequence from ack to next that is still retained sets the
point from which frames are sent again. A valid CREDIT frame takes effect without a reply. [R118, R134, R135, R136,
R137, R309, R371, R378] -/
def Obligations.StreamCommandsComplete : Prop :=
  (∀ (s : State) (h : Hdr) (slot : Nat) (x : Session) (queue : BitVec 16), Admits s h slot x →
    queue.toNat < 32768 → h.target = queueTarget queue.toNat →
    let u := s.taken h slot x
    let q := queue.toNat
    (∀ (maxp flush : BitVec 16) (limit : BitVec 32) (y : Session), h.plen = 10 → 256 ≤ maxp.toNat →
      maxp.toNat ≤ plenMax h.bind → limit.toNat ≤ 4096 → 1 ≤ flush.toNat → flush.toNat ≤ 10000 →
      u.mayOpen slot q = true → u.stream q = none → u.flag F.QM_CFG.consumer q = false → u.inReset .qm = false →
      u.session slot = some y → exec (.streamOpen h queue maxp limit flush) s = .next ((u.setStream q (some
        { slot := slot, gen := y.gen, target := h.target, maxPayload := maxp.toNat, flushUs := flush.toNat,
          limit := limit })).replies slot h 0x0040 stOk [])) ∧
    (∀ t : Stream, u.stream q = some t → t.slot = slot →
      (∀ ack limit : BitVec 32, h.plen = 10 →
        (t.creditOk ack limit = true → exec (.credit h queue ack limit) s = .next ((u.takeCredit q t ack limit).replies
          slot h 0x0041 stOk (beBytes 4 ack.toNat ++ beBytes 4 limit.toNat))) ∧
        (t.creditOk ack limit = false →
          exec (.credit h queue ack limit) s = .next (u.replies slot h 0x0041 stBadParam []))) ∧
      (h.plen = 2 → exec (.streamClose h queue) s = .next ((u.closeStream q).replies slot h 0x0042 stOk
        (beBytes 4 (if t.buf.isEmpty then t.next else t.next + 1).toNat))) ∧
      (∀ fromSeq : BitVec 32, h.plen = 6 → tailStall q ≠ none → notBehind fromSeq t.ack = true →
        notBehind t.next fromSeq = true →
        (notBehind fromSeq t.floor = true → exec (.rewind h queue fromSeq) s = .next ((u.setStream q (some { t with
          resend := if fromSeq = t.next then none else some fromSeq })).replies slot h 0x0043 stOk [])) ∧
        (notBehind fromSeq t.floor = false →
          exec (.rewind h queue fromSeq) s = .next (u.replies slot h 0x0043 stRewindLost [])))) ∧
    (∀ t : Stream, u.stream q = some t → t.slot ≠ slot → h.plen = 2 →
      exec (.streamClose h queue) s = .next (u.replies slot h 0x0042 stNotOwner []))) ∧
  (∀ (s : State) (h : Hdr) (queue : BitVec 16) (ack limit : BitVec 32) (slot : Nat) (x : Session) (t : Stream),
    (s.heard h).1 = true → s.phase = .ready → h.version = 2 → h.plen = 8 →
    s.slotOf h.session = some slot → s.session slot = some x → x.bind = h.bind → x.expired = false →
    s.stream queue.toNat = some t → t.slot = slot → t.creditOk ack limit = true →
      exec (.creditFrame h queue ack limit) s = .next ((s.arrived h).takeCredit queue.toNat t ack limit).settle)

/-- An executed STREAM_OPEN with legal parameters and the ownership it needs, on a queue that already has a stream or
whose consumer field is 1, gets NO_RESOURCE and opens nothing. A write of QM_CFG with the consumer bit 1 to a tailrace
queue is refused with BAD_PARAM, since the code is reserved for it, and the consumer field of a tailrace queue is 0 at
reset. [R371] -/
def Obligations.ConsumedQueueRefusesStream : Prop :=
  (∀ (s : State) (h : Hdr) (slot : Nat) (x : Session) (queue maxp flush : BitVec 16) (limit : BitVec 32),
    Admits s h slot x → queue.toNat < 32768 → h.target = queueTarget queue.toNat → h.plen = 10 → 256 ≤ maxp.toNat →
    maxp.toNat ≤ plenMax h.bind → limit.toNat ≤ 4096 → 1 ≤ flush.toNat → flush.toNat ≤ 10000 →
    let u := s.taken h slot x
    u.mayOpen slot queue.toNat = true →
    (u.stream queue.toNat ≠ none ∨ u.flag F.QM_CFG.consumer queue.toNat = true) →
      exec (.streamOpen h queue maxp limit flush) s = .next (u.replies slot h 0x0040 stNoResource [])) ∧
  (∀ (s : State) (h : Hdr) (slot : Nat) (x : Session) (q : QIx) (v : Word), Admits s h slot x → h.target = 0xff →
    h.plen = 10 → tailStall q.val ≠ none → v.getLsbD 12 = true →
    let u := s.taken h slot x
    exec (.qmCfgWrite h q v) s = .next (u.replies slot h 0x0011 stBadParam [])) ∧
  (∀ q, tailStall q ≠ none → State.reset.flag F.QM_CFG.consumer q = false)

/-- For an executed command to a stall or the device with the length of its table row, at a service level that allows
it: CAL_RUN of assigned items and existing channels, by the owner of its target, that R465 does not refuse, takes the
lowest free operation record and the engine and answers OK with its handle. CAL_COMMIT with the engine free and the
stall, if any, not running does the same. SELFTEST_RUN of assigned tests without LOOP_PATTERN does the same,
MEM_SYSTEM only on the device and with the system idle; with LOOP_PATTERN it first arms the stall as a START. CAL_READ
returns the result of the element and SELFTEST_READ that of the last self-test of its target. [R118, R130, R457, R461,
R463, R465, R468, R469, R470] -/
def Obligations.CalibrationCommandsComplete : Prop :=
  ∀ (s : State) (h : Hdr) (slot : Nat) (x : Session), Admits s h slot x →
    let u := s.taken h slot x
    (∀ channel item : BitVec 8, h.target = 0xff → h.plen = 2 → item.toNat ≤ 4 → (item.toNat = 0 → channel.toNat ≤ 15) →
      (item.toNat ≠ 4 → channel.toNat ≤ 127) → u.level ≠ 3 → exec (.calRead h channel item) s = .next
        (u.replies slot h 0x0051 stOk (u.calBytes item.toNat (readIndex item.toNat channel.toNat)))) ∧
    (∀ f : TestFinding, calTarget h.target = true → h.plen = 0 →
      (mget (fun _ => none) u.tests (testKey h.target)).getD noFinding = f → exec (.selftestRead h) s = .next
        (u.replies slot h 0x0054 stOk (beBytes 4 f.run.toNat ++ beBytes 4 f.fail.toNat ++ f.bays
          ++ beBytes 4 f.memErrors.toNat ++ beBytes 4 f.firstMem.toNat ++ beBytes 4 f.loopFail.toNat
          ++ beBytes 8 f.loopFirst.toNat))) ∧
    (calTarget h.target = true → u.calCheck slot h.target = 0 → ∀ n, u.freeOp = some n →
      (∀ (items : BitVec 32) (count : BitVec 8) (l : List (BitVec 8)), h.plen = 5 + l.length → count.toNat = l.length →
        items.toNat < 32 → (∀ c ∈ l, c.toNat ≤ 127) → u.level ≠ 3 →
        u.runRefusal h.target items.toNat (u.runChans h.target l) = 0 → exec (.calRun h items count l) s = .next
          (((u.startOp n slot 0x0050 (.calRun h.target items (u.runChans h.target l))).withCalOp (some n)).replies slot h
            0x0050 stOk (beBytes 2 n))) ∧
      (h.plen = 0 → u.level ≠ 3 → u.calBusy = false → u.inReset .cal = false →
        (h.target = 0xff ∨ u.busyStall h.target.toNat = false) → exec (.calCommit h) s = .next
          (((u.startOp n slot 0x0052 (.calCommit h.target)).withCalOp (some n)).replies slot h 0x0052 stOk
            (beBytes 2 n))) ∧
      (∀ tests : BitVec 32, h.plen = 4 → bitsOf tests.toNat 15 5 = 0 → bitsOf tests.toNat 31 18 = 0 → u.level ≠ 3 →
        u.calBusy = false → u.inReset .cal = false →
        (tbit tests.toNat 4 = false → (h.target = 0xff ∨ u.busyStall h.target.toNat = false) →
          (tbit tests.toNat 3 = true → h.target = 0xff ∧ u.systemIdle = true) → exec (.selftestRun h tests) s = .next
            (((u.startOp n slot 0x0053 (.selftest h.target tests)).withCalOp (some n)).replies slot h 0x0053 stOk
              (beBytes 2 n))) ∧
        (tbit tests.toNat 4 = true → tbit tests.toNat 3 = false → h.target ≠ 0xff → u.noDram = false →
          u.busyStall h.target.toNat = false →
          ∀ v m, u.loopStart h.target tests.toNat = (0, v) → v.freeOp = some m → exec (.selftestRun h tests) s = .next
            (((v.startOp m slot 0x0053 (.selftest h.target tests)).withCalOp (some m)).replies slot h 0x0053 stOk
              (beBytes 2 m)))))

/-- When the running calibration run ends, each element that it measures, in the order of R458, has its result from
the measurements, and the engine is free; the operation ends with OK. When a commit ends, the records of each channel
of its target, and for the device the device record, are in the tack store. When a self-test ends, its findings are
kept for its target and each failing test is reported in ascending order. A result that the spec does not fix is a
free value (log 3). [R458, R459, R460, R463, R468, R470] -/
def Obligations.CalibrationOperationsEnd : Prop :=
  ∀ (s : State) (op : BitVec 16) (o : OpRec), s.op op.toNat = some o → o.done = false → s.calOp = some op.toNat →
    (∀ t items chans (meas : List CalMeas), o.kind = .calRun t items chans → exec (.calRunDone op meas) s = .next
      ((((s.runElems items.toNat chans).foldl (fun v e => v.measured meas e.1 e.2) s).withCalOp none).endOpFree
        op.toNat stOk).settle) ∧
    (∀ t, o.kind = .calCommit t →
      let v := (s.targetChans t).foldl (fun v c => v.commitChan c) s
      exec (.calCommitDone op) s = .next (((if t = 0xff then v.commitDev else v).withCalOp none).endOpFree op.toNat
        stOk).settle) ∧
    (∀ t tests (found : TestFinding), o.kind = .selftest t tests →
      (tbit tests.toNat 4 = true → s.busyStall t.toNat = false) →
      let f := s.findings t tests.toNat found
      let v := if tbit tests.toNat 4 then s else s.afterTests t tests.toNat
      let w : State := (v.withCalOp none).withTests (mset (fun _ => none) v.tests (testKey t) (some f))
      exec (.selftestDone op found) s = .next (((List.range 5).foldl (fun v b =>
        if f.fail.getLsbD b then (v.raise 33 b).settle else v) w).endOpFree op.toNat stOk).settle)

/-- After the measurement of an element: if every residual of every candidate is 65,535, its state is 3 and its
selected candidate, codes and record mark stay; else its state is 1, the selected candidate is one whose worst
residual no other candidate undercuts, and the corrections are those measured. No other element of the same item at an
index below 128 changes, and no register does. [R459] -/
def Obligations.BestCandidateIsKept : Prop :=
  ∀ (s : State) (meas : List CalMeas) (item idx : Nat) (m : CalMeas), item < 5 → idx < 128 → s.Canon →
    meas.find? (fun e => e.item.val == item && e.index.val == idx) = some m →
    let t := s.measured meas item idx
    let r := measResid item m.resid
    (r.all (fun c => worst c == 65535) = true → (t.calElem item idx).state = 3 ∧
      (t.calElem item idx).sel = (s.calElem item idx).sel ∧ (t.calElem item idx).codes = (s.calElem item idx).codes) ∧
    (r.all (fun c => worst c == 65535) = false → (t.calElem item idx).state = 1 ∧
      (t.calElem item idx).codes = m.codes ∧ (t.calElem item idx).resid = r ∧
      ∃ c, r[(t.calElem item idx).sel]? = some c ∧ ∀ d ∈ r, worst c ≤ worst d) ∧
    (∀ k, k < 128 → k ≠ idx → t.calElem item k = s.calElem item k) ∧ t.regs = s.regs ∧ t.mem = s.mem

/-- For an executed command to the Yard with the length of its table row: YARD_STATUS returns the Yard's figures. By
the device owner with the Yard not in block reset: YARD_LOAD of an existing slot, and YARD_QUIESCE of a running Yard,
take the lowest free operation record and answer OK with its handle; YARD_UNLOAD of a template without live instances
or of a module that no loaded template names empties the slot; YARD_RESUME has the Yard run and creates the due
triggered instances that fit, before any later one. YARD_SUBMIT of a loaded template with legal parameters, flow and
ports, by a session with the ownership the template needs, with room for the instance and the Yard running, creates an
instance and returns its number. [R118, R125, R384, R385, R386, R401, R402] -/
def Obligations.YardCommandsComplete : Prop :=
  ∀ (s : State) (h : Hdr) (slot : Nat) (x : Session), Admits s h slot x → h.target = 0xfe →
    let u := s.taken h slot x
    (h.plen = 0 → exec (.yardStatus h) s = .next (u.replies slot h 0x0065 stOk (beBytes 1 u.yState
      ++ beBytes 2 u.tmpl.length ++ beBytes 2 u.mods.length ++ beBytes 4 u.liveInsts ++ beBytes 4 u.slotsHeld
      ++ beBytes 4 u.readyOps ++ beBytes 4 u.asleepMask))) ∧
    (u.owns slot devRes = true → u.inReset .yrd = false →
      (∀ (kind : BitVec 8) (k : BitVec 16) (a : BitVec 64) (len : BitVec 32) (n : Nat), h.plen = 15 →
        yardSlotOk kind.toNat k.toNat = true → u.freeOp = some n → exec (.yardLoad h kind k a len) s = .next
          ((u.startOp n slot 0x0060 (.yardLoad kind.toNat k.toNat a.toNat len.toNat)).replies slot h 0x0060 stOk
            (beBytes 2 n))) ∧
      (∀ k : BitVec 16, h.plen = 3 →
        (k.toNat < 4096 → u.tmplLive k.toNat = false → exec (.yardUnload h 0 k) s = .next
          ((((u.withTmpl (mset (fun _ => []) u.tmpl k.toNat [])).withTrigPend
            (mset (fun _ => 0) u.trigPend k.toNat 0)).withDue (u.due.filter (fun d => d != k.toNat))).replies slot h
              0x0061 stOk [])) ∧
        (k.toNat < 256 → u.modNamed k.toNat = false → exec (.yardUnload h 1 k) s = .next
          ((u.withMods (mset (fun _ => []) u.mods k.toNat [])).replies slot h 0x0061 stOk []))) ∧
      (∀ n : Nat, h.plen = 0 → u.yState = 0 → u.freeOp = some n → exec (.yardQuiesce h) s = .next
        (((u.startOp n slot 0x0063 (.quiesce u.yended)).setFl F.YRD_STAT.state 1).replies slot h 0x0063 stOk
          (beBytes 2 n))) ∧
      (h.plen = 0 → exec (.yardResume h) s = .next
        (((u.setFl F.YRD_STAT.state 0).createDue (u.setFl F.YRD_STAT.state 0).due.length).replies slot h 0x0064 stOk
          []))) ∧
    (∀ (template flow n : BitVec 16) (data : List Byte), h.plen = 6 + n.toNat → data.length = n.toNat →
      let img := u.tmplImg template.toNat
      let params := data ++ (tParams img).drop n.toNat
      u.inReset .yrd = false → img ≠ [] → n.toNat ≤ tParamLen img → (flow.toNat ≤ 1023 ∨ flow.toNat = yNone) →
      (List.range (tOps img)).any (u.badPorts params img) = false → (tStall img ≠ 0xff → u.level ≠ 3) →
      (u.owns slot devRes || (if tStall img = 0xff then u.ownsStall slot else u.owns slot (tStall img))) = true →
      u.instRoom img flow.toNat = true → u.yState = 0 → exec (.yardSubmit h template flow n data) s = .next
        ((u.createInst template.toNat flow.toNat params).replies slot h 0x0062 stOk (beBytes 4 u.nextInst.toNat)))

/-- YARD_LOAD ends with the first failing check as its result, or with its slot filled. The oldest due instance is
created when the Yard runs and there is room. A quiesce ends when no instance is live, with the number that ended
meanwhile. A free core takes the oldest ready operation that it may run, whose waiting time is counted, pops its
packets if its service is the vendor's and no spilled word of its queue is held by a retraining controller, and begins
it; with none it sleeps. An operation's completion frees its core and gives its outputs and status to its instance. A
push that its queue refused makes it OUT_FULL. A timeout ends it at its run-time limit with TIMEOUT, what a user
module did before staying done, and is reported. The oldest flag write of a stall takes effect on the masked flags.
[R382, R384, R386, R389, R391, R392, R393, R401, R402, R412] -/
def Obligations.YardEventsComplete : Prop :=
  (∀ (s : State) (op : BitVec 16) (o : OpRec) (kind k a len : Nat), s.op op.toNat = some o →
    o.kind = .yardLoad kind k a len → o.done = false → s.inReset .yrd = false →
    ((s.inDram a len = false ∨ len = 0) → exec (.yardLoadDone op) s = .next (s.endOp op.toNat stBadParam 2).settle) ∧
    (s.inDram a len = true → len ≠ 0 → s.memHeld a len = false →
      let r := s.dramBytes a len
      let c := if kind = 0 then r.2.tmplCheck r.1 k else r.2.modCheck r.1 k
      (c ≠ 0 → exec (.yardLoadDone op) s = .next (r.2.endOp op.toNat stBadParam (BitVec.ofNat 64 c)).settle) ∧
      (c = 0 → kind = 0 → exec (.yardLoadDone op) s = .next ((r.2.putTemplate k r.1).endOpFree op.toNat stOk).settle) ∧
      (c = 0 → kind ≠ 0 → exec (.yardLoadDone op) s
        = .next ((r.2.withMods (mset (fun _ => []) r.2.mods k r.1)).endOpFree op.toNat stOk).settle))) ∧
  (∀ (s : State) (k : Nat) (rest : List Nat), s.due = k :: rest → s.yState = 0 → s.inReset .yrd = false →
    s.instRoom (s.tmplImg k) (tFlow (s.tmplImg k)) = true → exec .instanceCreate s = .next
      ((s.withDue rest).createInst k (tFlow (s.tmplImg k)) (tParams (s.tmplImg k))).settle) ∧
  (∀ (s : State) (op : BitVec 16) (o : OpRec) (base : Nat), s.op op.toNat = some o → o.kind = .quiesce base →
    o.done = false → s.liveInsts = 0 → exec (.yardQuiesceDone op) s = .next
      ((if s.yState = 1 then s.setFl F.YRD_STAT.state 2 else s).endOp op.toNat stOk
        (BitVec.ofNat 64 (s.yended - base))).settle) ∧
  (∀ (s : State) (c : Fin 32), (s.core c.val).work = none → s.inReset .yrd = false →
    (s.nextWork c.val = none →
      exec (.workRequest c) s = .next (s.setCore c.val { s.core c.val with asleep := true }).settle) ∧
    (∀ (y : Inst) (j : Nat), s.nextWork c.val = some (y, j) →
      (256 ≤ opService (s.tmplImg y.tmpl) j ∨ opIn (s.tmplImg y.tmpl) j = yNone ∨
        s.spillHeld (inQueue (s.tmplImg y.tmpl) j) = false) →
      let img := s.tmplImg y.tmpl
      let v := ((s.setInst (y.setOp j { y.op j with core := some c.val })).countWait y.tmpl j (opService img j)
        (s.now - (y.op j).readyAt.getD s.now)).checkYardMem c.val
      let n := v.wantPkts img j
      let p := if opService img j < 256 then v.popPackets (inQueue img j) n.2 else ([], v)
      exec (.workRequest c) s = .next (p.2.setCore c.val { p.2.core c.val with
        work := some (y.num, j), asleep := false, startAt := v.now, input := p.1, short := decide (n.2 < n.1) }).settle)) ∧
  (∀ (s : State) (c : Fin 32) (num : BitVec 32) (j : Nat) (y : Inst), (s.core c.val).work = some (num, j) → s.inst num = some y →
    (∀ acts (st : BitVec 3),
      let img := s.tmplImg y.tmpl
      let code := opService img j
      let par := opParams y.params img j
      let w := coreWriter c.val (s.core c.val).startAt
      s.serviceHeld img (s.modImg (code - 256)) code j par (s.core c.val).input acts = false →
      let v := s.freeCore c.val
      let r : YRes := if code < 256 then vendor w code (opOut img j) (opState img j) par (s.core c.val).input
          (s.core c.val).short v
        else if v.badPorts y.params img j then badInput v
        else userModule w img (v.modImg (code - 256)) par j acts st.toNat (s.core c.val).short v
      let e := r.st.outputs y (opResult img j) r
      exec (.operationComplete c acts st) s
        = .next (e.2.endOperation num j (if (s.core c.val).full then yOutFull else e.1)).settle) ∧
    (∀ acts,
      let img := s.tmplImg y.tmpl
      let code := opService img j
      let v := s.advTo ((s.core c.val).startAt + s.opLimit code * usCyc)
      let r := userModule (coreWriter c.val (s.core c.val).startAt) img (v.modImg (code - 256)) (opParams y.params img j) j
        acts 0 (s.core c.val).short v
      let w := if code < 256 || v.badPorts y.params img j then v else (r.st.outputs y (opResult img j) r).2
      exec (.operationTimeout ⟨c, acts⟩) s = .next (((w.freeCore c.val).raise 32 c.val).endOperation num j yTimeout).settle)) ∧
  (∀ (s : State) (st : StallIx) (at_ : Nat) (mask value : BitVec 8) (rest : List (Nat × BitVec 8 × BitVec 8)),
    mget (fun _ => []) s.yflags st.val = (at_, mask, value) :: rest →
    let v := s.advTo (at_ + 1)
    exec (.yardflagUpdate st) s = .next (((v.withYflags (mset (fun _ => []) v.yflags st.val rest)).controlFlit 0).setFl
      F.STL_FLAGS.yardflag
      ((BitVec.ofNat 8 (v.fl F.STL_FLAGS.yardflag st.val) &&& ~~~mask) ||| (value &&& mask)).toNat st.val).settle)

/-- For an executed command with target 0xFF and the length of its table row: TIME_READ returns the counter, network
time and validity. By the device owner, while no port is a slave: TIME_SET of a representable time and rate sets
offset and rate so that network time at this edge is the time given, and marks it valid; TIME_STEP to a representable
offset moves the offset. ALARM_SET of an alarm with a legal action and period whose output no other alarm drives arms
it afresh, and ALARM_CANCEL disarms it, each after a firing that falls on the same edge. TSQ_READ pops up to max
stamps of the port, oldest first, returns the overflow bit as it stood and clears it. A command of this group by a
session that does not own the device, other than TIME_READ, gets NOT_OWNER. [R118, R443, R444, R445, R450, R451, R452,
R453] -/
def Obligations.TimeCommandsComplete : Prop :=
  ∀ (s : State) (h : Hdr) (slot : Nat) (x : Session), Admits s h slot x → h.target = 0xff →
    let u := s.taken h slot x
    (h.plen = 0 → exec (.timeRead h) s = .next (u.replies slot h 0x0070 stOk (beBytes 8 u.cnt.toNat
      ++ beBytes 8 (ntSplit u.nt).1 ++ beBytes 4 (ntSplit u.nt).2.1 ++ beBytes 2 (ntSplit u.nt).2.2
      ++ [BitVec.ofNat 8 (bit (u.flag F.TB_STAT.valid))]))) ∧
    (u.owns slot devRes = true →
      (∀ (sec : BitVec 64) (ns : BitVec 32) (sub : BitVec 16) (rate : BitVec 64), h.plen = 22 → sec.toNat < 2 ^ 48 →
        ns.toNat < 1000000000 → rate.toInt.natAbs ≤ 2 ^ 30 → u.servoRuns = false →
        0 ≤ (ofTime sec.toNat ns.toNat sub.toNat : Int) - ntOf 0 rate.toInt u.cnt.toNat →
        exec (.timeSet h sec ns sub rate) s = .next
          (((u.setTimeRate ((ofTime sec.toNat ns.toNat sub.toNat : Int) - ntOf 0 rate.toInt u.cnt.toNat)
            rate.toInt).setFlag F.TB_STAT.valid true).replies slot h 0x0071 stOk [])) ∧
      (∀ delta : BitVec 64, h.plen = 8 → u.servoRuns = false → ofsOk ((u.ofs : Int) + delta.toInt * 65536) = true →
        exec (.timeStep h delta) s
          = .next ((u.withOfs ((u.ofs : Int) + delta.toInt * 65536).toNat).replies slot h 0x0072 stOk [])) ∧
      (∀ (a action : BitVec 8) (sec : BitVec 64) (ns : BitVec 32) (period : BitVec 64), h.plen = 22 → a.toNat ≤ 15 →
        action.toNat ≤ 8 → sec.toNat < 2 ^ 48 → ns.toNat < 1000000000 →
        (period.toNat = 0 ∨ (1000 ≤ period.toNat ∧ period.toNat ≤ 1000000000000)) →
        (toutOf action.toNat).any (fun n => u.toutDriven a.toNat n) = false →
        let tau := ofTime sec.toNat ns.toNat 0
        let v := (u.fireDue a.toNat).disarmAlarm a.toNat
        let w := v.setAlarm a.toNat
          (some ⟨tau, period.toNat * 65536, action.toNat, v.now, decide ((tau : Int) ≤ v.nt)⟩)
        exec (.alarmSet h a action sec ns period) s = .next ((w.setRg .TB_ALARM_STAT (1 + bit (period.toNat != 0) * 2
          + bit (w.flag F.TB_ALARM_STAT.invalid a.toNat) * 4 + action.toNat * 2 ^ 8) a.toNat).replies slot h 0x0073
            stOk [])) ∧
      (∀ a : BitVec 8, h.plen = 1 → a.toNat ≤ 15 →
        exec (.alarmCancel h a) s = .next (((u.fireDue a.toNat).disarmAlarm a.toNat).replies slot h 0x0074 stOk [])) ∧
      (∀ port max : BitVec 8, h.plen = 2 → port.toNat ≤ 7 → 1 ≤ max.toNat → max.toNat ≤ 64 →
        let r := u.popStamps port.toNat max.toNat
        exec (.tsqRead h port max) s = .next ((r.2.setFl F.TB_TSQ_STAT.overflow
          (putBits (u.fl F.TB_TSQ_STAT.overflow) port.toNat port.toNat 0)).replies slot h 0x0075 stOk
            ([BitVec.ofNat 8 r.1.length, BitVec.ofNat 8 (bit (tbit (u.fl F.TB_TSQ_STAT.overflow) port.toNat))]
              ++ r.1.flatten)))) ∧
    (u.owns slot devRes = false → ∀ delta : BitVec 64, h.plen = 8 →
      exec (.timeStep h delta) s = .next (u.replies slot h 0x0072 stNotOwner []))

/-- An executed TIME_READ answers with the counter and the network time of the moment at which it executes, both of
the same state, and lets no time pass. A read of TB_CNT_LO gives the low word of the counter and latches TB_CNT_HI,
the four offset registers and both rate registers as they stand: whatever time then passes and whatever the offset and
the rate become, a read of one of them gives the latched value. [R443] -/
def Obligations.TimeReadIsOneEdge : Prop :=
  (∀ (s : State) (h : Hdr) (slot : Nat) (x : Session), Admits s h slot x → h.target = 0xff → h.plen = 0 →
    s.reports = [] → ∃ t, exec (.timeRead h) s = .next t ∧ t.cnt = s.cnt ∧ t.now = s.now ∧ t.nt = s.nt ∧
      ∀ y, t.session slot = some y → (y.cache.head?.map (fun m => m.params)) = some (beBytes 8 s.cnt.toNat
        ++ beBytes 8 (ntSplit s.nt).1 ++ beBytes 4 (ntSplit s.nt).2.1 ++ beBytes 2 (ntSplit s.nt).2.2
        ++ [BitVec.ofNat 8 (bit (s.flag F.TB_STAT.valid))])) ∧
  (∀ (s : State) (c : BitVec 64) (o : Nat) (rate : Int) (r : R), s.Canon →
    r ∈ [R.TB_CNT_HI, .TB_OFS_SUBNS, .TB_OFS_NS, .TB_OFS_SEC_LO, .TB_OFS_SEC_HI, .TB_RATE_LO, .TB_RATE_HI] →
    let a := s.regReads [R.addr .TB_CNT_LO]
    let later := (((a.2.advTo (s.now + c.toNat)).withOfs o).withRate rate)
    a.1 = [BitVec.ofNat 32 (s.cnt.toNat % 2 ^ 32)] ∧
    (later.regReads [r.addr]).1 = [BitVec.ofNat 32 (s.regNow r 0 0)])

/-- SYNC_OUT rises out_dly root cycles after its edge and falls 40 ns later. A SYNC epoch boundary, while SYNC_IN is
enabled and was sampled low at 4 edges, counts, records the counter, latches what is wrong, takes the measurement
while it is enabled, and starts what waits for SYNC. A rising edge of TRIG_INn is latched by the stalls with octets
and starts and triggers what waits for it. An armed alarm fires at its cycle, acts on its output, starts and triggers,
and is disarmed or takes its next time. An output changes at its due cycle. A PTP message to a port without a role, or
over UDP to a lane without an address, is dropped and counted; one of the port's domain reaches the slave or the
master part of its role; a master port sends its sync messages while network time is valid; holdover clears the lock.
[R88, R152, R173, R240, R241, R243, R304, R332, R447, R451, R452, R453] -/
def Obligations.TimeEventsComplete : Prop :=
  (∀ (s : State) (e : Nat) (rest : List Nat), s.flag F.TB_SYNC_CTL.master = true → s.syncOut.high = false →
    s.syncDue = e :: rest → exec .syncOutPulse s = .next (((s.advTo (ceilDiv (8 * e + s.syncDelay) 8)).withSyncDue
      rest).withSyncOut { high := true, fallAt := some (8 * e + s.syncDelay + 512) }).settle) ∧
  (∀ (s : State) (t : Nat), s.flag F.TB_SYNC_CTL.master = true → s.syncOut.high = true → s.syncOut.fallAt = some t →
    exec .syncOutPulse s = .next (((s.advTo (ceilDiv t 8)).withSyncOut {}).withSyncFell (some t)).settle) ∧
  (∀ (s : State) (short disagree : Bool) (edges lead : BitVec 16), s.flag F.TB_SYNC_CTL.in_en = true →
    let e := s.syncEdge edges.toNat lead.toNat
    s.syncWasLow e.1 = true →
    let v := ((s.advTo e.1).withSyncLast (some (e.1, short))).bump F.TB_SYNC_COUNT.count 1
    let w := v.setRg64 .TB_SYNC_CNT_LO .TB_SYNC_CNT_HI v.cnt.toNat
    let y := if short then w.setFlag F.TB_SYNC_STAT.short true else w
    let z := if disagree then y.setFlag F.TB_SYNC_STAT.disagree true else y
    exec (.syncEpochBoundary short disagree edges lead) s
      = .next ((if z.flag F.TB_SYNC_CTL.meas_en then z.syncMeasure e.2 else z).startOn 2 0).settle) ∧
  (∀ (s : State) (n : Fin 4), tbit s.trigIn.toNat n.val = false →
    let v := s.withTrigIn (BitVec.ofNat 4 (putBits s.trigIn.toNat n.val n.val 1))
    let w := v.withOctets.foldl (fun v st => v.setStall st ((v.stall st).latchTrig n.val v.nowU)) v
    exec (.trigInEdge n true) s = .next ((w.startOn 3 n.val).triggerAll 1 n.val).settle) ∧
  (∀ (s : State) (a : Fin 16) (x : Alarm), s.alarm a.val = some x → s.clockStopped = false →
    s.flag F.TB_STAT.valid = true →
    let v := (s.advTo (s.alarmCycle x)).toutAction x.action
    let flit := fun y : State =>
      if (List.range 16).any (fun st => y.stState st == stArmed && (y.stall st).src == ⟨1, a.val⟩) then y.controlFlit 0
      else y
    (x.period = 0 → exec (.alarmFire a) s = .next (((flit ((v.setAlarm a.val none).setFlag F.TB_ALARM_STAT.armed false
      a.val)).startOn 1 a.val).triggerAll 5 a.val).settle) ∧
    (x.period ≠ 0 → exec (.alarmFire a) s = .next (((flit ((v.setAlarm a.val (some { x with
      tau := (x.next v.nt).1, setAt := v.now, late := false })).bump F.TB_ALARM_STAT.skipped (x.next v.nt).2
        a.val)).startOn 1 a.val).triggerAll 5 a.val).settle)) ∧
  (∀ (s : State) (n : Fin 4) (p : Pulse) (t : Nat), (mget (fun _ => ({} : Pulse)) s.tout (4 + n.val)).riseAt = none →
    mget (fun _ => ({} : Pulse)) s.tout n.val = p →
    (p.high = false → p.riseAt = some t → exec (.toutPulse n) s = .next
      (((s.advTo t).withTout (mset (fun _ => ({} : Pulse)) (s.advTo t).tout n.val
        { p with riseAt := none, high := true })).withToutLvl
          (BitVec.ofNat 4 (putBits (s.advTo t).toutLvl.toNat n.val n.val 1))).settle) ∧
    (p.high = true → p.fallAt = some t → exec (.toutPulse n) s = .next
      (((s.advTo t).withTout (mset (fun _ => ({} : Pulse)) (s.advTo t).tout n.val
        { p with fallAt := none, high := false })).withToutLvl
          (BitVec.ofNat 4 (putBits (s.advTo t).toutLvl.toNat n.val n.val 0))).settle)) ∧
  (∀ (s : State) (k : LaneIx) (udp : Bool) (msg : PtpMsg), s.laneUp k.val = true →
    ((s.fl F.TB_PTP_CTL.role k.val = 0 ∨ (udp = true ∧ s.rg .HP_IPV4 k.val = 0)) →
      exec (.ptpMessageRx k ⟨udp, msg⟩) s = .next (s.bump F.HP_RX_DROP.count 1 k.val).settle) ∧
    (s.fl F.TB_PTP_CTL.role k.val ≠ 0 → (udp = false ∨ s.rg .HP_IPV4 k.val ≠ 0) →
      let v := s.bump F.HP_RX_FRAMES.count 1 k.val
      let w := v.setPort k.val { v.port k.val with udp := udp }
      ((ptpDomain msg).toNat ≠ w.fl F.TB_PTP_CTL.domain k.val → exec (.ptpMessageRx k ⟨udp, msg⟩) s = .next w.settle) ∧
      ((ptpDomain msg).toNat = w.fl F.TB_PTP_CTL.domain k.val →
        (s.fl F.TB_PTP_CTL.role k.val = 2 → exec (.ptpMessageRx k ⟨udp, msg⟩) s = .next (w.ptpMaster k.val msg).settle) ∧
        (s.fl F.TB_PTP_CTL.role k.val ≠ 2 → exec (.ptpMessageRx k ⟨udp, msg⟩) s = .next (w.ptpSlave k.val msg).settle)))) ∧
  (∀ (s : State) (k : LaneIx) (stamp : BitVec 64), s.fl F.TB_PTP_CTL.role k.val = 2 →
    s.flag F.TB_STAT.valid = true →
    let n := (s.port k.val).seqId
    let v := s.setPort k.val { s.port k.val with seqId := n + 1 }
    let w := (v.sendPtp k.val 11 n.toNat 0).sendPtp k.val 0 n.toNat 0
    let z := if w.laneUp k.val then w.stamp k.val 0 n.toNat stamp else w
    exec (.ptpSyncInterval k stamp) s
      = .next (z.sendPtp k.val 8 n.toNat (ntOf z.ofs z.rate stamp.toNat).toNat).settle) ∧
  (∀ (s : State) (k : Nat), (List.range 8).find? (fun j => s.fl F.TB_PTP_CTL.role j == 1) = some k →
    exec .ptpHoldover s = .next (((s.setPort k { s.port k with close := 0, wait := .none }).setFlag F.TB_STAT.locked
      false).setFlag F.TB_STAT.holdover true).settle)

/-- For an executed command with the length of its table row: FAULT_READ returns the live and the sticky map and the
first record. By the device owner: FAULT_CLEAR clears the sources of its mask and, if asked, the first record;
FAULT_REACTION of a source that is neither reserved nor 9 or 10 sets its reaction code 0 to 5; FAULT_INJECT of an
injectable source reports it as injected with detail 0xFFFF, or, for a checker, leaves a pending injection that the
checker's next read meets. FAULT_RELEASE by the owner of the stall or of the device ends the stall's hold when no live
source still holds it, gets BUSY while one does, and is OK for a stall that is not held. [R118, R477, R480, R483,
R485, R488] -/
def Obligations.FaultCommandsComplete : Prop :=
  ∀ (s : State) (h : Hdr) (slot : Nat) (x : Session), Admits s h slot x →
    let u := s.taken h slot x
    (h.target = 0xff → h.plen = 0 → exec (.faultRead h) s = .next (u.replies slot h 0x0080 stOk
      (u.srcMap .FLC_LIVE ++ u.srcMap .FLC_STICKY ++ beBytes 1 (u.fl F.FLC_FIRST.source)
        ++ beBytes 1 (u.fl F.FLC_FIRST.valid) ++ beBytes 8 (u.rg64 .FLC_FIRST_TAG_LO .FLC_FIRST_TAG_HI)
        ++ beBytes 1 (u.fl F.FLC_FIRST.overflow)))) ∧
    (h.target = 0xff → u.owns slot devRes = true →
      (∀ (mask : BitVec 256) (first : BitVec 8), h.plen = 33 → first.toNat ≤ 1 → exec (.faultClear h mask first) s = .next
        ((u.faultClear (fun n => mask.getLsbD n) (first == 1)).replies slot h 0x0081 stOk [])) ∧
      (∀ source reaction : BitVec 8, h.plen = 2 → srcReserved source.toNat = false → source.toNat ≠ 9 →
        source.toNat ≠ 10 → reaction.toNat ≤ 5 → exec (.faultReaction h source reaction) s = .next
          ((u.setReaction source.toNat reaction.toNat).replies slot h 0x0082 stOk [])) ∧
      (∀ source : BitVec 8, h.plen = 1 → srcReserved source.toNat = false → noInject source.toNat = false →
        (isChecker source.toNat = true → u.flag F.FLC_INJECT.pending = false → exec (.faultInject h source) s = .next
          ((u.setRg .FLC_INJECT (source.toNat + 256)).replies slot h 0x0083 stOk [])) ∧
        (isChecker source.toNat = true → u.flag F.FLC_INJECT.pending = true →
          exec (.faultInject h source) s = .next (u.replies slot h 0x0083 stBusy [])) ∧
        (isChecker source.toNat = false → exec (.faultInject h source) s = .next
          ((u.raise source.toNat 0xffff true).replies slot h 0x0083 stOk [])))) ∧
    (∀ st, h.target.toNat = st → st < 16 → h.plen = 0 → (u.owns slot st || u.owns slot devRes) = true →
      (u.flag F.STL_SEQ_STAT.fault_hold st = false →
        exec (.faultRelease h) s = .next (u.replies slot h 0x0084 stOk [])) ∧
      (u.flag F.STL_SEQ_STAT.fault_hold st = true → u.heldLive st = true →
        exec (.faultRelease h) s = .next (u.replies slot h 0x0084 stBusy [])) ∧
      (u.flag F.STL_SEQ_STAT.fault_hold st = true → u.heldLive st = false →
        exec (.faultRelease h) s = .next ((u.endHold st).replies slot h 0x0084 stOk [])))

/-- A detector of an assigned source that no other event of the part drives acts on what it monitors, sets its
condition if it is one, and reports with its detail, for a rail its number. The watchdog reports source 146. The end
of a condition clears what it monitors and ends the condition. A pair that begins to read equal is marked; one that
reads validly again is unmarked, and its source's live bit follows the source once more. When a shadow ends, every
dependent that is live and no longer shadowed is activated. A block in reset whose reset completes is back in service.
[R62, R73, R472, R475, R476, R477, R486, R487] -/
def Obligations.FaultEventsComplete : Prop :=
  (∀ (s : State) (source : BitVec 8) (detail : BitVec 16), srcReserved source.toNat = false →
    ownEvents source.toNat = false →
    let n := source.toNat
    let v := s.detected n
    let d := if n ≤ 6 then n else detail.toNat
    (isCond n = true → exec (.faultActivation source detail) s = .next (((v.setCond n true).withCondDet
      (mset (fun _ => 0) (v.setCond n true).condDet n d)).raise n d false
        (if n = 31 then tailStall detail.toNat else none)).settle) ∧
    (isCond n = false → exec (.faultActivation source detail) s = .next (v.raise n d false
      (if n = 31 then tailStall detail.toNat else none)).settle)) ∧
  (∀ s : State, exec .watchdog s = .next (s.raise 146 0).settle) ∧
  (∀ (s : State) (source : BitVec 8), isCond source.toNat = true → ownEvents source.toNat = false →
    (source.toNat ≤ 6 → exec (.condSourceInactive source) s = .next ((s.setRg .PCR_RAIL_STAT
      (putBits (s.rg .PCR_RAIL_STAT) source.toNat source.toNat 1)).endCond source.toNat).settle) ∧
    (6 < source.toNat → exec (.condSourceInactive source) s = .next (s.endCond source.toNat).settle)) ∧
  (∀ (s : State) (source : BitVec 8), srcReserved source.toNat = false →
    let n := source.toNat
    (s.srcBit .FLC_WIRE n = false →
      exec (.faultyPair source true) s = .next (s.setSrcBit .FLC_WIRE n true).followWire.settle) ∧
    (s.srcBit .FLC_WIRE n = true →
      let v := (s.setSrcBit .FLC_WIRE n false).followWire
      (n = 255 ∨ isCond n = false → exec (.faultyPair source false) s = .next v.settle) ∧
      (n ≠ 255 → isCond n = true → v.cond n = true →
        exec (.faultyPair source false) s = .next (v.raise n (v.condDetail n)).settle) ∧
      (n ≠ 255 → isCond n = true → v.cond n = false →
        exec (.faultyPair source false) s = .next (v.endCond n).settle))) ∧
  (∀ (s : State) (b : Blk) (x : Shadow) (t : Nat), s.shadows.find? (fun y => y.blk == b) = some x → x.endsAt = some t →
    let v := (s.advTo t).withShadows ((s.advTo t).shadows.filter (fun y => y.blk != b))
    exec (.shadowEnd b) s = .next ((List.range 256).foldl (fun w n =>
      if dependent b n && w.srcLive n && ! w.shadowed n then w.activate ⟨n, w.condDetail n, false, none⟩
      else w) v).settle) ∧
  (∀ (s : State) (b : Blk), s.inReset b = true → exec (.blockResetComplete b) s = .next (s.endBlock b).settle)

/-- In a state with no report waiting, no shadow open and no first record, an executed FAULT_INJECT by the device
owner of an injectable source that is no checker, read inactive at this sample and the one before, reads on a good
pair, and whose reaction is to log only: afterwards the sticky bit of that source is 1, the first record names it and
is valid, and no other source's sticky bit has changed. [R478, R481, R488] -/
def Obligations.InjectionIsReported : Prop :=
  ∀ (s t : State) (h : Hdr) (slot : Nat) (x : Session) (source : BitVec 8), Admits s h slot x → h.target = 0xff →
    h.plen = 1 → s.owns slot devRes = true → srcReserved source.toNat = false → noInject source.toNat = false →
    isChecker source.toNat = false → s.reports = [] → s.shadows = [] → s.Canon →
    s.flag F.FLC_FIRST.valid = false → s.reaction source.toNat = 0 → s.srcBit .FLC_WIRE source.toNat = false →
    s.stillActive source.toNat = false → exec (.faultInject h source) s = .next t →
      t.srcBit .FLC_STICKY source.toNat = true ∧ t.flag F.FLC_FIRST.valid = true ∧
      t.fl F.FLC_FIRST.source = source.toNat ∧
      (∀ n, n < 256 → n ≠ source.toNat → t.srcBit .FLC_STICKY n = s.srcBit .FLC_STICKY n)

/-- For an executed command with target 0xFF and the length of its table row: TACK_READ of 64 to 8,192 bytes in
multiples of 64 inside the tack store returns them, with reserved regions as 0. By the device owner: TACK_WRITE inside
the user area stores its bytes; FW_WRITE inside the inactive firmware slot stores them there and marks the slot
unverified; FW_VERIFY takes an operation record, and at its end marks the slot valid if its image verifies and nothing
was written to it meanwhile, with status OK, else VERIFY_FAIL; FW_ACTIVATE of a verified slot writes the slot pointer.
IDENT returns the identity registers. Sessions that do not own the device get NOT_OWNER for a write of the tack store.
[R67, R75, R76, R118, R132, R508, R517, R518] -/
def Obligations.TackAndFirmwareCommandsComplete : Prop :=
  (∀ (s : State) (h : Hdr) (slot : Nat) (x : Session), Admits s h slot x → h.target = 0xff →
    let u := s.taken h slot x
    (∀ (off : BitVec 32) (n : BitVec 16), tackRange off.toNat n.toNat = true →
      (h.plen = 6 → off.toNat + n.toNat ≤ 0x1000000 → exec (.tackRead h off n) s = .next
        ((u.checkTack off.toNat).replies slot h 0x0090 stOk (u.tackRead off.toNat n.toNat))) ∧
      (∀ data : List Byte, h.plen = 6 + n.toNat → data.length = n.toNat →
        (0xf00000 ≤ off.toNat → off.toNat + n.toNat ≤ 0x1000000 →
          (u.owns slot devRes = true → exec (.tackWrite h off n data) s = .next
            ((u.setTack off.toNat data).replies slot h 0x0091 stOk [])) ∧
          (u.owns slot devRes = false →
            exec (.tackWrite h off n data) s = .next (u.replies slot h 0x0091 stNotOwner []))) ∧
        (off.toNat + n.toNat ≤ 1966080 → u.owns slot devRes = true → exec (.fwWrite h off n data) s = .next
          ((((u.setTack (slotBase u.inactive + off.toNat) data).setFlag (slotValid u.inactive) false).markSlot u.inactive
            true).replies slot h 0x0092 stOk [])))) ∧
    (h.plen = 0 → u.owns slot devRes = true →
      (∀ n, u.freeOp = some n → exec (.fwVerify h) s = .next
        (((u.markSlot u.inactive false).startOp n slot 0x0093 .fwVerify).replies slot h 0x0093 stOk (beBytes 2 n))) ∧
      (u.flag (slotValid u.inactive) = true → exec (.fwActivate h) s = .next
        ((u.writePointer u.inactive).replies slot h 0x0094 stOk [])) ∧
      (u.flag (slotValid u.inactive) = false →
        exec (.fwActivate h) s = .next (u.replies slot h 0x0094 stVerifyFail []))) ∧
    (h.plen = 0 → exec (.ident h) s = .next (u.replies slot h 0x0095 stOk (beBytes 4 (u.rg .DEV_ID)
      ++ beBytes 1 (u.rg .DEV_STEP) ++ beBytes 8 (u.rg64 .DEV_SERIAL_LO .DEV_SERIAL_HI)
      ++ beBytes 8 (u.rg .DEV_MAC_LO + u.rg .DEV_MAC_HI % 2 ^ 16 * 2 ^ 32))))) ∧
  (∀ (s : State) (op : BitVec 16) (o : OpRec), s.op op.toNat = some o → o.kind = .fwVerify → o.done = false →
    ∀ ok : Bool, ok = s.slotPasses s.inactive → exec (.fwVerifyDone op ok) s = .next ((s.setFlag (slotValid s.inactive) ok).endOpFree op.toNat
      (if ok then stOk else stVerifyFail)).settle)

/-- For an executed TACK_WRITE by the device owner of a legal range of the user area, with no detector's report
waiting: afterwards byte i of the data stands at offset + i, every other byte of the tack store is as before, and so
are DRAM and every stall, channel and queue. [R74, R132, R517] -/
def Obligations.TackWriteStoresItsBytesOnly : Prop :=
  ∀ (s t : State) (h : Hdr) (slot : Nat) (x : Session) (off : BitVec 32) (n : BitVec 16) (data : List Byte),
    Admits s h slot x → h.target = 0xff → h.plen = 6 + n.toNat → data.length = n.toNat →
    tackRange off.toNat n.toNat = true → 0xf00000 ≤ off.toNat → off.toNat + n.toNat ≤ 0x1000000 →
    s.owns slot devRes = true → s.reports = [] → s.Canon → exec (.tackWrite h off n data) s = .next t →
      (∀ (i : Nat) (hi : i < data.length), t.tackB (off.toNat + i) = data[i]) ∧
      (∀ a, a < off.toNat ∨ off.toNat + n.toNat ≤ a → t.tackB a = s.tackB a) ∧
      t.mem = s.mem ∧ t.stalls = s.stalls ∧ t.chans = s.chans ∧ t.queues = s.queues

/-- For an executed command with target 0xFF and the length of its table row: with no DRAM in service all four get
DRAM_ABSENT once their parameters are legal; else MC_STATUS of a controller returns its twelve status registers.
MIG_STATUS returns the migration in progress with its watermark, or state 0 with a watermark that the spec does not
fix (a free value, log 3). By the device owner, with DRAM in service and no migration: RANK_RETIRE of a rank of a
controller in the interleave set whose spare is unused takes an operation record and makes the rank a candidate; SCRUB
with no scrub running takes an operation record for the controllers named. [R71, R118, R125, R132, R431, R435, R437,
R438] -/
def Obligations.DramCommandsComplete : Prop :=
  ∀ (s : State) (h : Hdr) (slot : Nat) (x : Session), Admits s h slot x → h.target = 0xff →
    let u := s.taken h slot x
    (u.noDram = true →
      (∀ m : BitVec 8, h.plen = 1 → m.toNat ≤ 5 →
        exec (.mcStatus h m) s = .next (u.replies slot h 0x00a0 stDramAbsent [])) ∧
      (h.plen = 0 → exec (.migStatus h) s = .next (u.replies slot h 0x00a2 stDramAbsent [])) ∧
      (∀ m r : BitVec 8, h.plen = 2 → m.toNat ≤ 5 → r.toNat ≤ 3 → r.toNat ≤ bitsOf (u.useCfg m.toNat) 1 0 →
        exec (.rankRetire h m r) s = .next (u.replies slot h 0x00a1 stDramAbsent [])) ∧
      (∀ m : BitVec 8, h.plen = 1 → (m.toNat ≤ 5 ∨ m.toNat = 0xff) →
        exec (.scrub h m) s = .next (u.replies slot h 0x00a3 stDramAbsent []))) ∧
    (∀ m : BitVec 8, u.noDram = false → h.plen = 1 → m.toNat ≤ 5 → exec (.mcStatus h m) s = .next (u.replies slot h
      0x00a0 stOk (mcStatusRegs.flatMap (fun r => beBytes 4 (u.mcReg m.toNat r))))) ∧
    (u.noDram = false → h.plen = 0 →
      (∀ g, u.mig = some g → exec (.migStatus h) s = .next (u.replies slot h 0x00a2 stOk
        ([if g.paused then 2 else 1, BitVec.ofNat 8 g.m, BitVec.ofNat 8 g.rank] ++ beBytes 8 g.w))) ∧
      (u.mig = none → ∃ w : BitVec 64, exec (.migStatus h) s = .next ((u.withFreeCtr (u.freeCtr + 1)).replies slot h
        0x00a2 stOk ([0, 0xff, 0xff] ++ beBytes 8 w.toNat)))) ∧
    (u.noDram = false → u.owns slot devRes = true → u.mig = none → ∀ n, u.freeOp = some n →
      (∀ m r : BitVec 8, h.plen = 2 → m.toNat ≤ 5 → r.toNat ≤ 3 → r.toNat ≤ bitsOf (u.useCfg m.toNat) 1 0 →
        u.dram.set.contains m.toNat = true → u.spareFree m.toNat = true →
        let v := (u.startOp n slot 0x00a1 (.migrate m.toNat r.toNat)).candidate m.toNat r.toNat
        v.mig.isSome = true → exec (.rankRetire h m r) s = .next (v.replies slot h 0x00a1 stOk (beBytes 2 n))) ∧
      (∀ m : BitVec 8, h.plen = 1 → (m.toNat ≤ 5 ∨ m.toNat = 0xff) → u.scrubOp = none →
        exec (.scrub h m) s = .next (((u.startOp n slot 0x00a3 (.scrub (u.dram.set.filter
          (fun k => m.toNat == 0xff || k == m.toNat)))).withScrubOp (some (n, 0, []))).replies slot h 0x00a3 stOk
            (beBytes 2 n))))

/-- A request that is served wakes its rank, activates its row, takes of its source's share and is carried out; one
that needs no device, that another goes before, or whose source is throttled changes nothing. A region fill
initialises an uninitialised region inside DRAM. A refresh interval of an awake rank comes due after 3.9 µs at the 1×
rate; it is paid when no panic holds, is postponed below a debt of 4, and counts as urgent above. A poll,
MC_SYS_REF.poll µs after the last, takes each rank's rate and temperature. A rank that has had no request for the time
of its timer enters power-down or self-refresh where its rules allow. The end of a disturbance window of 32 ms frees
the trackers. A migration copies its next 256 bytes, and at the end retires its rank. A scrub ends with its counts. A
member that retrains serves again, or discards; the accesses that it held are served. [R410, R412, R413, R414, R419,
R420, R421, R422, R423, R424, R425, R432] -/
def Obligations.DramEventsComplete : Prop :=
  (∀ (s : State) (src : DramSrc) (addr : BitVec 64) (store : Option (BitVec 64)) (c : Cells) (a : Nat),
    s.requestAddr src addr.toNat = some a → s.inDram a 8 = true →
    let p := s.place a
    s.serving p.m = true →
    (s.needsDevice src a store = true → s.outranked p.m src = false → s.throttledNow src p = false →
      exec (.dramRequest src addr store c) s
        = .next ((((s.wake p).activateRow src p).takeTokens p.m src).serveRequest src a store c).settle) ∧
    (s.needsDevice src a store = false ∨ s.outranked p.m src = true ∨ s.throttledNow src p = true →
      exec (.dramRequest src addr store c) s = .next s.settle)) ∧
  (∀ (s : State) (r : BitVec 20), s.inDram (r.toNat * 2 ^ 20) (2 ^ 20) = true → s.isInit (r.toNat * 2 ^ 20) = false →
    exec (.regionFill r) s = .next (s.setInit r.toNat).settle) ∧
  (∀ (s : State) (m : McIx) (r : Fin 4), s.rankIn m.val r.val = true →
    (s.asleep m.val r.val = false →
      let u := s.toInterval m.val r.val
      (u.anyPanic = false → exec (.refreshInterval m r) s = .next (u.setDebt m.val r.val 0).settle) ∧
      (u.anyPanic = true → u.rankDebt m.val r.val < 4 →
        exec (.refreshInterval m r) s = .next (u.setDebt m.val r.val (u.rankDebt m.val r.val + 1)).settle) ∧
      (u.anyPanic = true → 4 ≤ u.rankDebt m.val r.val →
        exec (.refreshInterval m r) s = .next (u.bump F.MC_URGENT.count 1 m.val).settle) ∧
      (s.anyPanic = false → s.fl F.MC_SYS_PWR.pd_timer ≠ 0 →
        let v := s.advTo ((s.rankTimes m.val r.val).req + s.fl F.MC_SYS_PWR.pd_timer * 160)
        exec (.powerDownEntry m r) s = .next (v.setFl F.MC_STAT.power_down
          (putBits (v.fl F.MC_STAT.power_down m.val) r.val r.val 1) m.val).settle)) ∧
    (s.maySleep m.val r.val = true →
      let v := (s.advTo ((s.rankTimes m.val r.val).req + s.fl F.MC_SYS_PWR.sr_timer * usCyc)).setDebt m.val r.val 0
      exec (.selfRefreshEntry m r) s = .next (v.setRg .MC_STAT (putBits (putBits (v.rg .MC_STAT m.val) (9 + r.val)
        (9 + r.val) 1) (13 + r.val) (13 + r.val) 0) m.val).settle)) ∧
  (∀ (s : State) (m : McIx) (rates : List (BitVec 2)) (temps : List (BitVec 7)), s.dram.set.contains m.val = true →
    exec (.mr4Poll m rates temps) s = .next ((s.ranksOf m.val).foldl (fun v r => match rates[r]?, temps[r]? with
      | some x, some t => v.pollRank m.val r x.toNat t.toNat
      | _, _ => v) (s.toPoll m.val)).settle) ∧
  (∀ (s : State) (m : McIx), exec (.rowDisturbanceWindowEnd m) s
    = .next ((s.toWindowEnd m.val).withTrack (mclear (fun k => decide (k / 256 = m.val)) (s.toWindowEnd m.val).track)).settle) ∧
  (∀ (s : State) (g : Mig) (cells : List Cells), s.mig = some g → g.paused = false →
    (s.serving g.m = true → g.w < rankCap (s.useCfg g.m) →
      let a := s.addrOf g.m g.rank g.w
      let v := if s.inDram a 256 && s.isInit a then
        s.copyUnit g.m a (cells.take 32 ++ List.replicate (32 - cells.length) .asStored) else s
      exec (.migrationUnitCopy cells) s = .next (v.withMig (some { g with w := g.w + 256 })).settle) ∧
    (rankCap (s.useCfg g.m) ≤ g.w →
      let a := s.saveMap g.m 2 g.rank g.spare
      let b := (a.setFlag F.MC_STAT.retired_valid true g.m).setFl F.MC_STAT.retired_rank g.rank g.m
      let c := b.setRg .MC_STAT (putBits (putBits (b.rg .MC_STAT g.m) (9 + g.rank) (9 + g.rank) 1) (13 + g.rank)
        (13 + g.rank) 0) g.m
      let d := (c.withMig none).withMigWait (mset (fun _ => none) c.migWait g.m none)
      let e := d.event (d.ownerOf devRes) 5 0xff [2, BitVec.ofNat 8 g.m, BitVec.ofNat 8 g.rank]
      exec .migrationDone s = .next ((e.migOps g.m g.rank).foldl (fun w n => w.endOpFree n stOk) e).nextMig.settle)) ∧
  (∀ (s : State) (op : BitVec 16) (o : OpRec) (c : Nat) (l mcs : List Nat), s.op op.toNat = some o →
    s.scrubOp = some (op.toNat, c, l) → o.done = false → o.kind = .scrub mcs →
    let v := (s.scrubList mcs).foldl (fun v a => v.scrubWord a .asStored) s
    ∀ c' l', v.scrubOp = some (op.toNat, c', l') → exec (.scrubDone op) s = .next ((v.withScrubOp none).endOp op.toNat
      stOk (BitVec.ofNat 64 (sat 0xffffffff c' + sat 0xffffffff l'.length * 2 ^ 32))).settle) ∧
  (∀ (s : State) (m : McIx) (ok : Bool),
    (s.ready = true → s.flag F.MC_STAT.retraining m.val = true → exec (.warmRetrain m) s
      = .next (s.withRetrain (mset (fun _ => false) s.retrain m.val true)).settle) ∧
    (mget (fun _ => false) s.retrain m.val = true → exec (.retrainingComplete m ok) s
      = .next ((List.range 32).foldl State.serveWait (((s.withRetrain (mset (fun _ => false) s.retrain m.val
        false)).withDead (mset (fun _ => false) s.dead m.val (! ok))).setFlag F.MC_STAT.retraining false m.val)).settle))

/-- A low level of PORST_L or WRST_L below 20 ns changes nothing; one of 50 ns or longer starts its reset; one between
is ignored or starts it, as a free value decides. PORST_L holds the part in cold reset at once, an accepted cold reset
at its moment, and the loss of the last input after its record is written; PORST_L during the hold of a supply loss
keeps its cause. WRST_L, an accepted warm reset at its moment, the fault reaction and a lost clock begin a warm reset.
A cold start with an input in range and WRST_L high samples the straps and ramps the rails; the lock of the root PLL
starts the control core with the time base at 0; host-ready puts the part in service. A warm start runs from warm
reset while the clocks run. An input that leaves range switches over, ends redundancy, or is a supply loss; one that
enters is in range. A lost clock is reported and resets; its return starts the part again. JTAG_TRST_L only moves the
test access port. [R46, R48, R50, R54, R55, R56, R60, R63, R64, R69, R70, R525] -/
def Obligations.ResetAndStartComplete : Prop :=
  (∀ (s : State) (low : BitVec 16),
    (low.toNat < 20 → exec (.coldReset (.porst low)) s = .next s.settle ∧ exec (.warmReset (.pin low)) s = .next s.settle) ∧
    (20 ≤ low.toNat → low.toNat < 50 →
      let u := s.withFreeCtr (s.freeCtr + 1)
      (exec (.coldReset (.porst low)) s = .next u.settle ∨ exec (.coldReset (.porst low)) s = .next (u.coldTo 0).settle) ∧
      (exec (.warmReset (.pin low)) s = .next u.settle
        ∨ exec (.warmReset (.pin low)) s = .next ((u.withWrstLow true).beginWarm .pin).settle)) ∧
    (50 ≤ low.toNat →
      (¬ (s.phase = .coldHold ∧ s.flag F.PCR_RESET_CAUSE.cold_supply = true) →
        exec (.coldReset (.porst low)) s = .next (s.coldTo 0).settle) ∧
      exec (.warmReset (.pin low)) s = .next ((s.withWrstLow true).beginWarm .pin).settle)) ∧
  (∀ (s : State) (t : Nat), s.resetAt = some (t, .cold) →
    exec (.coldReset .cmd) s = .next ((s.advTo t).coldTo 0).settle) ∧
  (∀ (s : State), s.flag F.PCR_SUPPLY_STAT.vmain_ok = false → s.flag F.PCR_SUPPLY_STAT.vaux_ok = false →
    s.flag F.PCR_RESET_CAUSE.cold_supply = false → exec (.coldReset .supply) s = .next s.supplyLoss.settle) ∧
  (∀ (s : State), s.clockStopped = true →
    exec (.warmReset .clock) s = .next (s.beginWarm .clock).settle) ∧
  (∀ (s : State) (t : Nat),
    (s.resetAt = some (t, .warm .cmd) → exec (.warmReset .cmd) s = .next ((s.advTo t).beginWarm .cmd).settle) ∧
    (s.resetAt = some (t, .warm .fault) →
      exec (.warmReset .fault) s = .next ((s.advTo t).beginWarm .fault).settle ∧
      exec .deviceReset s = .next ((s.advTo t).beginWarm .fault).settle)) ∧
  (∀ (s : State) (i : StartIn), s.Canon → s.phase = .coldHold → s.wrstLow = false →
    let main := staysInRange (s.flag F.PCR_SUPPLY_STAT.vmain_ok) i.vmainV
    let aux := staysInRange (s.flag F.PCR_SUPPLY_STAT.vaux_ok) i.vauxV
    (main = true ∨ aux = true) →
    ∃ v : State, exec (.coldStart i) s = .next v.settle ∧ v.phase = .coldRails ∧ v.startIn = some i ∧
      v.flag F.PCR_SUPPLY_STAT.vmain_ok = main ∧ v.flag F.PCR_SUPPLY_STAT.vaux_ok = aux ∧
      v.flag F.PCR_SUPPLY_STAT.on_vaux = ! main ∧ v.fl F.PCR_RAIL_STAT.rail_ok = 127 ∧
      (s.rg .PCR_RESET_CAUSE / 4 % 16 = 0 → v.rg .DEV_STRAP = i.straps.toNat) ∧ v.now = s.now ∧ v.tack = s.tack) ∧
  (∀ (s : State) (i : StartIn), s.phase = .coldRails → s.startIn = some i →
    let a := (s.setFlag F.PCR_CLK_STAT.refclk_present true).setFlag F.PCR_CLK_STAT.root_lock true
    exec .rootPllLock s
      = .next ((((a.setCond 9 false).setCond 10 false).withClockStopped false).withCnt 0 |>.startCore i true).settle) ∧
  (∀ s : State, (s.phase = .coldUp ∨ s.phase = .warmUp) → s.clockStopped = false →
    (s.flag F.PCR_SUPPLY_STAT.vmain_ok || s.flag F.PCR_SUPPLY_STAT.vaux_ok) = true →
    exec .hostReady s = .next ((s.withPhase .ready).withEverReady true).settle) ∧
  (∀ (s : State) (i : StartIn), s.phase = .warmHold → s.clockStopped = false →
    exec (.warmStart i) s = .next ((s.withWrstLow false).startCore i false).settle) ∧
  (∀ (s : State) (i : Input) (volts : BitVec 8) (other : Option (BitVec 8)), s.flag (okFlag i) = true →
    let a := (s.setFlag (okFlag i) false).setFl (voltField i) volts.toNat
    let t := match other with
      | some w => (a.setFlag (okFlag (otherInput i)) false).setFl (voltField (otherInput i)) w.toNat
      | none => a
    (t.flag (okFlag (otherInput i)) = false → exec (.inputLeavesRange i ⟨volts, other⟩) s = .next t.supplyLoss.settle) ∧
    (t.flag (okFlag (otherInput i)) = true → s.selected = i → exec (.inputLeavesRange i ⟨volts, other⟩) s = .next
      (((t.setFlag F.PCR_SUPPLY_STAT.on_vaux (decide (i = .vmain))).bump F.PCR_SUPPLY_STAT.switch_count 1).raise 7
        (inputCode (otherInput i))).settle) ∧
    (t.flag (okFlag (otherInput i)) = true → s.selected ≠ i → exec (.inputLeavesRange i ⟨volts, other⟩) s
      = .next ((t.setCond 8 true).raise 8 (inputCode i)).settle)) ∧
  (∀ (s : State) (i : Input) (volts : BitVec 8), s.flag (okFlag i) = false → inRange volts = true →
    let a := s.setFl (voltField i) volts.toNat
    let b := if a.flag (okFlag (otherInput i)) then a else a.setFlag F.PCR_SUPPLY_STAT.on_vaux (decide (i = .vaux))
    let t := if i = .vmain then (b.setFlag (okFlag i) true).withVmainAt (b.setFlag (okFlag i) true).now
      else b.setFlag (okFlag i) true
    (t.cond 8 = true → t.selected ≠ i → exec (.inputEntersRange i volts) s = .next (t.endCond 8).settle) ∧
    (t.cond 8 = false ∨ t.selected = i → exec (.inputEntersRange i volts) s = .next t.settle)) ∧
  (∀ s : State, s.flag F.PCR_SUPPLY_STAT.on_vaux = true → s.flag F.PCR_SUPPLY_STAT.vmain_ok = true →
    s.flag F.PCR_SUPPLY_CTL.return_hold = false → s.phase ≠ .coldHold → exec .returnToVmain s
      = .next (s.advTo (s.vmainAt + max 1 (s.fl F.PCR_SUPPLY_CTL.return_delay) * msCyc)).toVmain.settle) ∧
  (∀ s : State, s.clockStopped = false → s.flag F.PCR_CLK_STAT.refclk_present = true →
    exec .refclkLoss s = .next ((s.setFlag F.PCR_CLK_STAT.refclk_present false).clockLoss 9).settle ∧
    (s.flag F.PCR_CLK_STAT.root_lock = true →
      exec .pllUnlock s = .next ((s.setFlag F.PCR_CLK_STAT.root_lock false).clockLoss 10).settle)) ∧
  (∀ (s : State) (i : StartIn),
    (s.flag F.PCR_CLK_STAT.refclk_present = false → exec (.refclkReturn i) s
      = .next ((s.setFlag F.PCR_CLK_STAT.refclk_present true).clockBack 9 i).settle) ∧
    (s.flag F.PCR_CLK_STAT.root_lock = false → s.flag F.PCR_CLK_STAT.refclk_present = true →
      exec (.pllRelock i) s = .next ((s.setFlag F.PCR_CLK_STAT.root_lock true).clockBack 10 i).settle)) ∧
  (∀ (s : State) (low : Bool), exec (.jtagTrst low) s = .next (s.withTap (s.tap.trstTo low)).settle)

/-- From every state in which host-ready has been reached since the last cold reset and which is not held in cold
reset, a low WRST_L of at least 50 ns leaves the part held in warm reset with DRAM, its poison bytes and
initialisation map, the tack store, the time-base counter, the offset and the rate as they were and with the strap
register as sampled; no session, owner, election, operation or stream remains, and every stall, channel, framer and
queue is as after a cold reset. [R31, R57, R58, R59, R410, R440] -/
def Obligations.WarmResetKeepsMemoryAndTime : Prop :=
  ∀ (s : State) (low : BitVec 16), 50 ≤ low.toNat → s.everReady = true → s.phase ≠ .coldHold →
    ∃ t, exec (.warmReset (.pin low)) s = .next t ∧
    t.phase = .warmHold ∧ t.mem = s.mem ∧ t.psn = s.psn ∧ t.err = s.err ∧ t.inited = s.inited ∧ t.tack = s.tack ∧
    t.cnt = s.cnt ∧ t.now = s.now ∧ t.ofs = s.ofs ∧ t.rate = s.rate ∧
    t.rg .DEV_STRAP = s.rg .DEV_STRAP ∧ t.rg .PCR_RESET_CAUSE = 4 ∧
    (∀ n, t.session n = none) ∧ (∀ r, t.ownerOf r = none) ∧ (∀ r, t.election r = none) ∧ (∀ n, t.op n = none) ∧
    (∀ q, t.stream q = none) ∧ t.stalls = [] ∧ t.chans = [] ∧ t.framers = [] ∧ t.queues = [] ∧
    t.reports = switchReports s.reports ∧ t.wrstLow = true ∧ t.held = [] ∧ t.pending = s.pending

/-- From every state but the hold after a supply loss, whose cause stands, a low PORST_L of at least 50 ns leaves the
part held in cold reset with the tack store as it was and the input voltages as measured; PCR_RESET_CAUSE names it;
DRAM's initialisation map is empty and no word of DRAM, poison byte, session, owner, operation, stall, channel, queue,
stream or alarm remains. The time base stands at 0. (That the words of DRAM are forgotten with the map is the model's
form: a never-initialised region reads 0.) [R26, R56, R57, R59, R410, R440] -/
def Obligations.ColdResetKeepsTackStoreOnly : Prop :=
  ∀ (s : State) (low : BitVec 16), 50 ≤ low.toNat →
    ¬ (s.phase = .coldHold ∧ s.flag F.PCR_RESET_CAUSE.cold_supply = true) →
    ∃ t, exec (.coldReset (.porst low)) s = .next t ∧ t.phase = .coldHold ∧ t.tack = s.tack ∧
    t.fl F.PCR_SUPPLY_STAT.vmain_v = s.fl F.PCR_SUPPLY_STAT.vmain_v ∧
    t.fl F.PCR_SUPPLY_STAT.vaux_v = s.fl F.PCR_SUPPLY_STAT.vaux_v ∧ t.rg .PCR_RESET_CAUSE = 1 ∧
    t.inited = [] ∧ t.mem = [] ∧ t.psn = [] ∧ t.cnt = 0 ∧ (∀ n, t.session n = none) ∧ (∀ r, t.ownerOf r = none) ∧
    (∀ n, t.op n = none) ∧ (∀ q, t.stream q = none) ∧ t.stalls = [] ∧ t.chans = [] ∧ t.queues = [] ∧
    (∀ a, t.alarm a = none) ∧ t.drive = {} ∧ t.pending = s.pending

/-- On an enabled lane without a test: signal detection takes DOWN to SIGNAL, block lock SIGNAL to BLOCK_LOCK with its
hold-off, and the end of the hold-off BLOCK_LOCK to UP while hi_ber and both faults are clear, which ends
HOST_LINK_DOWN. A loss takes UP to BLOCK_LOCK or SIGNAL by its kind and stops the hold-off, which starts again when
the last condition of UP holds again; a lane that is not UP loses its lock or its signal. A lane starts again at the
moment its changed settings apply, and when its test loop times out. OWN_CTL and OWN_UDP come into use at their
moment. The oldest requested transfer of a serial master begins when none runs, and ends with as many bytes received
as it has. [R92, R93, R94, R96, R97, R99, R140, R510, R511] -/
def Obligations.LaneEventsComplete : Prop :=
  (∀ (s : State) (k : LaneIx), s.laneOn k = true →
    (s.linkState k = 1 → exec (.signalDetected k) s
      = .next (((s.setLane k.val { s.lane k.val with signal := true }).setFlag F.HP_RX_EQ_STAT.adapted false
        k.val).laneTo k.val 2 false).settle) ∧
    (s.linkState k = 2 →
      let v := s.setLane k.val { s.lane k.val with okSince := some s.now }
      exec (.blockLock k) s = .next ((v.setRg .HP_LINK_STAT (putBits (v.rg .HP_LINK_STAT k.val) 7 3
        (1 + 16 * bit (tbit (s.lane k.val).eff 3))) k.val).laneTo k.val 3 false).settle) ∧
    (∀ t, s.linkState k = 3 → (s.lane k.val).okSince = some t →
      s.flag F.HP_LINK_STAT.hi_ber k.val = false → s.flag F.HP_LINK_STAT.local_fault k.val = false →
      s.flag F.HP_LINK_STAT.remote_fault k.val = false →
      exec (.linkUp k) s = .next ((((s.advTo (t + msCyc)).setFl F.HP_LINK_STAT.state 4 k.val).bump
        F.HP_LINK_STAT.link_changes 1 k.val).endCond (40 + k.val)).settle) ∧
    (s.linkState k = 2 ∨ s.linkState k = 3 →
      (∀ lockOnly : Bool, (lockOnly = true → s.linkState k = 3) →
        let c := s.laneCounts k.val
        let v := c.setLane k.val { c.lane k.val with okSince := none, signal := lockOnly }
        exec (.signalLoss k lockOnly) s = .next ((v.setRg .HP_LINK_STAT (putBits (v.rg .HP_LINK_STAT k.val) 7 3 0)
          k.val).laneTo k.val (if lockOnly then 2 else 1) false).settle))) ∧
  (∀ (s : State) (k : LaneIx) (why : LinkLoss), s.linkState k = 4 ∨ s.linkState k = 3 →
    let r := (s.laneCounts k.val).lossBits k.val why
    let v := r.1.laneTo k.val r.2 false
    (exec (.linkDown k (.begins why)) s = .next (v.setLane k.val { v.lane k.val with okSince := none }).settle) ∧
    (let e := s.lossEnds k.val why;
      exec (.linkDown k (.ends why)) s = .next (if e.linkState k == 3 && e.linkClean k.val && (e.lane k.val).okSince.isNone
        then e.setLane k.val { e.lane k.val with okSince := some e.now } else e).settle)) ∧
  (∀ (s : State) (k : LaneIx) (t : Nat),
    ((s.lane k.val).applyAt = some t → exec (.laneSettingsApply k) s
      = .next (((s.advTo t).takeSettings k.val).startAgain k.val ((s.advTo t).lane k.val).ownApply).settle) ∧
    ((s.lane k.val).loopEnd = some t →
      let v := (s.advTo t).setFl F.HP_TEST_CTL.loop 0 k.val
      exec (.loopTimeout k) s
        = .next ((v.setLane k.val { v.lane k.val with loopEnd := none }).startAgain k.val true).settle)) ∧
  (∀ (s : State) (t : Nat), s.ownAt = some t →
    let v := s.advTo t
    exec .ownChangeApply s
      = .next ((v.withOwnEff (v.rd (R.addr .OWN_CTL), v.rd (R.addr .OWN_UDP))).withOwnAt none).settle) ∧
  (∀ (s : State) (j : Fin 4) (y : PesXfer) (rest : List PesXfer), (s.pesm j.val).queue = y :: rest →
    ((s.pesm j.val).running = false →
      let v := (s.setPesm j.val { s.pesm j.val with running := true }).setFl F.PES_STAT.cs y.cs j.val
      exec (.pesTransferBegin j) s
        = .next (v.setFl F.PES_STAT.held (v.fl F.PES_STAT.held j.val &&& 2 ^ y.cs) j.val).settle) ∧
    (∀ rx : List Byte, (s.pesm j.val).running = true → rx.length = y.len →
      let v := ((s.setPesm j.val { queue := rest, running := false }).storeRx j.val y.cs 0 ((y.len + 3) / 4) rx).setFlag
        F.PES_XFER.done true j.val y.cs
      exec (.pesTransferEnd j rx) s
        = .next (v.setFl F.PES_STAT.held (putBits (v.fl F.PES_STAT.held j.val) y.cs y.cs (bit y.hold)) j.val).settle))

/-- An executed write of OWN_CTL or OWN_UDP by the device owner, with target 0xFF and 10 parameter bytes. With an
ethertype below 0x0600, or 0x0800, 0x0806, 0x8100 or 0x88F7, and with port 0, 319 or 320: the reply is BAD_PARAM and
the register keeps its value. With any other: the register has the value, the reply is OK, the settings in use are
still the old ones and are due to change 1 ms after the command; at that moment they become those of the registers,
and every session keeps its binding. [R9, R140, R500] -/
def Obligations.OwnSettingsApplyLater : Prop :=
  ∀ (s : State) (h : Hdr) (slot : Nat) (x : Session) (v : Word), Admits s h slot x → h.target = 0xff → h.plen = 10 →
    s.owns slot devRes = true →
    let u := s.taken h slot x
    let e := v.toNat % 2 ^ 16
    ((e < 0x600 ∨ e = 0x800 ∨ e = 0x806 ∨ e = 0x8100 ∨ e = 0x88f7) →
      exec (.ownCtlWrite h v) s = .next (u.replies slot h 0x0011 stBadParam [])) ∧
    ((e = 0 ∨ e = 319 ∨ e = 320) →
      exec (.ownUdpWrite h v) s = .next (u.replies slot h 0x0011 stBadParam [])) ∧
    (¬ (e < 0x600 ∨ e = 0x800 ∨ e = 0x806 ∨ e = 0x8100 ∨ e = 0x88f7) →
      exec (.ownCtlWrite h v) s = .next (((u.setRg .OWN_CTL (mergeWrite (R.row .OWN_CTL) (u.rg .OWN_CTL)
        v.toNat)).withOwnAt (some (s.now + msCyc))).replies slot h 0x0011 stOk [])) ∧
    (¬ (e = 0 ∨ e = 319 ∨ e = 320) →
      exec (.ownUdpWrite h v) s = .next (((u.setRg .OWN_UDP (mergeWrite (R.row .OWN_UDP) (u.rg .OWN_UDP)
        v.toNat)).withOwnAt (some (s.now + msCyc))).replies slot h 0x0011 stOk [])) ∧
    (∀ (d : Nat) (z : State), z.ownAt = some d → z.reports = [] → exec .ownChangeApply z = .next
      ((((z.advTo d).withOwnEff ((z.advTo d).rd (R.addr .OWN_CTL), (z.advTo d).rd (R.addr .OWN_UDP))).withOwnAt
        none).sweepShadows) ∧ (z.advTo d).sess = z.sess)

/-- Every frame that the model has a lane transmit (a DCP message, an ARP or an ICMP echo reply, a PTP message) is
appended to what was sent when the lane is UP, and carries exactly the tag of the lane's HP_VLAN: with tag_en 1 the
tag control information with the configured PCP in bits [15:13] and VID in bits [11:0], with tag_en 0 no tag. [R91] -/
def Obligations.FramesAreTagged : Prop :=
  (∀ (s : State) (k : LaneIx), s.vlanTag k.val = (if s.flag F.HP_VLAN.tag_en k.val then
    some (BitVec.ofNat 16 (s.fl F.HP_VLAN.vid k.val + s.fl F.HP_VLAN.pcp k.val * 2 ^ 13)) else none)) ∧
  (∀ (s : State) (b : Binding) (k : Nat) (m : Msg), laneOf b = some k → s.laneUp k = true →
    (s.sendDcp b m).out = s.out ++ [.dcp b (s.vlanTag k) (s.carrier b m) m]) ∧
  (∀ (s : State) (k : LaneIx) (type seqId time : Nat), s.laneUp k.val = true →
    (s.sendPtp k.val type seqId time).out = s.out ++ [.ptp k (s.vlanTag k.val)
      (if (s.port k.val).udp then some (s.ipOut k.val, if type < 8 then 319 else 320) else none) (BitVec.ofNat 4 type)
      (BitVec.ofNat 8 (s.fl F.TB_PTP_CTL.domain k.val)) (BitVec.ofNat 16 seqId) time
      (if type = 11 then some (BitVec.ofNat 8 (s.fl F.TB_PTP_CTL.priority1 k.val)) else none)]) ∧
  (∀ (s t : State) (k : LaneIx) (mac : BitVec 48) (ip : BitVec 32) (data : List Byte), s.laneUp k.val = true →
    s.reports = [] → s.rg .HP_IPV4 k.val ≠ 0 → ip.toNat = s.rg .HP_IPV4 k.val →
    (exec (.arpRequest k mac ip) s = .next t →
      t.out = s.out ++ [.arp k (s.vlanTag k.val) mac (s.laneMac k.val) ip]) ∧
    (exec (.icmpEchoRequest k mac ip data) s = .next t → t.out = s.out ++ [.echo k (s.vlanTag k.val) mac (s.ipOut k.val) data]))

/-- For every lane whose link state is not UP and every frame offered on it: nothing is sent, HP_TX_DROP of that lane
rises by one unless it stands at its maximum, no other register of the part changes, and no other state does, so that
no later link-up can send the frame. [R90] -/
def Obligations.LaneThatIsDownDiscards : Prop :=
  ∀ (s : State) (k : LaneIx) (f : Sent), s.laneUp k.val = false → s.Canon →
    let t := s.offer k.val f
    t.out = s.out ∧ t = s.withRegs t.regs ∧
    t.rg .HP_TX_DROP k.val = min (2 ^ 32 - 1) (s.rg .HP_TX_DROP k.val + 1) ∧
    (∀ r i j, r.addr i j ≠ R.addr .HP_TX_DROP k.val → t.rg r i j = s.rg r i j)

/-- While the control core runs, for a transaction at the address that the straps give (at any other nothing happens
but that the address is on the bus; a block read is at the address of the last block write, log 28): a fragment with a
good PEC that begins a message, or continues one, is kept until its last fragment, and the whole message is then
handled as the DCP command that its bytes spell, is answered with BAD_OPCODE for a reserved opcode, or is dropped and
counted if malformed. A bad PEC, or a continuation of nothing, drops what was received and is counted. A block read
takes the next fragment of the oldest waiting message and its repeat gives it again. The alert response gives the
target's address while a message waits. A timeout discards a message partly received. [R43, R124, R514, R515, R516,
R529] -/
def Obligations.ManagementTargetCompletes : Prop :=
  ∀ (s : State) (bus : BitVec 7), s.mgmtOn = true → bus.toNat = 0x58 + s.fl F.DEV_STRAP.i2ca →
    let u := s.toBus bus
    (∀ (b : Byte) (l rest : List Byte), (b.getLsbD 0 = true ∧ l = [] ∨ b.getLsbD 0 = false ∧ s.mgt.inPart = some l) →
      (b.getLsbD 1 = false → exec (.blockWrite ⟨bus, b :: rest⟩ true) s
        = .next (u.withMgt { u.mgt with inPart := some (l ++ rest) }).settle) ∧
      (b.getLsbD 1 = true →
        (decodeDcp (l ++ rest) = .dropped →
          exec (.blockWrite ⟨bus, b :: rest⟩ true) s = .next u.dropInbound.settle) ∧
        (∀ h op, decodeDcp (l ++ rest) = .unknown h op → exec (.blockWrite ⟨bus, b :: rest⟩ true) s
          = exec (.dcpFrameDrop h (.reservedOpcode op)) (u.withMgt { u.mgt with inPart := none })) ∧
        (∀ i, decodeDcp (l ++ rest) = .cmd i → (∃ h, hdrOf i = some h) → rowWrite u i = none →
          exec (.blockWrite ⟨bus, b :: rest⟩ true) s = exec i (u.withMgt { u.mgt with inPart := none })))) ∧
    (∀ (b : Byte) (rest : List Byte),
      exec (.blockWrite ⟨bus, b :: rest⟩ false) s = .next u.dropInbound.settle ∧
      (b.getLsbD 0 = false → s.mgt.inPart = none →
        exec (.blockWrite ⟨bus, b :: rest⟩ true) s = .next u.dropInbound.settle)) ∧
    (s.mgt.to_ = none ∨ s.mgt.to_ = some bus →
      exec .blockRead s = .next (s.withMgt { s.mgt.next.2 with last := some s.mgt.next.1, bus := s.mgt.next.1 }).settle ∧
      exec .blockReadRepeat s = .next (s.withMgt { s.mgt with bus := s.mgt.last.getD [0] }).settle) ∧
    (s.mgt.out ≠ [] → exec .alertResponse s
      = .next (s.withMgt { s.mgt with bus := [BitVec.ofNat 8 (0x58 + s.fl F.DEV_STRAP.i2ca)] }).settle) ∧
    (∀ (other : BitVec 7), other ≠ bus →
      (∀ (frag : List Byte) (pecOk : Bool), exec (.blockWrite ⟨other, frag⟩ pecOk) s = .next (s.toBus other).settle) ∧
      (s.mgt.to_ = some other → exec .blockRead s = .next s.settle ∧ exec .blockReadRepeat s = .next s.settle)) ∧
    (s.mgt.inPart ≠ none → exec .sclLowTimeout s = .next s.dropInbound.settle)

/-- In a busy stall: SEQ_ENTRY_READ, while the lookahead goes on and no line of its earlier requests is unissued, has
it take its next step. LINE_REQUEST with a credit free puts the oldest waiting line in flight and takes it from its
request. LINE_ARRIVAL with no starvation due and no checker injection pending has the oldest line in flight that is
not lost read from DRAM and held with its place, poisoned when a word of it or its flit was bad; a flit with wrong
parity is reported by source 12. [R15, R151, R196, R207, R429, R473] -/
def Obligations.LookaheadReadsAndLinesArrive : Prop :=
  ∀ (s : State) (st : StallIx), s.busyStall st.val = true →
    let x := s.stall st.val
    (x.look.mode = .going → (∀ r ∈ x.waiting, r.upto ≤ r.from_) →
      exec (.seqEntryRead st) s = .next ((s.lookStep st.val).judgeLeat st.val).settle) ∧
    (∀ (r : LineRange) (t : List LineRange), 0 < s.credits st.val → x.waiting.filter (fun r => decide (r.from_ < r.upto)) = r :: t →
      exec (.lineRequest st) s = .next (s.setStall st.val { x with
        inflight := x.inflight ++ [⟨r.pid, r.from_, r.base + r.from_, false, false⟩]
        waiting := if r.from_ + 1 < r.upto then { r with from_ := r.from_ + 1 } :: t else t }).settle) ∧
    (∀ (r : LineReq) (bad : Bool), x.inflight.find? (fun r => ! r.lost) = some r → r.dead = false →
      (x.starved = true ∨ ∀ vec t0 line, s.firstAbsent st.val = some (vec, t0, line) → s.nowU ≤ deadline t0) →
      s.injected 12 = false →
      let v := s.setStall st.val { x with inflight := x.inflight.erase r }
      let w := if bad then v.raise 12 2 false (some st.val) else v
      let l := w.readLine r.line
      let y := l.2.2.stall st.val
      exec (.lineArrival st bad) s = .next ((l.2.2.setStall st.val { y with
        held := y.held ++ [⟨r.pid, r.off, r.line, l.1, l.2.1 || bad, y.toResident r.pid⟩] }).judgeLeat st.val).settle)

/-- When the prefill of an armed stall is complete, a stall of start source 0 starts at the next SCLK edge, and for
any other source the START reply is sent. STARVATION of a busy stall that is not starved: with a line absent, the
deadline 40 ns before the first vector that uses it is reached, the pending stop is marked and the starvation is
recorded with that vector and that line. [R130, R172, R173, R198, R205, R206] -/
def Obligations.PrefillEndsAndStarvationStops : Prop :=
  (∀ (s : State) (st : StallIx), s.prefillDone st.val = true →
    let v := s.setStall st.val { s.stall st.val with prefilled := true }
    ((s.stall st.val).src.source = 0 → exec (.prefillComplete st) s
      = .next ((v.advTo (s.now + 1)).startEvent st.val (s.now + 1)).settle) ∧
    ((s.stall st.val).src.source ≠ 0 →
      exec (.prefillComplete st) s = .next (v.answerAll (.start st.val) stOk []).settle)) ∧
  (∀ (s : State) (st : StallIx) (vec t0 line : Nat), s.busyStall st.val = true → (s.stall st.val).starved = false →
    s.firstAbsent st.val = some (vec, t0, line) →
      exec (.starvation st) s = .next ((s.advToU (t0 - 64 * unitsPerCyc)).starve st.val vec line).settle)

/-- The vector that a stall can play next plays at its T0. For a channel that a SETF before the segment names, the
first T0 of that segment sets the channel's increments to those given, and restarts its phase when it is free-running
and no odd channel of a PAIR. At a boundary of a running stall the highest cause due stops it. A stall reset that
waits on a stall which no longer runs completes. [R146, R157, R175, R176, R177, R178, R181, R185, R231] -/
def Obligations.VectorsAndStopsTakePlace : Prop :=
  (∀ (s : State) (st : StallIx) (n : NextVec), s.canPlay st.val = some n →
    exec (.vectorT0 st) s = .next (s.playVector st.val n).settle ∧
    (∀ (ch : ChIx), s.stallOfChan ch.val = some st.val → n.first = true →
      n.p.setf.filter (fun y => y.1 == ch.val) ≠ [] →
      let v := (n.p.setf.filter (fun y => y.1 == ch.val)).foldl (fun a e => a.setInc e.1 e.2) (s.advToU n.t0)
      let w := v.setStall st.val ((v.stall st.val).takeSetf ch.val)
      (w.flag F.CHN_TG_CTL.mode ch.val = true → ((w.stall st.val).mode ≠ 3 ∨ ch.val % 2 = 0) →
        exec (.setfPhaseReset ch) s = .next (w.phaseReset ch.val n.t0).settle) ∧
      (w.flag F.CHN_TG_CTL.mode ch.val = false ∨ ((w.stall st.val).mode = 3 ∧ ch.val % 2 = 1) →
        exec (.setfPhaseReset ch) s = .next w.settle))) ∧
  (∀ (s : State) (st : StallIx) (c : Nat) (t : List Nat), s.running st.val = true → s.stopCauses st.val = c :: t →
    exec (.stopBoundary st) s = .next (s.stopAt st.val (t.foldl max c)).settle) ∧
  (∀ (s : State) (st : StallIx), s.running st.val = false →
    (s.stall st.val).stops.any (fun p => p.cause == 6) = true →
    exec (.stallResetComplete st) s = .next (s.stallResetDone st.val).settle)

/-- On a channel of a stall: the next placed compare event, once no closer one can come, takes effect at its instant
with the levels sampled, and after the stop discards the window that stays open. On a running stall's channel that is
no odd one of a PAIR: the first grid sample is kept; a sample that differs from the last is kept, checked and, unless
the channel is masked or its vector does not capture edges, recorded with its grid number, vector and both states; and
the end of an equaliser window sets the transition counts and moves each receiver's code. A framer's decoder takes the
stream bits that are ready, up to ten; a character that the encoder completes changes nothing more. [R252, R253, R254,
R255, R270, R271, R272, R273, R278, R293] -/
def Obligations.ChannelEventsComplete : Prop :=
  (∀ (s : State) (ch : ChIx) (st : StallIx), s.stallOfChan ch.val = some st.val →
    (∀ (e : CmpEvt) (t : List CmpEvt) (h l : Bool), (s.chan ch.val).cmp = e :: t → s.cmpKnown st.val ch.val e = true →
      let v := ((s.advToU e.at_).setChan ch.val { s.chan ch.val with cmp := t }).compareEvent st.val ch.val e h l
      exec (.compareEvent ch h l) s = .next (if v.running st.val then v else v.cutWin st.val ch.val).settle) ∧
    (s.running st.val = true → ((s.stall st.val).mode ≠ 3 ∨ ch.val % 2 = 0) →
      (∀ h l : Bool, (s.chan ch.val).grid = [] → exec (.edgeCapture ch none h l) s
        = .next ((s.setChan ch.val { s.chan ch.val with grid := [(0, s.sample ch.val h l)] }).noteSample ch.val
          (s.sample ch.val h l)).settle) ∧
      (∀ (k n : Nat) (h l : Bool) (g : Nat × Nat) (rest : List (Nat × Nat)), (s.stall st.val).holder k = some n →
        (s.chan ch.val).grid = g :: rest → g.1 ≤ k → s.sample ch.val h l ≠ g.2 →
        let c := s.chan ch.val
        let code := s.sample ch.val h l
        let v := (s.advToU (skewed ((s.stall st.val).epoch + 625 * k / 2) (s.cmpSkew ch.val))).setChan ch.val
          { c with grid := (k, code) :: (if c.win.isSome then g :: rest else [g]) }
        let w := (v.noteSample ch.val g.2).noteSample ch.val code
        exec (.edgeCapture ch (some k) h l) s
          = .next (if w.flag F.CHN_CMP_CTL.mask ch.val || ! tbit c.caps (((s.stall st.val).vec.getD 0) - n) then w
              else w.form ch.val ⟨2, 0, st.val, ch.val, code + 4 * g.2, k % 2 ^ 56, n % 2 ^ 40⟩).settle) ∧
      (∀ (transH transL : BitVec 13) (stepH stepL : Fin 3),
        let c := s.chan ch.val
        let o := ch.val / 8
        let a := (s.advToU (skewed ((s.stall st.val).epoch + (c.eqWin + 1) * eqSpan (s.stall st.val).mode)
          (s.cmpSkew ch.val))).setChan ch.val { c with eqWin := c.eqWin + 1 }
        let mine := a.flag F.FRM_RX_CTL.en o && a.rxChan o == ch.val
        let still := ! a.flag F.CHN_EQ_CTL.adapt_en ch.val || (mine && (a.framer o).idleSeen)
        let b := a.setRg .CHN_EQ_WIN (min 4096 transH.toNat + min 4096 transL.toNat * 2 ^ 16) ch.val
        let d := (b.eqReceiver ch.val F.CHN_EQ_STAT.code_h F.CHN_EQ_CTL.trained_h F.CHN_EQ_STAT.frozen_h
          F.CHN_EQ_STAT.bound_h transH.toNat stepH.val still).eqReceiver ch.val F.CHN_EQ_STAT.code_l
          F.CHN_EQ_CTL.trained_l F.CHN_EQ_STAT.frozen_l F.CHN_EQ_STAT.bound_l transL.toNat stepL.val still
        exec (.eqWindowEnd ch transH transL stepH stepL) s
          = .next (if mine then d.setFramer o { d.framer o with idleSeen := false } else d).settle))) ∧
  (∀ (s : State) (o : OctIx) (st : StallIx), s.stallOfOct o.val = some st.val →
    exec (.framerCharacter o true) s = .next s.settle ∧
    (s.bitReady st.val o.val = true → exec (.framerCharacter o false) s
      = .next ((s.framerBit st.val o.val).framerBits st.val o.val 9).settle))

/-- A waiting record, a MARK after the cycle of its trigger, goes to the destination its route keeps, is counted as
discarded where no route keeps it, and is lost with cause 5 where its flit is bad, which source 12 reports. A GAP pair
ends a loss run. A TIME pair forms 2^40 time-tag units after the last. The auto timeout triggers with source 6, a
window re-arms, and a trigger pin's pulse has its edges at their moments. A unit's pin gate opens and closes; a start
edge at or after the opening that its source can give begins the count; its last stop edge or its timeout delivers the
result, one within 20 ps of the start being a free value (log 71); its dead time ends in WAIT_GATE or in OFF. An
enabled filter takes the sample of the vector that is due from its channels' bits. [R292, R301, R302, R304, R305,
R306, R323, R324, R326, R328, R334, R338] -/
def Obligations.AcquisitionAndIntervalEventsComplete : Prop :=
  (∀ (s : State) (i : Fin 176) (r : Rec) (t : List Rec) (bad : Bool), s.buf i.val = r :: t → s.injected 12 = false →
    let a := if r.type = 3 then s.advTo (((s.stall r.stall).epoch + r.tag / 8 * unitsPerCyc) / unitsPerCyc + 1) else s
    let v := if bad then (a.setBuf i.val t).raise 12 1 false (some r.stall) else a.setBuf i.val t
    (v.destOf r.stall r.type = none →
      exec (.recordAccept i bad) s = .next (v.bump F.ACQ_DISC.count 1 r.stall).settle) ∧
    (∀ d, v.destOf r.stall r.type = some d →
      exec (.recordAccept i bad) s = .next (if bad then v.lose d 5 r else v.deliver d r).settle)) ∧
  (∀ (s : State) (st : StallIx),
    (∀ d : Fin 32769, d.val ≠ ringDest → s.inReset .acq = false → s.inReset .qm = false →
      exec (.gapPairWrite st d) s = .next (s.closeLoss st.val d.val).settle) ∧
    (s.running st.val = true →
      let m := (s.stall st.val).timePairs + 1
      let v := s.advToU ((s.stall st.val).epoch + m * 2 ^ 40 * 625 / 2)
      exec (.timePairPeriodic st) s = .next ((v.setStall st.val { s.stall st.val with timePairs := m }).timePair
        st.val (m * 2 ^ 40 % 2 ^ 56)).settle) ∧
    (s.autoOn st.val = true →
      let v := s.advTo ((s.stall st.val).autoFrom + s.fl F.ACQ_AUTO.timeout st.val * usCyc)
      exec (.autoTrigger st) s = .next (v.trigger st.val 6 0 (v.tagNow st.val)).settle) ∧
    (s.fl F.ACQ_WIN_STAT.state st.val = winRearm →
      exec (.windowRearm st) s = .next ((s.advTo (s.stall st.val).win.rearmAt).enterFill st.val).settle)) ∧
  (∀ (s : State) (n : Fin 4) (t : Nat) (p : Pulse), s.flag F.ACQ_TRIGOUT.en n.val = true →
    (mget (fun _ => ({} : Pulse)) s.trigOut n.val).edge = some (t, p) →
    exec (.trigOutPulse n) s
      = .next ((s.advTo t).withTrigOut (mset (fun _ => ({} : Pulse)) s.trigOut n.val p)).settle) ∧
  (∀ (s : State) (k : Fin 16),
    (s.pinGate k.val = true →
      ((s.tim k.val).gateOpen = false → exec (.timGateOpen k) s = .next (s.openGate k.val s.nowU).settle) ∧
      ((s.tim k.val).gateOpen = true → exec (.timGateClose k) s = .next (s.closeGate k.val).settle)) ∧
    (∀ c f, s.timState k.val = tmWaitStart → s.timSync k.val = false →
      let t := s.cycleOf c
      let v := s.advTo t
      (s.tim k.val).openAt * 1024 ≤ lsbAt t f.toNat * 625 →
      v.edgeFrom F.TIM_START_SRC.src F.TIM_START_SRC.index F.TIM_START_SRC.edge k.val (lsbAt t f.toNat) = true →
      exec (.timStartEdge k c f) s = .next ((v.setTim k.val { v.tim k.val with
        cs := c.toNat, fs := f.toNat, startT := t, stops := 0
        gateOpen := (v.tim k.val).gateOpen && v.fl F.TIM_CTL.gate_src k.val != 0 }).setTimState k.val tmWaitStop).settle) ∧
    (∀ c f, s.timState k.val = tmWaitStop → s.timSync k.val = false →
      let t := s.cycleOf c
      let v := s.advTo t
      let gap := (lsbAt t f.toNat - lsbAt (s.tim k.val).startT (s.tim k.val).fs) * 625
      v.stopMay k.val (lsbAt t f.toNat) = true →
      (gap ≤ 81920 →
        let d := v.draw 65
        exec (.timStopEdge k c f) s = .next (if d.1.getLsbD 64 then
          d.2.takeStop k.val t c.toNat f.toNat (d.1.setWidth 64).toInt else d.2).settle) ∧
      (81920 < gap → (v.tim k.val).stops + 1 < v.fl F.TIM_CTL.stop_count k.val → exec (.timStopEdge k c f) s
        = .next (v.setTim k.val { v.tim k.val with stops := (v.tim k.val).stops + 1 }).settle) ∧
      (81920 < gap → v.fl F.TIM_CTL.stop_count k.val ≤ (v.tim k.val).stops + 1 → exec (.timStopEdge k c f) s
        = .next (v.deliverTim k.val c.toNat f.toNat (v.timN k.val c.toNat f.toNat) false t).settle)) ∧
    (s.timState k.val = tmWaitStop → s.timSync k.val = false → s.fl F.TIM_TIMEOUT.timeout k.val ≠ 0 →
      let t := (s.tim k.val).startT + s.fl F.TIM_TIMEOUT.timeout k.val * usCyc
      exec (.timTimeout k) s = .next ((s.advTo t).deliverTim k.val 0 0 0 true t).settle) ∧
    (s.timState k.val = tmDead → s.timSync k.val = false →
      let v := s.advTo (s.tim k.val).deadAt
      exec (.timDeadEnd k) s = .next (if v.flag F.TIM_CTL.repeat_ k.val then v.setTimState k.val tmWaitGate
        else (v.setFlag F.TIM_CTL.en false k.val).setTimState k.val tmOff).settle)) ∧
  (∀ (s : State) (c : Fin 16), s.flag F.FLT_ASSIGN.assigned c.val = true → s.flag F.FLT_CTL.en c.val = true →
    s.running (s.fl F.FLT_ASSIGN.stall c.val) = true → s.inReset .flt = false →
    let st := s.fl F.FLT_ASSIGN.stall c.val
    let f := (s.flt c.val).applyResets (s.fltStep c.val st)
    let vec := f.v0 + f.s * s.fltStep c.val st
    s.fltReady c.val st vec = true →
    let v := (s.setFlt c.val f).controlFlit 1
    let bits := (v.fltChans c.val).map (fun ch => v.fltBit ch vec)
    let w := if bits.any Option.isNone then v.setFlag F.FLT_STAT.no_strobe true c.val else v
    let t0 := (((w.stall st).t0s.find? (fun e => e.1 == vec)).map (fun e => e.2)).getD (w.stall st).t0
    let y := w.fltSample c.val st t0 (w.fltValue c.val (bits.map (fun b => b.getD false)))
    exec (.fltInputSample c) s = .next ((y.fltChans c.val).foldl (fun z ch => z.dropBits st ch) y).settle)

/-- A packet of one to 4096 words, no more than the queue's size, from a producer that may push there enters an
enabled queue that accepts it, each word in order with the end mark on the last; where the queue does not accept it,
it is refused, counted and accounted for by its producer; a pop in the same cycle frees its place first. The consumer
named by QM_CFG pops the oldest word, and an open stream takes it into its frame in hand. The oldest spilled word
comes back when on-chip room frees. A stream resends its next retained frame, and otherwise sends the frame that is
full, or, when the queue holds no further word, that has waited for its flush time. [R134, R137, R364, R365, R366,
R368, R369, R375, R376, R377] -/
def Obligations.QueueEventsComplete : Prop :=
  (∀ (s : State) (q : QIx) (p : Producer) (ws : List (BitVec 64 × Bool)) (popHere : Bool), mayPush p q.val = true →
    ws ≠ [] → ws.length ≤ 4096 → ws.length ≤ s.qSize q.val →
    let v := match p with
      | .acq _ => if (tailStall q.val).isSome then s.reclaim q.val ws.length 4096 else s
      | _ => s
    let fits := v.pushOk q.val ws.length (popHere && v.consumes q.val)
    let w := if popHere then v.consume q.val false else v
    (fits = true →
      let y := match p with
        | .acq st => w.noteDest st.val q.val
        | _ => w
      exec (.queuePush q p ws popHere) s = .next (y.pushAll q.val (packet ws)).settle) ∧
    (fits = false →
      exec (.queuePush q p ws popHere) s = .next ((w.refusePush q.val).refusedBy p q.val ws).settle)) ∧
  (∀ (s : State) (q : QIx) (bad : Bool),
    (s.stream q.val = none → s.flag F.QM_CFG.consumer q.val = true →
      exec (.queuePop q bad) s = .next (s.pop q.val bad).2.settle) ∧
    (∀ t, s.stream q.val = some t → t.resend = none →
      exec (.queuePop q bad) s = .next (s.popStream q.val bad).settle)) ∧
  (∀ (s : State) (q : QIx) (cells : Cells) (last : Bool) (rest : List Bool),
    (s.queue q.val).spillEnds = last :: rest → s.spillHeld q.val = false → exec (.spillReadback q cells) s = .next (s.readback q.val cells).settle) ∧
  (∀ (s : State) (q : QIx) (t : Stream), s.stream q.val = some t →
    (∀ r, t.resend = some r → exec (.streamFrameSend q) s = .next (s.resendNext q.val t r).settle) ∧
    (t.resend = none → t.maySend = true →
      let v := s.fillFrame q.val 1200
      ∀ z, v.stream q.val = some z → z.buf ≠ [] → v.frameFull q.val z = true →
        exec (.streamFrameSend q) s = .next (v.sendFrame q.val).settle) ∧
    (t.resend = none → t.maySend = true →
      let v := s.fillFrame q.val 1200
      ∀ z, v.stream q.val = some z → z.buf ≠ [] → v.frameFull q.val z = false → (v.queue q.val).depth = 0 →
        exec (.streamFrameSend q) s = .next ((v.advTo (z.firstAt + z.flushUs * usCyc)).sendFrame q.val).settle))
end

