-- ==== Sys2Proof/Laws/Maps.lean ====
section
/-! SUPPORT. The laws of sparse maps: what a read gives after a write, that every operation keeps the canonical form, and
that two maps in the canonical form with equal contents are equal. -/

namespace Sys2Proof.Machine

variable {α : Type}

@[simp] theorem mget_nil (d : Nat → α) (k : Nat) : mget d [] k = d k := rfl

/-- A read of another key does not see the write. -/
theorem mget_mset_ne [DecidableEq α] (d : Nat → α) (m : SMap α) {k k' : Nat} (v : α) (h : k' ≠ k) :
    mget d (mset d m k v) k' = mget d m k' := by
  induction m with
  | nil =>
    simp only [mset]
    split <;> simp [mget, h]
  | cons e t ih =>
    obtain ⟨q, w⟩ := e
    simp only [mset]
    split
    · split <;> simp [mget, h]
    · split
      · next hq =>
        subst hq
        split <;> simp [mget, h]
      · simp only [mget, ih]

/-- A value that differs from the unlisted one is read back whatever the map is. -/
theorem mget_mset_listed [DecidableEq α] (d : Nat → α) (m : SMap α) (k : Nat) {v : α} (h : v ≠ d k) :
    mget d (mset d m k v) k = v := by
  induction m with
  | nil => simp [mset, mget, h]
  | cons e t ih =>
    obtain ⟨q, w⟩ := e
    simp only [mset]
    split
    · simp [mget]
    · split
      · simp [mget]
      · next hq => simp only [mget, hq, if_false, ih]

/-- A key below every listed one reads as unlisted. -/
theorem mget_below [DecidableEq α] (d : Nat → α) : ∀ (m : SMap α) {lo k : Nat}, mwfFrom d lo m = true → k < lo →
    mget d m k = d k
  | [], _, _, _, _ => rfl
  | (q, w) :: t, lo, k, h, hk => by
    simp only [mwfFrom, Bool.and_eq_true, decide_eq_true_eq] at h
    have hq : ¬ k = q := by omega
    simp only [mget, hq, if_false]
    exact mget_below d t h.2 (by omega)

/-- In a canonical map the written value is read back. -/
theorem mget_mset_same [DecidableEq α] (d : Nat → α) : ∀ (m : SMap α) (lo k : Nat) (v : α), mwfFrom d lo m = true →
    mget d (mset d m k v) k = v
  | [], _, k, v, _ => by
    simp only [mset]
    split
    · next h => simp [mget, h]
    · simp [mget]
  | (q, w) :: t, lo, k, v, h => by
    have h' := h
    simp only [mwfFrom, Bool.and_eq_true, decide_eq_true_eq] at h
    simp only [mset]
    split
    · next hk =>
      split
      · next hv =>
        have hq : ¬ k = q := by omega
        simp only [mget, hq, if_false]
        rw [hv]
        exact mget_below d t h.2 (by omega)
      · simp [mget]
    · split
      · next hk =>
        split
        · next hv => rw [hv]; exact mget_below d t h.2 (by omega)
        · simp [mget]
      · next hk =>
        simp only [mget, hk, if_false]
        exact mget_mset_same d t _ k v h.2

/-- A lower bound may be lowered. -/
theorem mwfFrom_mono [DecidableEq α] (d : Nat → α) : ∀ (m : SMap α) {lo lo' : Nat}, mwfFrom d lo' m = true → lo ≤ lo' →
    mwfFrom d lo m = true
  | [], _, _, _, _ => rfl
  | (q, w) :: t, lo, lo', h, hl => by
    simp only [mwfFrom, Bool.and_eq_true, decide_eq_true_eq] at h ⊢
    exact ⟨⟨by omega, h.1.2⟩, h.2⟩

/-- A write keeps the canonical form. -/
theorem mwfFrom_mset [DecidableEq α] (d : Nat → α) : ∀ (m : SMap α) (lo k : Nat) (v : α), mwfFrom d lo m = true → lo ≤ k →
    mwfFrom d lo (mset d m k v) = true
  | [], lo, k, v, _, hk => by
    simp only [mset]
    split
    · rfl
    · next h => simp [mwfFrom, h, hk]
  | (q, w) :: t, lo, k, v, h, hk => by
    have h' := h
    simp only [mwfFrom, Bool.and_eq_true, decide_eq_true_eq] at h
    obtain ⟨⟨h1, h2⟩, h3⟩ := h
    simp only [mset]
    split
    · next hlt =>
      split
      · exact h'
      · next hv =>
        simp only [mwfFrom, Bool.and_eq_true, decide_eq_true_eq]
        exact ⟨⟨hk, hv⟩, ⟨by omega, h2⟩, h3⟩
    · split
      · next hq =>
        subst hq
        split
        · exact mwfFrom_mono d t h3 (by omega)
        · next hv =>
          simp only [mwfFrom, Bool.and_eq_true, decide_eq_true_eq]
          exact ⟨⟨hk, hv⟩, h3⟩
      · simp only [mwfFrom, Bool.and_eq_true, decide_eq_true_eq]
        exact ⟨⟨h1, h2⟩, mwfFrom_mset d t _ k v h3 (by omega)⟩
/-- A write keeps the canonical form of a map. -/
theorem mwf_mset [DecidableEq α] (d : Nat → α) (m : SMap α) (k : Nat) (v : α) (h : mwf d m = true) :
    mwf d (mset d m k v) = true := mwfFrom_mset d m 0 k v h (Nat.zero_le k)

/-- Removing entries keeps the canonical form. -/
theorem mwfFrom_filter [DecidableEq α] (d : Nat → α) (p : Nat × α → Bool) : ∀ (m : SMap α) (lo : Nat),
    mwfFrom d lo m = true → mwfFrom d lo (m.filter p) = true
  | [], _, _ => rfl
  | (q, w) :: t, lo, h => by
    simp only [mwfFrom, Bool.and_eq_true, decide_eq_true_eq] at h
    simp only [List.filter_cons]
    split
    · simp only [mwfFrom, Bool.and_eq_true, decide_eq_true_eq]
      exact ⟨h.1, mwfFrom_filter d p t _ h.2⟩
    · exact mwfFrom_mono d _ (mwfFrom_filter d p t _ h.2) (by omega)

/-- Clearing a range of keys keeps the canonical form. -/
theorem mwf_mclear [DecidableEq α] (d : Nat → α) (p : Nat → Bool) (m : SMap α) (h : mwf d m = true) :
    mwf d (mclear p m) = true := mwfFrom_filter d _ m 0 h

/-- Canonical maps with equal contents are equal. -/
theorem mwfFrom_ext [DecidableEq α] (d : Nat → α) : ∀ (a b : SMap α) (lo : Nat), mwfFrom d lo a = true →
    mwfFrom d lo b = true → (∀ k, mget d a k = mget d b k) → a = b
  | [], [], _, _, _, _ => rfl
  | [], (q, w) :: t, lo, _, hb, h => by
    simp only [mwfFrom, Bool.and_eq_true, decide_eq_true_eq] at hb
    have := h q
    simp only [mget, if_true] at this
    exact absurd this.symm hb.1.2
  | (q, w) :: t, [], lo, ha, _, h => by
    simp only [mwfFrom, Bool.and_eq_true, decide_eq_true_eq] at ha
    have := h q
    simp only [mget, if_true] at this
    exact absurd this ha.1.2
  | (q, w) :: t, (q', w') :: t', lo, ha, hb, h => by
    have ha' := ha
    have hb' := hb
    simp only [mwfFrom, Bool.and_eq_true, decide_eq_true_eq] at ha hb
    have hq : q = q' := by
      rcases Nat.lt_trichotomy q q' with hl | he | hl
      · have := h q
        have e : mget d ((q', w') :: t') q = d q :=
          mget_below d ((q', w') :: t') (lo := q') (by simp [mwfFrom, hb.1.2, hb.2]) hl
        rw [e] at this
        simp only [mget, if_true] at this
        exact absurd this ha.1.2
      · exact he
      · have := h q'
        have e : mget d ((q, w) :: t) q' = d q' :=
          mget_below d ((q, w) :: t) (lo := q) (by simp [mwfFrom, ha.1.2, ha.2]) hl
        rw [e] at this
        simp only [mget, if_true] at this
        exact absurd this.symm hb.1.2
    subst hq
    have hw : w = w' := by simpa [mget] using h q
    subst hw
    congr 1
    refine mwfFrom_ext d t t' (q + 1) ha.2 hb.2 (fun k => ?_)
    by_cases hk : k = q
    · subst hk
      rw [mget_below d t ha.2 (by omega), mget_below d t' hb.2 (by omega)]
    · simpa [mget, hk] using h k

/-- Canonical maps with equal contents are equal. -/
theorem mwf_ext [DecidableEq α] (d : Nat → α) (a b : SMap α) (ha : mwf d a = true) (hb : mwf d b = true)
    (h : ∀ k, mget d a k = mget d b k) : a = b := mwfFrom_ext d a b 0 ha hb h

end Sys2Proof.Machine
end

