-- ==== Sys2Proof/Laws/Canon.lean ====
section
/-! SUPPORT. Every update of one field keeps the canonical form of the state: of a field that is a map when the new map is
canonical, of any other field always. -/

namespace Sys2Proof.Machine

open Sys2Proof

/-- The reset state is canonical. -/
theorem canon_resetState : State.reset.Canon where
  regs := by rfl
  latch := by rfl
  sess := by rfl
  slotGen := by rfl
  owner := by rfl
  elect := by rfl
  ops := by rfl
  lanes := by rfl
  condOn := by rfl
  condDet := by rfl
  lastEvt := by rfl
  seenAt := by rfl
  stalls := by rfl
  chans := by rfl
  framers := by rfl
  queues := by rfl
  streams := by rfl
  srcBuf := by rfl
  loss := by rfl
  lossOld := by rfl
  timePend := by rfl
  wbuf := by rfl
  mem := by rfl
  psn := by rfl
  err := by rfl
  inited := by rfl
  wrote := by rfl
  shares := by rfl
  migWait := by rfl
  track := by rfl
  mr4 := by rfl
  rankT := by rfl
  mcT := by rfl
  dead := by rfl
  retrain := by rfl
  bufPanic := by rfl
  tack := by rfl
  tims := by rfl
  flts := by rfl
  fltBits := by rfl
  alarms := by rfl
  ptp := by rfl
  tmpl := by rfl
  mods := by rfl
  trigPend := by rfl
  flows := by rfl
  ystate := by rfl
  cores := by rfl
  yflags := by rfl
  cal := by rfl
  tests := by rfl
  pes := by rfl
  trigOut := by rfl
  tout := by rfl

/-- A fold of updates keeps a property of states that each of them keeps. -/
theorem foldl_keeps {α : Type} {P : State → Prop} {f : State → α → State} (hf : ∀ s a, P s → P (f s a)) :
    ∀ (l : List α) {s : State}, P s → P (l.foldl f s)
  | [], _, h => h
  | a :: t, _, h => foldl_keeps hf t (hf _ a h)

/-- A map without entries is canonical. -/
theorem mwf_nil {α : Type} [DecidableEq α] (d : Nat → α) : mwf d ([] : SMap α) = true := rfl

/-- Removing entries keeps the canonical form. -/
theorem mwf_filter {α : Type} [DecidableEq α] (d : Nat → α) (p : Nat × α → Bool) {m : SMap α} (h : mwf d m = true) :
    mwf d (m.filter p) = true := mwfFrom_filter d p m 0 h

/-- A fold that carries a value beside the state keeps a property of states that each step keeps. -/
theorem foldl_snd_keeps {α β : Type} {P : State → Prop} {f : β × State → α → β × State}
    (hf : ∀ p a, P p.2 → P (f p a).2) : ∀ (l : List α) {p : β × State}, P p.2 → P (l.foldl f p).2
  | [], _, h => h
  | a :: t, _, h => foldl_snd_keeps hf t (hf _ a h)

/-- The state of a pair that a name stands for. -/
theorem canon_of_eq {β : Type} {x : β × State} {b : β} {t : State} (e : x = (b, t)) (h : x.2.Canon) : t.Canon := by
  rw [e] at h
  exact h

/-- Changing the listed contents of some entries keeps the canonical form. -/
theorem mwfFrom_mapSome {α : Type} [DecidableEq α] (c : Nat × Option α → Prop) [DecidablePred c] (f : α → α) :
    ∀ (m : SMap (Option α)) (lo : Nat), mwfFrom (fun _ => none) lo m = true →
      mwfFrom (fun _ => none) lo (m.map (fun e => if c e then (e.1, e.2.map f) else e)) = true
  | [], _, _ => rfl
  | (k, v) :: t, lo, h => by
    simp only [mwfFrom, List.map_cons, Bool.and_eq_true, decide_eq_true_eq] at h ⊢
    have ht := mwfFrom_mapSome c f t (k + 1) h.2
    split <;> rename_i hc
    · refine ⟨⟨h.1.1, ?_⟩, ht⟩
      have := h.1.2
      cases v <;> simp_all
    · exact ⟨h.1, ht⟩

variable {s : State}

theorem State.Canon.withPending (h : s.Canon) (v : List Instr) : (s.withPending v).Canon := { h with }
theorem State.Canon.withHeld (h : s.Canon) (v : List Instr) : (s.withHeld v).Canon := { h with }
theorem State.Canon.withResuming (h : s.Canon) (v : Bool) : (s.withResuming v).Canon := { h with }
theorem State.Canon.withOut (h : s.Canon) (v : List Sent) : (s.withOut v).Canon := { h with }
theorem State.Canon.withNow (h : s.Canon) (v : Nat) : (s.withNow v).Canon := { h with }
theorem State.Canon.withCnt (h : s.Canon) (v : BitVec 64) : (s.withCnt v).Canon := { h with }
theorem State.Canon.withFreeCtr (h : s.Canon) (v : Nat) : (s.withFreeCtr v).Canon := { h with }
theorem State.Canon.withPhase (h : s.Canon) (v : Phase) : (s.withPhase v).Canon := { h with }
theorem State.Canon.withStartIn (h : s.Canon) (v : Option StartIn) : (s.withStartIn v).Canon := { h with }
theorem State.Canon.withDrive (h : s.Canon) (v : Drive) : (s.withDrive v).Canon := { h with }
theorem State.Canon.withResetAt (h : s.Canon) (v : Option (Nat × ResetKind)) : (s.withResetAt v).Canon := { h with }
theorem State.Canon.withEverReady (h : s.Canon) (v : Bool) : (s.withEverReady v).Canon := { h with }
theorem State.Canon.withVmainAt (h : s.Canon) (v : Nat) : (s.withVmainAt v).Canon := { h with }
theorem State.Canon.withClockStopped (h : s.Canon) (v : Bool) : (s.withClockStopped v).Canon := { h with }
theorem State.Canon.withRegs (h : s.Canon) {v : SMap Word} (hv : mwf regRst v = true) :
    (s.withRegs v).Canon := { h with regs := hv }
theorem State.Canon.withLatch (h : s.Canon) {v : SMap (Option Word)} (hv : mwf (fun _ => none) v = true) :
    (s.withLatch v).Canon := { h with latch := hv }
theorem State.Canon.withSess (h : s.Canon) {v : SMap (Option Session)} (hv : mwf (fun _ => none) v = true) :
    (s.withSess v).Canon := { h with sess := hv }
theorem State.Canon.withSlotGen (h : s.Canon) {v : SMap Nat} (hv : mwf (fun _ => 0) v = true) :
    (s.withSlotGen v).Canon := { h with slotGen := hv }
theorem State.Canon.withOwner (h : s.Canon) {v : SMap (Option Nat)} (hv : mwf (fun _ => none) v = true) :
    (s.withOwner v).Canon := { h with owner := hv }
theorem State.Canon.withElect (h : s.Canon) {v : SMap (Option Election)} (hv : mwf (fun _ => none) v = true) :
    (s.withElect v).Canon := { h with elect := hv }
theorem State.Canon.withOps (h : s.Canon) {v : SMap (Option OpRec)} (hv : mwf (fun _ => none) v = true) :
    (s.withOps v).Canon := { h with ops := hv }
theorem State.Canon.withOwnEff (h : s.Canon) (v : Word × Word) : (s.withOwnEff v).Canon := { h with }
theorem State.Canon.withOwnAt (h : s.Canon) (v : Option Nat) : (s.withOwnAt v).Canon := { h with }
theorem State.Canon.withLanes (h : s.Canon) {v : SMap Lane} (hv : mwf (fun _ => ({} : Lane)) v = true) :
    (s.withLanes v).Canon := { h with lanes := hv }
theorem State.Canon.withReports (h : s.Canon) (v : List Report) : (s.withReports v).Canon := { h with }
theorem State.Canon.withCondOn (h : s.Canon) {v : SMap Bool} (hv : mwf (fun _ => false) v = true) :
    (s.withCondOn v).Canon := { h with condOn := hv }
theorem State.Canon.withCondDet (h : s.Canon) {v : SMap Nat} (hv : mwf (fun _ => 0) v = true) :
    (s.withCondDet v).Canon := { h with condDet := hv }
theorem State.Canon.withShadows (h : s.Canon) (v : List Shadow) : (s.withShadows v).Canon := { h with }
theorem State.Canon.withLastEvt (h : s.Canon) {v : SMap (Option Nat)} (hv : mwf (fun _ => none) v = true) :
    (s.withLastEvt v).Canon := { h with lastEvt := hv }
theorem State.Canon.withRst (h : s.Canon) (v : List Blk) : (s.withRst v).Canon := { h with }
theorem State.Canon.withStalls (h : s.Canon) {v : SMap Stall} (hv : mwf (fun _ => ({} : Stall)) v = true) :
    (s.withStalls v).Canon := { h with stalls := hv }
theorem State.Canon.withChans (h : s.Canon) {v : SMap Chan} (hv : mwf (fun _ => ({} : Chan)) v = true) :
    (s.withChans v).Canon := { h with chans := hv }
theorem State.Canon.withFramers (h : s.Canon) {v : SMap Framer} (hv : mwf (fun _ => ({} : Framer)) v = true) :
    (s.withFramers v).Canon := { h with framers := hv }
theorem State.Canon.withQueues (h : s.Canon) {v : SMap QState} (hv : mwf (fun _ => ({} : QState)) v = true) :
    (s.withQueues v).Canon := { h with queues := hv }
theorem State.Canon.withStreams (h : s.Canon) {v : SMap (Option Stream)} (hv : mwf (fun _ => none) v = true) :
    (s.withStreams v).Canon := { h with streams := hv }
theorem State.Canon.withSrcBuf (h : s.Canon) {v : SMap (List Rec)} (hv : mwf (fun _ => []) v = true) :
    (s.withSrcBuf v).Canon := { h with srcBuf := hv }
theorem State.Canon.withLoss (h : s.Canon) {v : SMap (Option LossRun)} (hv : mwf (fun _ => none) v = true) :
    (s.withLoss v).Canon := { h with loss := hv }
theorem State.Canon.withLossOld (h : s.Canon) {v : SMap (Option LossRun)} (hv : mwf (fun _ => none) v = true) :
    (s.withLossOld v).Canon := { h with lossOld := hv }
theorem State.Canon.withTimePend (h : s.Canon) {v : SMap (List QWord)} (hv : mwf (fun _ => []) v = true) :
    (s.withTimePend v).Canon := { h with timePend := hv }
theorem State.Canon.withWbuf (h : s.Canon) {v : SMap (List BufWrite)} (hv : mwf (fun _ => []) v = true) :
    (s.withWbuf v).Canon := { h with wbuf := hv }
theorem State.Canon.withMem (h : s.Canon) {v : List Host.Cell} (hv : mwf (fun _ => (0 : Byte)) v = true) :
    (s.withMem v).Canon := { h with mem := hv }
theorem State.Canon.withPsn (h : s.Canon) {v : SMap Byte} (hv : mwf (fun _ => 0) v = true) :
    (s.withPsn v).Canon := { h with psn := hv }
theorem State.Canon.withErr (h : s.Canon) {v : SMap Cells} (hv : mwf (fun _ => Cells.asStored) v = true) :
    (s.withErr v).Canon := { h with err := hv }
theorem State.Canon.withInited (h : s.Canon) {v : SMap Bool} (hv : mwf (fun _ => false) v = true) :
    (s.withInited v).Canon := { h with inited := hv }
theorem State.Canon.withWrote (h : s.Canon) {v : SMap Wrote} (hv : mwf (fun _ => ({} : Wrote)) v = true) :
    (s.withWrote v).Canon := { h with wrote := hv }
theorem State.Canon.withRankT (h : s.Canon) {v : SMap RankTimes} (hv : mwf (fun _ => ({} : RankTimes)) v = true) :
    (s.withRankT v).Canon := { h with rankT := hv }
theorem State.Canon.withMcT (h : s.Canon) {v : SMap McTimes} (hv : mwf (fun _ => ({} : McTimes)) v = true) :
    (s.withMcT v).Canon := { h with mcT := hv }
theorem State.Canon.withSeenAt (h : s.Canon) {v : SMap (Option Nat)} (hv : mwf (fun _ => none) v = true) :
    (s.withSeenAt v).Canon := { h with seenAt := hv }
theorem State.Canon.withShares (h : s.Canon) {v : SMap (Nat × Nat)} (hv : mwf (fun _ => (0, 0)) v = true) :
    (s.withShares v).Canon := { h with shares := hv }
theorem State.Canon.withDram (h : s.Canon) (v : DramUse) : (s.withDram v).Canon := { h with }
theorem State.Canon.withMig (h : s.Canon) (v : Option Mig) : (s.withMig v).Canon := { h with }
theorem State.Canon.withMigWait (h : s.Canon) {v : SMap (Option Nat)} (hv : mwf (fun _ => none) v = true) :
    (s.withMigWait v).Canon := { h with migWait := hv }
theorem State.Canon.withTrack (h : s.Canon) {v : SMap Tracker} (hv : mwf (fun _ => ({} : Tracker)) v = true) :
    (s.withTrack v).Canon := { h with track := hv }
theorem State.Canon.withMr4 (h : s.Canon) {v : SMap Nat} (hv : mwf (fun _ => 0) v = true) :
    (s.withMr4 v).Canon := { h with mr4 := hv }
theorem State.Canon.withDead (h : s.Canon) {v : SMap Bool} (hv : mwf (fun _ => false) v = true) :
    (s.withDead v).Canon := { h with dead := hv }
theorem State.Canon.withScrubOp (h : s.Canon) (v : Option (Nat × Nat × List Nat)) : (s.withScrubOp v).Canon := { h with }
theorem State.Canon.withRetrain (h : s.Canon) {v : SMap Bool} (hv : mwf (fun _ => false) v = true) :
    (s.withRetrain v).Canon := { h with retrain := hv }
theorem State.Canon.withBufPanic (h : s.Canon) {v : SMap Bool} (hv : mwf (fun _ => false) v = true) :
    (s.withBufPanic v).Canon := { h with bufPanic := hv }
theorem State.Canon.withTack (h : s.Canon) {v : SMap Byte} (hv : mwf (fun _ => 0) v = true) :
    (s.withTack v).Canon := { h with tack := hv }
theorem State.Canon.withTims (h : s.Canon) {v : SMap Tim} (hv : mwf (fun _ => ({} : Tim)) v = true) :
    (s.withTims v).Canon := { h with tims := hv }
theorem State.Canon.withFlts (h : s.Canon) {v : SMap Flt} (hv : mwf (fun _ => ({} : Flt)) v = true) :
    (s.withFlts v).Canon := { h with flts := hv }
theorem State.Canon.withFltBits (h : s.Canon) {v : SMap (List (Nat × Bool))} (hv : mwf (fun _ => []) v = true) :
    (s.withFltBits v).Canon := { h with fltBits := hv }
theorem State.Canon.withOfs (h : s.Canon) (v : Nat) : (s.withOfs v).Canon := { h with }
theorem State.Canon.withRate (h : s.Canon) (v : Int) : (s.withRate v).Canon := { h with }
theorem State.Canon.withRateLo (h : s.Canon) (v : Word) : (s.withRateLo v).Canon := { h with }
theorem State.Canon.withAlarms (h : s.Canon) {v : SMap (Option Alarm)} (hv : mwf (fun _ => none) v = true) :
    (s.withAlarms v).Canon := { h with alarms := hv }
theorem State.Canon.withPtp (h : s.Canon) {v : SMap Ptp} (hv : mwf (fun _ => ({} : Ptp)) v = true) :
    (s.withPtp v).Canon := { h with ptp := hv }
theorem State.Canon.withTmpl (h : s.Canon) {v : SMap (List Byte)} (hv : mwf (fun _ => []) v = true) :
    (s.withTmpl v).Canon := { h with tmpl := hv }
theorem State.Canon.withMods (h : s.Canon) {v : SMap (List Byte)} (hv : mwf (fun _ => []) v = true) :
    (s.withMods v).Canon := { h with mods := hv }
theorem State.Canon.withTrigPend (h : s.Canon) {v : SMap Nat} (hv : mwf (fun _ => 0) v = true) :
    (s.withTrigPend v).Canon := { h with trigPend := hv }
theorem State.Canon.withDue (h : s.Canon) (v : List Nat) : (s.withDue v).Canon := { h with }
theorem State.Canon.withInsts (h : s.Canon) (v : List Inst) : (s.withInsts v).Canon := { h with }
theorem State.Canon.withNextInst (h : s.Canon) (v : BitVec 32) : (s.withNextInst v).Canon := { h with }
theorem State.Canon.withFlows (h : s.Canon) {v : SMap Flow} (hv : mwf (fun _ => ({} : Flow)) v = true) :
    (s.withFlows v).Canon := { h with flows := hv }
theorem State.Canon.withYstate (h : s.Canon) {v : SMap Byte} (hv : mwf (fun _ => (0 : Byte)) v = true) :
    (s.withYstate v).Canon := { h with ystate := hv }
theorem State.Canon.withCores (h : s.Canon) {v : SMap Core} (hv : mwf (fun _ => ({} : Core)) v = true) :
    (s.withCores v).Canon := { h with cores := hv }
theorem State.Canon.withYflags (h : s.Canon) {v : SMap (List (Nat × BitVec 8 × BitVec 8))} (hv : mwf (fun _ => []) v = true) :
    (s.withYflags v).Canon := { h with yflags := hv }
theorem State.Canon.withYended (h : s.Canon) (v : Nat) : (s.withYended v).Canon := { h with }
theorem State.Canon.withCal (h : s.Canon) {v : SMap CalElem} (hv : mwf (fun _ => ({} : CalElem)) v = true) :
    (s.withCal v).Canon := { h with cal := hv }
theorem State.Canon.withCalOp (h : s.Canon) (v : Option Nat) : (s.withCalOp v).Canon := { h with }
theorem State.Canon.withTests (h : s.Canon) {v : SMap (Option TestFinding)} (hv : mwf (fun _ => none) v = true) :
    (s.withTests v).Canon := { h with tests := hv }
theorem State.Canon.withPes (h : s.Canon) {v : SMap Pes} (hv : mwf (fun _ => ({} : Pes)) v = true) :
    (s.withPes v).Canon := { h with pes := hv }
theorem State.Canon.withMgt (h : s.Canon) (v : Mgt) : (s.withMgt v).Canon := { h with }
theorem State.Canon.withTrigIn (h : s.Canon) (v : BitVec 4) : (s.withTrigIn v).Canon := { h with }
theorem State.Canon.withMkr (h : s.Canon) (v : BitVec 8) : (s.withMkr v).Canon := { h with }
theorem State.Canon.withMkrEdges (h : s.Canon) (v : List (Nat × Nat × Bool)) : (s.withMkrEdges v).Canon := { h with }
theorem State.Canon.withMkrLog (h : s.Canon) (v : List (Nat × Nat × Bool)) : (s.withMkrLog v).Canon := { h with }
theorem State.Canon.withTrigOut (h : s.Canon) {v : SMap Pulse} (hv : mwf (fun _ => ({} : Pulse)) v = true) :
    (s.withTrigOut v).Canon := { h with trigOut := hv }
theorem State.Canon.withTout (h : s.Canon) {v : SMap Pulse} (hv : mwf (fun _ => ({} : Pulse)) v = true) :
    (s.withTout v).Canon := { h with tout := hv }
theorem State.Canon.withToutLvl (h : s.Canon) (v : BitVec 4) : (s.withToutLvl v).Canon := { h with }
theorem State.Canon.withSyncOut (h : s.Canon) (v : Pulse) : (s.withSyncOut v).Canon := { h with }
theorem State.Canon.withSyncDue (h : s.Canon) (v : List Nat) : (s.withSyncDue v).Canon := { h with }
theorem State.Canon.withSyncMs (h : s.Canon) (v : List Nat) : (s.withSyncMs v).Canon := { h with }
theorem State.Canon.withSyncFell (h : s.Canon) (v : Option Nat) : (s.withSyncFell v).Canon := { h with }
theorem State.Canon.withSyncFrom (h : s.Canon) (v : Nat) : (s.withSyncFrom v).Canon := { h with }
theorem State.Canon.withSyncLast (h : s.Canon) (v : Option (Nat × Bool)) : (s.withSyncLast v).Canon := { h with }
theorem State.Canon.withTap (h : s.Canon) (v : Tap) : (s.withTap v).Canon := { h with }
theorem State.Canon.withWrstLow (h : s.Canon) (v : Bool) : (s.withWrstLow v).Canon := { h with }
theorem State.Canon.withFwWritten (h : s.Canon) (v : BitVec 2) : (s.withFwWritten v).Canon := { h with }

end Sys2Proof.Machine
end

