-- ==== Sys2Proof/Laws/Upd.lean ====
section
/-! SUPPORT. The state's fields after the update of one field: one lemma per update for the field itself
and for each field that claims speak of. -/

namespace Sys2Proof.Machine

open Sys2Proof

variable (s : State)

/-! ### withPending -/

@[simp] theorem withPending_pending (v : List Instr) : (s.withPending v).pending = v := by rfl
@[simp] theorem withPending_held (v : List Instr) : (s.withPending v).held = s.held := by rfl
@[simp] theorem withPending_resuming (v : List Instr) : (s.withPending v).resuming = s.resuming := by rfl
@[simp] theorem withPending_out (v : List Instr) : (s.withPending v).out = s.out := by rfl
@[simp] theorem withPending_now (v : List Instr) : (s.withPending v).now = s.now := by rfl
@[simp] theorem withPending_cnt (v : List Instr) : (s.withPending v).cnt = s.cnt := by rfl
@[simp] theorem withPending_freeCtr (v : List Instr) : (s.withPending v).freeCtr = s.freeCtr := by rfl
@[simp] theorem withPending_phase (v : List Instr) : (s.withPending v).phase = s.phase := by rfl
@[simp] theorem withPending_resetAt (v : List Instr) : (s.withPending v).resetAt = s.resetAt := by rfl
@[simp] theorem withPending_regs (v : List Instr) : (s.withPending v).regs = s.regs := by rfl
@[simp] theorem withPending_latch (v : List Instr) : (s.withPending v).latch = s.latch := by rfl
@[simp] theorem withPending_sess (v : List Instr) : (s.withPending v).sess = s.sess := by rfl
@[simp] theorem withPending_owner (v : List Instr) : (s.withPending v).owner = s.owner := by rfl
@[simp] theorem withPending_elect (v : List Instr) : (s.withPending v).elect = s.elect := by rfl
@[simp] theorem withPending_ops (v : List Instr) : (s.withPending v).ops = s.ops := by rfl
@[simp] theorem withPending_reports (v : List Instr) : (s.withPending v).reports = s.reports := by rfl
@[simp] theorem withPending_condOn (v : List Instr) : (s.withPending v).condOn = s.condOn := by rfl
@[simp] theorem withPending_shadows (v : List Instr) : (s.withPending v).shadows = s.shadows := by rfl
@[simp] theorem withPending_rst (v : List Instr) : (s.withPending v).rst = s.rst := by rfl
@[simp] theorem withPending_stalls (v : List Instr) : (s.withPending v).stalls = s.stalls := by rfl
@[simp] theorem withPending_chans (v : List Instr) : (s.withPending v).chans = s.chans := by rfl
@[simp] theorem withPending_queues (v : List Instr) : (s.withPending v).queues = s.queues := by rfl
@[simp] theorem withPending_streams (v : List Instr) : (s.withPending v).streams = s.streams := by rfl
@[simp] theorem withPending_mem (v : List Instr) : (s.withPending v).mem = s.mem := by rfl
@[simp] theorem withPending_psn (v : List Instr) : (s.withPending v).psn = s.psn := by rfl
@[simp] theorem withPending_err (v : List Instr) : (s.withPending v).err = s.err := by rfl
@[simp] theorem withPending_inited (v : List Instr) : (s.withPending v).inited = s.inited := by rfl
@[simp] theorem withPending_dram (v : List Instr) : (s.withPending v).dram = s.dram := by rfl
@[simp] theorem withPending_mig (v : List Instr) : (s.withPending v).mig = s.mig := by rfl
@[simp] theorem withPending_tack (v : List Instr) : (s.withPending v).tack = s.tack := by rfl
@[simp] theorem withPending_tims (v : List Instr) : (s.withPending v).tims = s.tims := by rfl
@[simp] theorem withPending_flts (v : List Instr) : (s.withPending v).flts = s.flts := by rfl
@[simp] theorem withPending_alarms (v : List Instr) : (s.withPending v).alarms = s.alarms := by rfl
@[simp] theorem withPending_mgt (v : List Instr) : (s.withPending v).mgt = s.mgt := by rfl

/-! ### withHeld -/

@[simp] theorem withHeld_pending (v : List Instr) : (s.withHeld v).pending = s.pending := by rfl
@[simp] theorem withHeld_held (v : List Instr) : (s.withHeld v).held = v := by rfl
@[simp] theorem withHeld_resuming (v : List Instr) : (s.withHeld v).resuming = s.resuming := by rfl
@[simp] theorem withHeld_out (v : List Instr) : (s.withHeld v).out = s.out := by rfl
@[simp] theorem withHeld_now (v : List Instr) : (s.withHeld v).now = s.now := by rfl
@[simp] theorem withHeld_cnt (v : List Instr) : (s.withHeld v).cnt = s.cnt := by rfl
@[simp] theorem withHeld_freeCtr (v : List Instr) : (s.withHeld v).freeCtr = s.freeCtr := by rfl
@[simp] theorem withHeld_phase (v : List Instr) : (s.withHeld v).phase = s.phase := by rfl
@[simp] theorem withHeld_resetAt (v : List Instr) : (s.withHeld v).resetAt = s.resetAt := by rfl
@[simp] theorem withHeld_regs (v : List Instr) : (s.withHeld v).regs = s.regs := by rfl
@[simp] theorem withHeld_latch (v : List Instr) : (s.withHeld v).latch = s.latch := by rfl
@[simp] theorem withHeld_sess (v : List Instr) : (s.withHeld v).sess = s.sess := by rfl
@[simp] theorem withHeld_owner (v : List Instr) : (s.withHeld v).owner = s.owner := by rfl
@[simp] theorem withHeld_elect (v : List Instr) : (s.withHeld v).elect = s.elect := by rfl
@[simp] theorem withHeld_ops (v : List Instr) : (s.withHeld v).ops = s.ops := by rfl
@[simp] theorem withHeld_reports (v : List Instr) : (s.withHeld v).reports = s.reports := by rfl
@[simp] theorem withHeld_condOn (v : List Instr) : (s.withHeld v).condOn = s.condOn := by rfl
@[simp] theorem withHeld_shadows (v : List Instr) : (s.withHeld v).shadows = s.shadows := by rfl
@[simp] theorem withHeld_rst (v : List Instr) : (s.withHeld v).rst = s.rst := by rfl
@[simp] theorem withHeld_stalls (v : List Instr) : (s.withHeld v).stalls = s.stalls := by rfl
@[simp] theorem withHeld_chans (v : List Instr) : (s.withHeld v).chans = s.chans := by rfl
@[simp] theorem withHeld_queues (v : List Instr) : (s.withHeld v).queues = s.queues := by rfl
@[simp] theorem withHeld_streams (v : List Instr) : (s.withHeld v).streams = s.streams := by rfl
@[simp] theorem withHeld_mem (v : List Instr) : (s.withHeld v).mem = s.mem := by rfl
@[simp] theorem withHeld_psn (v : List Instr) : (s.withHeld v).psn = s.psn := by rfl
@[simp] theorem withHeld_err (v : List Instr) : (s.withHeld v).err = s.err := by rfl
@[simp] theorem withHeld_inited (v : List Instr) : (s.withHeld v).inited = s.inited := by rfl
@[simp] theorem withHeld_dram (v : List Instr) : (s.withHeld v).dram = s.dram := by rfl
@[simp] theorem withHeld_mig (v : List Instr) : (s.withHeld v).mig = s.mig := by rfl
@[simp] theorem withHeld_tack (v : List Instr) : (s.withHeld v).tack = s.tack := by rfl
@[simp] theorem withHeld_tims (v : List Instr) : (s.withHeld v).tims = s.tims := by rfl
@[simp] theorem withHeld_flts (v : List Instr) : (s.withHeld v).flts = s.flts := by rfl
@[simp] theorem withHeld_alarms (v : List Instr) : (s.withHeld v).alarms = s.alarms := by rfl
@[simp] theorem withHeld_mgt (v : List Instr) : (s.withHeld v).mgt = s.mgt := by rfl

/-! ### withResuming -/

@[simp] theorem withResuming_pending (v : Bool) : (s.withResuming v).pending = s.pending := by rfl
@[simp] theorem withResuming_held (v : Bool) : (s.withResuming v).held = s.held := by rfl
@[simp] theorem withResuming_resuming (v : Bool) : (s.withResuming v).resuming = v := by rfl
@[simp] theorem withResuming_out (v : Bool) : (s.withResuming v).out = s.out := by rfl
@[simp] theorem withResuming_now (v : Bool) : (s.withResuming v).now = s.now := by rfl
@[simp] theorem withResuming_cnt (v : Bool) : (s.withResuming v).cnt = s.cnt := by rfl
@[simp] theorem withResuming_freeCtr (v : Bool) : (s.withResuming v).freeCtr = s.freeCtr := by rfl
@[simp] theorem withResuming_phase (v : Bool) : (s.withResuming v).phase = s.phase := by rfl
@[simp] theorem withResuming_resetAt (v : Bool) : (s.withResuming v).resetAt = s.resetAt := by rfl
@[simp] theorem withResuming_regs (v : Bool) : (s.withResuming v).regs = s.regs := by rfl
@[simp] theorem withResuming_latch (v : Bool) : (s.withResuming v).latch = s.latch := by rfl
@[simp] theorem withResuming_sess (v : Bool) : (s.withResuming v).sess = s.sess := by rfl
@[simp] theorem withResuming_owner (v : Bool) : (s.withResuming v).owner = s.owner := by rfl
@[simp] theorem withResuming_elect (v : Bool) : (s.withResuming v).elect = s.elect := by rfl
@[simp] theorem withResuming_ops (v : Bool) : (s.withResuming v).ops = s.ops := by rfl
@[simp] theorem withResuming_reports (v : Bool) : (s.withResuming v).reports = s.reports := by rfl
@[simp] theorem withResuming_condOn (v : Bool) : (s.withResuming v).condOn = s.condOn := by rfl
@[simp] theorem withResuming_shadows (v : Bool) : (s.withResuming v).shadows = s.shadows := by rfl
@[simp] theorem withResuming_rst (v : Bool) : (s.withResuming v).rst = s.rst := by rfl
@[simp] theorem withResuming_stalls (v : Bool) : (s.withResuming v).stalls = s.stalls := by rfl
@[simp] theorem withResuming_chans (v : Bool) : (s.withResuming v).chans = s.chans := by rfl
@[simp] theorem withResuming_queues (v : Bool) : (s.withResuming v).queues = s.queues := by rfl
@[simp] theorem withResuming_streams (v : Bool) : (s.withResuming v).streams = s.streams := by rfl
@[simp] theorem withResuming_mem (v : Bool) : (s.withResuming v).mem = s.mem := by rfl
@[simp] theorem withResuming_psn (v : Bool) : (s.withResuming v).psn = s.psn := by rfl
@[simp] theorem withResuming_err (v : Bool) : (s.withResuming v).err = s.err := by rfl
@[simp] theorem withResuming_inited (v : Bool) : (s.withResuming v).inited = s.inited := by rfl
@[simp] theorem withResuming_dram (v : Bool) : (s.withResuming v).dram = s.dram := by rfl
@[simp] theorem withResuming_mig (v : Bool) : (s.withResuming v).mig = s.mig := by rfl
@[simp] theorem withResuming_tack (v : Bool) : (s.withResuming v).tack = s.tack := by rfl
@[simp] theorem withResuming_tims (v : Bool) : (s.withResuming v).tims = s.tims := by rfl
@[simp] theorem withResuming_flts (v : Bool) : (s.withResuming v).flts = s.flts := by rfl
@[simp] theorem withResuming_alarms (v : Bool) : (s.withResuming v).alarms = s.alarms := by rfl
@[simp] theorem withResuming_mgt (v : Bool) : (s.withResuming v).mgt = s.mgt := by rfl

/-! ### withOut -/

@[simp] theorem withOut_pending (v : List Sent) : (s.withOut v).pending = s.pending := by rfl
@[simp] theorem withOut_held (v : List Sent) : (s.withOut v).held = s.held := by rfl
@[simp] theorem withOut_resuming (v : List Sent) : (s.withOut v).resuming = s.resuming := by rfl
@[simp] theorem withOut_out (v : List Sent) : (s.withOut v).out = v := by rfl
@[simp] theorem withOut_now (v : List Sent) : (s.withOut v).now = s.now := by rfl
@[simp] theorem withOut_cnt (v : List Sent) : (s.withOut v).cnt = s.cnt := by rfl
@[simp] theorem withOut_freeCtr (v : List Sent) : (s.withOut v).freeCtr = s.freeCtr := by rfl
@[simp] theorem withOut_phase (v : List Sent) : (s.withOut v).phase = s.phase := by rfl
@[simp] theorem withOut_resetAt (v : List Sent) : (s.withOut v).resetAt = s.resetAt := by rfl
@[simp] theorem withOut_regs (v : List Sent) : (s.withOut v).regs = s.regs := by rfl
@[simp] theorem withOut_latch (v : List Sent) : (s.withOut v).latch = s.latch := by rfl
@[simp] theorem withOut_sess (v : List Sent) : (s.withOut v).sess = s.sess := by rfl
@[simp] theorem withOut_owner (v : List Sent) : (s.withOut v).owner = s.owner := by rfl
@[simp] theorem withOut_elect (v : List Sent) : (s.withOut v).elect = s.elect := by rfl
@[simp] theorem withOut_ops (v : List Sent) : (s.withOut v).ops = s.ops := by rfl
@[simp] theorem withOut_reports (v : List Sent) : (s.withOut v).reports = s.reports := by rfl
@[simp] theorem withOut_condOn (v : List Sent) : (s.withOut v).condOn = s.condOn := by rfl
@[simp] theorem withOut_shadows (v : List Sent) : (s.withOut v).shadows = s.shadows := by rfl
@[simp] theorem withOut_rst (v : List Sent) : (s.withOut v).rst = s.rst := by rfl
@[simp] theorem withOut_stalls (v : List Sent) : (s.withOut v).stalls = s.stalls := by rfl
@[simp] theorem withOut_chans (v : List Sent) : (s.withOut v).chans = s.chans := by rfl
@[simp] theorem withOut_queues (v : List Sent) : (s.withOut v).queues = s.queues := by rfl
@[simp] theorem withOut_streams (v : List Sent) : (s.withOut v).streams = s.streams := by rfl
@[simp] theorem withOut_mem (v : List Sent) : (s.withOut v).mem = s.mem := by rfl
@[simp] theorem withOut_psn (v : List Sent) : (s.withOut v).psn = s.psn := by rfl
@[simp] theorem withOut_err (v : List Sent) : (s.withOut v).err = s.err := by rfl
@[simp] theorem withOut_inited (v : List Sent) : (s.withOut v).inited = s.inited := by rfl
@[simp] theorem withOut_dram (v : List Sent) : (s.withOut v).dram = s.dram := by rfl
@[simp] theorem withOut_mig (v : List Sent) : (s.withOut v).mig = s.mig := by rfl
@[simp] theorem withOut_tack (v : List Sent) : (s.withOut v).tack = s.tack := by rfl
@[simp] theorem withOut_tims (v : List Sent) : (s.withOut v).tims = s.tims := by rfl
@[simp] theorem withOut_flts (v : List Sent) : (s.withOut v).flts = s.flts := by rfl
@[simp] theorem withOut_alarms (v : List Sent) : (s.withOut v).alarms = s.alarms := by rfl
@[simp] theorem withOut_mgt (v : List Sent) : (s.withOut v).mgt = s.mgt := by rfl

/-! ### withNow -/

@[simp] theorem withNow_pending (v : Nat) : (s.withNow v).pending = s.pending := by rfl
@[simp] theorem withNow_held (v : Nat) : (s.withNow v).held = s.held := by rfl
@[simp] theorem withNow_resuming (v : Nat) : (s.withNow v).resuming = s.resuming := by rfl
@[simp] theorem withNow_out (v : Nat) : (s.withNow v).out = s.out := by rfl
@[simp] theorem withNow_now (v : Nat) : (s.withNow v).now = v := by rfl
@[simp] theorem withNow_cnt (v : Nat) : (s.withNow v).cnt = s.cnt := by rfl
@[simp] theorem withNow_freeCtr (v : Nat) : (s.withNow v).freeCtr = s.freeCtr := by rfl
@[simp] theorem withNow_phase (v : Nat) : (s.withNow v).phase = s.phase := by rfl
@[simp] theorem withNow_resetAt (v : Nat) : (s.withNow v).resetAt = s.resetAt := by rfl
@[simp] theorem withNow_regs (v : Nat) : (s.withNow v).regs = s.regs := by rfl
@[simp] theorem withNow_latch (v : Nat) : (s.withNow v).latch = s.latch := by rfl
@[simp] theorem withNow_sess (v : Nat) : (s.withNow v).sess = s.sess := by rfl
@[simp] theorem withNow_owner (v : Nat) : (s.withNow v).owner = s.owner := by rfl
@[simp] theorem withNow_elect (v : Nat) : (s.withNow v).elect = s.elect := by rfl
@[simp] theorem withNow_ops (v : Nat) : (s.withNow v).ops = s.ops := by rfl
@[simp] theorem withNow_reports (v : Nat) : (s.withNow v).reports = s.reports := by rfl
@[simp] theorem withNow_condOn (v : Nat) : (s.withNow v).condOn = s.condOn := by rfl
@[simp] theorem withNow_shadows (v : Nat) : (s.withNow v).shadows = s.shadows := by rfl
@[simp] theorem withNow_rst (v : Nat) : (s.withNow v).rst = s.rst := by rfl
@[simp] theorem withNow_stalls (v : Nat) : (s.withNow v).stalls = s.stalls := by rfl
@[simp] theorem withNow_chans (v : Nat) : (s.withNow v).chans = s.chans := by rfl
@[simp] theorem withNow_queues (v : Nat) : (s.withNow v).queues = s.queues := by rfl
@[simp] theorem withNow_streams (v : Nat) : (s.withNow v).streams = s.streams := by rfl
@[simp] theorem withNow_mem (v : Nat) : (s.withNow v).mem = s.mem := by rfl
@[simp] theorem withNow_psn (v : Nat) : (s.withNow v).psn = s.psn := by rfl
@[simp] theorem withNow_err (v : Nat) : (s.withNow v).err = s.err := by rfl
@[simp] theorem withNow_inited (v : Nat) : (s.withNow v).inited = s.inited := by rfl
@[simp] theorem withNow_dram (v : Nat) : (s.withNow v).dram = s.dram := by rfl
@[simp] theorem withNow_mig (v : Nat) : (s.withNow v).mig = s.mig := by rfl
@[simp] theorem withNow_tack (v : Nat) : (s.withNow v).tack = s.tack := by rfl
@[simp] theorem withNow_tims (v : Nat) : (s.withNow v).tims = s.tims := by rfl
@[simp] theorem withNow_flts (v : Nat) : (s.withNow v).flts = s.flts := by rfl
@[simp] theorem withNow_alarms (v : Nat) : (s.withNow v).alarms = s.alarms := by rfl
@[simp] theorem withNow_mgt (v : Nat) : (s.withNow v).mgt = s.mgt := by rfl

/-! ### withCnt -/

@[simp] theorem withCnt_pending (v : BitVec 64) : (s.withCnt v).pending = s.pending := by rfl
@[simp] theorem withCnt_held (v : BitVec 64) : (s.withCnt v).held = s.held := by rfl
@[simp] theorem withCnt_resuming (v : BitVec 64) : (s.withCnt v).resuming = s.resuming := by rfl
@[simp] theorem withCnt_out (v : BitVec 64) : (s.withCnt v).out = s.out := by rfl
@[simp] theorem withCnt_now (v : BitVec 64) : (s.withCnt v).now = s.now := by rfl
@[simp] theorem withCnt_cnt (v : BitVec 64) : (s.withCnt v).cnt = v := by rfl
@[simp] theorem withCnt_freeCtr (v : BitVec 64) : (s.withCnt v).freeCtr = s.freeCtr := by rfl
@[simp] theorem withCnt_phase (v : BitVec 64) : (s.withCnt v).phase = s.phase := by rfl
@[simp] theorem withCnt_resetAt (v : BitVec 64) : (s.withCnt v).resetAt = s.resetAt := by rfl
@[simp] theorem withCnt_regs (v : BitVec 64) : (s.withCnt v).regs = s.regs := by rfl
@[simp] theorem withCnt_latch (v : BitVec 64) : (s.withCnt v).latch = s.latch := by rfl
@[simp] theorem withCnt_sess (v : BitVec 64) : (s.withCnt v).sess = s.sess := by rfl
@[simp] theorem withCnt_owner (v : BitVec 64) : (s.withCnt v).owner = s.owner := by rfl
@[simp] theorem withCnt_elect (v : BitVec 64) : (s.withCnt v).elect = s.elect := by rfl
@[simp] theorem withCnt_ops (v : BitVec 64) : (s.withCnt v).ops = s.ops := by rfl
@[simp] theorem withCnt_reports (v : BitVec 64) : (s.withCnt v).reports = s.reports := by rfl
@[simp] theorem withCnt_condOn (v : BitVec 64) : (s.withCnt v).condOn = s.condOn := by rfl
@[simp] theorem withCnt_shadows (v : BitVec 64) : (s.withCnt v).shadows = s.shadows := by rfl
@[simp] theorem withCnt_rst (v : BitVec 64) : (s.withCnt v).rst = s.rst := by rfl
@[simp] theorem withCnt_stalls (v : BitVec 64) : (s.withCnt v).stalls = s.stalls := by rfl
@[simp] theorem withCnt_chans (v : BitVec 64) : (s.withCnt v).chans = s.chans := by rfl
@[simp] theorem withCnt_queues (v : BitVec 64) : (s.withCnt v).queues = s.queues := by rfl
@[simp] theorem withCnt_streams (v : BitVec 64) : (s.withCnt v).streams = s.streams := by rfl
@[simp] theorem withCnt_mem (v : BitVec 64) : (s.withCnt v).mem = s.mem := by rfl
@[simp] theorem withCnt_psn (v : BitVec 64) : (s.withCnt v).psn = s.psn := by rfl
@[simp] theorem withCnt_err (v : BitVec 64) : (s.withCnt v).err = s.err := by rfl
@[simp] theorem withCnt_inited (v : BitVec 64) : (s.withCnt v).inited = s.inited := by rfl
@[simp] theorem withCnt_dram (v : BitVec 64) : (s.withCnt v).dram = s.dram := by rfl
@[simp] theorem withCnt_mig (v : BitVec 64) : (s.withCnt v).mig = s.mig := by rfl
@[simp] theorem withCnt_tack (v : BitVec 64) : (s.withCnt v).tack = s.tack := by rfl
@[simp] theorem withCnt_tims (v : BitVec 64) : (s.withCnt v).tims = s.tims := by rfl
@[simp] theorem withCnt_flts (v : BitVec 64) : (s.withCnt v).flts = s.flts := by rfl
@[simp] theorem withCnt_alarms (v : BitVec 64) : (s.withCnt v).alarms = s.alarms := by rfl
@[simp] theorem withCnt_mgt (v : BitVec 64) : (s.withCnt v).mgt = s.mgt := by rfl

/-! ### withFreeCtr -/

@[simp] theorem withFreeCtr_pending (v : Nat) : (s.withFreeCtr v).pending = s.pending := by rfl
@[simp] theorem withFreeCtr_held (v : Nat) : (s.withFreeCtr v).held = s.held := by rfl
@[simp] theorem withFreeCtr_resuming (v : Nat) : (s.withFreeCtr v).resuming = s.resuming := by rfl
@[simp] theorem withFreeCtr_out (v : Nat) : (s.withFreeCtr v).out = s.out := by rfl
@[simp] theorem withFreeCtr_now (v : Nat) : (s.withFreeCtr v).now = s.now := by rfl
@[simp] theorem withFreeCtr_cnt (v : Nat) : (s.withFreeCtr v).cnt = s.cnt := by rfl
@[simp] theorem withFreeCtr_freeCtr (v : Nat) : (s.withFreeCtr v).freeCtr = v := by rfl
@[simp] theorem withFreeCtr_phase (v : Nat) : (s.withFreeCtr v).phase = s.phase := by rfl
@[simp] theorem withFreeCtr_resetAt (v : Nat) : (s.withFreeCtr v).resetAt = s.resetAt := by rfl
@[simp] theorem withFreeCtr_regs (v : Nat) : (s.withFreeCtr v).regs = s.regs := by rfl
@[simp] theorem withFreeCtr_latch (v : Nat) : (s.withFreeCtr v).latch = s.latch := by rfl
@[simp] theorem withFreeCtr_sess (v : Nat) : (s.withFreeCtr v).sess = s.sess := by rfl
@[simp] theorem withFreeCtr_owner (v : Nat) : (s.withFreeCtr v).owner = s.owner := by rfl
@[simp] theorem withFreeCtr_elect (v : Nat) : (s.withFreeCtr v).elect = s.elect := by rfl
@[simp] theorem withFreeCtr_ops (v : Nat) : (s.withFreeCtr v).ops = s.ops := by rfl
@[simp] theorem withFreeCtr_reports (v : Nat) : (s.withFreeCtr v).reports = s.reports := by rfl
@[simp] theorem withFreeCtr_condOn (v : Nat) : (s.withFreeCtr v).condOn = s.condOn := by rfl
@[simp] theorem withFreeCtr_shadows (v : Nat) : (s.withFreeCtr v).shadows = s.shadows := by rfl
@[simp] theorem withFreeCtr_rst (v : Nat) : (s.withFreeCtr v).rst = s.rst := by rfl
@[simp] theorem withFreeCtr_stalls (v : Nat) : (s.withFreeCtr v).stalls = s.stalls := by rfl
@[simp] theorem withFreeCtr_chans (v : Nat) : (s.withFreeCtr v).chans = s.chans := by rfl
@[simp] theorem withFreeCtr_queues (v : Nat) : (s.withFreeCtr v).queues = s.queues := by rfl
@[simp] theorem withFreeCtr_streams (v : Nat) : (s.withFreeCtr v).streams = s.streams := by rfl
@[simp] theorem withFreeCtr_mem (v : Nat) : (s.withFreeCtr v).mem = s.mem := by rfl
@[simp] theorem withFreeCtr_psn (v : Nat) : (s.withFreeCtr v).psn = s.psn := by rfl
@[simp] theorem withFreeCtr_err (v : Nat) : (s.withFreeCtr v).err = s.err := by rfl
@[simp] theorem withFreeCtr_inited (v : Nat) : (s.withFreeCtr v).inited = s.inited := by rfl
@[simp] theorem withFreeCtr_dram (v : Nat) : (s.withFreeCtr v).dram = s.dram := by rfl
@[simp] theorem withFreeCtr_mig (v : Nat) : (s.withFreeCtr v).mig = s.mig := by rfl
@[simp] theorem withFreeCtr_tack (v : Nat) : (s.withFreeCtr v).tack = s.tack := by rfl
@[simp] theorem withFreeCtr_tims (v : Nat) : (s.withFreeCtr v).tims = s.tims := by rfl
@[simp] theorem withFreeCtr_flts (v : Nat) : (s.withFreeCtr v).flts = s.flts := by rfl
@[simp] theorem withFreeCtr_alarms (v : Nat) : (s.withFreeCtr v).alarms = s.alarms := by rfl
@[simp] theorem withFreeCtr_mgt (v : Nat) : (s.withFreeCtr v).mgt = s.mgt := by rfl

/-! ### withPhase -/

@[simp] theorem withPhase_pending (v : Phase) : (s.withPhase v).pending = s.pending := by rfl
@[simp] theorem withPhase_held (v : Phase) : (s.withPhase v).held = s.held := by rfl
@[simp] theorem withPhase_resuming (v : Phase) : (s.withPhase v).resuming = s.resuming := by rfl
@[simp] theorem withPhase_out (v : Phase) : (s.withPhase v).out = s.out := by rfl
@[simp] theorem withPhase_now (v : Phase) : (s.withPhase v).now = s.now := by rfl
@[simp] theorem withPhase_cnt (v : Phase) : (s.withPhase v).cnt = s.cnt := by rfl
@[simp] theorem withPhase_freeCtr (v : Phase) : (s.withPhase v).freeCtr = s.freeCtr := by rfl
@[simp] theorem withPhase_phase (v : Phase) : (s.withPhase v).phase = v := by rfl
@[simp] theorem withPhase_resetAt (v : Phase) : (s.withPhase v).resetAt = s.resetAt := by rfl
@[simp] theorem withPhase_regs (v : Phase) : (s.withPhase v).regs = s.regs := by rfl
@[simp] theorem withPhase_latch (v : Phase) : (s.withPhase v).latch = s.latch := by rfl
@[simp] theorem withPhase_sess (v : Phase) : (s.withPhase v).sess = s.sess := by rfl
@[simp] theorem withPhase_owner (v : Phase) : (s.withPhase v).owner = s.owner := by rfl
@[simp] theorem withPhase_elect (v : Phase) : (s.withPhase v).elect = s.elect := by rfl
@[simp] theorem withPhase_ops (v : Phase) : (s.withPhase v).ops = s.ops := by rfl
@[simp] theorem withPhase_reports (v : Phase) : (s.withPhase v).reports = s.reports := by rfl
@[simp] theorem withPhase_condOn (v : Phase) : (s.withPhase v).condOn = s.condOn := by rfl
@[simp] theorem withPhase_shadows (v : Phase) : (s.withPhase v).shadows = s.shadows := by rfl
@[simp] theorem withPhase_rst (v : Phase) : (s.withPhase v).rst = s.rst := by rfl
@[simp] theorem withPhase_stalls (v : Phase) : (s.withPhase v).stalls = s.stalls := by rfl
@[simp] theorem withPhase_chans (v : Phase) : (s.withPhase v).chans = s.chans := by rfl
@[simp] theorem withPhase_queues (v : Phase) : (s.withPhase v).queues = s.queues := by rfl
@[simp] theorem withPhase_streams (v : Phase) : (s.withPhase v).streams = s.streams := by rfl
@[simp] theorem withPhase_mem (v : Phase) : (s.withPhase v).mem = s.mem := by rfl
@[simp] theorem withPhase_psn (v : Phase) : (s.withPhase v).psn = s.psn := by rfl
@[simp] theorem withPhase_err (v : Phase) : (s.withPhase v).err = s.err := by rfl
@[simp] theorem withPhase_inited (v : Phase) : (s.withPhase v).inited = s.inited := by rfl
@[simp] theorem withPhase_dram (v : Phase) : (s.withPhase v).dram = s.dram := by rfl
@[simp] theorem withPhase_mig (v : Phase) : (s.withPhase v).mig = s.mig := by rfl
@[simp] theorem withPhase_tack (v : Phase) : (s.withPhase v).tack = s.tack := by rfl
@[simp] theorem withPhase_tims (v : Phase) : (s.withPhase v).tims = s.tims := by rfl
@[simp] theorem withPhase_flts (v : Phase) : (s.withPhase v).flts = s.flts := by rfl
@[simp] theorem withPhase_alarms (v : Phase) : (s.withPhase v).alarms = s.alarms := by rfl
@[simp] theorem withPhase_mgt (v : Phase) : (s.withPhase v).mgt = s.mgt := by rfl

/-! ### withStartIn -/

@[simp] theorem withStartIn_pending (v : Option StartIn) : (s.withStartIn v).pending = s.pending := by rfl
@[simp] theorem withStartIn_held (v : Option StartIn) : (s.withStartIn v).held = s.held := by rfl
@[simp] theorem withStartIn_resuming (v : Option StartIn) : (s.withStartIn v).resuming = s.resuming := by rfl
@[simp] theorem withStartIn_out (v : Option StartIn) : (s.withStartIn v).out = s.out := by rfl
@[simp] theorem withStartIn_now (v : Option StartIn) : (s.withStartIn v).now = s.now := by rfl
@[simp] theorem withStartIn_cnt (v : Option StartIn) : (s.withStartIn v).cnt = s.cnt := by rfl
@[simp] theorem withStartIn_freeCtr (v : Option StartIn) : (s.withStartIn v).freeCtr = s.freeCtr := by rfl
@[simp] theorem withStartIn_phase (v : Option StartIn) : (s.withStartIn v).phase = s.phase := by rfl
@[simp] theorem withStartIn_startIn (v : Option StartIn) : (s.withStartIn v).startIn = v := by rfl
@[simp] theorem withStartIn_resetAt (v : Option StartIn) : (s.withStartIn v).resetAt = s.resetAt := by rfl
@[simp] theorem withStartIn_regs (v : Option StartIn) : (s.withStartIn v).regs = s.regs := by rfl
@[simp] theorem withStartIn_latch (v : Option StartIn) : (s.withStartIn v).latch = s.latch := by rfl
@[simp] theorem withStartIn_sess (v : Option StartIn) : (s.withStartIn v).sess = s.sess := by rfl
@[simp] theorem withStartIn_owner (v : Option StartIn) : (s.withStartIn v).owner = s.owner := by rfl
@[simp] theorem withStartIn_elect (v : Option StartIn) : (s.withStartIn v).elect = s.elect := by rfl
@[simp] theorem withStartIn_ops (v : Option StartIn) : (s.withStartIn v).ops = s.ops := by rfl
@[simp] theorem withStartIn_reports (v : Option StartIn) : (s.withStartIn v).reports = s.reports := by rfl
@[simp] theorem withStartIn_condOn (v : Option StartIn) : (s.withStartIn v).condOn = s.condOn := by rfl
@[simp] theorem withStartIn_shadows (v : Option StartIn) : (s.withStartIn v).shadows = s.shadows := by rfl
@[simp] theorem withStartIn_rst (v : Option StartIn) : (s.withStartIn v).rst = s.rst := by rfl
@[simp] theorem withStartIn_stalls (v : Option StartIn) : (s.withStartIn v).stalls = s.stalls := by rfl
@[simp] theorem withStartIn_chans (v : Option StartIn) : (s.withStartIn v).chans = s.chans := by rfl
@[simp] theorem withStartIn_queues (v : Option StartIn) : (s.withStartIn v).queues = s.queues := by rfl
@[simp] theorem withStartIn_streams (v : Option StartIn) : (s.withStartIn v).streams = s.streams := by rfl
@[simp] theorem withStartIn_mem (v : Option StartIn) : (s.withStartIn v).mem = s.mem := by rfl
@[simp] theorem withStartIn_psn (v : Option StartIn) : (s.withStartIn v).psn = s.psn := by rfl
@[simp] theorem withStartIn_err (v : Option StartIn) : (s.withStartIn v).err = s.err := by rfl
@[simp] theorem withStartIn_inited (v : Option StartIn) : (s.withStartIn v).inited = s.inited := by rfl
@[simp] theorem withStartIn_dram (v : Option StartIn) : (s.withStartIn v).dram = s.dram := by rfl
@[simp] theorem withStartIn_mig (v : Option StartIn) : (s.withStartIn v).mig = s.mig := by rfl
@[simp] theorem withStartIn_tack (v : Option StartIn) : (s.withStartIn v).tack = s.tack := by rfl
@[simp] theorem withStartIn_tims (v : Option StartIn) : (s.withStartIn v).tims = s.tims := by rfl
@[simp] theorem withStartIn_flts (v : Option StartIn) : (s.withStartIn v).flts = s.flts := by rfl
@[simp] theorem withStartIn_alarms (v : Option StartIn) : (s.withStartIn v).alarms = s.alarms := by rfl
@[simp] theorem withStartIn_mgt (v : Option StartIn) : (s.withStartIn v).mgt = s.mgt := by rfl

/-! ### withDrive -/

@[simp] theorem withDrive_pending (v : Drive) : (s.withDrive v).pending = s.pending := by rfl
@[simp] theorem withDrive_held (v : Drive) : (s.withDrive v).held = s.held := by rfl
@[simp] theorem withDrive_resuming (v : Drive) : (s.withDrive v).resuming = s.resuming := by rfl
@[simp] theorem withDrive_out (v : Drive) : (s.withDrive v).out = s.out := by rfl
@[simp] theorem withDrive_now (v : Drive) : (s.withDrive v).now = s.now := by rfl
@[simp] theorem withDrive_cnt (v : Drive) : (s.withDrive v).cnt = s.cnt := by rfl
@[simp] theorem withDrive_freeCtr (v : Drive) : (s.withDrive v).freeCtr = s.freeCtr := by rfl
@[simp] theorem withDrive_phase (v : Drive) : (s.withDrive v).phase = s.phase := by rfl
@[simp] theorem withDrive_drive (v : Drive) : (s.withDrive v).drive = v := by rfl
@[simp] theorem withDrive_resetAt (v : Drive) : (s.withDrive v).resetAt = s.resetAt := by rfl
@[simp] theorem withDrive_regs (v : Drive) : (s.withDrive v).regs = s.regs := by rfl
@[simp] theorem withDrive_latch (v : Drive) : (s.withDrive v).latch = s.latch := by rfl
@[simp] theorem withDrive_sess (v : Drive) : (s.withDrive v).sess = s.sess := by rfl
@[simp] theorem withDrive_owner (v : Drive) : (s.withDrive v).owner = s.owner := by rfl
@[simp] theorem withDrive_elect (v : Drive) : (s.withDrive v).elect = s.elect := by rfl
@[simp] theorem withDrive_ops (v : Drive) : (s.withDrive v).ops = s.ops := by rfl
@[simp] theorem withDrive_reports (v : Drive) : (s.withDrive v).reports = s.reports := by rfl
@[simp] theorem withDrive_condOn (v : Drive) : (s.withDrive v).condOn = s.condOn := by rfl
@[simp] theorem withDrive_shadows (v : Drive) : (s.withDrive v).shadows = s.shadows := by rfl
@[simp] theorem withDrive_rst (v : Drive) : (s.withDrive v).rst = s.rst := by rfl
@[simp] theorem withDrive_stalls (v : Drive) : (s.withDrive v).stalls = s.stalls := by rfl
@[simp] theorem withDrive_chans (v : Drive) : (s.withDrive v).chans = s.chans := by rfl
@[simp] theorem withDrive_queues (v : Drive) : (s.withDrive v).queues = s.queues := by rfl
@[simp] theorem withDrive_streams (v : Drive) : (s.withDrive v).streams = s.streams := by rfl
@[simp] theorem withDrive_mem (v : Drive) : (s.withDrive v).mem = s.mem := by rfl
@[simp] theorem withDrive_psn (v : Drive) : (s.withDrive v).psn = s.psn := by rfl
@[simp] theorem withDrive_err (v : Drive) : (s.withDrive v).err = s.err := by rfl
@[simp] theorem withDrive_inited (v : Drive) : (s.withDrive v).inited = s.inited := by rfl
@[simp] theorem withDrive_dram (v : Drive) : (s.withDrive v).dram = s.dram := by rfl
@[simp] theorem withDrive_mig (v : Drive) : (s.withDrive v).mig = s.mig := by rfl
@[simp] theorem withDrive_tack (v : Drive) : (s.withDrive v).tack = s.tack := by rfl
@[simp] theorem withDrive_tims (v : Drive) : (s.withDrive v).tims = s.tims := by rfl
@[simp] theorem withDrive_flts (v : Drive) : (s.withDrive v).flts = s.flts := by rfl
@[simp] theorem withDrive_alarms (v : Drive) : (s.withDrive v).alarms = s.alarms := by rfl
@[simp] theorem withDrive_mgt (v : Drive) : (s.withDrive v).mgt = s.mgt := by rfl

/-! ### withResetAt -/

@[simp] theorem withResetAt_pending (v : Option (Nat × ResetKind)) : (s.withResetAt v).pending = s.pending := by rfl
@[simp] theorem withResetAt_held (v : Option (Nat × ResetKind)) : (s.withResetAt v).held = s.held := by rfl
@[simp] theorem withResetAt_resuming (v : Option (Nat × ResetKind)) : (s.withResetAt v).resuming = s.resuming := by rfl
@[simp] theorem withResetAt_out (v : Option (Nat × ResetKind)) : (s.withResetAt v).out = s.out := by rfl
@[simp] theorem withResetAt_now (v : Option (Nat × ResetKind)) : (s.withResetAt v).now = s.now := by rfl
@[simp] theorem withResetAt_cnt (v : Option (Nat × ResetKind)) : (s.withResetAt v).cnt = s.cnt := by rfl
@[simp] theorem withResetAt_freeCtr (v : Option (Nat × ResetKind)) : (s.withResetAt v).freeCtr = s.freeCtr := by rfl
@[simp] theorem withResetAt_phase (v : Option (Nat × ResetKind)) : (s.withResetAt v).phase = s.phase := by rfl
@[simp] theorem withResetAt_resetAt (v : Option (Nat × ResetKind)) : (s.withResetAt v).resetAt = v := by rfl
@[simp] theorem withResetAt_regs (v : Option (Nat × ResetKind)) : (s.withResetAt v).regs = s.regs := by rfl
@[simp] theorem withResetAt_latch (v : Option (Nat × ResetKind)) : (s.withResetAt v).latch = s.latch := by rfl
@[simp] theorem withResetAt_sess (v : Option (Nat × ResetKind)) : (s.withResetAt v).sess = s.sess := by rfl
@[simp] theorem withResetAt_owner (v : Option (Nat × ResetKind)) : (s.withResetAt v).owner = s.owner := by rfl
@[simp] theorem withResetAt_elect (v : Option (Nat × ResetKind)) : (s.withResetAt v).elect = s.elect := by rfl
@[simp] theorem withResetAt_ops (v : Option (Nat × ResetKind)) : (s.withResetAt v).ops = s.ops := by rfl
@[simp] theorem withResetAt_reports (v : Option (Nat × ResetKind)) : (s.withResetAt v).reports = s.reports := by rfl
@[simp] theorem withResetAt_condOn (v : Option (Nat × ResetKind)) : (s.withResetAt v).condOn = s.condOn := by rfl
@[simp] theorem withResetAt_shadows (v : Option (Nat × ResetKind)) : (s.withResetAt v).shadows = s.shadows := by rfl
@[simp] theorem withResetAt_rst (v : Option (Nat × ResetKind)) : (s.withResetAt v).rst = s.rst := by rfl
@[simp] theorem withResetAt_stalls (v : Option (Nat × ResetKind)) : (s.withResetAt v).stalls = s.stalls := by rfl
@[simp] theorem withResetAt_chans (v : Option (Nat × ResetKind)) : (s.withResetAt v).chans = s.chans := by rfl
@[simp] theorem withResetAt_queues (v : Option (Nat × ResetKind)) : (s.withResetAt v).queues = s.queues := by rfl
@[simp] theorem withResetAt_streams (v : Option (Nat × ResetKind)) : (s.withResetAt v).streams = s.streams := by rfl
@[simp] theorem withResetAt_mem (v : Option (Nat × ResetKind)) : (s.withResetAt v).mem = s.mem := by rfl
@[simp] theorem withResetAt_psn (v : Option (Nat × ResetKind)) : (s.withResetAt v).psn = s.psn := by rfl
@[simp] theorem withResetAt_err (v : Option (Nat × ResetKind)) : (s.withResetAt v).err = s.err := by rfl
@[simp] theorem withResetAt_inited (v : Option (Nat × ResetKind)) : (s.withResetAt v).inited = s.inited := by rfl
@[simp] theorem withResetAt_dram (v : Option (Nat × ResetKind)) : (s.withResetAt v).dram = s.dram := by rfl
@[simp] theorem withResetAt_mig (v : Option (Nat × ResetKind)) : (s.withResetAt v).mig = s.mig := by rfl
@[simp] theorem withResetAt_tack (v : Option (Nat × ResetKind)) : (s.withResetAt v).tack = s.tack := by rfl
@[simp] theorem withResetAt_tims (v : Option (Nat × ResetKind)) : (s.withResetAt v).tims = s.tims := by rfl
@[simp] theorem withResetAt_flts (v : Option (Nat × ResetKind)) : (s.withResetAt v).flts = s.flts := by rfl
@[simp] theorem withResetAt_alarms (v : Option (Nat × ResetKind)) : (s.withResetAt v).alarms = s.alarms := by rfl
@[simp] theorem withResetAt_mgt (v : Option (Nat × ResetKind)) : (s.withResetAt v).mgt = s.mgt := by rfl

/-! ### withEverReady -/

@[simp] theorem withEverReady_pending (v : Bool) : (s.withEverReady v).pending = s.pending := by rfl
@[simp] theorem withEverReady_held (v : Bool) : (s.withEverReady v).held = s.held := by rfl
@[simp] theorem withEverReady_resuming (v : Bool) : (s.withEverReady v).resuming = s.resuming := by rfl
@[simp] theorem withEverReady_out (v : Bool) : (s.withEverReady v).out = s.out := by rfl
@[simp] theorem withEverReady_now (v : Bool) : (s.withEverReady v).now = s.now := by rfl
@[simp] theorem withEverReady_cnt (v : Bool) : (s.withEverReady v).cnt = s.cnt := by rfl
@[simp] theorem withEverReady_freeCtr (v : Bool) : (s.withEverReady v).freeCtr = s.freeCtr := by rfl
@[simp] theorem withEverReady_phase (v : Bool) : (s.withEverReady v).phase = s.phase := by rfl
@[simp] theorem withEverReady_resetAt (v : Bool) : (s.withEverReady v).resetAt = s.resetAt := by rfl
@[simp] theorem withEverReady_everReady (v : Bool) : (s.withEverReady v).everReady = v := by rfl
@[simp] theorem withEverReady_regs (v : Bool) : (s.withEverReady v).regs = s.regs := by rfl
@[simp] theorem withEverReady_latch (v : Bool) : (s.withEverReady v).latch = s.latch := by rfl
@[simp] theorem withEverReady_sess (v : Bool) : (s.withEverReady v).sess = s.sess := by rfl
@[simp] theorem withEverReady_owner (v : Bool) : (s.withEverReady v).owner = s.owner := by rfl
@[simp] theorem withEverReady_elect (v : Bool) : (s.withEverReady v).elect = s.elect := by rfl
@[simp] theorem withEverReady_ops (v : Bool) : (s.withEverReady v).ops = s.ops := by rfl
@[simp] theorem withEverReady_reports (v : Bool) : (s.withEverReady v).reports = s.reports := by rfl
@[simp] theorem withEverReady_condOn (v : Bool) : (s.withEverReady v).condOn = s.condOn := by rfl
@[simp] theorem withEverReady_shadows (v : Bool) : (s.withEverReady v).shadows = s.shadows := by rfl
@[simp] theorem withEverReady_rst (v : Bool) : (s.withEverReady v).rst = s.rst := by rfl
@[simp] theorem withEverReady_stalls (v : Bool) : (s.withEverReady v).stalls = s.stalls := by rfl
@[simp] theorem withEverReady_chans (v : Bool) : (s.withEverReady v).chans = s.chans := by rfl
@[simp] theorem withEverReady_queues (v : Bool) : (s.withEverReady v).queues = s.queues := by rfl
@[simp] theorem withEverReady_streams (v : Bool) : (s.withEverReady v).streams = s.streams := by rfl
@[simp] theorem withEverReady_mem (v : Bool) : (s.withEverReady v).mem = s.mem := by rfl
@[simp] theorem withEverReady_psn (v : Bool) : (s.withEverReady v).psn = s.psn := by rfl
@[simp] theorem withEverReady_err (v : Bool) : (s.withEverReady v).err = s.err := by rfl
@[simp] theorem withEverReady_inited (v : Bool) : (s.withEverReady v).inited = s.inited := by rfl
@[simp] theorem withEverReady_dram (v : Bool) : (s.withEverReady v).dram = s.dram := by rfl
@[simp] theorem withEverReady_mig (v : Bool) : (s.withEverReady v).mig = s.mig := by rfl
@[simp] theorem withEverReady_tack (v : Bool) : (s.withEverReady v).tack = s.tack := by rfl
@[simp] theorem withEverReady_tims (v : Bool) : (s.withEverReady v).tims = s.tims := by rfl
@[simp] theorem withEverReady_flts (v : Bool) : (s.withEverReady v).flts = s.flts := by rfl
@[simp] theorem withEverReady_alarms (v : Bool) : (s.withEverReady v).alarms = s.alarms := by rfl
@[simp] theorem withEverReady_mgt (v : Bool) : (s.withEverReady v).mgt = s.mgt := by rfl

/-! ### withVmainAt -/

@[simp] theorem withVmainAt_pending (v : Nat) : (s.withVmainAt v).pending = s.pending := by rfl
@[simp] theorem withVmainAt_held (v : Nat) : (s.withVmainAt v).held = s.held := by rfl
@[simp] theorem withVmainAt_resuming (v : Nat) : (s.withVmainAt v).resuming = s.resuming := by rfl
@[simp] theorem withVmainAt_out (v : Nat) : (s.withVmainAt v).out = s.out := by rfl
@[simp] theorem withVmainAt_now (v : Nat) : (s.withVmainAt v).now = s.now := by rfl
@[simp] theorem withVmainAt_cnt (v : Nat) : (s.withVmainAt v).cnt = s.cnt := by rfl
@[simp] theorem withVmainAt_freeCtr (v : Nat) : (s.withVmainAt v).freeCtr = s.freeCtr := by rfl
@[simp] theorem withVmainAt_phase (v : Nat) : (s.withVmainAt v).phase = s.phase := by rfl
@[simp] theorem withVmainAt_resetAt (v : Nat) : (s.withVmainAt v).resetAt = s.resetAt := by rfl
@[simp] theorem withVmainAt_vmainAt (v : Nat) : (s.withVmainAt v).vmainAt = v := by rfl
@[simp] theorem withVmainAt_regs (v : Nat) : (s.withVmainAt v).regs = s.regs := by rfl
@[simp] theorem withVmainAt_latch (v : Nat) : (s.withVmainAt v).latch = s.latch := by rfl
@[simp] theorem withVmainAt_sess (v : Nat) : (s.withVmainAt v).sess = s.sess := by rfl
@[simp] theorem withVmainAt_owner (v : Nat) : (s.withVmainAt v).owner = s.owner := by rfl
@[simp] theorem withVmainAt_elect (v : Nat) : (s.withVmainAt v).elect = s.elect := by rfl
@[simp] theorem withVmainAt_ops (v : Nat) : (s.withVmainAt v).ops = s.ops := by rfl
@[simp] theorem withVmainAt_reports (v : Nat) : (s.withVmainAt v).reports = s.reports := by rfl
@[simp] theorem withVmainAt_condOn (v : Nat) : (s.withVmainAt v).condOn = s.condOn := by rfl
@[simp] theorem withVmainAt_shadows (v : Nat) : (s.withVmainAt v).shadows = s.shadows := by rfl
@[simp] theorem withVmainAt_rst (v : Nat) : (s.withVmainAt v).rst = s.rst := by rfl
@[simp] theorem withVmainAt_stalls (v : Nat) : (s.withVmainAt v).stalls = s.stalls := by rfl
@[simp] theorem withVmainAt_chans (v : Nat) : (s.withVmainAt v).chans = s.chans := by rfl
@[simp] theorem withVmainAt_queues (v : Nat) : (s.withVmainAt v).queues = s.queues := by rfl
@[simp] theorem withVmainAt_streams (v : Nat) : (s.withVmainAt v).streams = s.streams := by rfl
@[simp] theorem withVmainAt_mem (v : Nat) : (s.withVmainAt v).mem = s.mem := by rfl
@[simp] theorem withVmainAt_psn (v : Nat) : (s.withVmainAt v).psn = s.psn := by rfl
@[simp] theorem withVmainAt_err (v : Nat) : (s.withVmainAt v).err = s.err := by rfl
@[simp] theorem withVmainAt_inited (v : Nat) : (s.withVmainAt v).inited = s.inited := by rfl
@[simp] theorem withVmainAt_dram (v : Nat) : (s.withVmainAt v).dram = s.dram := by rfl
@[simp] theorem withVmainAt_mig (v : Nat) : (s.withVmainAt v).mig = s.mig := by rfl
@[simp] theorem withVmainAt_tack (v : Nat) : (s.withVmainAt v).tack = s.tack := by rfl
@[simp] theorem withVmainAt_tims (v : Nat) : (s.withVmainAt v).tims = s.tims := by rfl
@[simp] theorem withVmainAt_flts (v : Nat) : (s.withVmainAt v).flts = s.flts := by rfl
@[simp] theorem withVmainAt_alarms (v : Nat) : (s.withVmainAt v).alarms = s.alarms := by rfl
@[simp] theorem withVmainAt_mgt (v : Nat) : (s.withVmainAt v).mgt = s.mgt := by rfl

/-! ### withClockStopped -/

@[simp] theorem withClockStopped_pending (v : Bool) : (s.withClockStopped v).pending = s.pending := by rfl
@[simp] theorem withClockStopped_held (v : Bool) : (s.withClockStopped v).held = s.held := by rfl
@[simp] theorem withClockStopped_resuming (v : Bool) : (s.withClockStopped v).resuming = s.resuming := by rfl
@[simp] theorem withClockStopped_out (v : Bool) : (s.withClockStopped v).out = s.out := by rfl
@[simp] theorem withClockStopped_now (v : Bool) : (s.withClockStopped v).now = s.now := by rfl
@[simp] theorem withClockStopped_cnt (v : Bool) : (s.withClockStopped v).cnt = s.cnt := by rfl
@[simp] theorem withClockStopped_freeCtr (v : Bool) : (s.withClockStopped v).freeCtr = s.freeCtr := by rfl
@[simp] theorem withClockStopped_phase (v : Bool) : (s.withClockStopped v).phase = s.phase := by rfl
@[simp] theorem withClockStopped_resetAt (v : Bool) : (s.withClockStopped v).resetAt = s.resetAt := by rfl
@[simp] theorem withClockStopped_clockStopped (v : Bool) : (s.withClockStopped v).clockStopped = v := by rfl
@[simp] theorem withClockStopped_regs (v : Bool) : (s.withClockStopped v).regs = s.regs := by rfl
@[simp] theorem withClockStopped_latch (v : Bool) : (s.withClockStopped v).latch = s.latch := by rfl
@[simp] theorem withClockStopped_sess (v : Bool) : (s.withClockStopped v).sess = s.sess := by rfl
@[simp] theorem withClockStopped_owner (v : Bool) : (s.withClockStopped v).owner = s.owner := by rfl
@[simp] theorem withClockStopped_elect (v : Bool) : (s.withClockStopped v).elect = s.elect := by rfl
@[simp] theorem withClockStopped_ops (v : Bool) : (s.withClockStopped v).ops = s.ops := by rfl
@[simp] theorem withClockStopped_reports (v : Bool) : (s.withClockStopped v).reports = s.reports := by rfl
@[simp] theorem withClockStopped_condOn (v : Bool) : (s.withClockStopped v).condOn = s.condOn := by rfl
@[simp] theorem withClockStopped_shadows (v : Bool) : (s.withClockStopped v).shadows = s.shadows := by rfl
@[simp] theorem withClockStopped_rst (v : Bool) : (s.withClockStopped v).rst = s.rst := by rfl
@[simp] theorem withClockStopped_stalls (v : Bool) : (s.withClockStopped v).stalls = s.stalls := by rfl
@[simp] theorem withClockStopped_chans (v : Bool) : (s.withClockStopped v).chans = s.chans := by rfl
@[simp] theorem withClockStopped_queues (v : Bool) : (s.withClockStopped v).queues = s.queues := by rfl
@[simp] theorem withClockStopped_streams (v : Bool) : (s.withClockStopped v).streams = s.streams := by rfl
@[simp] theorem withClockStopped_mem (v : Bool) : (s.withClockStopped v).mem = s.mem := by rfl
@[simp] theorem withClockStopped_psn (v : Bool) : (s.withClockStopped v).psn = s.psn := by rfl
@[simp] theorem withClockStopped_err (v : Bool) : (s.withClockStopped v).err = s.err := by rfl
@[simp] theorem withClockStopped_inited (v : Bool) : (s.withClockStopped v).inited = s.inited := by rfl
@[simp] theorem withClockStopped_dram (v : Bool) : (s.withClockStopped v).dram = s.dram := by rfl
@[simp] theorem withClockStopped_mig (v : Bool) : (s.withClockStopped v).mig = s.mig := by rfl
@[simp] theorem withClockStopped_tack (v : Bool) : (s.withClockStopped v).tack = s.tack := by rfl
@[simp] theorem withClockStopped_tims (v : Bool) : (s.withClockStopped v).tims = s.tims := by rfl
@[simp] theorem withClockStopped_flts (v : Bool) : (s.withClockStopped v).flts = s.flts := by rfl
@[simp] theorem withClockStopped_alarms (v : Bool) : (s.withClockStopped v).alarms = s.alarms := by rfl
@[simp] theorem withClockStopped_mgt (v : Bool) : (s.withClockStopped v).mgt = s.mgt := by rfl

/-! ### withRegs -/

@[simp] theorem withRegs_pending (v : SMap Word) : (s.withRegs v).pending = s.pending := by rfl
@[simp] theorem withRegs_held (v : SMap Word) : (s.withRegs v).held = s.held := by rfl
@[simp] theorem withRegs_resuming (v : SMap Word) : (s.withRegs v).resuming = s.resuming := by rfl
@[simp] theorem withRegs_out (v : SMap Word) : (s.withRegs v).out = s.out := by rfl
@[simp] theorem withRegs_now (v : SMap Word) : (s.withRegs v).now = s.now := by rfl
@[simp] theorem withRegs_cnt (v : SMap Word) : (s.withRegs v).cnt = s.cnt := by rfl
@[simp] theorem withRegs_freeCtr (v : SMap Word) : (s.withRegs v).freeCtr = s.freeCtr := by rfl
@[simp] theorem withRegs_phase (v : SMap Word) : (s.withRegs v).phase = s.phase := by rfl
@[simp] theorem withRegs_resetAt (v : SMap Word) : (s.withRegs v).resetAt = s.resetAt := by rfl
@[simp] theorem withRegs_regs (v : SMap Word) : (s.withRegs v).regs = v := by rfl
@[simp] theorem withRegs_latch (v : SMap Word) : (s.withRegs v).latch = s.latch := by rfl
@[simp] theorem withRegs_sess (v : SMap Word) : (s.withRegs v).sess = s.sess := by rfl
@[simp] theorem withRegs_owner (v : SMap Word) : (s.withRegs v).owner = s.owner := by rfl
@[simp] theorem withRegs_elect (v : SMap Word) : (s.withRegs v).elect = s.elect := by rfl
@[simp] theorem withRegs_ops (v : SMap Word) : (s.withRegs v).ops = s.ops := by rfl
@[simp] theorem withRegs_reports (v : SMap Word) : (s.withRegs v).reports = s.reports := by rfl
@[simp] theorem withRegs_condOn (v : SMap Word) : (s.withRegs v).condOn = s.condOn := by rfl
@[simp] theorem withRegs_shadows (v : SMap Word) : (s.withRegs v).shadows = s.shadows := by rfl
@[simp] theorem withRegs_rst (v : SMap Word) : (s.withRegs v).rst = s.rst := by rfl
@[simp] theorem withRegs_stalls (v : SMap Word) : (s.withRegs v).stalls = s.stalls := by rfl
@[simp] theorem withRegs_chans (v : SMap Word) : (s.withRegs v).chans = s.chans := by rfl
@[simp] theorem withRegs_queues (v : SMap Word) : (s.withRegs v).queues = s.queues := by rfl
@[simp] theorem withRegs_streams (v : SMap Word) : (s.withRegs v).streams = s.streams := by rfl
@[simp] theorem withRegs_mem (v : SMap Word) : (s.withRegs v).mem = s.mem := by rfl
@[simp] theorem withRegs_psn (v : SMap Word) : (s.withRegs v).psn = s.psn := by rfl
@[simp] theorem withRegs_err (v : SMap Word) : (s.withRegs v).err = s.err := by rfl
@[simp] theorem withRegs_inited (v : SMap Word) : (s.withRegs v).inited = s.inited := by rfl
@[simp] theorem withRegs_dram (v : SMap Word) : (s.withRegs v).dram = s.dram := by rfl
@[simp] theorem withRegs_mig (v : SMap Word) : (s.withRegs v).mig = s.mig := by rfl
@[simp] theorem withRegs_tack (v : SMap Word) : (s.withRegs v).tack = s.tack := by rfl
@[simp] theorem withRegs_tims (v : SMap Word) : (s.withRegs v).tims = s.tims := by rfl
@[simp] theorem withRegs_flts (v : SMap Word) : (s.withRegs v).flts = s.flts := by rfl
@[simp] theorem withRegs_alarms (v : SMap Word) : (s.withRegs v).alarms = s.alarms := by rfl
@[simp] theorem withRegs_mgt (v : SMap Word) : (s.withRegs v).mgt = s.mgt := by rfl

/-! ### withLatch -/

@[simp] theorem withLatch_pending (v : SMap (Option Word)) : (s.withLatch v).pending = s.pending := by rfl
@[simp] theorem withLatch_held (v : SMap (Option Word)) : (s.withLatch v).held = s.held := by rfl
@[simp] theorem withLatch_resuming (v : SMap (Option Word)) : (s.withLatch v).resuming = s.resuming := by rfl
@[simp] theorem withLatch_out (v : SMap (Option Word)) : (s.withLatch v).out = s.out := by rfl
@[simp] theorem withLatch_now (v : SMap (Option Word)) : (s.withLatch v).now = s.now := by rfl
@[simp] theorem withLatch_cnt (v : SMap (Option Word)) : (s.withLatch v).cnt = s.cnt := by rfl
@[simp] theorem withLatch_freeCtr (v : SMap (Option Word)) : (s.withLatch v).freeCtr = s.freeCtr := by rfl
@[simp] theorem withLatch_phase (v : SMap (Option Word)) : (s.withLatch v).phase = s.phase := by rfl
@[simp] theorem withLatch_resetAt (v : SMap (Option Word)) : (s.withLatch v).resetAt = s.resetAt := by rfl
@[simp] theorem withLatch_regs (v : SMap (Option Word)) : (s.withLatch v).regs = s.regs := by rfl
@[simp] theorem withLatch_latch (v : SMap (Option Word)) : (s.withLatch v).latch = v := by rfl
@[simp] theorem withLatch_sess (v : SMap (Option Word)) : (s.withLatch v).sess = s.sess := by rfl
@[simp] theorem withLatch_owner (v : SMap (Option Word)) : (s.withLatch v).owner = s.owner := by rfl
@[simp] theorem withLatch_elect (v : SMap (Option Word)) : (s.withLatch v).elect = s.elect := by rfl
@[simp] theorem withLatch_ops (v : SMap (Option Word)) : (s.withLatch v).ops = s.ops := by rfl
@[simp] theorem withLatch_reports (v : SMap (Option Word)) : (s.withLatch v).reports = s.reports := by rfl
@[simp] theorem withLatch_condOn (v : SMap (Option Word)) : (s.withLatch v).condOn = s.condOn := by rfl
@[simp] theorem withLatch_shadows (v : SMap (Option Word)) : (s.withLatch v).shadows = s.shadows := by rfl
@[simp] theorem withLatch_rst (v : SMap (Option Word)) : (s.withLatch v).rst = s.rst := by rfl
@[simp] theorem withLatch_stalls (v : SMap (Option Word)) : (s.withLatch v).stalls = s.stalls := by rfl
@[simp] theorem withLatch_chans (v : SMap (Option Word)) : (s.withLatch v).chans = s.chans := by rfl
@[simp] theorem withLatch_queues (v : SMap (Option Word)) : (s.withLatch v).queues = s.queues := by rfl
@[simp] theorem withLatch_streams (v : SMap (Option Word)) : (s.withLatch v).streams = s.streams := by rfl
@[simp] theorem withLatch_mem (v : SMap (Option Word)) : (s.withLatch v).mem = s.mem := by rfl
@[simp] theorem withLatch_psn (v : SMap (Option Word)) : (s.withLatch v).psn = s.psn := by rfl
@[simp] theorem withLatch_err (v : SMap (Option Word)) : (s.withLatch v).err = s.err := by rfl
@[simp] theorem withLatch_inited (v : SMap (Option Word)) : (s.withLatch v).inited = s.inited := by rfl
@[simp] theorem withLatch_dram (v : SMap (Option Word)) : (s.withLatch v).dram = s.dram := by rfl
@[simp] theorem withLatch_mig (v : SMap (Option Word)) : (s.withLatch v).mig = s.mig := by rfl
@[simp] theorem withLatch_tack (v : SMap (Option Word)) : (s.withLatch v).tack = s.tack := by rfl
@[simp] theorem withLatch_tims (v : SMap (Option Word)) : (s.withLatch v).tims = s.tims := by rfl
@[simp] theorem withLatch_flts (v : SMap (Option Word)) : (s.withLatch v).flts = s.flts := by rfl
@[simp] theorem withLatch_alarms (v : SMap (Option Word)) : (s.withLatch v).alarms = s.alarms := by rfl
@[simp] theorem withLatch_mgt (v : SMap (Option Word)) : (s.withLatch v).mgt = s.mgt := by rfl

/-! ### withSess -/

@[simp] theorem withSess_pending (v : SMap (Option Session)) : (s.withSess v).pending = s.pending := by rfl
@[simp] theorem withSess_held (v : SMap (Option Session)) : (s.withSess v).held = s.held := by rfl
@[simp] theorem withSess_resuming (v : SMap (Option Session)) : (s.withSess v).resuming = s.resuming := by rfl
@[simp] theorem withSess_out (v : SMap (Option Session)) : (s.withSess v).out = s.out := by rfl
@[simp] theorem withSess_now (v : SMap (Option Session)) : (s.withSess v).now = s.now := by rfl
@[simp] theorem withSess_cnt (v : SMap (Option Session)) : (s.withSess v).cnt = s.cnt := by rfl
@[simp] theorem withSess_freeCtr (v : SMap (Option Session)) : (s.withSess v).freeCtr = s.freeCtr := by rfl
@[simp] theorem withSess_phase (v : SMap (Option Session)) : (s.withSess v).phase = s.phase := by rfl
@[simp] theorem withSess_resetAt (v : SMap (Option Session)) : (s.withSess v).resetAt = s.resetAt := by rfl
@[simp] theorem withSess_regs (v : SMap (Option Session)) : (s.withSess v).regs = s.regs := by rfl
@[simp] theorem withSess_latch (v : SMap (Option Session)) : (s.withSess v).latch = s.latch := by rfl
@[simp] theorem withSess_sess (v : SMap (Option Session)) : (s.withSess v).sess = v := by rfl
@[simp] theorem withSess_owner (v : SMap (Option Session)) : (s.withSess v).owner = s.owner := by rfl
@[simp] theorem withSess_elect (v : SMap (Option Session)) : (s.withSess v).elect = s.elect := by rfl
@[simp] theorem withSess_ops (v : SMap (Option Session)) : (s.withSess v).ops = s.ops := by rfl
@[simp] theorem withSess_reports (v : SMap (Option Session)) : (s.withSess v).reports = s.reports := by rfl
@[simp] theorem withSess_condOn (v : SMap (Option Session)) : (s.withSess v).condOn = s.condOn := by rfl
@[simp] theorem withSess_shadows (v : SMap (Option Session)) : (s.withSess v).shadows = s.shadows := by rfl
@[simp] theorem withSess_rst (v : SMap (Option Session)) : (s.withSess v).rst = s.rst := by rfl
@[simp] theorem withSess_stalls (v : SMap (Option Session)) : (s.withSess v).stalls = s.stalls := by rfl
@[simp] theorem withSess_chans (v : SMap (Option Session)) : (s.withSess v).chans = s.chans := by rfl
@[simp] theorem withSess_queues (v : SMap (Option Session)) : (s.withSess v).queues = s.queues := by rfl
@[simp] theorem withSess_streams (v : SMap (Option Session)) : (s.withSess v).streams = s.streams := by rfl
@[simp] theorem withSess_mem (v : SMap (Option Session)) : (s.withSess v).mem = s.mem := by rfl
@[simp] theorem withSess_psn (v : SMap (Option Session)) : (s.withSess v).psn = s.psn := by rfl
@[simp] theorem withSess_err (v : SMap (Option Session)) : (s.withSess v).err = s.err := by rfl
@[simp] theorem withSess_inited (v : SMap (Option Session)) : (s.withSess v).inited = s.inited := by rfl
@[simp] theorem withSess_dram (v : SMap (Option Session)) : (s.withSess v).dram = s.dram := by rfl
@[simp] theorem withSess_mig (v : SMap (Option Session)) : (s.withSess v).mig = s.mig := by rfl
@[simp] theorem withSess_tack (v : SMap (Option Session)) : (s.withSess v).tack = s.tack := by rfl
@[simp] theorem withSess_tims (v : SMap (Option Session)) : (s.withSess v).tims = s.tims := by rfl
@[simp] theorem withSess_flts (v : SMap (Option Session)) : (s.withSess v).flts = s.flts := by rfl
@[simp] theorem withSess_alarms (v : SMap (Option Session)) : (s.withSess v).alarms = s.alarms := by rfl
@[simp] theorem withSess_mgt (v : SMap (Option Session)) : (s.withSess v).mgt = s.mgt := by rfl

/-! ### withSlotGen -/

@[simp] theorem withSlotGen_pending (v : SMap Nat) : (s.withSlotGen v).pending = s.pending := by rfl
@[simp] theorem withSlotGen_held (v : SMap Nat) : (s.withSlotGen v).held = s.held := by rfl
@[simp] theorem withSlotGen_resuming (v : SMap Nat) : (s.withSlotGen v).resuming = s.resuming := by rfl
@[simp] theorem withSlotGen_out (v : SMap Nat) : (s.withSlotGen v).out = s.out := by rfl
@[simp] theorem withSlotGen_now (v : SMap Nat) : (s.withSlotGen v).now = s.now := by rfl
@[simp] theorem withSlotGen_cnt (v : SMap Nat) : (s.withSlotGen v).cnt = s.cnt := by rfl
@[simp] theorem withSlotGen_freeCtr (v : SMap Nat) : (s.withSlotGen v).freeCtr = s.freeCtr := by rfl
@[simp] theorem withSlotGen_phase (v : SMap Nat) : (s.withSlotGen v).phase = s.phase := by rfl
@[simp] theorem withSlotGen_resetAt (v : SMap Nat) : (s.withSlotGen v).resetAt = s.resetAt := by rfl
@[simp] theorem withSlotGen_regs (v : SMap Nat) : (s.withSlotGen v).regs = s.regs := by rfl
@[simp] theorem withSlotGen_latch (v : SMap Nat) : (s.withSlotGen v).latch = s.latch := by rfl
@[simp] theorem withSlotGen_sess (v : SMap Nat) : (s.withSlotGen v).sess = s.sess := by rfl
@[simp] theorem withSlotGen_slotGen (v : SMap Nat) : (s.withSlotGen v).slotGen = v := by rfl
@[simp] theorem withSlotGen_owner (v : SMap Nat) : (s.withSlotGen v).owner = s.owner := by rfl
@[simp] theorem withSlotGen_elect (v : SMap Nat) : (s.withSlotGen v).elect = s.elect := by rfl
@[simp] theorem withSlotGen_ops (v : SMap Nat) : (s.withSlotGen v).ops = s.ops := by rfl
@[simp] theorem withSlotGen_reports (v : SMap Nat) : (s.withSlotGen v).reports = s.reports := by rfl
@[simp] theorem withSlotGen_condOn (v : SMap Nat) : (s.withSlotGen v).condOn = s.condOn := by rfl
@[simp] theorem withSlotGen_shadows (v : SMap Nat) : (s.withSlotGen v).shadows = s.shadows := by rfl
@[simp] theorem withSlotGen_rst (v : SMap Nat) : (s.withSlotGen v).rst = s.rst := by rfl
@[simp] theorem withSlotGen_stalls (v : SMap Nat) : (s.withSlotGen v).stalls = s.stalls := by rfl
@[simp] theorem withSlotGen_chans (v : SMap Nat) : (s.withSlotGen v).chans = s.chans := by rfl
@[simp] theorem withSlotGen_queues (v : SMap Nat) : (s.withSlotGen v).queues = s.queues := by rfl
@[simp] theorem withSlotGen_streams (v : SMap Nat) : (s.withSlotGen v).streams = s.streams := by rfl
@[simp] theorem withSlotGen_mem (v : SMap Nat) : (s.withSlotGen v).mem = s.mem := by rfl
@[simp] theorem withSlotGen_psn (v : SMap Nat) : (s.withSlotGen v).psn = s.psn := by rfl
@[simp] theorem withSlotGen_err (v : SMap Nat) : (s.withSlotGen v).err = s.err := by rfl
@[simp] theorem withSlotGen_inited (v : SMap Nat) : (s.withSlotGen v).inited = s.inited := by rfl
@[simp] theorem withSlotGen_dram (v : SMap Nat) : (s.withSlotGen v).dram = s.dram := by rfl
@[simp] theorem withSlotGen_mig (v : SMap Nat) : (s.withSlotGen v).mig = s.mig := by rfl
@[simp] theorem withSlotGen_tack (v : SMap Nat) : (s.withSlotGen v).tack = s.tack := by rfl
@[simp] theorem withSlotGen_tims (v : SMap Nat) : (s.withSlotGen v).tims = s.tims := by rfl
@[simp] theorem withSlotGen_flts (v : SMap Nat) : (s.withSlotGen v).flts = s.flts := by rfl
@[simp] theorem withSlotGen_alarms (v : SMap Nat) : (s.withSlotGen v).alarms = s.alarms := by rfl
@[simp] theorem withSlotGen_mgt (v : SMap Nat) : (s.withSlotGen v).mgt = s.mgt := by rfl

/-! ### withOwner -/

@[simp] theorem withOwner_pending (v : SMap (Option Nat)) : (s.withOwner v).pending = s.pending := by rfl
@[simp] theorem withOwner_held (v : SMap (Option Nat)) : (s.withOwner v).held = s.held := by rfl
@[simp] theorem withOwner_resuming (v : SMap (Option Nat)) : (s.withOwner v).resuming = s.resuming := by rfl
@[simp] theorem withOwner_out (v : SMap (Option Nat)) : (s.withOwner v).out = s.out := by rfl
@[simp] theorem withOwner_now (v : SMap (Option Nat)) : (s.withOwner v).now = s.now := by rfl
@[simp] theorem withOwner_cnt (v : SMap (Option Nat)) : (s.withOwner v).cnt = s.cnt := by rfl
@[simp] theorem withOwner_freeCtr (v : SMap (Option Nat)) : (s.withOwner v).freeCtr = s.freeCtr := by rfl
@[simp] theorem withOwner_phase (v : SMap (Option Nat)) : (s.withOwner v).phase = s.phase := by rfl
@[simp] theorem withOwner_resetAt (v : SMap (Option Nat)) : (s.withOwner v).resetAt = s.resetAt := by rfl
@[simp] theorem withOwner_regs (v : SMap (Option Nat)) : (s.withOwner v).regs = s.regs := by rfl
@[simp] theorem withOwner_latch (v : SMap (Option Nat)) : (s.withOwner v).latch = s.latch := by rfl
@[simp] theorem withOwner_sess (v : SMap (Option Nat)) : (s.withOwner v).sess = s.sess := by rfl
@[simp] theorem withOwner_owner (v : SMap (Option Nat)) : (s.withOwner v).owner = v := by rfl
@[simp] theorem withOwner_elect (v : SMap (Option Nat)) : (s.withOwner v).elect = s.elect := by rfl
@[simp] theorem withOwner_ops (v : SMap (Option Nat)) : (s.withOwner v).ops = s.ops := by rfl
@[simp] theorem withOwner_reports (v : SMap (Option Nat)) : (s.withOwner v).reports = s.reports := by rfl
@[simp] theorem withOwner_condOn (v : SMap (Option Nat)) : (s.withOwner v).condOn = s.condOn := by rfl
@[simp] theorem withOwner_shadows (v : SMap (Option Nat)) : (s.withOwner v).shadows = s.shadows := by rfl
@[simp] theorem withOwner_rst (v : SMap (Option Nat)) : (s.withOwner v).rst = s.rst := by rfl
@[simp] theorem withOwner_stalls (v : SMap (Option Nat)) : (s.withOwner v).stalls = s.stalls := by rfl
@[simp] theorem withOwner_chans (v : SMap (Option Nat)) : (s.withOwner v).chans = s.chans := by rfl
@[simp] theorem withOwner_queues (v : SMap (Option Nat)) : (s.withOwner v).queues = s.queues := by rfl
@[simp] theorem withOwner_streams (v : SMap (Option Nat)) : (s.withOwner v).streams = s.streams := by rfl
@[simp] theorem withOwner_mem (v : SMap (Option Nat)) : (s.withOwner v).mem = s.mem := by rfl
@[simp] theorem withOwner_psn (v : SMap (Option Nat)) : (s.withOwner v).psn = s.psn := by rfl
@[simp] theorem withOwner_err (v : SMap (Option Nat)) : (s.withOwner v).err = s.err := by rfl
@[simp] theorem withOwner_inited (v : SMap (Option Nat)) : (s.withOwner v).inited = s.inited := by rfl
@[simp] theorem withOwner_dram (v : SMap (Option Nat)) : (s.withOwner v).dram = s.dram := by rfl
@[simp] theorem withOwner_mig (v : SMap (Option Nat)) : (s.withOwner v).mig = s.mig := by rfl
@[simp] theorem withOwner_tack (v : SMap (Option Nat)) : (s.withOwner v).tack = s.tack := by rfl
@[simp] theorem withOwner_tims (v : SMap (Option Nat)) : (s.withOwner v).tims = s.tims := by rfl
@[simp] theorem withOwner_flts (v : SMap (Option Nat)) : (s.withOwner v).flts = s.flts := by rfl
@[simp] theorem withOwner_alarms (v : SMap (Option Nat)) : (s.withOwner v).alarms = s.alarms := by rfl
@[simp] theorem withOwner_mgt (v : SMap (Option Nat)) : (s.withOwner v).mgt = s.mgt := by rfl

/-! ### withElect -/

@[simp] theorem withElect_pending (v : SMap (Option Election)) : (s.withElect v).pending = s.pending := by rfl
@[simp] theorem withElect_held (v : SMap (Option Election)) : (s.withElect v).held = s.held := by rfl
@[simp] theorem withElect_resuming (v : SMap (Option Election)) : (s.withElect v).resuming = s.resuming := by rfl
@[simp] theorem withElect_out (v : SMap (Option Election)) : (s.withElect v).out = s.out := by rfl
@[simp] theorem withElect_now (v : SMap (Option Election)) : (s.withElect v).now = s.now := by rfl
@[simp] theorem withElect_cnt (v : SMap (Option Election)) : (s.withElect v).cnt = s.cnt := by rfl
@[simp] theorem withElect_freeCtr (v : SMap (Option Election)) : (s.withElect v).freeCtr = s.freeCtr := by rfl
@[simp] theorem withElect_phase (v : SMap (Option Election)) : (s.withElect v).phase = s.phase := by rfl
@[simp] theorem withElect_resetAt (v : SMap (Option Election)) : (s.withElect v).resetAt = s.resetAt := by rfl
@[simp] theorem withElect_regs (v : SMap (Option Election)) : (s.withElect v).regs = s.regs := by rfl
@[simp] theorem withElect_latch (v : SMap (Option Election)) : (s.withElect v).latch = s.latch := by rfl
@[simp] theorem withElect_sess (v : SMap (Option Election)) : (s.withElect v).sess = s.sess := by rfl
@[simp] theorem withElect_owner (v : SMap (Option Election)) : (s.withElect v).owner = s.owner := by rfl
@[simp] theorem withElect_elect (v : SMap (Option Election)) : (s.withElect v).elect = v := by rfl
@[simp] theorem withElect_ops (v : SMap (Option Election)) : (s.withElect v).ops = s.ops := by rfl
@[simp] theorem withElect_reports (v : SMap (Option Election)) : (s.withElect v).reports = s.reports := by rfl
@[simp] theorem withElect_condOn (v : SMap (Option Election)) : (s.withElect v).condOn = s.condOn := by rfl
@[simp] theorem withElect_shadows (v : SMap (Option Election)) : (s.withElect v).shadows = s.shadows := by rfl
@[simp] theorem withElect_rst (v : SMap (Option Election)) : (s.withElect v).rst = s.rst := by rfl
@[simp] theorem withElect_stalls (v : SMap (Option Election)) : (s.withElect v).stalls = s.stalls := by rfl
@[simp] theorem withElect_chans (v : SMap (Option Election)) : (s.withElect v).chans = s.chans := by rfl
@[simp] theorem withElect_queues (v : SMap (Option Election)) : (s.withElect v).queues = s.queues := by rfl
@[simp] theorem withElect_streams (v : SMap (Option Election)) : (s.withElect v).streams = s.streams := by rfl
@[simp] theorem withElect_mem (v : SMap (Option Election)) : (s.withElect v).mem = s.mem := by rfl
@[simp] theorem withElect_psn (v : SMap (Option Election)) : (s.withElect v).psn = s.psn := by rfl
@[simp] theorem withElect_err (v : SMap (Option Election)) : (s.withElect v).err = s.err := by rfl
@[simp] theorem withElect_inited (v : SMap (Option Election)) : (s.withElect v).inited = s.inited := by rfl
@[simp] theorem withElect_dram (v : SMap (Option Election)) : (s.withElect v).dram = s.dram := by rfl
@[simp] theorem withElect_mig (v : SMap (Option Election)) : (s.withElect v).mig = s.mig := by rfl
@[simp] theorem withElect_tack (v : SMap (Option Election)) : (s.withElect v).tack = s.tack := by rfl
@[simp] theorem withElect_tims (v : SMap (Option Election)) : (s.withElect v).tims = s.tims := by rfl
@[simp] theorem withElect_flts (v : SMap (Option Election)) : (s.withElect v).flts = s.flts := by rfl
@[simp] theorem withElect_alarms (v : SMap (Option Election)) : (s.withElect v).alarms = s.alarms := by rfl
@[simp] theorem withElect_mgt (v : SMap (Option Election)) : (s.withElect v).mgt = s.mgt := by rfl

/-! ### withOps -/

@[simp] theorem withOps_pending (v : SMap (Option OpRec)) : (s.withOps v).pending = s.pending := by rfl
@[simp] theorem withOps_held (v : SMap (Option OpRec)) : (s.withOps v).held = s.held := by rfl
@[simp] theorem withOps_resuming (v : SMap (Option OpRec)) : (s.withOps v).resuming = s.resuming := by rfl
@[simp] theorem withOps_out (v : SMap (Option OpRec)) : (s.withOps v).out = s.out := by rfl
@[simp] theorem withOps_now (v : SMap (Option OpRec)) : (s.withOps v).now = s.now := by rfl
@[simp] theorem withOps_cnt (v : SMap (Option OpRec)) : (s.withOps v).cnt = s.cnt := by rfl
@[simp] theorem withOps_freeCtr (v : SMap (Option OpRec)) : (s.withOps v).freeCtr = s.freeCtr := by rfl
@[simp] theorem withOps_phase (v : SMap (Option OpRec)) : (s.withOps v).phase = s.phase := by rfl
@[simp] theorem withOps_resetAt (v : SMap (Option OpRec)) : (s.withOps v).resetAt = s.resetAt := by rfl
@[simp] theorem withOps_regs (v : SMap (Option OpRec)) : (s.withOps v).regs = s.regs := by rfl
@[simp] theorem withOps_latch (v : SMap (Option OpRec)) : (s.withOps v).latch = s.latch := by rfl
@[simp] theorem withOps_sess (v : SMap (Option OpRec)) : (s.withOps v).sess = s.sess := by rfl
@[simp] theorem withOps_owner (v : SMap (Option OpRec)) : (s.withOps v).owner = s.owner := by rfl
@[simp] theorem withOps_elect (v : SMap (Option OpRec)) : (s.withOps v).elect = s.elect := by rfl
@[simp] theorem withOps_ops (v : SMap (Option OpRec)) : (s.withOps v).ops = v := by rfl
@[simp] theorem withOps_reports (v : SMap (Option OpRec)) : (s.withOps v).reports = s.reports := by rfl
@[simp] theorem withOps_condOn (v : SMap (Option OpRec)) : (s.withOps v).condOn = s.condOn := by rfl
@[simp] theorem withOps_shadows (v : SMap (Option OpRec)) : (s.withOps v).shadows = s.shadows := by rfl
@[simp] theorem withOps_rst (v : SMap (Option OpRec)) : (s.withOps v).rst = s.rst := by rfl
@[simp] theorem withOps_stalls (v : SMap (Option OpRec)) : (s.withOps v).stalls = s.stalls := by rfl
@[simp] theorem withOps_chans (v : SMap (Option OpRec)) : (s.withOps v).chans = s.chans := by rfl
@[simp] theorem withOps_queues (v : SMap (Option OpRec)) : (s.withOps v).queues = s.queues := by rfl
@[simp] theorem withOps_streams (v : SMap (Option OpRec)) : (s.withOps v).streams = s.streams := by rfl
@[simp] theorem withOps_mem (v : SMap (Option OpRec)) : (s.withOps v).mem = s.mem := by rfl
@[simp] theorem withOps_psn (v : SMap (Option OpRec)) : (s.withOps v).psn = s.psn := by rfl
@[simp] theorem withOps_err (v : SMap (Option OpRec)) : (s.withOps v).err = s.err := by rfl
@[simp] theorem withOps_inited (v : SMap (Option OpRec)) : (s.withOps v).inited = s.inited := by rfl
@[simp] theorem withOps_dram (v : SMap (Option OpRec)) : (s.withOps v).dram = s.dram := by rfl
@[simp] theorem withOps_mig (v : SMap (Option OpRec)) : (s.withOps v).mig = s.mig := by rfl
@[simp] theorem withOps_tack (v : SMap (Option OpRec)) : (s.withOps v).tack = s.tack := by rfl
@[simp] theorem withOps_tims (v : SMap (Option OpRec)) : (s.withOps v).tims = s.tims := by rfl
@[simp] theorem withOps_flts (v : SMap (Option OpRec)) : (s.withOps v).flts = s.flts := by rfl
@[simp] theorem withOps_alarms (v : SMap (Option OpRec)) : (s.withOps v).alarms = s.alarms := by rfl
@[simp] theorem withOps_mgt (v : SMap (Option OpRec)) : (s.withOps v).mgt = s.mgt := by rfl

/-! ### withOwnEff -/

@[simp] theorem withOwnEff_pending (v : Word × Word) : (s.withOwnEff v).pending = s.pending := by rfl
@[simp] theorem withOwnEff_held (v : Word × Word) : (s.withOwnEff v).held = s.held := by rfl
@[simp] theorem withOwnEff_resuming (v : Word × Word) : (s.withOwnEff v).resuming = s.resuming := by rfl
@[simp] theorem withOwnEff_out (v : Word × Word) : (s.withOwnEff v).out = s.out := by rfl
@[simp] theorem withOwnEff_now (v : Word × Word) : (s.withOwnEff v).now = s.now := by rfl
@[simp] theorem withOwnEff_cnt (v : Word × Word) : (s.withOwnEff v).cnt = s.cnt := by rfl
@[simp] theorem withOwnEff_freeCtr (v : Word × Word) : (s.withOwnEff v).freeCtr = s.freeCtr := by rfl
@[simp] theorem withOwnEff_phase (v : Word × Word) : (s.withOwnEff v).phase = s.phase := by rfl
@[simp] theorem withOwnEff_resetAt (v : Word × Word) : (s.withOwnEff v).resetAt = s.resetAt := by rfl
@[simp] theorem withOwnEff_regs (v : Word × Word) : (s.withOwnEff v).regs = s.regs := by rfl
@[simp] theorem withOwnEff_latch (v : Word × Word) : (s.withOwnEff v).latch = s.latch := by rfl
@[simp] theorem withOwnEff_sess (v : Word × Word) : (s.withOwnEff v).sess = s.sess := by rfl
@[simp] theorem withOwnEff_owner (v : Word × Word) : (s.withOwnEff v).owner = s.owner := by rfl
@[simp] theorem withOwnEff_elect (v : Word × Word) : (s.withOwnEff v).elect = s.elect := by rfl
@[simp] theorem withOwnEff_ops (v : Word × Word) : (s.withOwnEff v).ops = s.ops := by rfl
@[simp] theorem withOwnEff_ownEff (v : Word × Word) : (s.withOwnEff v).ownEff = v := by rfl
@[simp] theorem withOwnEff_reports (v : Word × Word) : (s.withOwnEff v).reports = s.reports := by rfl
@[simp] theorem withOwnEff_condOn (v : Word × Word) : (s.withOwnEff v).condOn = s.condOn := by rfl
@[simp] theorem withOwnEff_shadows (v : Word × Word) : (s.withOwnEff v).shadows = s.shadows := by rfl
@[simp] theorem withOwnEff_rst (v : Word × Word) : (s.withOwnEff v).rst = s.rst := by rfl
@[simp] theorem withOwnEff_stalls (v : Word × Word) : (s.withOwnEff v).stalls = s.stalls := by rfl
@[simp] theorem withOwnEff_chans (v : Word × Word) : (s.withOwnEff v).chans = s.chans := by rfl
@[simp] theorem withOwnEff_queues (v : Word × Word) : (s.withOwnEff v).queues = s.queues := by rfl
@[simp] theorem withOwnEff_streams (v : Word × Word) : (s.withOwnEff v).streams = s.streams := by rfl
@[simp] theorem withOwnEff_mem (v : Word × Word) : (s.withOwnEff v).mem = s.mem := by rfl
@[simp] theorem withOwnEff_psn (v : Word × Word) : (s.withOwnEff v).psn = s.psn := by rfl
@[simp] theorem withOwnEff_err (v : Word × Word) : (s.withOwnEff v).err = s.err := by rfl
@[simp] theorem withOwnEff_inited (v : Word × Word) : (s.withOwnEff v).inited = s.inited := by rfl
@[simp] theorem withOwnEff_dram (v : Word × Word) : (s.withOwnEff v).dram = s.dram := by rfl
@[simp] theorem withOwnEff_mig (v : Word × Word) : (s.withOwnEff v).mig = s.mig := by rfl
@[simp] theorem withOwnEff_tack (v : Word × Word) : (s.withOwnEff v).tack = s.tack := by rfl
@[simp] theorem withOwnEff_tims (v : Word × Word) : (s.withOwnEff v).tims = s.tims := by rfl
@[simp] theorem withOwnEff_flts (v : Word × Word) : (s.withOwnEff v).flts = s.flts := by rfl
@[simp] theorem withOwnEff_alarms (v : Word × Word) : (s.withOwnEff v).alarms = s.alarms := by rfl
@[simp] theorem withOwnEff_mgt (v : Word × Word) : (s.withOwnEff v).mgt = s.mgt := by rfl

/-! ### withOwnAt -/

@[simp] theorem withOwnAt_pending (v : Option Nat) : (s.withOwnAt v).pending = s.pending := by rfl
@[simp] theorem withOwnAt_held (v : Option Nat) : (s.withOwnAt v).held = s.held := by rfl
@[simp] theorem withOwnAt_resuming (v : Option Nat) : (s.withOwnAt v).resuming = s.resuming := by rfl
@[simp] theorem withOwnAt_out (v : Option Nat) : (s.withOwnAt v).out = s.out := by rfl
@[simp] theorem withOwnAt_now (v : Option Nat) : (s.withOwnAt v).now = s.now := by rfl
@[simp] theorem withOwnAt_cnt (v : Option Nat) : (s.withOwnAt v).cnt = s.cnt := by rfl
@[simp] theorem withOwnAt_freeCtr (v : Option Nat) : (s.withOwnAt v).freeCtr = s.freeCtr := by rfl
@[simp] theorem withOwnAt_phase (v : Option Nat) : (s.withOwnAt v).phase = s.phase := by rfl
@[simp] theorem withOwnAt_resetAt (v : Option Nat) : (s.withOwnAt v).resetAt = s.resetAt := by rfl
@[simp] theorem withOwnAt_regs (v : Option Nat) : (s.withOwnAt v).regs = s.regs := by rfl
@[simp] theorem withOwnAt_latch (v : Option Nat) : (s.withOwnAt v).latch = s.latch := by rfl
@[simp] theorem withOwnAt_sess (v : Option Nat) : (s.withOwnAt v).sess = s.sess := by rfl
@[simp] theorem withOwnAt_owner (v : Option Nat) : (s.withOwnAt v).owner = s.owner := by rfl
@[simp] theorem withOwnAt_elect (v : Option Nat) : (s.withOwnAt v).elect = s.elect := by rfl
@[simp] theorem withOwnAt_ops (v : Option Nat) : (s.withOwnAt v).ops = s.ops := by rfl
@[simp] theorem withOwnAt_ownAt (v : Option Nat) : (s.withOwnAt v).ownAt = v := by rfl
@[simp] theorem withOwnAt_reports (v : Option Nat) : (s.withOwnAt v).reports = s.reports := by rfl
@[simp] theorem withOwnAt_condOn (v : Option Nat) : (s.withOwnAt v).condOn = s.condOn := by rfl
@[simp] theorem withOwnAt_shadows (v : Option Nat) : (s.withOwnAt v).shadows = s.shadows := by rfl
@[simp] theorem withOwnAt_rst (v : Option Nat) : (s.withOwnAt v).rst = s.rst := by rfl
@[simp] theorem withOwnAt_stalls (v : Option Nat) : (s.withOwnAt v).stalls = s.stalls := by rfl
@[simp] theorem withOwnAt_chans (v : Option Nat) : (s.withOwnAt v).chans = s.chans := by rfl
@[simp] theorem withOwnAt_queues (v : Option Nat) : (s.withOwnAt v).queues = s.queues := by rfl
@[simp] theorem withOwnAt_streams (v : Option Nat) : (s.withOwnAt v).streams = s.streams := by rfl
@[simp] theorem withOwnAt_mem (v : Option Nat) : (s.withOwnAt v).mem = s.mem := by rfl
@[simp] theorem withOwnAt_psn (v : Option Nat) : (s.withOwnAt v).psn = s.psn := by rfl
@[simp] theorem withOwnAt_err (v : Option Nat) : (s.withOwnAt v).err = s.err := by rfl
@[simp] theorem withOwnAt_inited (v : Option Nat) : (s.withOwnAt v).inited = s.inited := by rfl
@[simp] theorem withOwnAt_dram (v : Option Nat) : (s.withOwnAt v).dram = s.dram := by rfl
@[simp] theorem withOwnAt_mig (v : Option Nat) : (s.withOwnAt v).mig = s.mig := by rfl
@[simp] theorem withOwnAt_tack (v : Option Nat) : (s.withOwnAt v).tack = s.tack := by rfl
@[simp] theorem withOwnAt_tims (v : Option Nat) : (s.withOwnAt v).tims = s.tims := by rfl
@[simp] theorem withOwnAt_flts (v : Option Nat) : (s.withOwnAt v).flts = s.flts := by rfl
@[simp] theorem withOwnAt_alarms (v : Option Nat) : (s.withOwnAt v).alarms = s.alarms := by rfl
@[simp] theorem withOwnAt_mgt (v : Option Nat) : (s.withOwnAt v).mgt = s.mgt := by rfl

/-! ### withLanes -/

@[simp] theorem withLanes_pending (v : SMap Lane) : (s.withLanes v).pending = s.pending := by rfl
@[simp] theorem withLanes_held (v : SMap Lane) : (s.withLanes v).held = s.held := by rfl
@[simp] theorem withLanes_resuming (v : SMap Lane) : (s.withLanes v).resuming = s.resuming := by rfl
@[simp] theorem withLanes_out (v : SMap Lane) : (s.withLanes v).out = s.out := by rfl
@[simp] theorem withLanes_now (v : SMap Lane) : (s.withLanes v).now = s.now := by rfl
@[simp] theorem withLanes_cnt (v : SMap Lane) : (s.withLanes v).cnt = s.cnt := by rfl
@[simp] theorem withLanes_freeCtr (v : SMap Lane) : (s.withLanes v).freeCtr = s.freeCtr := by rfl
@[simp] theorem withLanes_phase (v : SMap Lane) : (s.withLanes v).phase = s.phase := by rfl
@[simp] theorem withLanes_resetAt (v : SMap Lane) : (s.withLanes v).resetAt = s.resetAt := by rfl
@[simp] theorem withLanes_regs (v : SMap Lane) : (s.withLanes v).regs = s.regs := by rfl
@[simp] theorem withLanes_latch (v : SMap Lane) : (s.withLanes v).latch = s.latch := by rfl
@[simp] theorem withLanes_sess (v : SMap Lane) : (s.withLanes v).sess = s.sess := by rfl
@[simp] theorem withLanes_owner (v : SMap Lane) : (s.withLanes v).owner = s.owner := by rfl
@[simp] theorem withLanes_elect (v : SMap Lane) : (s.withLanes v).elect = s.elect := by rfl
@[simp] theorem withLanes_ops (v : SMap Lane) : (s.withLanes v).ops = s.ops := by rfl
@[simp] theorem withLanes_lanes (v : SMap Lane) : (s.withLanes v).lanes = v := by rfl
@[simp] theorem withLanes_reports (v : SMap Lane) : (s.withLanes v).reports = s.reports := by rfl
@[simp] theorem withLanes_condOn (v : SMap Lane) : (s.withLanes v).condOn = s.condOn := by rfl
@[simp] theorem withLanes_shadows (v : SMap Lane) : (s.withLanes v).shadows = s.shadows := by rfl
@[simp] theorem withLanes_rst (v : SMap Lane) : (s.withLanes v).rst = s.rst := by rfl
@[simp] theorem withLanes_stalls (v : SMap Lane) : (s.withLanes v).stalls = s.stalls := by rfl
@[simp] theorem withLanes_chans (v : SMap Lane) : (s.withLanes v).chans = s.chans := by rfl
@[simp] theorem withLanes_queues (v : SMap Lane) : (s.withLanes v).queues = s.queues := by rfl
@[simp] theorem withLanes_streams (v : SMap Lane) : (s.withLanes v).streams = s.streams := by rfl
@[simp] theorem withLanes_mem (v : SMap Lane) : (s.withLanes v).mem = s.mem := by rfl
@[simp] theorem withLanes_psn (v : SMap Lane) : (s.withLanes v).psn = s.psn := by rfl
@[simp] theorem withLanes_err (v : SMap Lane) : (s.withLanes v).err = s.err := by rfl
@[simp] theorem withLanes_inited (v : SMap Lane) : (s.withLanes v).inited = s.inited := by rfl
@[simp] theorem withLanes_dram (v : SMap Lane) : (s.withLanes v).dram = s.dram := by rfl
@[simp] theorem withLanes_mig (v : SMap Lane) : (s.withLanes v).mig = s.mig := by rfl
@[simp] theorem withLanes_tack (v : SMap Lane) : (s.withLanes v).tack = s.tack := by rfl
@[simp] theorem withLanes_tims (v : SMap Lane) : (s.withLanes v).tims = s.tims := by rfl
@[simp] theorem withLanes_flts (v : SMap Lane) : (s.withLanes v).flts = s.flts := by rfl
@[simp] theorem withLanes_alarms (v : SMap Lane) : (s.withLanes v).alarms = s.alarms := by rfl
@[simp] theorem withLanes_mgt (v : SMap Lane) : (s.withLanes v).mgt = s.mgt := by rfl

/-! ### withReports -/

@[simp] theorem withReports_pending (v : List Report) : (s.withReports v).pending = s.pending := by rfl
@[simp] theorem withReports_held (v : List Report) : (s.withReports v).held = s.held := by rfl
@[simp] theorem withReports_resuming (v : List Report) : (s.withReports v).resuming = s.resuming := by rfl
@[simp] theorem withReports_out (v : List Report) : (s.withReports v).out = s.out := by rfl
@[simp] theorem withReports_now (v : List Report) : (s.withReports v).now = s.now := by rfl
@[simp] theorem withReports_cnt (v : List Report) : (s.withReports v).cnt = s.cnt := by rfl
@[simp] theorem withReports_freeCtr (v : List Report) : (s.withReports v).freeCtr = s.freeCtr := by rfl
@[simp] theorem withReports_phase (v : List Report) : (s.withReports v).phase = s.phase := by rfl
@[simp] theorem withReports_resetAt (v : List Report) : (s.withReports v).resetAt = s.resetAt := by rfl
@[simp] theorem withReports_regs (v : List Report) : (s.withReports v).regs = s.regs := by rfl
@[simp] theorem withReports_latch (v : List Report) : (s.withReports v).latch = s.latch := by rfl
@[simp] theorem withReports_sess (v : List Report) : (s.withReports v).sess = s.sess := by rfl
@[simp] theorem withReports_owner (v : List Report) : (s.withReports v).owner = s.owner := by rfl
@[simp] theorem withReports_elect (v : List Report) : (s.withReports v).elect = s.elect := by rfl
@[simp] theorem withReports_ops (v : List Report) : (s.withReports v).ops = s.ops := by rfl
@[simp] theorem withReports_reports (v : List Report) : (s.withReports v).reports = v := by rfl
@[simp] theorem withReports_condOn (v : List Report) : (s.withReports v).condOn = s.condOn := by rfl
@[simp] theorem withReports_shadows (v : List Report) : (s.withReports v).shadows = s.shadows := by rfl
@[simp] theorem withReports_rst (v : List Report) : (s.withReports v).rst = s.rst := by rfl
@[simp] theorem withReports_stalls (v : List Report) : (s.withReports v).stalls = s.stalls := by rfl
@[simp] theorem withReports_chans (v : List Report) : (s.withReports v).chans = s.chans := by rfl
@[simp] theorem withReports_queues (v : List Report) : (s.withReports v).queues = s.queues := by rfl
@[simp] theorem withReports_streams (v : List Report) : (s.withReports v).streams = s.streams := by rfl
@[simp] theorem withReports_mem (v : List Report) : (s.withReports v).mem = s.mem := by rfl
@[simp] theorem withReports_psn (v : List Report) : (s.withReports v).psn = s.psn := by rfl
@[simp] theorem withReports_err (v : List Report) : (s.withReports v).err = s.err := by rfl
@[simp] theorem withReports_inited (v : List Report) : (s.withReports v).inited = s.inited := by rfl
@[simp] theorem withReports_dram (v : List Report) : (s.withReports v).dram = s.dram := by rfl
@[simp] theorem withReports_mig (v : List Report) : (s.withReports v).mig = s.mig := by rfl
@[simp] theorem withReports_tack (v : List Report) : (s.withReports v).tack = s.tack := by rfl
@[simp] theorem withReports_tims (v : List Report) : (s.withReports v).tims = s.tims := by rfl
@[simp] theorem withReports_flts (v : List Report) : (s.withReports v).flts = s.flts := by rfl
@[simp] theorem withReports_alarms (v : List Report) : (s.withReports v).alarms = s.alarms := by rfl
@[simp] theorem withReports_mgt (v : List Report) : (s.withReports v).mgt = s.mgt := by rfl

/-! ### withCondOn -/

@[simp] theorem withCondOn_pending (v : SMap Bool) : (s.withCondOn v).pending = s.pending := by rfl
@[simp] theorem withCondOn_held (v : SMap Bool) : (s.withCondOn v).held = s.held := by rfl
@[simp] theorem withCondOn_resuming (v : SMap Bool) : (s.withCondOn v).resuming = s.resuming := by rfl
@[simp] theorem withCondOn_out (v : SMap Bool) : (s.withCondOn v).out = s.out := by rfl
@[simp] theorem withCondOn_now (v : SMap Bool) : (s.withCondOn v).now = s.now := by rfl
@[simp] theorem withCondOn_cnt (v : SMap Bool) : (s.withCondOn v).cnt = s.cnt := by rfl
@[simp] theorem withCondOn_freeCtr (v : SMap Bool) : (s.withCondOn v).freeCtr = s.freeCtr := by rfl
@[simp] theorem withCondOn_phase (v : SMap Bool) : (s.withCondOn v).phase = s.phase := by rfl
@[simp] theorem withCondOn_resetAt (v : SMap Bool) : (s.withCondOn v).resetAt = s.resetAt := by rfl
@[simp] theorem withCondOn_regs (v : SMap Bool) : (s.withCondOn v).regs = s.regs := by rfl
@[simp] theorem withCondOn_latch (v : SMap Bool) : (s.withCondOn v).latch = s.latch := by rfl
@[simp] theorem withCondOn_sess (v : SMap Bool) : (s.withCondOn v).sess = s.sess := by rfl
@[simp] theorem withCondOn_owner (v : SMap Bool) : (s.withCondOn v).owner = s.owner := by rfl
@[simp] theorem withCondOn_elect (v : SMap Bool) : (s.withCondOn v).elect = s.elect := by rfl
@[simp] theorem withCondOn_ops (v : SMap Bool) : (s.withCondOn v).ops = s.ops := by rfl
@[simp] theorem withCondOn_reports (v : SMap Bool) : (s.withCondOn v).reports = s.reports := by rfl
@[simp] theorem withCondOn_condOn (v : SMap Bool) : (s.withCondOn v).condOn = v := by rfl
@[simp] theorem withCondOn_shadows (v : SMap Bool) : (s.withCondOn v).shadows = s.shadows := by rfl
@[simp] theorem withCondOn_rst (v : SMap Bool) : (s.withCondOn v).rst = s.rst := by rfl
@[simp] theorem withCondOn_stalls (v : SMap Bool) : (s.withCondOn v).stalls = s.stalls := by rfl
@[simp] theorem withCondOn_chans (v : SMap Bool) : (s.withCondOn v).chans = s.chans := by rfl
@[simp] theorem withCondOn_queues (v : SMap Bool) : (s.withCondOn v).queues = s.queues := by rfl
@[simp] theorem withCondOn_streams (v : SMap Bool) : (s.withCondOn v).streams = s.streams := by rfl
@[simp] theorem withCondOn_mem (v : SMap Bool) : (s.withCondOn v).mem = s.mem := by rfl
@[simp] theorem withCondOn_psn (v : SMap Bool) : (s.withCondOn v).psn = s.psn := by rfl
@[simp] theorem withCondOn_err (v : SMap Bool) : (s.withCondOn v).err = s.err := by rfl
@[simp] theorem withCondOn_inited (v : SMap Bool) : (s.withCondOn v).inited = s.inited := by rfl
@[simp] theorem withCondOn_dram (v : SMap Bool) : (s.withCondOn v).dram = s.dram := by rfl
@[simp] theorem withCondOn_mig (v : SMap Bool) : (s.withCondOn v).mig = s.mig := by rfl
@[simp] theorem withCondOn_tack (v : SMap Bool) : (s.withCondOn v).tack = s.tack := by rfl
@[simp] theorem withCondOn_tims (v : SMap Bool) : (s.withCondOn v).tims = s.tims := by rfl
@[simp] theorem withCondOn_flts (v : SMap Bool) : (s.withCondOn v).flts = s.flts := by rfl
@[simp] theorem withCondOn_alarms (v : SMap Bool) : (s.withCondOn v).alarms = s.alarms := by rfl
@[simp] theorem withCondOn_mgt (v : SMap Bool) : (s.withCondOn v).mgt = s.mgt := by rfl

/-! ### withCondDet -/

@[simp] theorem withCondDet_pending (v : SMap Nat) : (s.withCondDet v).pending = s.pending := by rfl
@[simp] theorem withCondDet_held (v : SMap Nat) : (s.withCondDet v).held = s.held := by rfl
@[simp] theorem withCondDet_resuming (v : SMap Nat) : (s.withCondDet v).resuming = s.resuming := by rfl
@[simp] theorem withCondDet_out (v : SMap Nat) : (s.withCondDet v).out = s.out := by rfl
@[simp] theorem withCondDet_now (v : SMap Nat) : (s.withCondDet v).now = s.now := by rfl
@[simp] theorem withCondDet_cnt (v : SMap Nat) : (s.withCondDet v).cnt = s.cnt := by rfl
@[simp] theorem withCondDet_freeCtr (v : SMap Nat) : (s.withCondDet v).freeCtr = s.freeCtr := by rfl
@[simp] theorem withCondDet_phase (v : SMap Nat) : (s.withCondDet v).phase = s.phase := by rfl
@[simp] theorem withCondDet_resetAt (v : SMap Nat) : (s.withCondDet v).resetAt = s.resetAt := by rfl
@[simp] theorem withCondDet_regs (v : SMap Nat) : (s.withCondDet v).regs = s.regs := by rfl
@[simp] theorem withCondDet_latch (v : SMap Nat) : (s.withCondDet v).latch = s.latch := by rfl
@[simp] theorem withCondDet_sess (v : SMap Nat) : (s.withCondDet v).sess = s.sess := by rfl
@[simp] theorem withCondDet_owner (v : SMap Nat) : (s.withCondDet v).owner = s.owner := by rfl
@[simp] theorem withCondDet_elect (v : SMap Nat) : (s.withCondDet v).elect = s.elect := by rfl
@[simp] theorem withCondDet_ops (v : SMap Nat) : (s.withCondDet v).ops = s.ops := by rfl
@[simp] theorem withCondDet_reports (v : SMap Nat) : (s.withCondDet v).reports = s.reports := by rfl
@[simp] theorem withCondDet_condOn (v : SMap Nat) : (s.withCondDet v).condOn = s.condOn := by rfl
@[simp] theorem withCondDet_condDet (v : SMap Nat) : (s.withCondDet v).condDet = v := by rfl
@[simp] theorem withCondDet_shadows (v : SMap Nat) : (s.withCondDet v).shadows = s.shadows := by rfl
@[simp] theorem withCondDet_rst (v : SMap Nat) : (s.withCondDet v).rst = s.rst := by rfl
@[simp] theorem withCondDet_stalls (v : SMap Nat) : (s.withCondDet v).stalls = s.stalls := by rfl
@[simp] theorem withCondDet_chans (v : SMap Nat) : (s.withCondDet v).chans = s.chans := by rfl
@[simp] theorem withCondDet_queues (v : SMap Nat) : (s.withCondDet v).queues = s.queues := by rfl
@[simp] theorem withCondDet_streams (v : SMap Nat) : (s.withCondDet v).streams = s.streams := by rfl
@[simp] theorem withCondDet_mem (v : SMap Nat) : (s.withCondDet v).mem = s.mem := by rfl
@[simp] theorem withCondDet_psn (v : SMap Nat) : (s.withCondDet v).psn = s.psn := by rfl
@[simp] theorem withCondDet_err (v : SMap Nat) : (s.withCondDet v).err = s.err := by rfl
@[simp] theorem withCondDet_inited (v : SMap Nat) : (s.withCondDet v).inited = s.inited := by rfl
@[simp] theorem withCondDet_dram (v : SMap Nat) : (s.withCondDet v).dram = s.dram := by rfl
@[simp] theorem withCondDet_mig (v : SMap Nat) : (s.withCondDet v).mig = s.mig := by rfl
@[simp] theorem withCondDet_tack (v : SMap Nat) : (s.withCondDet v).tack = s.tack := by rfl
@[simp] theorem withCondDet_tims (v : SMap Nat) : (s.withCondDet v).tims = s.tims := by rfl
@[simp] theorem withCondDet_flts (v : SMap Nat) : (s.withCondDet v).flts = s.flts := by rfl
@[simp] theorem withCondDet_alarms (v : SMap Nat) : (s.withCondDet v).alarms = s.alarms := by rfl
@[simp] theorem withCondDet_mgt (v : SMap Nat) : (s.withCondDet v).mgt = s.mgt := by rfl

/-! ### withShadows -/

@[simp] theorem withShadows_pending (v : List Shadow) : (s.withShadows v).pending = s.pending := by rfl
@[simp] theorem withShadows_held (v : List Shadow) : (s.withShadows v).held = s.held := by rfl
@[simp] theorem withShadows_resuming (v : List Shadow) : (s.withShadows v).resuming = s.resuming := by rfl
@[simp] theorem withShadows_out (v : List Shadow) : (s.withShadows v).out = s.out := by rfl
@[simp] theorem withShadows_now (v : List Shadow) : (s.withShadows v).now = s.now := by rfl
@[simp] theorem withShadows_cnt (v : List Shadow) : (s.withShadows v).cnt = s.cnt := by rfl
@[simp] theorem withShadows_freeCtr (v : List Shadow) : (s.withShadows v).freeCtr = s.freeCtr := by rfl
@[simp] theorem withShadows_phase (v : List Shadow) : (s.withShadows v).phase = s.phase := by rfl
@[simp] theorem withShadows_resetAt (v : List Shadow) : (s.withShadows v).resetAt = s.resetAt := by rfl
@[simp] theorem withShadows_regs (v : List Shadow) : (s.withShadows v).regs = s.regs := by rfl
@[simp] theorem withShadows_latch (v : List Shadow) : (s.withShadows v).latch = s.latch := by rfl
@[simp] theorem withShadows_sess (v : List Shadow) : (s.withShadows v).sess = s.sess := by rfl
@[simp] theorem withShadows_owner (v : List Shadow) : (s.withShadows v).owner = s.owner := by rfl
@[simp] theorem withShadows_elect (v : List Shadow) : (s.withShadows v).elect = s.elect := by rfl
@[simp] theorem withShadows_ops (v : List Shadow) : (s.withShadows v).ops = s.ops := by rfl
@[simp] theorem withShadows_reports (v : List Shadow) : (s.withShadows v).reports = s.reports := by rfl
@[simp] theorem withShadows_condOn (v : List Shadow) : (s.withShadows v).condOn = s.condOn := by rfl
@[simp] theorem withShadows_shadows (v : List Shadow) : (s.withShadows v).shadows = v := by rfl
@[simp] theorem withShadows_rst (v : List Shadow) : (s.withShadows v).rst = s.rst := by rfl
@[simp] theorem withShadows_stalls (v : List Shadow) : (s.withShadows v).stalls = s.stalls := by rfl
@[simp] theorem withShadows_chans (v : List Shadow) : (s.withShadows v).chans = s.chans := by rfl
@[simp] theorem withShadows_queues (v : List Shadow) : (s.withShadows v).queues = s.queues := by rfl
@[simp] theorem withShadows_streams (v : List Shadow) : (s.withShadows v).streams = s.streams := by rfl
@[simp] theorem withShadows_mem (v : List Shadow) : (s.withShadows v).mem = s.mem := by rfl
@[simp] theorem withShadows_psn (v : List Shadow) : (s.withShadows v).psn = s.psn := by rfl
@[simp] theorem withShadows_err (v : List Shadow) : (s.withShadows v).err = s.err := by rfl
@[simp] theorem withShadows_inited (v : List Shadow) : (s.withShadows v).inited = s.inited := by rfl
@[simp] theorem withShadows_dram (v : List Shadow) : (s.withShadows v).dram = s.dram := by rfl
@[simp] theorem withShadows_mig (v : List Shadow) : (s.withShadows v).mig = s.mig := by rfl
@[simp] theorem withShadows_tack (v : List Shadow) : (s.withShadows v).tack = s.tack := by rfl
@[simp] theorem withShadows_tims (v : List Shadow) : (s.withShadows v).tims = s.tims := by rfl
@[simp] theorem withShadows_flts (v : List Shadow) : (s.withShadows v).flts = s.flts := by rfl
@[simp] theorem withShadows_alarms (v : List Shadow) : (s.withShadows v).alarms = s.alarms := by rfl
@[simp] theorem withShadows_mgt (v : List Shadow) : (s.withShadows v).mgt = s.mgt := by rfl

/-! ### withLastEvt -/

@[simp] theorem withLastEvt_pending (v : SMap (Option Nat)) : (s.withLastEvt v).pending = s.pending := by rfl
@[simp] theorem withLastEvt_held (v : SMap (Option Nat)) : (s.withLastEvt v).held = s.held := by rfl
@[simp] theorem withLastEvt_resuming (v : SMap (Option Nat)) : (s.withLastEvt v).resuming = s.resuming := by rfl
@[simp] theorem withLastEvt_out (v : SMap (Option Nat)) : (s.withLastEvt v).out = s.out := by rfl
@[simp] theorem withLastEvt_now (v : SMap (Option Nat)) : (s.withLastEvt v).now = s.now := by rfl
@[simp] theorem withLastEvt_cnt (v : SMap (Option Nat)) : (s.withLastEvt v).cnt = s.cnt := by rfl
@[simp] theorem withLastEvt_freeCtr (v : SMap (Option Nat)) : (s.withLastEvt v).freeCtr = s.freeCtr := by rfl
@[simp] theorem withLastEvt_phase (v : SMap (Option Nat)) : (s.withLastEvt v).phase = s.phase := by rfl
@[simp] theorem withLastEvt_resetAt (v : SMap (Option Nat)) : (s.withLastEvt v).resetAt = s.resetAt := by rfl
@[simp] theorem withLastEvt_regs (v : SMap (Option Nat)) : (s.withLastEvt v).regs = s.regs := by rfl
@[simp] theorem withLastEvt_latch (v : SMap (Option Nat)) : (s.withLastEvt v).latch = s.latch := by rfl
@[simp] theorem withLastEvt_sess (v : SMap (Option Nat)) : (s.withLastEvt v).sess = s.sess := by rfl
@[simp] theorem withLastEvt_owner (v : SMap (Option Nat)) : (s.withLastEvt v).owner = s.owner := by rfl
@[simp] theorem withLastEvt_elect (v : SMap (Option Nat)) : (s.withLastEvt v).elect = s.elect := by rfl
@[simp] theorem withLastEvt_ops (v : SMap (Option Nat)) : (s.withLastEvt v).ops = s.ops := by rfl
@[simp] theorem withLastEvt_reports (v : SMap (Option Nat)) : (s.withLastEvt v).reports = s.reports := by rfl
@[simp] theorem withLastEvt_condOn (v : SMap (Option Nat)) : (s.withLastEvt v).condOn = s.condOn := by rfl
@[simp] theorem withLastEvt_shadows (v : SMap (Option Nat)) : (s.withLastEvt v).shadows = s.shadows := by rfl
@[simp] theorem withLastEvt_lastEvt (v : SMap (Option Nat)) : (s.withLastEvt v).lastEvt = v := by rfl
@[simp] theorem withLastEvt_rst (v : SMap (Option Nat)) : (s.withLastEvt v).rst = s.rst := by rfl
@[simp] theorem withLastEvt_stalls (v : SMap (Option Nat)) : (s.withLastEvt v).stalls = s.stalls := by rfl
@[simp] theorem withLastEvt_chans (v : SMap (Option Nat)) : (s.withLastEvt v).chans = s.chans := by rfl
@[simp] theorem withLastEvt_queues (v : SMap (Option Nat)) : (s.withLastEvt v).queues = s.queues := by rfl
@[simp] theorem withLastEvt_streams (v : SMap (Option Nat)) : (s.withLastEvt v).streams = s.streams := by rfl
@[simp] theorem withLastEvt_mem (v : SMap (Option Nat)) : (s.withLastEvt v).mem = s.mem := by rfl
@[simp] theorem withLastEvt_psn (v : SMap (Option Nat)) : (s.withLastEvt v).psn = s.psn := by rfl
@[simp] theorem withLastEvt_err (v : SMap (Option Nat)) : (s.withLastEvt v).err = s.err := by rfl
@[simp] theorem withLastEvt_inited (v : SMap (Option Nat)) : (s.withLastEvt v).inited = s.inited := by rfl
@[simp] theorem withLastEvt_dram (v : SMap (Option Nat)) : (s.withLastEvt v).dram = s.dram := by rfl
@[simp] theorem withLastEvt_mig (v : SMap (Option Nat)) : (s.withLastEvt v).mig = s.mig := by rfl
@[simp] theorem withLastEvt_tack (v : SMap (Option Nat)) : (s.withLastEvt v).tack = s.tack := by rfl
@[simp] theorem withLastEvt_tims (v : SMap (Option Nat)) : (s.withLastEvt v).tims = s.tims := by rfl
@[simp] theorem withLastEvt_flts (v : SMap (Option Nat)) : (s.withLastEvt v).flts = s.flts := by rfl
@[simp] theorem withLastEvt_alarms (v : SMap (Option Nat)) : (s.withLastEvt v).alarms = s.alarms := by rfl
@[simp] theorem withLastEvt_mgt (v : SMap (Option Nat)) : (s.withLastEvt v).mgt = s.mgt := by rfl

/-! ### withSeenAt -/

@[simp] theorem withSeenAt_pending (v : SMap (Option Nat)) : (s.withSeenAt v).pending = s.pending := by rfl
@[simp] theorem withSeenAt_held (v : SMap (Option Nat)) : (s.withSeenAt v).held = s.held := by rfl
@[simp] theorem withSeenAt_resuming (v : SMap (Option Nat)) : (s.withSeenAt v).resuming = s.resuming := by rfl
@[simp] theorem withSeenAt_out (v : SMap (Option Nat)) : (s.withSeenAt v).out = s.out := by rfl
@[simp] theorem withSeenAt_now (v : SMap (Option Nat)) : (s.withSeenAt v).now = s.now := by rfl
@[simp] theorem withSeenAt_cnt (v : SMap (Option Nat)) : (s.withSeenAt v).cnt = s.cnt := by rfl
@[simp] theorem withSeenAt_freeCtr (v : SMap (Option Nat)) : (s.withSeenAt v).freeCtr = s.freeCtr := by rfl
@[simp] theorem withSeenAt_phase (v : SMap (Option Nat)) : (s.withSeenAt v).phase = s.phase := by rfl
@[simp] theorem withSeenAt_resetAt (v : SMap (Option Nat)) : (s.withSeenAt v).resetAt = s.resetAt := by rfl
@[simp] theorem withSeenAt_regs (v : SMap (Option Nat)) : (s.withSeenAt v).regs = s.regs := by rfl
@[simp] theorem withSeenAt_latch (v : SMap (Option Nat)) : (s.withSeenAt v).latch = s.latch := by rfl
@[simp] theorem withSeenAt_sess (v : SMap (Option Nat)) : (s.withSeenAt v).sess = s.sess := by rfl
@[simp] theorem withSeenAt_owner (v : SMap (Option Nat)) : (s.withSeenAt v).owner = s.owner := by rfl
@[simp] theorem withSeenAt_elect (v : SMap (Option Nat)) : (s.withSeenAt v).elect = s.elect := by rfl
@[simp] theorem withSeenAt_ops (v : SMap (Option Nat)) : (s.withSeenAt v).ops = s.ops := by rfl
@[simp] theorem withSeenAt_reports (v : SMap (Option Nat)) : (s.withSeenAt v).reports = s.reports := by rfl
@[simp] theorem withSeenAt_condOn (v : SMap (Option Nat)) : (s.withSeenAt v).condOn = s.condOn := by rfl
@[simp] theorem withSeenAt_shadows (v : SMap (Option Nat)) : (s.withSeenAt v).shadows = s.shadows := by rfl
@[simp] theorem withSeenAt_seenAt (v : SMap (Option Nat)) : (s.withSeenAt v).seenAt = v := by rfl
@[simp] theorem withSeenAt_rst (v : SMap (Option Nat)) : (s.withSeenAt v).rst = s.rst := by rfl
@[simp] theorem withSeenAt_stalls (v : SMap (Option Nat)) : (s.withSeenAt v).stalls = s.stalls := by rfl
@[simp] theorem withSeenAt_chans (v : SMap (Option Nat)) : (s.withSeenAt v).chans = s.chans := by rfl
@[simp] theorem withSeenAt_queues (v : SMap (Option Nat)) : (s.withSeenAt v).queues = s.queues := by rfl
@[simp] theorem withSeenAt_streams (v : SMap (Option Nat)) : (s.withSeenAt v).streams = s.streams := by rfl
@[simp] theorem withSeenAt_mem (v : SMap (Option Nat)) : (s.withSeenAt v).mem = s.mem := by rfl
@[simp] theorem withSeenAt_psn (v : SMap (Option Nat)) : (s.withSeenAt v).psn = s.psn := by rfl
@[simp] theorem withSeenAt_err (v : SMap (Option Nat)) : (s.withSeenAt v).err = s.err := by rfl
@[simp] theorem withSeenAt_inited (v : SMap (Option Nat)) : (s.withSeenAt v).inited = s.inited := by rfl
@[simp] theorem withSeenAt_dram (v : SMap (Option Nat)) : (s.withSeenAt v).dram = s.dram := by rfl
@[simp] theorem withSeenAt_mig (v : SMap (Option Nat)) : (s.withSeenAt v).mig = s.mig := by rfl
@[simp] theorem withSeenAt_tack (v : SMap (Option Nat)) : (s.withSeenAt v).tack = s.tack := by rfl
@[simp] theorem withSeenAt_tims (v : SMap (Option Nat)) : (s.withSeenAt v).tims = s.tims := by rfl
@[simp] theorem withSeenAt_flts (v : SMap (Option Nat)) : (s.withSeenAt v).flts = s.flts := by rfl
@[simp] theorem withSeenAt_alarms (v : SMap (Option Nat)) : (s.withSeenAt v).alarms = s.alarms := by rfl
@[simp] theorem withSeenAt_mgt (v : SMap (Option Nat)) : (s.withSeenAt v).mgt = s.mgt := by rfl

/-! ### withRst -/

@[simp] theorem withRst_pending (v : List Blk) : (s.withRst v).pending = s.pending := by rfl
@[simp] theorem withRst_held (v : List Blk) : (s.withRst v).held = s.held := by rfl
@[simp] theorem withRst_resuming (v : List Blk) : (s.withRst v).resuming = s.resuming := by rfl
@[simp] theorem withRst_out (v : List Blk) : (s.withRst v).out = s.out := by rfl
@[simp] theorem withRst_now (v : List Blk) : (s.withRst v).now = s.now := by rfl
@[simp] theorem withRst_cnt (v : List Blk) : (s.withRst v).cnt = s.cnt := by rfl
@[simp] theorem withRst_freeCtr (v : List Blk) : (s.withRst v).freeCtr = s.freeCtr := by rfl
@[simp] theorem withRst_phase (v : List Blk) : (s.withRst v).phase = s.phase := by rfl
@[simp] theorem withRst_resetAt (v : List Blk) : (s.withRst v).resetAt = s.resetAt := by rfl
@[simp] theorem withRst_regs (v : List Blk) : (s.withRst v).regs = s.regs := by rfl
@[simp] theorem withRst_latch (v : List Blk) : (s.withRst v).latch = s.latch := by rfl
@[simp] theorem withRst_sess (v : List Blk) : (s.withRst v).sess = s.sess := by rfl
@[simp] theorem withRst_owner (v : List Blk) : (s.withRst v).owner = s.owner := by rfl
@[simp] theorem withRst_elect (v : List Blk) : (s.withRst v).elect = s.elect := by rfl
@[simp] theorem withRst_ops (v : List Blk) : (s.withRst v).ops = s.ops := by rfl
@[simp] theorem withRst_reports (v : List Blk) : (s.withRst v).reports = s.reports := by rfl
@[simp] theorem withRst_condOn (v : List Blk) : (s.withRst v).condOn = s.condOn := by rfl
@[simp] theorem withRst_shadows (v : List Blk) : (s.withRst v).shadows = s.shadows := by rfl
@[simp] theorem withRst_rst (v : List Blk) : (s.withRst v).rst = v := by rfl
@[simp] theorem withRst_stalls (v : List Blk) : (s.withRst v).stalls = s.stalls := by rfl
@[simp] theorem withRst_chans (v : List Blk) : (s.withRst v).chans = s.chans := by rfl
@[simp] theorem withRst_queues (v : List Blk) : (s.withRst v).queues = s.queues := by rfl
@[simp] theorem withRst_streams (v : List Blk) : (s.withRst v).streams = s.streams := by rfl
@[simp] theorem withRst_mem (v : List Blk) : (s.withRst v).mem = s.mem := by rfl
@[simp] theorem withRst_psn (v : List Blk) : (s.withRst v).psn = s.psn := by rfl
@[simp] theorem withRst_err (v : List Blk) : (s.withRst v).err = s.err := by rfl
@[simp] theorem withRst_inited (v : List Blk) : (s.withRst v).inited = s.inited := by rfl
@[simp] theorem withRst_dram (v : List Blk) : (s.withRst v).dram = s.dram := by rfl
@[simp] theorem withRst_mig (v : List Blk) : (s.withRst v).mig = s.mig := by rfl
@[simp] theorem withRst_tack (v : List Blk) : (s.withRst v).tack = s.tack := by rfl
@[simp] theorem withRst_tims (v : List Blk) : (s.withRst v).tims = s.tims := by rfl
@[simp] theorem withRst_flts (v : List Blk) : (s.withRst v).flts = s.flts := by rfl
@[simp] theorem withRst_alarms (v : List Blk) : (s.withRst v).alarms = s.alarms := by rfl
@[simp] theorem withRst_mgt (v : List Blk) : (s.withRst v).mgt = s.mgt := by rfl

/-! ### withStalls -/

@[simp] theorem withStalls_pending (v : SMap Stall) : (s.withStalls v).pending = s.pending := by rfl
@[simp] theorem withStalls_held (v : SMap Stall) : (s.withStalls v).held = s.held := by rfl
@[simp] theorem withStalls_resuming (v : SMap Stall) : (s.withStalls v).resuming = s.resuming := by rfl
@[simp] theorem withStalls_out (v : SMap Stall) : (s.withStalls v).out = s.out := by rfl
@[simp] theorem withStalls_now (v : SMap Stall) : (s.withStalls v).now = s.now := by rfl
@[simp] theorem withStalls_cnt (v : SMap Stall) : (s.withStalls v).cnt = s.cnt := by rfl
@[simp] theorem withStalls_freeCtr (v : SMap Stall) : (s.withStalls v).freeCtr = s.freeCtr := by rfl
@[simp] theorem withStalls_phase (v : SMap Stall) : (s.withStalls v).phase = s.phase := by rfl
@[simp] theorem withStalls_resetAt (v : SMap Stall) : (s.withStalls v).resetAt = s.resetAt := by rfl
@[simp] theorem withStalls_regs (v : SMap Stall) : (s.withStalls v).regs = s.regs := by rfl
@[simp] theorem withStalls_latch (v : SMap Stall) : (s.withStalls v).latch = s.latch := by rfl
@[simp] theorem withStalls_sess (v : SMap Stall) : (s.withStalls v).sess = s.sess := by rfl
@[simp] theorem withStalls_owner (v : SMap Stall) : (s.withStalls v).owner = s.owner := by rfl
@[simp] theorem withStalls_elect (v : SMap Stall) : (s.withStalls v).elect = s.elect := by rfl
@[simp] theorem withStalls_ops (v : SMap Stall) : (s.withStalls v).ops = s.ops := by rfl
@[simp] theorem withStalls_reports (v : SMap Stall) : (s.withStalls v).reports = s.reports := by rfl
@[simp] theorem withStalls_condOn (v : SMap Stall) : (s.withStalls v).condOn = s.condOn := by rfl
@[simp] theorem withStalls_shadows (v : SMap Stall) : (s.withStalls v).shadows = s.shadows := by rfl
@[simp] theorem withStalls_rst (v : SMap Stall) : (s.withStalls v).rst = s.rst := by rfl
@[simp] theorem withStalls_stalls (v : SMap Stall) : (s.withStalls v).stalls = v := by rfl
@[simp] theorem withStalls_chans (v : SMap Stall) : (s.withStalls v).chans = s.chans := by rfl
@[simp] theorem withStalls_queues (v : SMap Stall) : (s.withStalls v).queues = s.queues := by rfl
@[simp] theorem withStalls_streams (v : SMap Stall) : (s.withStalls v).streams = s.streams := by rfl
@[simp] theorem withStalls_mem (v : SMap Stall) : (s.withStalls v).mem = s.mem := by rfl
@[simp] theorem withStalls_psn (v : SMap Stall) : (s.withStalls v).psn = s.psn := by rfl
@[simp] theorem withStalls_err (v : SMap Stall) : (s.withStalls v).err = s.err := by rfl
@[simp] theorem withStalls_inited (v : SMap Stall) : (s.withStalls v).inited = s.inited := by rfl
@[simp] theorem withStalls_dram (v : SMap Stall) : (s.withStalls v).dram = s.dram := by rfl
@[simp] theorem withStalls_mig (v : SMap Stall) : (s.withStalls v).mig = s.mig := by rfl
@[simp] theorem withStalls_tack (v : SMap Stall) : (s.withStalls v).tack = s.tack := by rfl
@[simp] theorem withStalls_tims (v : SMap Stall) : (s.withStalls v).tims = s.tims := by rfl
@[simp] theorem withStalls_flts (v : SMap Stall) : (s.withStalls v).flts = s.flts := by rfl
@[simp] theorem withStalls_alarms (v : SMap Stall) : (s.withStalls v).alarms = s.alarms := by rfl
@[simp] theorem withStalls_mgt (v : SMap Stall) : (s.withStalls v).mgt = s.mgt := by rfl

/-! ### withChans -/

@[simp] theorem withChans_pending (v : SMap Chan) : (s.withChans v).pending = s.pending := by rfl
@[simp] theorem withChans_held (v : SMap Chan) : (s.withChans v).held = s.held := by rfl
@[simp] theorem withChans_resuming (v : SMap Chan) : (s.withChans v).resuming = s.resuming := by rfl
@[simp] theorem withChans_out (v : SMap Chan) : (s.withChans v).out = s.out := by rfl
@[simp] theorem withChans_now (v : SMap Chan) : (s.withChans v).now = s.now := by rfl
@[simp] theorem withChans_cnt (v : SMap Chan) : (s.withChans v).cnt = s.cnt := by rfl
@[simp] theorem withChans_freeCtr (v : SMap Chan) : (s.withChans v).freeCtr = s.freeCtr := by rfl
@[simp] theorem withChans_phase (v : SMap Chan) : (s.withChans v).phase = s.phase := by rfl
@[simp] theorem withChans_resetAt (v : SMap Chan) : (s.withChans v).resetAt = s.resetAt := by rfl
@[simp] theorem withChans_regs (v : SMap Chan) : (s.withChans v).regs = s.regs := by rfl
@[simp] theorem withChans_latch (v : SMap Chan) : (s.withChans v).latch = s.latch := by rfl
@[simp] theorem withChans_sess (v : SMap Chan) : (s.withChans v).sess = s.sess := by rfl
@[simp] theorem withChans_owner (v : SMap Chan) : (s.withChans v).owner = s.owner := by rfl
@[simp] theorem withChans_elect (v : SMap Chan) : (s.withChans v).elect = s.elect := by rfl
@[simp] theorem withChans_ops (v : SMap Chan) : (s.withChans v).ops = s.ops := by rfl
@[simp] theorem withChans_reports (v : SMap Chan) : (s.withChans v).reports = s.reports := by rfl
@[simp] theorem withChans_condOn (v : SMap Chan) : (s.withChans v).condOn = s.condOn := by rfl
@[simp] theorem withChans_shadows (v : SMap Chan) : (s.withChans v).shadows = s.shadows := by rfl
@[simp] theorem withChans_rst (v : SMap Chan) : (s.withChans v).rst = s.rst := by rfl
@[simp] theorem withChans_stalls (v : SMap Chan) : (s.withChans v).stalls = s.stalls := by rfl
@[simp] theorem withChans_chans (v : SMap Chan) : (s.withChans v).chans = v := by rfl
@[simp] theorem withChans_queues (v : SMap Chan) : (s.withChans v).queues = s.queues := by rfl
@[simp] theorem withChans_streams (v : SMap Chan) : (s.withChans v).streams = s.streams := by rfl
@[simp] theorem withChans_mem (v : SMap Chan) : (s.withChans v).mem = s.mem := by rfl
@[simp] theorem withChans_psn (v : SMap Chan) : (s.withChans v).psn = s.psn := by rfl
@[simp] theorem withChans_err (v : SMap Chan) : (s.withChans v).err = s.err := by rfl
@[simp] theorem withChans_inited (v : SMap Chan) : (s.withChans v).inited = s.inited := by rfl
@[simp] theorem withChans_dram (v : SMap Chan) : (s.withChans v).dram = s.dram := by rfl
@[simp] theorem withChans_mig (v : SMap Chan) : (s.withChans v).mig = s.mig := by rfl
@[simp] theorem withChans_tack (v : SMap Chan) : (s.withChans v).tack = s.tack := by rfl
@[simp] theorem withChans_tims (v : SMap Chan) : (s.withChans v).tims = s.tims := by rfl
@[simp] theorem withChans_flts (v : SMap Chan) : (s.withChans v).flts = s.flts := by rfl
@[simp] theorem withChans_alarms (v : SMap Chan) : (s.withChans v).alarms = s.alarms := by rfl
@[simp] theorem withChans_mgt (v : SMap Chan) : (s.withChans v).mgt = s.mgt := by rfl

/-! ### withFramers -/

@[simp] theorem withFramers_pending (v : SMap Framer) : (s.withFramers v).pending = s.pending := by rfl
@[simp] theorem withFramers_held (v : SMap Framer) : (s.withFramers v).held = s.held := by rfl
@[simp] theorem withFramers_resuming (v : SMap Framer) : (s.withFramers v).resuming = s.resuming := by rfl
@[simp] theorem withFramers_out (v : SMap Framer) : (s.withFramers v).out = s.out := by rfl
@[simp] theorem withFramers_now (v : SMap Framer) : (s.withFramers v).now = s.now := by rfl
@[simp] theorem withFramers_cnt (v : SMap Framer) : (s.withFramers v).cnt = s.cnt := by rfl
@[simp] theorem withFramers_freeCtr (v : SMap Framer) : (s.withFramers v).freeCtr = s.freeCtr := by rfl
@[simp] theorem withFramers_phase (v : SMap Framer) : (s.withFramers v).phase = s.phase := by rfl
@[simp] theorem withFramers_resetAt (v : SMap Framer) : (s.withFramers v).resetAt = s.resetAt := by rfl
@[simp] theorem withFramers_regs (v : SMap Framer) : (s.withFramers v).regs = s.regs := by rfl
@[simp] theorem withFramers_latch (v : SMap Framer) : (s.withFramers v).latch = s.latch := by rfl
@[simp] theorem withFramers_sess (v : SMap Framer) : (s.withFramers v).sess = s.sess := by rfl
@[simp] theorem withFramers_owner (v : SMap Framer) : (s.withFramers v).owner = s.owner := by rfl
@[simp] theorem withFramers_elect (v : SMap Framer) : (s.withFramers v).elect = s.elect := by rfl
@[simp] theorem withFramers_ops (v : SMap Framer) : (s.withFramers v).ops = s.ops := by rfl
@[simp] theorem withFramers_reports (v : SMap Framer) : (s.withFramers v).reports = s.reports := by rfl
@[simp] theorem withFramers_condOn (v : SMap Framer) : (s.withFramers v).condOn = s.condOn := by rfl
@[simp] theorem withFramers_shadows (v : SMap Framer) : (s.withFramers v).shadows = s.shadows := by rfl
@[simp] theorem withFramers_rst (v : SMap Framer) : (s.withFramers v).rst = s.rst := by rfl
@[simp] theorem withFramers_stalls (v : SMap Framer) : (s.withFramers v).stalls = s.stalls := by rfl
@[simp] theorem withFramers_chans (v : SMap Framer) : (s.withFramers v).chans = s.chans := by rfl
@[simp] theorem withFramers_framers (v : SMap Framer) : (s.withFramers v).framers = v := by rfl
@[simp] theorem withFramers_queues (v : SMap Framer) : (s.withFramers v).queues = s.queues := by rfl
@[simp] theorem withFramers_streams (v : SMap Framer) : (s.withFramers v).streams = s.streams := by rfl
@[simp] theorem withFramers_mem (v : SMap Framer) : (s.withFramers v).mem = s.mem := by rfl
@[simp] theorem withFramers_psn (v : SMap Framer) : (s.withFramers v).psn = s.psn := by rfl
@[simp] theorem withFramers_err (v : SMap Framer) : (s.withFramers v).err = s.err := by rfl
@[simp] theorem withFramers_inited (v : SMap Framer) : (s.withFramers v).inited = s.inited := by rfl
@[simp] theorem withFramers_dram (v : SMap Framer) : (s.withFramers v).dram = s.dram := by rfl
@[simp] theorem withFramers_mig (v : SMap Framer) : (s.withFramers v).mig = s.mig := by rfl
@[simp] theorem withFramers_tack (v : SMap Framer) : (s.withFramers v).tack = s.tack := by rfl
@[simp] theorem withFramers_tims (v : SMap Framer) : (s.withFramers v).tims = s.tims := by rfl
@[simp] theorem withFramers_flts (v : SMap Framer) : (s.withFramers v).flts = s.flts := by rfl
@[simp] theorem withFramers_alarms (v : SMap Framer) : (s.withFramers v).alarms = s.alarms := by rfl
@[simp] theorem withFramers_mgt (v : SMap Framer) : (s.withFramers v).mgt = s.mgt := by rfl

/-! ### withQueues -/

@[simp] theorem withQueues_pending (v : SMap QState) : (s.withQueues v).pending = s.pending := by rfl
@[simp] theorem withQueues_held (v : SMap QState) : (s.withQueues v).held = s.held := by rfl
@[simp] theorem withQueues_resuming (v : SMap QState) : (s.withQueues v).resuming = s.resuming := by rfl
@[simp] theorem withQueues_out (v : SMap QState) : (s.withQueues v).out = s.out := by rfl
@[simp] theorem withQueues_now (v : SMap QState) : (s.withQueues v).now = s.now := by rfl
@[simp] theorem withQueues_cnt (v : SMap QState) : (s.withQueues v).cnt = s.cnt := by rfl
@[simp] theorem withQueues_freeCtr (v : SMap QState) : (s.withQueues v).freeCtr = s.freeCtr := by rfl
@[simp] theorem withQueues_phase (v : SMap QState) : (s.withQueues v).phase = s.phase := by rfl
@[simp] theorem withQueues_resetAt (v : SMap QState) : (s.withQueues v).resetAt = s.resetAt := by rfl
@[simp] theorem withQueues_regs (v : SMap QState) : (s.withQueues v).regs = s.regs := by rfl
@[simp] theorem withQueues_latch (v : SMap QState) : (s.withQueues v).latch = s.latch := by rfl
@[simp] theorem withQueues_sess (v : SMap QState) : (s.withQueues v).sess = s.sess := by rfl
@[simp] theorem withQueues_owner (v : SMap QState) : (s.withQueues v).owner = s.owner := by rfl
@[simp] theorem withQueues_elect (v : SMap QState) : (s.withQueues v).elect = s.elect := by rfl
@[simp] theorem withQueues_ops (v : SMap QState) : (s.withQueues v).ops = s.ops := by rfl
@[simp] theorem withQueues_reports (v : SMap QState) : (s.withQueues v).reports = s.reports := by rfl
@[simp] theorem withQueues_condOn (v : SMap QState) : (s.withQueues v).condOn = s.condOn := by rfl
@[simp] theorem withQueues_shadows (v : SMap QState) : (s.withQueues v).shadows = s.shadows := by rfl
@[simp] theorem withQueues_rst (v : SMap QState) : (s.withQueues v).rst = s.rst := by rfl
@[simp] theorem withQueues_stalls (v : SMap QState) : (s.withQueues v).stalls = s.stalls := by rfl
@[simp] theorem withQueues_chans (v : SMap QState) : (s.withQueues v).chans = s.chans := by rfl
@[simp] theorem withQueues_queues (v : SMap QState) : (s.withQueues v).queues = v := by rfl
@[simp] theorem withQueues_streams (v : SMap QState) : (s.withQueues v).streams = s.streams := by rfl
@[simp] theorem withQueues_mem (v : SMap QState) : (s.withQueues v).mem = s.mem := by rfl
@[simp] theorem withQueues_psn (v : SMap QState) : (s.withQueues v).psn = s.psn := by rfl
@[simp] theorem withQueues_err (v : SMap QState) : (s.withQueues v).err = s.err := by rfl
@[simp] theorem withQueues_inited (v : SMap QState) : (s.withQueues v).inited = s.inited := by rfl
@[simp] theorem withQueues_dram (v : SMap QState) : (s.withQueues v).dram = s.dram := by rfl
@[simp] theorem withQueues_mig (v : SMap QState) : (s.withQueues v).mig = s.mig := by rfl
@[simp] theorem withQueues_tack (v : SMap QState) : (s.withQueues v).tack = s.tack := by rfl
@[simp] theorem withQueues_tims (v : SMap QState) : (s.withQueues v).tims = s.tims := by rfl
@[simp] theorem withQueues_flts (v : SMap QState) : (s.withQueues v).flts = s.flts := by rfl
@[simp] theorem withQueues_alarms (v : SMap QState) : (s.withQueues v).alarms = s.alarms := by rfl
@[simp] theorem withQueues_mgt (v : SMap QState) : (s.withQueues v).mgt = s.mgt := by rfl

/-! ### withStreams -/

@[simp] theorem withStreams_pending (v : SMap (Option Stream)) : (s.withStreams v).pending = s.pending := by rfl
@[simp] theorem withStreams_held (v : SMap (Option Stream)) : (s.withStreams v).held = s.held := by rfl
@[simp] theorem withStreams_resuming (v : SMap (Option Stream)) : (s.withStreams v).resuming = s.resuming := by rfl
@[simp] theorem withStreams_out (v : SMap (Option Stream)) : (s.withStreams v).out = s.out := by rfl
@[simp] theorem withStreams_now (v : SMap (Option Stream)) : (s.withStreams v).now = s.now := by rfl
@[simp] theorem withStreams_cnt (v : SMap (Option Stream)) : (s.withStreams v).cnt = s.cnt := by rfl
@[simp] theorem withStreams_freeCtr (v : SMap (Option Stream)) : (s.withStreams v).freeCtr = s.freeCtr := by rfl
@[simp] theorem withStreams_phase (v : SMap (Option Stream)) : (s.withStreams v).phase = s.phase := by rfl
@[simp] theorem withStreams_resetAt (v : SMap (Option Stream)) : (s.withStreams v).resetAt = s.resetAt := by rfl
@[simp] theorem withStreams_regs (v : SMap (Option Stream)) : (s.withStreams v).regs = s.regs := by rfl
@[simp] theorem withStreams_latch (v : SMap (Option Stream)) : (s.withStreams v).latch = s.latch := by rfl
@[simp] theorem withStreams_sess (v : SMap (Option Stream)) : (s.withStreams v).sess = s.sess := by rfl
@[simp] theorem withStreams_owner (v : SMap (Option Stream)) : (s.withStreams v).owner = s.owner := by rfl
@[simp] theorem withStreams_elect (v : SMap (Option Stream)) : (s.withStreams v).elect = s.elect := by rfl
@[simp] theorem withStreams_ops (v : SMap (Option Stream)) : (s.withStreams v).ops = s.ops := by rfl
@[simp] theorem withStreams_reports (v : SMap (Option Stream)) : (s.withStreams v).reports = s.reports := by rfl
@[simp] theorem withStreams_condOn (v : SMap (Option Stream)) : (s.withStreams v).condOn = s.condOn := by rfl
@[simp] theorem withStreams_shadows (v : SMap (Option Stream)) : (s.withStreams v).shadows = s.shadows := by rfl
@[simp] theorem withStreams_rst (v : SMap (Option Stream)) : (s.withStreams v).rst = s.rst := by rfl
@[simp] theorem withStreams_stalls (v : SMap (Option Stream)) : (s.withStreams v).stalls = s.stalls := by rfl
@[simp] theorem withStreams_chans (v : SMap (Option Stream)) : (s.withStreams v).chans = s.chans := by rfl
@[simp] theorem withStreams_queues (v : SMap (Option Stream)) : (s.withStreams v).queues = s.queues := by rfl
@[simp] theorem withStreams_streams (v : SMap (Option Stream)) : (s.withStreams v).streams = v := by rfl
@[simp] theorem withStreams_mem (v : SMap (Option Stream)) : (s.withStreams v).mem = s.mem := by rfl
@[simp] theorem withStreams_psn (v : SMap (Option Stream)) : (s.withStreams v).psn = s.psn := by rfl
@[simp] theorem withStreams_err (v : SMap (Option Stream)) : (s.withStreams v).err = s.err := by rfl
@[simp] theorem withStreams_inited (v : SMap (Option Stream)) : (s.withStreams v).inited = s.inited := by rfl
@[simp] theorem withStreams_dram (v : SMap (Option Stream)) : (s.withStreams v).dram = s.dram := by rfl
@[simp] theorem withStreams_mig (v : SMap (Option Stream)) : (s.withStreams v).mig = s.mig := by rfl
@[simp] theorem withStreams_tack (v : SMap (Option Stream)) : (s.withStreams v).tack = s.tack := by rfl
@[simp] theorem withStreams_tims (v : SMap (Option Stream)) : (s.withStreams v).tims = s.tims := by rfl
@[simp] theorem withStreams_flts (v : SMap (Option Stream)) : (s.withStreams v).flts = s.flts := by rfl
@[simp] theorem withStreams_alarms (v : SMap (Option Stream)) : (s.withStreams v).alarms = s.alarms := by rfl
@[simp] theorem withStreams_mgt (v : SMap (Option Stream)) : (s.withStreams v).mgt = s.mgt := by rfl

/-! ### withSrcBuf -/

@[simp] theorem withSrcBuf_pending (v : SMap (List Rec)) : (s.withSrcBuf v).pending = s.pending := by rfl
@[simp] theorem withSrcBuf_held (v : SMap (List Rec)) : (s.withSrcBuf v).held = s.held := by rfl
@[simp] theorem withSrcBuf_resuming (v : SMap (List Rec)) : (s.withSrcBuf v).resuming = s.resuming := by rfl
@[simp] theorem withSrcBuf_out (v : SMap (List Rec)) : (s.withSrcBuf v).out = s.out := by rfl
@[simp] theorem withSrcBuf_now (v : SMap (List Rec)) : (s.withSrcBuf v).now = s.now := by rfl
@[simp] theorem withSrcBuf_cnt (v : SMap (List Rec)) : (s.withSrcBuf v).cnt = s.cnt := by rfl
@[simp] theorem withSrcBuf_freeCtr (v : SMap (List Rec)) : (s.withSrcBuf v).freeCtr = s.freeCtr := by rfl
@[simp] theorem withSrcBuf_phase (v : SMap (List Rec)) : (s.withSrcBuf v).phase = s.phase := by rfl
@[simp] theorem withSrcBuf_resetAt (v : SMap (List Rec)) : (s.withSrcBuf v).resetAt = s.resetAt := by rfl
@[simp] theorem withSrcBuf_regs (v : SMap (List Rec)) : (s.withSrcBuf v).regs = s.regs := by rfl
@[simp] theorem withSrcBuf_latch (v : SMap (List Rec)) : (s.withSrcBuf v).latch = s.latch := by rfl
@[simp] theorem withSrcBuf_sess (v : SMap (List Rec)) : (s.withSrcBuf v).sess = s.sess := by rfl
@[simp] theorem withSrcBuf_owner (v : SMap (List Rec)) : (s.withSrcBuf v).owner = s.owner := by rfl
@[simp] theorem withSrcBuf_elect (v : SMap (List Rec)) : (s.withSrcBuf v).elect = s.elect := by rfl
@[simp] theorem withSrcBuf_ops (v : SMap (List Rec)) : (s.withSrcBuf v).ops = s.ops := by rfl
@[simp] theorem withSrcBuf_reports (v : SMap (List Rec)) : (s.withSrcBuf v).reports = s.reports := by rfl
@[simp] theorem withSrcBuf_condOn (v : SMap (List Rec)) : (s.withSrcBuf v).condOn = s.condOn := by rfl
@[simp] theorem withSrcBuf_shadows (v : SMap (List Rec)) : (s.withSrcBuf v).shadows = s.shadows := by rfl
@[simp] theorem withSrcBuf_rst (v : SMap (List Rec)) : (s.withSrcBuf v).rst = s.rst := by rfl
@[simp] theorem withSrcBuf_stalls (v : SMap (List Rec)) : (s.withSrcBuf v).stalls = s.stalls := by rfl
@[simp] theorem withSrcBuf_chans (v : SMap (List Rec)) : (s.withSrcBuf v).chans = s.chans := by rfl
@[simp] theorem withSrcBuf_queues (v : SMap (List Rec)) : (s.withSrcBuf v).queues = s.queues := by rfl
@[simp] theorem withSrcBuf_streams (v : SMap (List Rec)) : (s.withSrcBuf v).streams = s.streams := by rfl
@[simp] theorem withSrcBuf_srcBuf (v : SMap (List Rec)) : (s.withSrcBuf v).srcBuf = v := by rfl
@[simp] theorem withSrcBuf_mem (v : SMap (List Rec)) : (s.withSrcBuf v).mem = s.mem := by rfl
@[simp] theorem withSrcBuf_psn (v : SMap (List Rec)) : (s.withSrcBuf v).psn = s.psn := by rfl
@[simp] theorem withSrcBuf_err (v : SMap (List Rec)) : (s.withSrcBuf v).err = s.err := by rfl
@[simp] theorem withSrcBuf_inited (v : SMap (List Rec)) : (s.withSrcBuf v).inited = s.inited := by rfl
@[simp] theorem withSrcBuf_dram (v : SMap (List Rec)) : (s.withSrcBuf v).dram = s.dram := by rfl
@[simp] theorem withSrcBuf_mig (v : SMap (List Rec)) : (s.withSrcBuf v).mig = s.mig := by rfl
@[simp] theorem withSrcBuf_tack (v : SMap (List Rec)) : (s.withSrcBuf v).tack = s.tack := by rfl
@[simp] theorem withSrcBuf_tims (v : SMap (List Rec)) : (s.withSrcBuf v).tims = s.tims := by rfl
@[simp] theorem withSrcBuf_flts (v : SMap (List Rec)) : (s.withSrcBuf v).flts = s.flts := by rfl
@[simp] theorem withSrcBuf_alarms (v : SMap (List Rec)) : (s.withSrcBuf v).alarms = s.alarms := by rfl
@[simp] theorem withSrcBuf_mgt (v : SMap (List Rec)) : (s.withSrcBuf v).mgt = s.mgt := by rfl

/-! ### withLoss -/

@[simp] theorem withLoss_pending (v : SMap (Option LossRun)) : (s.withLoss v).pending = s.pending := by rfl
@[simp] theorem withLoss_held (v : SMap (Option LossRun)) : (s.withLoss v).held = s.held := by rfl
@[simp] theorem withLoss_resuming (v : SMap (Option LossRun)) : (s.withLoss v).resuming = s.resuming := by rfl
@[simp] theorem withLoss_out (v : SMap (Option LossRun)) : (s.withLoss v).out = s.out := by rfl
@[simp] theorem withLoss_now (v : SMap (Option LossRun)) : (s.withLoss v).now = s.now := by rfl
@[simp] theorem withLoss_cnt (v : SMap (Option LossRun)) : (s.withLoss v).cnt = s.cnt := by rfl
@[simp] theorem withLoss_freeCtr (v : SMap (Option LossRun)) : (s.withLoss v).freeCtr = s.freeCtr := by rfl
@[simp] theorem withLoss_phase (v : SMap (Option LossRun)) : (s.withLoss v).phase = s.phase := by rfl
@[simp] theorem withLoss_resetAt (v : SMap (Option LossRun)) : (s.withLoss v).resetAt = s.resetAt := by rfl
@[simp] theorem withLoss_regs (v : SMap (Option LossRun)) : (s.withLoss v).regs = s.regs := by rfl
@[simp] theorem withLoss_latch (v : SMap (Option LossRun)) : (s.withLoss v).latch = s.latch := by rfl
@[simp] theorem withLoss_sess (v : SMap (Option LossRun)) : (s.withLoss v).sess = s.sess := by rfl
@[simp] theorem withLoss_owner (v : SMap (Option LossRun)) : (s.withLoss v).owner = s.owner := by rfl
@[simp] theorem withLoss_elect (v : SMap (Option LossRun)) : (s.withLoss v).elect = s.elect := by rfl
@[simp] theorem withLoss_ops (v : SMap (Option LossRun)) : (s.withLoss v).ops = s.ops := by rfl
@[simp] theorem withLoss_reports (v : SMap (Option LossRun)) : (s.withLoss v).reports = s.reports := by rfl
@[simp] theorem withLoss_condOn (v : SMap (Option LossRun)) : (s.withLoss v).condOn = s.condOn := by rfl
@[simp] theorem withLoss_shadows (v : SMap (Option LossRun)) : (s.withLoss v).shadows = s.shadows := by rfl
@[simp] theorem withLoss_rst (v : SMap (Option LossRun)) : (s.withLoss v).rst = s.rst := by rfl
@[simp] theorem withLoss_stalls (v : SMap (Option LossRun)) : (s.withLoss v).stalls = s.stalls := by rfl
@[simp] theorem withLoss_chans (v : SMap (Option LossRun)) : (s.withLoss v).chans = s.chans := by rfl
@[simp] theorem withLoss_queues (v : SMap (Option LossRun)) : (s.withLoss v).queues = s.queues := by rfl
@[simp] theorem withLoss_streams (v : SMap (Option LossRun)) : (s.withLoss v).streams = s.streams := by rfl
@[simp] theorem withLoss_loss (v : SMap (Option LossRun)) : (s.withLoss v).loss = v := by rfl
@[simp] theorem withLoss_mem (v : SMap (Option LossRun)) : (s.withLoss v).mem = s.mem := by rfl
@[simp] theorem withLoss_psn (v : SMap (Option LossRun)) : (s.withLoss v).psn = s.psn := by rfl
@[simp] theorem withLoss_err (v : SMap (Option LossRun)) : (s.withLoss v).err = s.err := by rfl
@[simp] theorem withLoss_inited (v : SMap (Option LossRun)) : (s.withLoss v).inited = s.inited := by rfl
@[simp] theorem withLoss_dram (v : SMap (Option LossRun)) : (s.withLoss v).dram = s.dram := by rfl
@[simp] theorem withLoss_mig (v : SMap (Option LossRun)) : (s.withLoss v).mig = s.mig := by rfl
@[simp] theorem withLoss_tack (v : SMap (Option LossRun)) : (s.withLoss v).tack = s.tack := by rfl
@[simp] theorem withLoss_tims (v : SMap (Option LossRun)) : (s.withLoss v).tims = s.tims := by rfl
@[simp] theorem withLoss_flts (v : SMap (Option LossRun)) : (s.withLoss v).flts = s.flts := by rfl
@[simp] theorem withLoss_alarms (v : SMap (Option LossRun)) : (s.withLoss v).alarms = s.alarms := by rfl
@[simp] theorem withLoss_mgt (v : SMap (Option LossRun)) : (s.withLoss v).mgt = s.mgt := by rfl

/-! ### withLossOld -/

@[simp] theorem withLossOld_pending (v : SMap (Option LossRun)) : (s.withLossOld v).pending = s.pending := by rfl
@[simp] theorem withLossOld_held (v : SMap (Option LossRun)) : (s.withLossOld v).held = s.held := by rfl
@[simp] theorem withLossOld_resuming (v : SMap (Option LossRun)) : (s.withLossOld v).resuming = s.resuming := by rfl
@[simp] theorem withLossOld_out (v : SMap (Option LossRun)) : (s.withLossOld v).out = s.out := by rfl
@[simp] theorem withLossOld_now (v : SMap (Option LossRun)) : (s.withLossOld v).now = s.now := by rfl
@[simp] theorem withLossOld_cnt (v : SMap (Option LossRun)) : (s.withLossOld v).cnt = s.cnt := by rfl
@[simp] theorem withLossOld_freeCtr (v : SMap (Option LossRun)) : (s.withLossOld v).freeCtr = s.freeCtr := by rfl
@[simp] theorem withLossOld_phase (v : SMap (Option LossRun)) : (s.withLossOld v).phase = s.phase := by rfl
@[simp] theorem withLossOld_resetAt (v : SMap (Option LossRun)) : (s.withLossOld v).resetAt = s.resetAt := by rfl
@[simp] theorem withLossOld_regs (v : SMap (Option LossRun)) : (s.withLossOld v).regs = s.regs := by rfl
@[simp] theorem withLossOld_latch (v : SMap (Option LossRun)) : (s.withLossOld v).latch = s.latch := by rfl
@[simp] theorem withLossOld_sess (v : SMap (Option LossRun)) : (s.withLossOld v).sess = s.sess := by rfl
@[simp] theorem withLossOld_owner (v : SMap (Option LossRun)) : (s.withLossOld v).owner = s.owner := by rfl
@[simp] theorem withLossOld_elect (v : SMap (Option LossRun)) : (s.withLossOld v).elect = s.elect := by rfl
@[simp] theorem withLossOld_ops (v : SMap (Option LossRun)) : (s.withLossOld v).ops = s.ops := by rfl
@[simp] theorem withLossOld_reports (v : SMap (Option LossRun)) : (s.withLossOld v).reports = s.reports := by rfl
@[simp] theorem withLossOld_condOn (v : SMap (Option LossRun)) : (s.withLossOld v).condOn = s.condOn := by rfl
@[simp] theorem withLossOld_shadows (v : SMap (Option LossRun)) : (s.withLossOld v).shadows = s.shadows := by rfl
@[simp] theorem withLossOld_rst (v : SMap (Option LossRun)) : (s.withLossOld v).rst = s.rst := by rfl
@[simp] theorem withLossOld_stalls (v : SMap (Option LossRun)) : (s.withLossOld v).stalls = s.stalls := by rfl
@[simp] theorem withLossOld_chans (v : SMap (Option LossRun)) : (s.withLossOld v).chans = s.chans := by rfl
@[simp] theorem withLossOld_queues (v : SMap (Option LossRun)) : (s.withLossOld v).queues = s.queues := by rfl
@[simp] theorem withLossOld_streams (v : SMap (Option LossRun)) : (s.withLossOld v).streams = s.streams := by rfl
@[simp] theorem withLossOld_lossOld (v : SMap (Option LossRun)) : (s.withLossOld v).lossOld = v := by rfl
@[simp] theorem withLossOld_mem (v : SMap (Option LossRun)) : (s.withLossOld v).mem = s.mem := by rfl
@[simp] theorem withLossOld_psn (v : SMap (Option LossRun)) : (s.withLossOld v).psn = s.psn := by rfl
@[simp] theorem withLossOld_err (v : SMap (Option LossRun)) : (s.withLossOld v).err = s.err := by rfl
@[simp] theorem withLossOld_inited (v : SMap (Option LossRun)) : (s.withLossOld v).inited = s.inited := by rfl
@[simp] theorem withLossOld_dram (v : SMap (Option LossRun)) : (s.withLossOld v).dram = s.dram := by rfl
@[simp] theorem withLossOld_mig (v : SMap (Option LossRun)) : (s.withLossOld v).mig = s.mig := by rfl
@[simp] theorem withLossOld_tack (v : SMap (Option LossRun)) : (s.withLossOld v).tack = s.tack := by rfl
@[simp] theorem withLossOld_tims (v : SMap (Option LossRun)) : (s.withLossOld v).tims = s.tims := by rfl
@[simp] theorem withLossOld_flts (v : SMap (Option LossRun)) : (s.withLossOld v).flts = s.flts := by rfl
@[simp] theorem withLossOld_alarms (v : SMap (Option LossRun)) : (s.withLossOld v).alarms = s.alarms := by rfl
@[simp] theorem withLossOld_mgt (v : SMap (Option LossRun)) : (s.withLossOld v).mgt = s.mgt := by rfl

/-! ### withTimePend -/

@[simp] theorem withTimePend_pending (v : SMap (List QWord)) : (s.withTimePend v).pending = s.pending := by rfl
@[simp] theorem withTimePend_held (v : SMap (List QWord)) : (s.withTimePend v).held = s.held := by rfl
@[simp] theorem withTimePend_resuming (v : SMap (List QWord)) : (s.withTimePend v).resuming = s.resuming := by rfl
@[simp] theorem withTimePend_out (v : SMap (List QWord)) : (s.withTimePend v).out = s.out := by rfl
@[simp] theorem withTimePend_now (v : SMap (List QWord)) : (s.withTimePend v).now = s.now := by rfl
@[simp] theorem withTimePend_cnt (v : SMap (List QWord)) : (s.withTimePend v).cnt = s.cnt := by rfl
@[simp] theorem withTimePend_freeCtr (v : SMap (List QWord)) : (s.withTimePend v).freeCtr = s.freeCtr := by rfl
@[simp] theorem withTimePend_phase (v : SMap (List QWord)) : (s.withTimePend v).phase = s.phase := by rfl
@[simp] theorem withTimePend_resetAt (v : SMap (List QWord)) : (s.withTimePend v).resetAt = s.resetAt := by rfl
@[simp] theorem withTimePend_regs (v : SMap (List QWord)) : (s.withTimePend v).regs = s.regs := by rfl
@[simp] theorem withTimePend_latch (v : SMap (List QWord)) : (s.withTimePend v).latch = s.latch := by rfl
@[simp] theorem withTimePend_sess (v : SMap (List QWord)) : (s.withTimePend v).sess = s.sess := by rfl
@[simp] theorem withTimePend_owner (v : SMap (List QWord)) : (s.withTimePend v).owner = s.owner := by rfl
@[simp] theorem withTimePend_elect (v : SMap (List QWord)) : (s.withTimePend v).elect = s.elect := by rfl
@[simp] theorem withTimePend_ops (v : SMap (List QWord)) : (s.withTimePend v).ops = s.ops := by rfl
@[simp] theorem withTimePend_reports (v : SMap (List QWord)) : (s.withTimePend v).reports = s.reports := by rfl
@[simp] theorem withTimePend_condOn (v : SMap (List QWord)) : (s.withTimePend v).condOn = s.condOn := by rfl
@[simp] theorem withTimePend_shadows (v : SMap (List QWord)) : (s.withTimePend v).shadows = s.shadows := by rfl
@[simp] theorem withTimePend_rst (v : SMap (List QWord)) : (s.withTimePend v).rst = s.rst := by rfl
@[simp] theorem withTimePend_stalls (v : SMap (List QWord)) : (s.withTimePend v).stalls = s.stalls := by rfl
@[simp] theorem withTimePend_chans (v : SMap (List QWord)) : (s.withTimePend v).chans = s.chans := by rfl
@[simp] theorem withTimePend_queues (v : SMap (List QWord)) : (s.withTimePend v).queues = s.queues := by rfl
@[simp] theorem withTimePend_streams (v : SMap (List QWord)) : (s.withTimePend v).streams = s.streams := by rfl
@[simp] theorem withTimePend_timePend (v : SMap (List QWord)) : (s.withTimePend v).timePend = v := by rfl
@[simp] theorem withTimePend_mem (v : SMap (List QWord)) : (s.withTimePend v).mem = s.mem := by rfl
@[simp] theorem withTimePend_psn (v : SMap (List QWord)) : (s.withTimePend v).psn = s.psn := by rfl
@[simp] theorem withTimePend_err (v : SMap (List QWord)) : (s.withTimePend v).err = s.err := by rfl
@[simp] theorem withTimePend_inited (v : SMap (List QWord)) : (s.withTimePend v).inited = s.inited := by rfl
@[simp] theorem withTimePend_dram (v : SMap (List QWord)) : (s.withTimePend v).dram = s.dram := by rfl
@[simp] theorem withTimePend_mig (v : SMap (List QWord)) : (s.withTimePend v).mig = s.mig := by rfl
@[simp] theorem withTimePend_tack (v : SMap (List QWord)) : (s.withTimePend v).tack = s.tack := by rfl
@[simp] theorem withTimePend_tims (v : SMap (List QWord)) : (s.withTimePend v).tims = s.tims := by rfl
@[simp] theorem withTimePend_flts (v : SMap (List QWord)) : (s.withTimePend v).flts = s.flts := by rfl
@[simp] theorem withTimePend_alarms (v : SMap (List QWord)) : (s.withTimePend v).alarms = s.alarms := by rfl
@[simp] theorem withTimePend_mgt (v : SMap (List QWord)) : (s.withTimePend v).mgt = s.mgt := by rfl

/-! ### withWbuf -/

@[simp] theorem withWbuf_pending (v : SMap (List BufWrite)) : (s.withWbuf v).pending = s.pending := by rfl
@[simp] theorem withWbuf_held (v : SMap (List BufWrite)) : (s.withWbuf v).held = s.held := by rfl
@[simp] theorem withWbuf_resuming (v : SMap (List BufWrite)) : (s.withWbuf v).resuming = s.resuming := by rfl
@[simp] theorem withWbuf_out (v : SMap (List BufWrite)) : (s.withWbuf v).out = s.out := by rfl
@[simp] theorem withWbuf_now (v : SMap (List BufWrite)) : (s.withWbuf v).now = s.now := by rfl
@[simp] theorem withWbuf_cnt (v : SMap (List BufWrite)) : (s.withWbuf v).cnt = s.cnt := by rfl
@[simp] theorem withWbuf_freeCtr (v : SMap (List BufWrite)) : (s.withWbuf v).freeCtr = s.freeCtr := by rfl
@[simp] theorem withWbuf_phase (v : SMap (List BufWrite)) : (s.withWbuf v).phase = s.phase := by rfl
@[simp] theorem withWbuf_resetAt (v : SMap (List BufWrite)) : (s.withWbuf v).resetAt = s.resetAt := by rfl
@[simp] theorem withWbuf_regs (v : SMap (List BufWrite)) : (s.withWbuf v).regs = s.regs := by rfl
@[simp] theorem withWbuf_latch (v : SMap (List BufWrite)) : (s.withWbuf v).latch = s.latch := by rfl
@[simp] theorem withWbuf_sess (v : SMap (List BufWrite)) : (s.withWbuf v).sess = s.sess := by rfl
@[simp] theorem withWbuf_owner (v : SMap (List BufWrite)) : (s.withWbuf v).owner = s.owner := by rfl
@[simp] theorem withWbuf_elect (v : SMap (List BufWrite)) : (s.withWbuf v).elect = s.elect := by rfl
@[simp] theorem withWbuf_ops (v : SMap (List BufWrite)) : (s.withWbuf v).ops = s.ops := by rfl
@[simp] theorem withWbuf_reports (v : SMap (List BufWrite)) : (s.withWbuf v).reports = s.reports := by rfl
@[simp] theorem withWbuf_condOn (v : SMap (List BufWrite)) : (s.withWbuf v).condOn = s.condOn := by rfl
@[simp] theorem withWbuf_shadows (v : SMap (List BufWrite)) : (s.withWbuf v).shadows = s.shadows := by rfl
@[simp] theorem withWbuf_rst (v : SMap (List BufWrite)) : (s.withWbuf v).rst = s.rst := by rfl
@[simp] theorem withWbuf_stalls (v : SMap (List BufWrite)) : (s.withWbuf v).stalls = s.stalls := by rfl
@[simp] theorem withWbuf_chans (v : SMap (List BufWrite)) : (s.withWbuf v).chans = s.chans := by rfl
@[simp] theorem withWbuf_queues (v : SMap (List BufWrite)) : (s.withWbuf v).queues = s.queues := by rfl
@[simp] theorem withWbuf_streams (v : SMap (List BufWrite)) : (s.withWbuf v).streams = s.streams := by rfl
@[simp] theorem withWbuf_wbuf (v : SMap (List BufWrite)) : (s.withWbuf v).wbuf = v := by rfl
@[simp] theorem withWbuf_mem (v : SMap (List BufWrite)) : (s.withWbuf v).mem = s.mem := by rfl
@[simp] theorem withWbuf_psn (v : SMap (List BufWrite)) : (s.withWbuf v).psn = s.psn := by rfl
@[simp] theorem withWbuf_err (v : SMap (List BufWrite)) : (s.withWbuf v).err = s.err := by rfl
@[simp] theorem withWbuf_inited (v : SMap (List BufWrite)) : (s.withWbuf v).inited = s.inited := by rfl
@[simp] theorem withWbuf_dram (v : SMap (List BufWrite)) : (s.withWbuf v).dram = s.dram := by rfl
@[simp] theorem withWbuf_mig (v : SMap (List BufWrite)) : (s.withWbuf v).mig = s.mig := by rfl
@[simp] theorem withWbuf_tack (v : SMap (List BufWrite)) : (s.withWbuf v).tack = s.tack := by rfl
@[simp] theorem withWbuf_tims (v : SMap (List BufWrite)) : (s.withWbuf v).tims = s.tims := by rfl
@[simp] theorem withWbuf_flts (v : SMap (List BufWrite)) : (s.withWbuf v).flts = s.flts := by rfl
@[simp] theorem withWbuf_alarms (v : SMap (List BufWrite)) : (s.withWbuf v).alarms = s.alarms := by rfl
@[simp] theorem withWbuf_mgt (v : SMap (List BufWrite)) : (s.withWbuf v).mgt = s.mgt := by rfl

/-! ### withMem -/

@[simp] theorem withMem_pending (v : List Host.Cell) : (s.withMem v).pending = s.pending := by rfl
@[simp] theorem withMem_held (v : List Host.Cell) : (s.withMem v).held = s.held := by rfl
@[simp] theorem withMem_resuming (v : List Host.Cell) : (s.withMem v).resuming = s.resuming := by rfl
@[simp] theorem withMem_out (v : List Host.Cell) : (s.withMem v).out = s.out := by rfl
@[simp] theorem withMem_now (v : List Host.Cell) : (s.withMem v).now = s.now := by rfl
@[simp] theorem withMem_cnt (v : List Host.Cell) : (s.withMem v).cnt = s.cnt := by rfl
@[simp] theorem withMem_freeCtr (v : List Host.Cell) : (s.withMem v).freeCtr = s.freeCtr := by rfl
@[simp] theorem withMem_phase (v : List Host.Cell) : (s.withMem v).phase = s.phase := by rfl
@[simp] theorem withMem_resetAt (v : List Host.Cell) : (s.withMem v).resetAt = s.resetAt := by rfl
@[simp] theorem withMem_regs (v : List Host.Cell) : (s.withMem v).regs = s.regs := by rfl
@[simp] theorem withMem_latch (v : List Host.Cell) : (s.withMem v).latch = s.latch := by rfl
@[simp] theorem withMem_sess (v : List Host.Cell) : (s.withMem v).sess = s.sess := by rfl
@[simp] theorem withMem_owner (v : List Host.Cell) : (s.withMem v).owner = s.owner := by rfl
@[simp] theorem withMem_elect (v : List Host.Cell) : (s.withMem v).elect = s.elect := by rfl
@[simp] theorem withMem_ops (v : List Host.Cell) : (s.withMem v).ops = s.ops := by rfl
@[simp] theorem withMem_reports (v : List Host.Cell) : (s.withMem v).reports = s.reports := by rfl
@[simp] theorem withMem_condOn (v : List Host.Cell) : (s.withMem v).condOn = s.condOn := by rfl
@[simp] theorem withMem_shadows (v : List Host.Cell) : (s.withMem v).shadows = s.shadows := by rfl
@[simp] theorem withMem_rst (v : List Host.Cell) : (s.withMem v).rst = s.rst := by rfl
@[simp] theorem withMem_stalls (v : List Host.Cell) : (s.withMem v).stalls = s.stalls := by rfl
@[simp] theorem withMem_chans (v : List Host.Cell) : (s.withMem v).chans = s.chans := by rfl
@[simp] theorem withMem_queues (v : List Host.Cell) : (s.withMem v).queues = s.queues := by rfl
@[simp] theorem withMem_streams (v : List Host.Cell) : (s.withMem v).streams = s.streams := by rfl
@[simp] theorem withMem_mem (v : List Host.Cell) : (s.withMem v).mem = v := by rfl
@[simp] theorem withMem_psn (v : List Host.Cell) : (s.withMem v).psn = s.psn := by rfl
@[simp] theorem withMem_err (v : List Host.Cell) : (s.withMem v).err = s.err := by rfl
@[simp] theorem withMem_inited (v : List Host.Cell) : (s.withMem v).inited = s.inited := by rfl
@[simp] theorem withMem_dram (v : List Host.Cell) : (s.withMem v).dram = s.dram := by rfl
@[simp] theorem withMem_mig (v : List Host.Cell) : (s.withMem v).mig = s.mig := by rfl
@[simp] theorem withMem_tack (v : List Host.Cell) : (s.withMem v).tack = s.tack := by rfl
@[simp] theorem withMem_tims (v : List Host.Cell) : (s.withMem v).tims = s.tims := by rfl
@[simp] theorem withMem_flts (v : List Host.Cell) : (s.withMem v).flts = s.flts := by rfl
@[simp] theorem withMem_alarms (v : List Host.Cell) : (s.withMem v).alarms = s.alarms := by rfl
@[simp] theorem withMem_mgt (v : List Host.Cell) : (s.withMem v).mgt = s.mgt := by rfl

/-! ### withPsn -/

@[simp] theorem withPsn_pending (v : SMap Byte) : (s.withPsn v).pending = s.pending := by rfl
@[simp] theorem withPsn_held (v : SMap Byte) : (s.withPsn v).held = s.held := by rfl
@[simp] theorem withPsn_resuming (v : SMap Byte) : (s.withPsn v).resuming = s.resuming := by rfl
@[simp] theorem withPsn_out (v : SMap Byte) : (s.withPsn v).out = s.out := by rfl
@[simp] theorem withPsn_now (v : SMap Byte) : (s.withPsn v).now = s.now := by rfl
@[simp] theorem withPsn_cnt (v : SMap Byte) : (s.withPsn v).cnt = s.cnt := by rfl
@[simp] theorem withPsn_freeCtr (v : SMap Byte) : (s.withPsn v).freeCtr = s.freeCtr := by rfl
@[simp] theorem withPsn_phase (v : SMap Byte) : (s.withPsn v).phase = s.phase := by rfl
@[simp] theorem withPsn_resetAt (v : SMap Byte) : (s.withPsn v).resetAt = s.resetAt := by rfl
@[simp] theorem withPsn_regs (v : SMap Byte) : (s.withPsn v).regs = s.regs := by rfl
@[simp] theorem withPsn_latch (v : SMap Byte) : (s.withPsn v).latch = s.latch := by rfl
@[simp] theorem withPsn_sess (v : SMap Byte) : (s.withPsn v).sess = s.sess := by rfl
@[simp] theorem withPsn_owner (v : SMap Byte) : (s.withPsn v).owner = s.owner := by rfl
@[simp] theorem withPsn_elect (v : SMap Byte) : (s.withPsn v).elect = s.elect := by rfl
@[simp] theorem withPsn_ops (v : SMap Byte) : (s.withPsn v).ops = s.ops := by rfl
@[simp] theorem withPsn_reports (v : SMap Byte) : (s.withPsn v).reports = s.reports := by rfl
@[simp] theorem withPsn_condOn (v : SMap Byte) : (s.withPsn v).condOn = s.condOn := by rfl
@[simp] theorem withPsn_shadows (v : SMap Byte) : (s.withPsn v).shadows = s.shadows := by rfl
@[simp] theorem withPsn_rst (v : SMap Byte) : (s.withPsn v).rst = s.rst := by rfl
@[simp] theorem withPsn_stalls (v : SMap Byte) : (s.withPsn v).stalls = s.stalls := by rfl
@[simp] theorem withPsn_chans (v : SMap Byte) : (s.withPsn v).chans = s.chans := by rfl
@[simp] theorem withPsn_queues (v : SMap Byte) : (s.withPsn v).queues = s.queues := by rfl
@[simp] theorem withPsn_streams (v : SMap Byte) : (s.withPsn v).streams = s.streams := by rfl
@[simp] theorem withPsn_mem (v : SMap Byte) : (s.withPsn v).mem = s.mem := by rfl
@[simp] theorem withPsn_psn (v : SMap Byte) : (s.withPsn v).psn = v := by rfl
@[simp] theorem withPsn_err (v : SMap Byte) : (s.withPsn v).err = s.err := by rfl
@[simp] theorem withPsn_inited (v : SMap Byte) : (s.withPsn v).inited = s.inited := by rfl
@[simp] theorem withPsn_dram (v : SMap Byte) : (s.withPsn v).dram = s.dram := by rfl
@[simp] theorem withPsn_mig (v : SMap Byte) : (s.withPsn v).mig = s.mig := by rfl
@[simp] theorem withPsn_tack (v : SMap Byte) : (s.withPsn v).tack = s.tack := by rfl
@[simp] theorem withPsn_tims (v : SMap Byte) : (s.withPsn v).tims = s.tims := by rfl
@[simp] theorem withPsn_flts (v : SMap Byte) : (s.withPsn v).flts = s.flts := by rfl
@[simp] theorem withPsn_alarms (v : SMap Byte) : (s.withPsn v).alarms = s.alarms := by rfl
@[simp] theorem withPsn_mgt (v : SMap Byte) : (s.withPsn v).mgt = s.mgt := by rfl

/-! ### withErr -/

@[simp] theorem withErr_pending (v : SMap Cells) : (s.withErr v).pending = s.pending := by rfl
@[simp] theorem withErr_held (v : SMap Cells) : (s.withErr v).held = s.held := by rfl
@[simp] theorem withErr_resuming (v : SMap Cells) : (s.withErr v).resuming = s.resuming := by rfl
@[simp] theorem withErr_out (v : SMap Cells) : (s.withErr v).out = s.out := by rfl
@[simp] theorem withErr_now (v : SMap Cells) : (s.withErr v).now = s.now := by rfl
@[simp] theorem withErr_cnt (v : SMap Cells) : (s.withErr v).cnt = s.cnt := by rfl
@[simp] theorem withErr_freeCtr (v : SMap Cells) : (s.withErr v).freeCtr = s.freeCtr := by rfl
@[simp] theorem withErr_phase (v : SMap Cells) : (s.withErr v).phase = s.phase := by rfl
@[simp] theorem withErr_resetAt (v : SMap Cells) : (s.withErr v).resetAt = s.resetAt := by rfl
@[simp] theorem withErr_regs (v : SMap Cells) : (s.withErr v).regs = s.regs := by rfl
@[simp] theorem withErr_latch (v : SMap Cells) : (s.withErr v).latch = s.latch := by rfl
@[simp] theorem withErr_sess (v : SMap Cells) : (s.withErr v).sess = s.sess := by rfl
@[simp] theorem withErr_owner (v : SMap Cells) : (s.withErr v).owner = s.owner := by rfl
@[simp] theorem withErr_elect (v : SMap Cells) : (s.withErr v).elect = s.elect := by rfl
@[simp] theorem withErr_ops (v : SMap Cells) : (s.withErr v).ops = s.ops := by rfl
@[simp] theorem withErr_reports (v : SMap Cells) : (s.withErr v).reports = s.reports := by rfl
@[simp] theorem withErr_condOn (v : SMap Cells) : (s.withErr v).condOn = s.condOn := by rfl
@[simp] theorem withErr_shadows (v : SMap Cells) : (s.withErr v).shadows = s.shadows := by rfl
@[simp] theorem withErr_rst (v : SMap Cells) : (s.withErr v).rst = s.rst := by rfl
@[simp] theorem withErr_stalls (v : SMap Cells) : (s.withErr v).stalls = s.stalls := by rfl
@[simp] theorem withErr_chans (v : SMap Cells) : (s.withErr v).chans = s.chans := by rfl
@[simp] theorem withErr_queues (v : SMap Cells) : (s.withErr v).queues = s.queues := by rfl
@[simp] theorem withErr_streams (v : SMap Cells) : (s.withErr v).streams = s.streams := by rfl
@[simp] theorem withErr_mem (v : SMap Cells) : (s.withErr v).mem = s.mem := by rfl
@[simp] theorem withErr_psn (v : SMap Cells) : (s.withErr v).psn = s.psn := by rfl
@[simp] theorem withErr_err (v : SMap Cells) : (s.withErr v).err = v := by rfl
@[simp] theorem withErr_inited (v : SMap Cells) : (s.withErr v).inited = s.inited := by rfl
@[simp] theorem withErr_dram (v : SMap Cells) : (s.withErr v).dram = s.dram := by rfl
@[simp] theorem withErr_mig (v : SMap Cells) : (s.withErr v).mig = s.mig := by rfl
@[simp] theorem withErr_tack (v : SMap Cells) : (s.withErr v).tack = s.tack := by rfl
@[simp] theorem withErr_tims (v : SMap Cells) : (s.withErr v).tims = s.tims := by rfl
@[simp] theorem withErr_flts (v : SMap Cells) : (s.withErr v).flts = s.flts := by rfl
@[simp] theorem withErr_alarms (v : SMap Cells) : (s.withErr v).alarms = s.alarms := by rfl
@[simp] theorem withErr_mgt (v : SMap Cells) : (s.withErr v).mgt = s.mgt := by rfl

/-! ### withInited -/

@[simp] theorem withInited_pending (v : SMap Bool) : (s.withInited v).pending = s.pending := by rfl
@[simp] theorem withInited_held (v : SMap Bool) : (s.withInited v).held = s.held := by rfl
@[simp] theorem withInited_resuming (v : SMap Bool) : (s.withInited v).resuming = s.resuming := by rfl
@[simp] theorem withInited_out (v : SMap Bool) : (s.withInited v).out = s.out := by rfl
@[simp] theorem withInited_now (v : SMap Bool) : (s.withInited v).now = s.now := by rfl
@[simp] theorem withInited_cnt (v : SMap Bool) : (s.withInited v).cnt = s.cnt := by rfl
@[simp] theorem withInited_freeCtr (v : SMap Bool) : (s.withInited v).freeCtr = s.freeCtr := by rfl
@[simp] theorem withInited_phase (v : SMap Bool) : (s.withInited v).phase = s.phase := by rfl
@[simp] theorem withInited_resetAt (v : SMap Bool) : (s.withInited v).resetAt = s.resetAt := by rfl
@[simp] theorem withInited_regs (v : SMap Bool) : (s.withInited v).regs = s.regs := by rfl
@[simp] theorem withInited_latch (v : SMap Bool) : (s.withInited v).latch = s.latch := by rfl
@[simp] theorem withInited_sess (v : SMap Bool) : (s.withInited v).sess = s.sess := by rfl
@[simp] theorem withInited_owner (v : SMap Bool) : (s.withInited v).owner = s.owner := by rfl
@[simp] theorem withInited_elect (v : SMap Bool) : (s.withInited v).elect = s.elect := by rfl
@[simp] theorem withInited_ops (v : SMap Bool) : (s.withInited v).ops = s.ops := by rfl
@[simp] theorem withInited_reports (v : SMap Bool) : (s.withInited v).reports = s.reports := by rfl
@[simp] theorem withInited_condOn (v : SMap Bool) : (s.withInited v).condOn = s.condOn := by rfl
@[simp] theorem withInited_shadows (v : SMap Bool) : (s.withInited v).shadows = s.shadows := by rfl
@[simp] theorem withInited_rst (v : SMap Bool) : (s.withInited v).rst = s.rst := by rfl
@[simp] theorem withInited_stalls (v : SMap Bool) : (s.withInited v).stalls = s.stalls := by rfl
@[simp] theorem withInited_chans (v : SMap Bool) : (s.withInited v).chans = s.chans := by rfl
@[simp] theorem withInited_queues (v : SMap Bool) : (s.withInited v).queues = s.queues := by rfl
@[simp] theorem withInited_streams (v : SMap Bool) : (s.withInited v).streams = s.streams := by rfl
@[simp] theorem withInited_mem (v : SMap Bool) : (s.withInited v).mem = s.mem := by rfl
@[simp] theorem withInited_psn (v : SMap Bool) : (s.withInited v).psn = s.psn := by rfl
@[simp] theorem withInited_err (v : SMap Bool) : (s.withInited v).err = s.err := by rfl
@[simp] theorem withInited_inited (v : SMap Bool) : (s.withInited v).inited = v := by rfl
@[simp] theorem withInited_dram (v : SMap Bool) : (s.withInited v).dram = s.dram := by rfl
@[simp] theorem withInited_mig (v : SMap Bool) : (s.withInited v).mig = s.mig := by rfl
@[simp] theorem withInited_tack (v : SMap Bool) : (s.withInited v).tack = s.tack := by rfl
@[simp] theorem withInited_tims (v : SMap Bool) : (s.withInited v).tims = s.tims := by rfl
@[simp] theorem withInited_flts (v : SMap Bool) : (s.withInited v).flts = s.flts := by rfl
@[simp] theorem withInited_alarms (v : SMap Bool) : (s.withInited v).alarms = s.alarms := by rfl
@[simp] theorem withInited_mgt (v : SMap Bool) : (s.withInited v).mgt = s.mgt := by rfl

/-! ### withWrote -/

@[simp] theorem withWrote_pending (v : SMap Wrote) : (s.withWrote v).pending = s.pending := by rfl
@[simp] theorem withWrote_held (v : SMap Wrote) : (s.withWrote v).held = s.held := by rfl
@[simp] theorem withWrote_resuming (v : SMap Wrote) : (s.withWrote v).resuming = s.resuming := by rfl
@[simp] theorem withWrote_out (v : SMap Wrote) : (s.withWrote v).out = s.out := by rfl
@[simp] theorem withWrote_now (v : SMap Wrote) : (s.withWrote v).now = s.now := by rfl
@[simp] theorem withWrote_cnt (v : SMap Wrote) : (s.withWrote v).cnt = s.cnt := by rfl
@[simp] theorem withWrote_freeCtr (v : SMap Wrote) : (s.withWrote v).freeCtr = s.freeCtr := by rfl
@[simp] theorem withWrote_phase (v : SMap Wrote) : (s.withWrote v).phase = s.phase := by rfl
@[simp] theorem withWrote_resetAt (v : SMap Wrote) : (s.withWrote v).resetAt = s.resetAt := by rfl
@[simp] theorem withWrote_regs (v : SMap Wrote) : (s.withWrote v).regs = s.regs := by rfl
@[simp] theorem withWrote_latch (v : SMap Wrote) : (s.withWrote v).latch = s.latch := by rfl
@[simp] theorem withWrote_sess (v : SMap Wrote) : (s.withWrote v).sess = s.sess := by rfl
@[simp] theorem withWrote_owner (v : SMap Wrote) : (s.withWrote v).owner = s.owner := by rfl
@[simp] theorem withWrote_elect (v : SMap Wrote) : (s.withWrote v).elect = s.elect := by rfl
@[simp] theorem withWrote_ops (v : SMap Wrote) : (s.withWrote v).ops = s.ops := by rfl
@[simp] theorem withWrote_reports (v : SMap Wrote) : (s.withWrote v).reports = s.reports := by rfl
@[simp] theorem withWrote_condOn (v : SMap Wrote) : (s.withWrote v).condOn = s.condOn := by rfl
@[simp] theorem withWrote_shadows (v : SMap Wrote) : (s.withWrote v).shadows = s.shadows := by rfl
@[simp] theorem withWrote_rst (v : SMap Wrote) : (s.withWrote v).rst = s.rst := by rfl
@[simp] theorem withWrote_stalls (v : SMap Wrote) : (s.withWrote v).stalls = s.stalls := by rfl
@[simp] theorem withWrote_chans (v : SMap Wrote) : (s.withWrote v).chans = s.chans := by rfl
@[simp] theorem withWrote_queues (v : SMap Wrote) : (s.withWrote v).queues = s.queues := by rfl
@[simp] theorem withWrote_streams (v : SMap Wrote) : (s.withWrote v).streams = s.streams := by rfl
@[simp] theorem withWrote_mem (v : SMap Wrote) : (s.withWrote v).mem = s.mem := by rfl
@[simp] theorem withWrote_psn (v : SMap Wrote) : (s.withWrote v).psn = s.psn := by rfl
@[simp] theorem withWrote_err (v : SMap Wrote) : (s.withWrote v).err = s.err := by rfl
@[simp] theorem withWrote_inited (v : SMap Wrote) : (s.withWrote v).inited = s.inited := by rfl
@[simp] theorem withWrote_wrote (v : SMap Wrote) : (s.withWrote v).wrote = v := by rfl
@[simp] theorem withWrote_dram (v : SMap Wrote) : (s.withWrote v).dram = s.dram := by rfl
@[simp] theorem withWrote_mig (v : SMap Wrote) : (s.withWrote v).mig = s.mig := by rfl
@[simp] theorem withWrote_tack (v : SMap Wrote) : (s.withWrote v).tack = s.tack := by rfl
@[simp] theorem withWrote_tims (v : SMap Wrote) : (s.withWrote v).tims = s.tims := by rfl
@[simp] theorem withWrote_flts (v : SMap Wrote) : (s.withWrote v).flts = s.flts := by rfl
@[simp] theorem withWrote_alarms (v : SMap Wrote) : (s.withWrote v).alarms = s.alarms := by rfl
@[simp] theorem withWrote_mgt (v : SMap Wrote) : (s.withWrote v).mgt = s.mgt := by rfl

/-! ### withShares -/

@[simp] theorem withShares_pending (v : SMap (Nat × Nat)) : (s.withShares v).pending = s.pending := by rfl
@[simp] theorem withShares_held (v : SMap (Nat × Nat)) : (s.withShares v).held = s.held := by rfl
@[simp] theorem withShares_resuming (v : SMap (Nat × Nat)) : (s.withShares v).resuming = s.resuming := by rfl
@[simp] theorem withShares_out (v : SMap (Nat × Nat)) : (s.withShares v).out = s.out := by rfl
@[simp] theorem withShares_now (v : SMap (Nat × Nat)) : (s.withShares v).now = s.now := by rfl
@[simp] theorem withShares_cnt (v : SMap (Nat × Nat)) : (s.withShares v).cnt = s.cnt := by rfl
@[simp] theorem withShares_freeCtr (v : SMap (Nat × Nat)) : (s.withShares v).freeCtr = s.freeCtr := by rfl
@[simp] theorem withShares_phase (v : SMap (Nat × Nat)) : (s.withShares v).phase = s.phase := by rfl
@[simp] theorem withShares_resetAt (v : SMap (Nat × Nat)) : (s.withShares v).resetAt = s.resetAt := by rfl
@[simp] theorem withShares_regs (v : SMap (Nat × Nat)) : (s.withShares v).regs = s.regs := by rfl
@[simp] theorem withShares_latch (v : SMap (Nat × Nat)) : (s.withShares v).latch = s.latch := by rfl
@[simp] theorem withShares_sess (v : SMap (Nat × Nat)) : (s.withShares v).sess = s.sess := by rfl
@[simp] theorem withShares_owner (v : SMap (Nat × Nat)) : (s.withShares v).owner = s.owner := by rfl
@[simp] theorem withShares_elect (v : SMap (Nat × Nat)) : (s.withShares v).elect = s.elect := by rfl
@[simp] theorem withShares_ops (v : SMap (Nat × Nat)) : (s.withShares v).ops = s.ops := by rfl
@[simp] theorem withShares_reports (v : SMap (Nat × Nat)) : (s.withShares v).reports = s.reports := by rfl
@[simp] theorem withShares_condOn (v : SMap (Nat × Nat)) : (s.withShares v).condOn = s.condOn := by rfl
@[simp] theorem withShares_shadows (v : SMap (Nat × Nat)) : (s.withShares v).shadows = s.shadows := by rfl
@[simp] theorem withShares_rst (v : SMap (Nat × Nat)) : (s.withShares v).rst = s.rst := by rfl
@[simp] theorem withShares_stalls (v : SMap (Nat × Nat)) : (s.withShares v).stalls = s.stalls := by rfl
@[simp] theorem withShares_chans (v : SMap (Nat × Nat)) : (s.withShares v).chans = s.chans := by rfl
@[simp] theorem withShares_queues (v : SMap (Nat × Nat)) : (s.withShares v).queues = s.queues := by rfl
@[simp] theorem withShares_streams (v : SMap (Nat × Nat)) : (s.withShares v).streams = s.streams := by rfl
@[simp] theorem withShares_mem (v : SMap (Nat × Nat)) : (s.withShares v).mem = s.mem := by rfl
@[simp] theorem withShares_psn (v : SMap (Nat × Nat)) : (s.withShares v).psn = s.psn := by rfl
@[simp] theorem withShares_err (v : SMap (Nat × Nat)) : (s.withShares v).err = s.err := by rfl
@[simp] theorem withShares_inited (v : SMap (Nat × Nat)) : (s.withShares v).inited = s.inited := by rfl
@[simp] theorem withShares_shares (v : SMap (Nat × Nat)) : (s.withShares v).shares = v := by rfl
@[simp] theorem withShares_dram (v : SMap (Nat × Nat)) : (s.withShares v).dram = s.dram := by rfl
@[simp] theorem withShares_mig (v : SMap (Nat × Nat)) : (s.withShares v).mig = s.mig := by rfl
@[simp] theorem withShares_tack (v : SMap (Nat × Nat)) : (s.withShares v).tack = s.tack := by rfl
@[simp] theorem withShares_tims (v : SMap (Nat × Nat)) : (s.withShares v).tims = s.tims := by rfl
@[simp] theorem withShares_flts (v : SMap (Nat × Nat)) : (s.withShares v).flts = s.flts := by rfl
@[simp] theorem withShares_alarms (v : SMap (Nat × Nat)) : (s.withShares v).alarms = s.alarms := by rfl
@[simp] theorem withShares_mgt (v : SMap (Nat × Nat)) : (s.withShares v).mgt = s.mgt := by rfl

/-! ### withDram -/

@[simp] theorem withDram_pending (v : DramUse) : (s.withDram v).pending = s.pending := by rfl
@[simp] theorem withDram_held (v : DramUse) : (s.withDram v).held = s.held := by rfl
@[simp] theorem withDram_resuming (v : DramUse) : (s.withDram v).resuming = s.resuming := by rfl
@[simp] theorem withDram_out (v : DramUse) : (s.withDram v).out = s.out := by rfl
@[simp] theorem withDram_now (v : DramUse) : (s.withDram v).now = s.now := by rfl
@[simp] theorem withDram_cnt (v : DramUse) : (s.withDram v).cnt = s.cnt := by rfl
@[simp] theorem withDram_freeCtr (v : DramUse) : (s.withDram v).freeCtr = s.freeCtr := by rfl
@[simp] theorem withDram_phase (v : DramUse) : (s.withDram v).phase = s.phase := by rfl
@[simp] theorem withDram_resetAt (v : DramUse) : (s.withDram v).resetAt = s.resetAt := by rfl
@[simp] theorem withDram_regs (v : DramUse) : (s.withDram v).regs = s.regs := by rfl
@[simp] theorem withDram_latch (v : DramUse) : (s.withDram v).latch = s.latch := by rfl
@[simp] theorem withDram_sess (v : DramUse) : (s.withDram v).sess = s.sess := by rfl
@[simp] theorem withDram_owner (v : DramUse) : (s.withDram v).owner = s.owner := by rfl
@[simp] theorem withDram_elect (v : DramUse) : (s.withDram v).elect = s.elect := by rfl
@[simp] theorem withDram_ops (v : DramUse) : (s.withDram v).ops = s.ops := by rfl
@[simp] theorem withDram_reports (v : DramUse) : (s.withDram v).reports = s.reports := by rfl
@[simp] theorem withDram_condOn (v : DramUse) : (s.withDram v).condOn = s.condOn := by rfl
@[simp] theorem withDram_shadows (v : DramUse) : (s.withDram v).shadows = s.shadows := by rfl
@[simp] theorem withDram_rst (v : DramUse) : (s.withDram v).rst = s.rst := by rfl
@[simp] theorem withDram_stalls (v : DramUse) : (s.withDram v).stalls = s.stalls := by rfl
@[simp] theorem withDram_chans (v : DramUse) : (s.withDram v).chans = s.chans := by rfl
@[simp] theorem withDram_queues (v : DramUse) : (s.withDram v).queues = s.queues := by rfl
@[simp] theorem withDram_streams (v : DramUse) : (s.withDram v).streams = s.streams := by rfl
@[simp] theorem withDram_mem (v : DramUse) : (s.withDram v).mem = s.mem := by rfl
@[simp] theorem withDram_psn (v : DramUse) : (s.withDram v).psn = s.psn := by rfl
@[simp] theorem withDram_err (v : DramUse) : (s.withDram v).err = s.err := by rfl
@[simp] theorem withDram_inited (v : DramUse) : (s.withDram v).inited = s.inited := by rfl
@[simp] theorem withDram_dram (v : DramUse) : (s.withDram v).dram = v := by rfl
@[simp] theorem withDram_mig (v : DramUse) : (s.withDram v).mig = s.mig := by rfl
@[simp] theorem withDram_tack (v : DramUse) : (s.withDram v).tack = s.tack := by rfl
@[simp] theorem withDram_tims (v : DramUse) : (s.withDram v).tims = s.tims := by rfl
@[simp] theorem withDram_flts (v : DramUse) : (s.withDram v).flts = s.flts := by rfl
@[simp] theorem withDram_alarms (v : DramUse) : (s.withDram v).alarms = s.alarms := by rfl
@[simp] theorem withDram_mgt (v : DramUse) : (s.withDram v).mgt = s.mgt := by rfl

/-! ### withMig -/

@[simp] theorem withMig_pending (v : Option Mig) : (s.withMig v).pending = s.pending := by rfl
@[simp] theorem withMig_held (v : Option Mig) : (s.withMig v).held = s.held := by rfl
@[simp] theorem withMig_resuming (v : Option Mig) : (s.withMig v).resuming = s.resuming := by rfl
@[simp] theorem withMig_out (v : Option Mig) : (s.withMig v).out = s.out := by rfl
@[simp] theorem withMig_now (v : Option Mig) : (s.withMig v).now = s.now := by rfl
@[simp] theorem withMig_cnt (v : Option Mig) : (s.withMig v).cnt = s.cnt := by rfl
@[simp] theorem withMig_freeCtr (v : Option Mig) : (s.withMig v).freeCtr = s.freeCtr := by rfl
@[simp] theorem withMig_phase (v : Option Mig) : (s.withMig v).phase = s.phase := by rfl
@[simp] theorem withMig_resetAt (v : Option Mig) : (s.withMig v).resetAt = s.resetAt := by rfl
@[simp] theorem withMig_regs (v : Option Mig) : (s.withMig v).regs = s.regs := by rfl
@[simp] theorem withMig_latch (v : Option Mig) : (s.withMig v).latch = s.latch := by rfl
@[simp] theorem withMig_sess (v : Option Mig) : (s.withMig v).sess = s.sess := by rfl
@[simp] theorem withMig_owner (v : Option Mig) : (s.withMig v).owner = s.owner := by rfl
@[simp] theorem withMig_elect (v : Option Mig) : (s.withMig v).elect = s.elect := by rfl
@[simp] theorem withMig_ops (v : Option Mig) : (s.withMig v).ops = s.ops := by rfl
@[simp] theorem withMig_reports (v : Option Mig) : (s.withMig v).reports = s.reports := by rfl
@[simp] theorem withMig_condOn (v : Option Mig) : (s.withMig v).condOn = s.condOn := by rfl
@[simp] theorem withMig_shadows (v : Option Mig) : (s.withMig v).shadows = s.shadows := by rfl
@[simp] theorem withMig_rst (v : Option Mig) : (s.withMig v).rst = s.rst := by rfl
@[simp] theorem withMig_stalls (v : Option Mig) : (s.withMig v).stalls = s.stalls := by rfl
@[simp] theorem withMig_chans (v : Option Mig) : (s.withMig v).chans = s.chans := by rfl
@[simp] theorem withMig_queues (v : Option Mig) : (s.withMig v).queues = s.queues := by rfl
@[simp] theorem withMig_streams (v : Option Mig) : (s.withMig v).streams = s.streams := by rfl
@[simp] theorem withMig_mem (v : Option Mig) : (s.withMig v).mem = s.mem := by rfl
@[simp] theorem withMig_psn (v : Option Mig) : (s.withMig v).psn = s.psn := by rfl
@[simp] theorem withMig_err (v : Option Mig) : (s.withMig v).err = s.err := by rfl
@[simp] theorem withMig_inited (v : Option Mig) : (s.withMig v).inited = s.inited := by rfl
@[simp] theorem withMig_dram (v : Option Mig) : (s.withMig v).dram = s.dram := by rfl
@[simp] theorem withMig_mig (v : Option Mig) : (s.withMig v).mig = v := by rfl
@[simp] theorem withMig_tack (v : Option Mig) : (s.withMig v).tack = s.tack := by rfl
@[simp] theorem withMig_tims (v : Option Mig) : (s.withMig v).tims = s.tims := by rfl
@[simp] theorem withMig_flts (v : Option Mig) : (s.withMig v).flts = s.flts := by rfl
@[simp] theorem withMig_alarms (v : Option Mig) : (s.withMig v).alarms = s.alarms := by rfl
@[simp] theorem withMig_mgt (v : Option Mig) : (s.withMig v).mgt = s.mgt := by rfl

/-! ### withMigWait -/

@[simp] theorem withMigWait_pending (v : SMap (Option Nat)) : (s.withMigWait v).pending = s.pending := by rfl
@[simp] theorem withMigWait_held (v : SMap (Option Nat)) : (s.withMigWait v).held = s.held := by rfl
@[simp] theorem withMigWait_resuming (v : SMap (Option Nat)) : (s.withMigWait v).resuming = s.resuming := by rfl
@[simp] theorem withMigWait_out (v : SMap (Option Nat)) : (s.withMigWait v).out = s.out := by rfl
@[simp] theorem withMigWait_now (v : SMap (Option Nat)) : (s.withMigWait v).now = s.now := by rfl
@[simp] theorem withMigWait_cnt (v : SMap (Option Nat)) : (s.withMigWait v).cnt = s.cnt := by rfl
@[simp] theorem withMigWait_freeCtr (v : SMap (Option Nat)) : (s.withMigWait v).freeCtr = s.freeCtr := by rfl
@[simp] theorem withMigWait_phase (v : SMap (Option Nat)) : (s.withMigWait v).phase = s.phase := by rfl
@[simp] theorem withMigWait_resetAt (v : SMap (Option Nat)) : (s.withMigWait v).resetAt = s.resetAt := by rfl
@[simp] theorem withMigWait_regs (v : SMap (Option Nat)) : (s.withMigWait v).regs = s.regs := by rfl
@[simp] theorem withMigWait_latch (v : SMap (Option Nat)) : (s.withMigWait v).latch = s.latch := by rfl
@[simp] theorem withMigWait_sess (v : SMap (Option Nat)) : (s.withMigWait v).sess = s.sess := by rfl
@[simp] theorem withMigWait_owner (v : SMap (Option Nat)) : (s.withMigWait v).owner = s.owner := by rfl
@[simp] theorem withMigWait_elect (v : SMap (Option Nat)) : (s.withMigWait v).elect = s.elect := by rfl
@[simp] theorem withMigWait_ops (v : SMap (Option Nat)) : (s.withMigWait v).ops = s.ops := by rfl
@[simp] theorem withMigWait_reports (v : SMap (Option Nat)) : (s.withMigWait v).reports = s.reports := by rfl
@[simp] theorem withMigWait_condOn (v : SMap (Option Nat)) : (s.withMigWait v).condOn = s.condOn := by rfl
@[simp] theorem withMigWait_shadows (v : SMap (Option Nat)) : (s.withMigWait v).shadows = s.shadows := by rfl
@[simp] theorem withMigWait_rst (v : SMap (Option Nat)) : (s.withMigWait v).rst = s.rst := by rfl
@[simp] theorem withMigWait_stalls (v : SMap (Option Nat)) : (s.withMigWait v).stalls = s.stalls := by rfl
@[simp] theorem withMigWait_chans (v : SMap (Option Nat)) : (s.withMigWait v).chans = s.chans := by rfl
@[simp] theorem withMigWait_queues (v : SMap (Option Nat)) : (s.withMigWait v).queues = s.queues := by rfl
@[simp] theorem withMigWait_streams (v : SMap (Option Nat)) : (s.withMigWait v).streams = s.streams := by rfl
@[simp] theorem withMigWait_mem (v : SMap (Option Nat)) : (s.withMigWait v).mem = s.mem := by rfl
@[simp] theorem withMigWait_psn (v : SMap (Option Nat)) : (s.withMigWait v).psn = s.psn := by rfl
@[simp] theorem withMigWait_err (v : SMap (Option Nat)) : (s.withMigWait v).err = s.err := by rfl
@[simp] theorem withMigWait_inited (v : SMap (Option Nat)) : (s.withMigWait v).inited = s.inited := by rfl
@[simp] theorem withMigWait_dram (v : SMap (Option Nat)) : (s.withMigWait v).dram = s.dram := by rfl
@[simp] theorem withMigWait_mig (v : SMap (Option Nat)) : (s.withMigWait v).mig = s.mig := by rfl
@[simp] theorem withMigWait_migWait (v : SMap (Option Nat)) : (s.withMigWait v).migWait = v := by rfl
@[simp] theorem withMigWait_tack (v : SMap (Option Nat)) : (s.withMigWait v).tack = s.tack := by rfl
@[simp] theorem withMigWait_tims (v : SMap (Option Nat)) : (s.withMigWait v).tims = s.tims := by rfl
@[simp] theorem withMigWait_flts (v : SMap (Option Nat)) : (s.withMigWait v).flts = s.flts := by rfl
@[simp] theorem withMigWait_alarms (v : SMap (Option Nat)) : (s.withMigWait v).alarms = s.alarms := by rfl
@[simp] theorem withMigWait_mgt (v : SMap (Option Nat)) : (s.withMigWait v).mgt = s.mgt := by rfl

/-! ### withTrack -/

@[simp] theorem withTrack_pending (v : SMap Tracker) : (s.withTrack v).pending = s.pending := by rfl
@[simp] theorem withTrack_held (v : SMap Tracker) : (s.withTrack v).held = s.held := by rfl
@[simp] theorem withTrack_resuming (v : SMap Tracker) : (s.withTrack v).resuming = s.resuming := by rfl
@[simp] theorem withTrack_out (v : SMap Tracker) : (s.withTrack v).out = s.out := by rfl
@[simp] theorem withTrack_now (v : SMap Tracker) : (s.withTrack v).now = s.now := by rfl
@[simp] theorem withTrack_cnt (v : SMap Tracker) : (s.withTrack v).cnt = s.cnt := by rfl
@[simp] theorem withTrack_freeCtr (v : SMap Tracker) : (s.withTrack v).freeCtr = s.freeCtr := by rfl
@[simp] theorem withTrack_phase (v : SMap Tracker) : (s.withTrack v).phase = s.phase := by rfl
@[simp] theorem withTrack_resetAt (v : SMap Tracker) : (s.withTrack v).resetAt = s.resetAt := by rfl
@[simp] theorem withTrack_regs (v : SMap Tracker) : (s.withTrack v).regs = s.regs := by rfl
@[simp] theorem withTrack_latch (v : SMap Tracker) : (s.withTrack v).latch = s.latch := by rfl
@[simp] theorem withTrack_sess (v : SMap Tracker) : (s.withTrack v).sess = s.sess := by rfl
@[simp] theorem withTrack_owner (v : SMap Tracker) : (s.withTrack v).owner = s.owner := by rfl
@[simp] theorem withTrack_elect (v : SMap Tracker) : (s.withTrack v).elect = s.elect := by rfl
@[simp] theorem withTrack_ops (v : SMap Tracker) : (s.withTrack v).ops = s.ops := by rfl
@[simp] theorem withTrack_reports (v : SMap Tracker) : (s.withTrack v).reports = s.reports := by rfl
@[simp] theorem withTrack_condOn (v : SMap Tracker) : (s.withTrack v).condOn = s.condOn := by rfl
@[simp] theorem withTrack_shadows (v : SMap Tracker) : (s.withTrack v).shadows = s.shadows := by rfl
@[simp] theorem withTrack_rst (v : SMap Tracker) : (s.withTrack v).rst = s.rst := by rfl
@[simp] theorem withTrack_stalls (v : SMap Tracker) : (s.withTrack v).stalls = s.stalls := by rfl
@[simp] theorem withTrack_chans (v : SMap Tracker) : (s.withTrack v).chans = s.chans := by rfl
@[simp] theorem withTrack_queues (v : SMap Tracker) : (s.withTrack v).queues = s.queues := by rfl
@[simp] theorem withTrack_streams (v : SMap Tracker) : (s.withTrack v).streams = s.streams := by rfl
@[simp] theorem withTrack_mem (v : SMap Tracker) : (s.withTrack v).mem = s.mem := by rfl
@[simp] theorem withTrack_psn (v : SMap Tracker) : (s.withTrack v).psn = s.psn := by rfl
@[simp] theorem withTrack_err (v : SMap Tracker) : (s.withTrack v).err = s.err := by rfl
@[simp] theorem withTrack_inited (v : SMap Tracker) : (s.withTrack v).inited = s.inited := by rfl
@[simp] theorem withTrack_dram (v : SMap Tracker) : (s.withTrack v).dram = s.dram := by rfl
@[simp] theorem withTrack_mig (v : SMap Tracker) : (s.withTrack v).mig = s.mig := by rfl
@[simp] theorem withTrack_track (v : SMap Tracker) : (s.withTrack v).track = v := by rfl
@[simp] theorem withTrack_tack (v : SMap Tracker) : (s.withTrack v).tack = s.tack := by rfl
@[simp] theorem withTrack_tims (v : SMap Tracker) : (s.withTrack v).tims = s.tims := by rfl
@[simp] theorem withTrack_flts (v : SMap Tracker) : (s.withTrack v).flts = s.flts := by rfl
@[simp] theorem withTrack_alarms (v : SMap Tracker) : (s.withTrack v).alarms = s.alarms := by rfl
@[simp] theorem withTrack_mgt (v : SMap Tracker) : (s.withTrack v).mgt = s.mgt := by rfl

/-! ### withMr4 -/

@[simp] theorem withMr4_pending (v : SMap Nat) : (s.withMr4 v).pending = s.pending := by rfl
@[simp] theorem withMr4_held (v : SMap Nat) : (s.withMr4 v).held = s.held := by rfl
@[simp] theorem withMr4_resuming (v : SMap Nat) : (s.withMr4 v).resuming = s.resuming := by rfl
@[simp] theorem withMr4_out (v : SMap Nat) : (s.withMr4 v).out = s.out := by rfl
@[simp] theorem withMr4_now (v : SMap Nat) : (s.withMr4 v).now = s.now := by rfl
@[simp] theorem withMr4_cnt (v : SMap Nat) : (s.withMr4 v).cnt = s.cnt := by rfl
@[simp] theorem withMr4_freeCtr (v : SMap Nat) : (s.withMr4 v).freeCtr = s.freeCtr := by rfl
@[simp] theorem withMr4_phase (v : SMap Nat) : (s.withMr4 v).phase = s.phase := by rfl
@[simp] theorem withMr4_resetAt (v : SMap Nat) : (s.withMr4 v).resetAt = s.resetAt := by rfl
@[simp] theorem withMr4_regs (v : SMap Nat) : (s.withMr4 v).regs = s.regs := by rfl
@[simp] theorem withMr4_latch (v : SMap Nat) : (s.withMr4 v).latch = s.latch := by rfl
@[simp] theorem withMr4_sess (v : SMap Nat) : (s.withMr4 v).sess = s.sess := by rfl
@[simp] theorem withMr4_owner (v : SMap Nat) : (s.withMr4 v).owner = s.owner := by rfl
@[simp] theorem withMr4_elect (v : SMap Nat) : (s.withMr4 v).elect = s.elect := by rfl
@[simp] theorem withMr4_ops (v : SMap Nat) : (s.withMr4 v).ops = s.ops := by rfl
@[simp] theorem withMr4_reports (v : SMap Nat) : (s.withMr4 v).reports = s.reports := by rfl
@[simp] theorem withMr4_condOn (v : SMap Nat) : (s.withMr4 v).condOn = s.condOn := by rfl
@[simp] theorem withMr4_shadows (v : SMap Nat) : (s.withMr4 v).shadows = s.shadows := by rfl
@[simp] theorem withMr4_rst (v : SMap Nat) : (s.withMr4 v).rst = s.rst := by rfl
@[simp] theorem withMr4_stalls (v : SMap Nat) : (s.withMr4 v).stalls = s.stalls := by rfl
@[simp] theorem withMr4_chans (v : SMap Nat) : (s.withMr4 v).chans = s.chans := by rfl
@[simp] theorem withMr4_queues (v : SMap Nat) : (s.withMr4 v).queues = s.queues := by rfl
@[simp] theorem withMr4_streams (v : SMap Nat) : (s.withMr4 v).streams = s.streams := by rfl
@[simp] theorem withMr4_mem (v : SMap Nat) : (s.withMr4 v).mem = s.mem := by rfl
@[simp] theorem withMr4_psn (v : SMap Nat) : (s.withMr4 v).psn = s.psn := by rfl
@[simp] theorem withMr4_err (v : SMap Nat) : (s.withMr4 v).err = s.err := by rfl
@[simp] theorem withMr4_inited (v : SMap Nat) : (s.withMr4 v).inited = s.inited := by rfl
@[simp] theorem withMr4_dram (v : SMap Nat) : (s.withMr4 v).dram = s.dram := by rfl
@[simp] theorem withMr4_mig (v : SMap Nat) : (s.withMr4 v).mig = s.mig := by rfl
@[simp] theorem withMr4_mr4 (v : SMap Nat) : (s.withMr4 v).mr4 = v := by rfl
@[simp] theorem withMr4_tack (v : SMap Nat) : (s.withMr4 v).tack = s.tack := by rfl
@[simp] theorem withMr4_tims (v : SMap Nat) : (s.withMr4 v).tims = s.tims := by rfl
@[simp] theorem withMr4_flts (v : SMap Nat) : (s.withMr4 v).flts = s.flts := by rfl
@[simp] theorem withMr4_alarms (v : SMap Nat) : (s.withMr4 v).alarms = s.alarms := by rfl
@[simp] theorem withMr4_mgt (v : SMap Nat) : (s.withMr4 v).mgt = s.mgt := by rfl

/-! ### withRankT -/

@[simp] theorem withRankT_pending (v : SMap RankTimes) : (s.withRankT v).pending = s.pending := by rfl
@[simp] theorem withRankT_held (v : SMap RankTimes) : (s.withRankT v).held = s.held := by rfl
@[simp] theorem withRankT_resuming (v : SMap RankTimes) : (s.withRankT v).resuming = s.resuming := by rfl
@[simp] theorem withRankT_out (v : SMap RankTimes) : (s.withRankT v).out = s.out := by rfl
@[simp] theorem withRankT_now (v : SMap RankTimes) : (s.withRankT v).now = s.now := by rfl
@[simp] theorem withRankT_cnt (v : SMap RankTimes) : (s.withRankT v).cnt = s.cnt := by rfl
@[simp] theorem withRankT_freeCtr (v : SMap RankTimes) : (s.withRankT v).freeCtr = s.freeCtr := by rfl
@[simp] theorem withRankT_phase (v : SMap RankTimes) : (s.withRankT v).phase = s.phase := by rfl
@[simp] theorem withRankT_resetAt (v : SMap RankTimes) : (s.withRankT v).resetAt = s.resetAt := by rfl
@[simp] theorem withRankT_regs (v : SMap RankTimes) : (s.withRankT v).regs = s.regs := by rfl
@[simp] theorem withRankT_latch (v : SMap RankTimes) : (s.withRankT v).latch = s.latch := by rfl
@[simp] theorem withRankT_sess (v : SMap RankTimes) : (s.withRankT v).sess = s.sess := by rfl
@[simp] theorem withRankT_owner (v : SMap RankTimes) : (s.withRankT v).owner = s.owner := by rfl
@[simp] theorem withRankT_elect (v : SMap RankTimes) : (s.withRankT v).elect = s.elect := by rfl
@[simp] theorem withRankT_ops (v : SMap RankTimes) : (s.withRankT v).ops = s.ops := by rfl
@[simp] theorem withRankT_reports (v : SMap RankTimes) : (s.withRankT v).reports = s.reports := by rfl
@[simp] theorem withRankT_condOn (v : SMap RankTimes) : (s.withRankT v).condOn = s.condOn := by rfl
@[simp] theorem withRankT_shadows (v : SMap RankTimes) : (s.withRankT v).shadows = s.shadows := by rfl
@[simp] theorem withRankT_rst (v : SMap RankTimes) : (s.withRankT v).rst = s.rst := by rfl
@[simp] theorem withRankT_stalls (v : SMap RankTimes) : (s.withRankT v).stalls = s.stalls := by rfl
@[simp] theorem withRankT_chans (v : SMap RankTimes) : (s.withRankT v).chans = s.chans := by rfl
@[simp] theorem withRankT_queues (v : SMap RankTimes) : (s.withRankT v).queues = s.queues := by rfl
@[simp] theorem withRankT_streams (v : SMap RankTimes) : (s.withRankT v).streams = s.streams := by rfl
@[simp] theorem withRankT_mem (v : SMap RankTimes) : (s.withRankT v).mem = s.mem := by rfl
@[simp] theorem withRankT_psn (v : SMap RankTimes) : (s.withRankT v).psn = s.psn := by rfl
@[simp] theorem withRankT_err (v : SMap RankTimes) : (s.withRankT v).err = s.err := by rfl
@[simp] theorem withRankT_inited (v : SMap RankTimes) : (s.withRankT v).inited = s.inited := by rfl
@[simp] theorem withRankT_dram (v : SMap RankTimes) : (s.withRankT v).dram = s.dram := by rfl
@[simp] theorem withRankT_mig (v : SMap RankTimes) : (s.withRankT v).mig = s.mig := by rfl
@[simp] theorem withRankT_rankT (v : SMap RankTimes) : (s.withRankT v).rankT = v := by rfl
@[simp] theorem withRankT_tack (v : SMap RankTimes) : (s.withRankT v).tack = s.tack := by rfl
@[simp] theorem withRankT_tims (v : SMap RankTimes) : (s.withRankT v).tims = s.tims := by rfl
@[simp] theorem withRankT_flts (v : SMap RankTimes) : (s.withRankT v).flts = s.flts := by rfl
@[simp] theorem withRankT_alarms (v : SMap RankTimes) : (s.withRankT v).alarms = s.alarms := by rfl
@[simp] theorem withRankT_mgt (v : SMap RankTimes) : (s.withRankT v).mgt = s.mgt := by rfl

/-! ### withMcT -/

@[simp] theorem withMcT_pending (v : SMap McTimes) : (s.withMcT v).pending = s.pending := by rfl
@[simp] theorem withMcT_held (v : SMap McTimes) : (s.withMcT v).held = s.held := by rfl
@[simp] theorem withMcT_resuming (v : SMap McTimes) : (s.withMcT v).resuming = s.resuming := by rfl
@[simp] theorem withMcT_out (v : SMap McTimes) : (s.withMcT v).out = s.out := by rfl
@[simp] theorem withMcT_now (v : SMap McTimes) : (s.withMcT v).now = s.now := by rfl
@[simp] theorem withMcT_cnt (v : SMap McTimes) : (s.withMcT v).cnt = s.cnt := by rfl
@[simp] theorem withMcT_freeCtr (v : SMap McTimes) : (s.withMcT v).freeCtr = s.freeCtr := by rfl
@[simp] theorem withMcT_phase (v : SMap McTimes) : (s.withMcT v).phase = s.phase := by rfl
@[simp] theorem withMcT_resetAt (v : SMap McTimes) : (s.withMcT v).resetAt = s.resetAt := by rfl
@[simp] theorem withMcT_regs (v : SMap McTimes) : (s.withMcT v).regs = s.regs := by rfl
@[simp] theorem withMcT_latch (v : SMap McTimes) : (s.withMcT v).latch = s.latch := by rfl
@[simp] theorem withMcT_sess (v : SMap McTimes) : (s.withMcT v).sess = s.sess := by rfl
@[simp] theorem withMcT_owner (v : SMap McTimes) : (s.withMcT v).owner = s.owner := by rfl
@[simp] theorem withMcT_elect (v : SMap McTimes) : (s.withMcT v).elect = s.elect := by rfl
@[simp] theorem withMcT_ops (v : SMap McTimes) : (s.withMcT v).ops = s.ops := by rfl
@[simp] theorem withMcT_reports (v : SMap McTimes) : (s.withMcT v).reports = s.reports := by rfl
@[simp] theorem withMcT_condOn (v : SMap McTimes) : (s.withMcT v).condOn = s.condOn := by rfl
@[simp] theorem withMcT_shadows (v : SMap McTimes) : (s.withMcT v).shadows = s.shadows := by rfl
@[simp] theorem withMcT_rst (v : SMap McTimes) : (s.withMcT v).rst = s.rst := by rfl
@[simp] theorem withMcT_stalls (v : SMap McTimes) : (s.withMcT v).stalls = s.stalls := by rfl
@[simp] theorem withMcT_chans (v : SMap McTimes) : (s.withMcT v).chans = s.chans := by rfl
@[simp] theorem withMcT_queues (v : SMap McTimes) : (s.withMcT v).queues = s.queues := by rfl
@[simp] theorem withMcT_streams (v : SMap McTimes) : (s.withMcT v).streams = s.streams := by rfl
@[simp] theorem withMcT_mem (v : SMap McTimes) : (s.withMcT v).mem = s.mem := by rfl
@[simp] theorem withMcT_psn (v : SMap McTimes) : (s.withMcT v).psn = s.psn := by rfl
@[simp] theorem withMcT_err (v : SMap McTimes) : (s.withMcT v).err = s.err := by rfl
@[simp] theorem withMcT_inited (v : SMap McTimes) : (s.withMcT v).inited = s.inited := by rfl
@[simp] theorem withMcT_dram (v : SMap McTimes) : (s.withMcT v).dram = s.dram := by rfl
@[simp] theorem withMcT_mig (v : SMap McTimes) : (s.withMcT v).mig = s.mig := by rfl
@[simp] theorem withMcT_mcT (v : SMap McTimes) : (s.withMcT v).mcT = v := by rfl
@[simp] theorem withMcT_tack (v : SMap McTimes) : (s.withMcT v).tack = s.tack := by rfl
@[simp] theorem withMcT_tims (v : SMap McTimes) : (s.withMcT v).tims = s.tims := by rfl
@[simp] theorem withMcT_flts (v : SMap McTimes) : (s.withMcT v).flts = s.flts := by rfl
@[simp] theorem withMcT_alarms (v : SMap McTimes) : (s.withMcT v).alarms = s.alarms := by rfl
@[simp] theorem withMcT_mgt (v : SMap McTimes) : (s.withMcT v).mgt = s.mgt := by rfl

/-! ### withDead -/

@[simp] theorem withDead_pending (v : SMap Bool) : (s.withDead v).pending = s.pending := by rfl
@[simp] theorem withDead_held (v : SMap Bool) : (s.withDead v).held = s.held := by rfl
@[simp] theorem withDead_resuming (v : SMap Bool) : (s.withDead v).resuming = s.resuming := by rfl
@[simp] theorem withDead_out (v : SMap Bool) : (s.withDead v).out = s.out := by rfl
@[simp] theorem withDead_now (v : SMap Bool) : (s.withDead v).now = s.now := by rfl
@[simp] theorem withDead_cnt (v : SMap Bool) : (s.withDead v).cnt = s.cnt := by rfl
@[simp] theorem withDead_freeCtr (v : SMap Bool) : (s.withDead v).freeCtr = s.freeCtr := by rfl
@[simp] theorem withDead_phase (v : SMap Bool) : (s.withDead v).phase = s.phase := by rfl
@[simp] theorem withDead_resetAt (v : SMap Bool) : (s.withDead v).resetAt = s.resetAt := by rfl
@[simp] theorem withDead_regs (v : SMap Bool) : (s.withDead v).regs = s.regs := by rfl
@[simp] theorem withDead_latch (v : SMap Bool) : (s.withDead v).latch = s.latch := by rfl
@[simp] theorem withDead_sess (v : SMap Bool) : (s.withDead v).sess = s.sess := by rfl
@[simp] theorem withDead_owner (v : SMap Bool) : (s.withDead v).owner = s.owner := by rfl
@[simp] theorem withDead_elect (v : SMap Bool) : (s.withDead v).elect = s.elect := by rfl
@[simp] theorem withDead_ops (v : SMap Bool) : (s.withDead v).ops = s.ops := by rfl
@[simp] theorem withDead_reports (v : SMap Bool) : (s.withDead v).reports = s.reports := by rfl
@[simp] theorem withDead_condOn (v : SMap Bool) : (s.withDead v).condOn = s.condOn := by rfl
@[simp] theorem withDead_shadows (v : SMap Bool) : (s.withDead v).shadows = s.shadows := by rfl
@[simp] theorem withDead_rst (v : SMap Bool) : (s.withDead v).rst = s.rst := by rfl
@[simp] theorem withDead_stalls (v : SMap Bool) : (s.withDead v).stalls = s.stalls := by rfl
@[simp] theorem withDead_chans (v : SMap Bool) : (s.withDead v).chans = s.chans := by rfl
@[simp] theorem withDead_queues (v : SMap Bool) : (s.withDead v).queues = s.queues := by rfl
@[simp] theorem withDead_streams (v : SMap Bool) : (s.withDead v).streams = s.streams := by rfl
@[simp] theorem withDead_mem (v : SMap Bool) : (s.withDead v).mem = s.mem := by rfl
@[simp] theorem withDead_psn (v : SMap Bool) : (s.withDead v).psn = s.psn := by rfl
@[simp] theorem withDead_err (v : SMap Bool) : (s.withDead v).err = s.err := by rfl
@[simp] theorem withDead_inited (v : SMap Bool) : (s.withDead v).inited = s.inited := by rfl
@[simp] theorem withDead_dram (v : SMap Bool) : (s.withDead v).dram = s.dram := by rfl
@[simp] theorem withDead_mig (v : SMap Bool) : (s.withDead v).mig = s.mig := by rfl
@[simp] theorem withDead_dead (v : SMap Bool) : (s.withDead v).dead = v := by rfl
@[simp] theorem withDead_tack (v : SMap Bool) : (s.withDead v).tack = s.tack := by rfl
@[simp] theorem withDead_tims (v : SMap Bool) : (s.withDead v).tims = s.tims := by rfl
@[simp] theorem withDead_flts (v : SMap Bool) : (s.withDead v).flts = s.flts := by rfl
@[simp] theorem withDead_alarms (v : SMap Bool) : (s.withDead v).alarms = s.alarms := by rfl
@[simp] theorem withDead_mgt (v : SMap Bool) : (s.withDead v).mgt = s.mgt := by rfl

/-! ### withScrubOp -/

@[simp] theorem withScrubOp_pending (v : Option (Nat × Nat × List Nat)) : (s.withScrubOp v).pending = s.pending := by rfl
@[simp] theorem withScrubOp_held (v : Option (Nat × Nat × List Nat)) : (s.withScrubOp v).held = s.held := by rfl
@[simp] theorem withScrubOp_resuming (v : Option (Nat × Nat × List Nat)) : (s.withScrubOp v).resuming = s.resuming := by rfl
@[simp] theorem withScrubOp_out (v : Option (Nat × Nat × List Nat)) : (s.withScrubOp v).out = s.out := by rfl
@[simp] theorem withScrubOp_now (v : Option (Nat × Nat × List Nat)) : (s.withScrubOp v).now = s.now := by rfl
@[simp] theorem withScrubOp_cnt (v : Option (Nat × Nat × List Nat)) : (s.withScrubOp v).cnt = s.cnt := by rfl
@[simp] theorem withScrubOp_freeCtr (v : Option (Nat × Nat × List Nat)) : (s.withScrubOp v).freeCtr = s.freeCtr := by rfl
@[simp] theorem withScrubOp_phase (v : Option (Nat × Nat × List Nat)) : (s.withScrubOp v).phase = s.phase := by rfl
@[simp] theorem withScrubOp_resetAt (v : Option (Nat × Nat × List Nat)) : (s.withScrubOp v).resetAt = s.resetAt := by rfl
@[simp] theorem withScrubOp_regs (v : Option (Nat × Nat × List Nat)) : (s.withScrubOp v).regs = s.regs := by rfl
@[simp] theorem withScrubOp_latch (v : Option (Nat × Nat × List Nat)) : (s.withScrubOp v).latch = s.latch := by rfl
@[simp] theorem withScrubOp_sess (v : Option (Nat × Nat × List Nat)) : (s.withScrubOp v).sess = s.sess := by rfl
@[simp] theorem withScrubOp_owner (v : Option (Nat × Nat × List Nat)) : (s.withScrubOp v).owner = s.owner := by rfl
@[simp] theorem withScrubOp_elect (v : Option (Nat × Nat × List Nat)) : (s.withScrubOp v).elect = s.elect := by rfl
@[simp] theorem withScrubOp_ops (v : Option (Nat × Nat × List Nat)) : (s.withScrubOp v).ops = s.ops := by rfl
@[simp] theorem withScrubOp_reports (v : Option (Nat × Nat × List Nat)) : (s.withScrubOp v).reports = s.reports := by rfl
@[simp] theorem withScrubOp_condOn (v : Option (Nat × Nat × List Nat)) : (s.withScrubOp v).condOn = s.condOn := by rfl
@[simp] theorem withScrubOp_shadows (v : Option (Nat × Nat × List Nat)) : (s.withScrubOp v).shadows = s.shadows := by rfl
@[simp] theorem withScrubOp_rst (v : Option (Nat × Nat × List Nat)) : (s.withScrubOp v).rst = s.rst := by rfl
@[simp] theorem withScrubOp_stalls (v : Option (Nat × Nat × List Nat)) : (s.withScrubOp v).stalls = s.stalls := by rfl
@[simp] theorem withScrubOp_chans (v : Option (Nat × Nat × List Nat)) : (s.withScrubOp v).chans = s.chans := by rfl
@[simp] theorem withScrubOp_queues (v : Option (Nat × Nat × List Nat)) : (s.withScrubOp v).queues = s.queues := by rfl
@[simp] theorem withScrubOp_streams (v : Option (Nat × Nat × List Nat)) : (s.withScrubOp v).streams = s.streams := by rfl
@[simp] theorem withScrubOp_mem (v : Option (Nat × Nat × List Nat)) : (s.withScrubOp v).mem = s.mem := by rfl
@[simp] theorem withScrubOp_psn (v : Option (Nat × Nat × List Nat)) : (s.withScrubOp v).psn = s.psn := by rfl
@[simp] theorem withScrubOp_err (v : Option (Nat × Nat × List Nat)) : (s.withScrubOp v).err = s.err := by rfl
@[simp] theorem withScrubOp_inited (v : Option (Nat × Nat × List Nat)) : (s.withScrubOp v).inited = s.inited := by rfl
@[simp] theorem withScrubOp_dram (v : Option (Nat × Nat × List Nat)) : (s.withScrubOp v).dram = s.dram := by rfl
@[simp] theorem withScrubOp_mig (v : Option (Nat × Nat × List Nat)) : (s.withScrubOp v).mig = s.mig := by rfl
@[simp] theorem withScrubOp_scrubOp (v : Option (Nat × Nat × List Nat)) : (s.withScrubOp v).scrubOp = v := by rfl
@[simp] theorem withScrubOp_tack (v : Option (Nat × Nat × List Nat)) : (s.withScrubOp v).tack = s.tack := by rfl
@[simp] theorem withScrubOp_tims (v : Option (Nat × Nat × List Nat)) : (s.withScrubOp v).tims = s.tims := by rfl
@[simp] theorem withScrubOp_flts (v : Option (Nat × Nat × List Nat)) : (s.withScrubOp v).flts = s.flts := by rfl
@[simp] theorem withScrubOp_alarms (v : Option (Nat × Nat × List Nat)) : (s.withScrubOp v).alarms = s.alarms := by rfl
@[simp] theorem withScrubOp_mgt (v : Option (Nat × Nat × List Nat)) : (s.withScrubOp v).mgt = s.mgt := by rfl

/-! ### withRetrain -/

@[simp] theorem withRetrain_pending (v : SMap Bool) : (s.withRetrain v).pending = s.pending := by rfl
@[simp] theorem withRetrain_held (v : SMap Bool) : (s.withRetrain v).held = s.held := by rfl
@[simp] theorem withRetrain_resuming (v : SMap Bool) : (s.withRetrain v).resuming = s.resuming := by rfl
@[simp] theorem withRetrain_out (v : SMap Bool) : (s.withRetrain v).out = s.out := by rfl
@[simp] theorem withRetrain_now (v : SMap Bool) : (s.withRetrain v).now = s.now := by rfl
@[simp] theorem withRetrain_cnt (v : SMap Bool) : (s.withRetrain v).cnt = s.cnt := by rfl
@[simp] theorem withRetrain_freeCtr (v : SMap Bool) : (s.withRetrain v).freeCtr = s.freeCtr := by rfl
@[simp] theorem withRetrain_phase (v : SMap Bool) : (s.withRetrain v).phase = s.phase := by rfl
@[simp] theorem withRetrain_resetAt (v : SMap Bool) : (s.withRetrain v).resetAt = s.resetAt := by rfl
@[simp] theorem withRetrain_regs (v : SMap Bool) : (s.withRetrain v).regs = s.regs := by rfl
@[simp] theorem withRetrain_latch (v : SMap Bool) : (s.withRetrain v).latch = s.latch := by rfl
@[simp] theorem withRetrain_sess (v : SMap Bool) : (s.withRetrain v).sess = s.sess := by rfl
@[simp] theorem withRetrain_owner (v : SMap Bool) : (s.withRetrain v).owner = s.owner := by rfl
@[simp] theorem withRetrain_elect (v : SMap Bool) : (s.withRetrain v).elect = s.elect := by rfl
@[simp] theorem withRetrain_ops (v : SMap Bool) : (s.withRetrain v).ops = s.ops := by rfl
@[simp] theorem withRetrain_reports (v : SMap Bool) : (s.withRetrain v).reports = s.reports := by rfl
@[simp] theorem withRetrain_condOn (v : SMap Bool) : (s.withRetrain v).condOn = s.condOn := by rfl
@[simp] theorem withRetrain_shadows (v : SMap Bool) : (s.withRetrain v).shadows = s.shadows := by rfl
@[simp] theorem withRetrain_rst (v : SMap Bool) : (s.withRetrain v).rst = s.rst := by rfl
@[simp] theorem withRetrain_stalls (v : SMap Bool) : (s.withRetrain v).stalls = s.stalls := by rfl
@[simp] theorem withRetrain_chans (v : SMap Bool) : (s.withRetrain v).chans = s.chans := by rfl
@[simp] theorem withRetrain_queues (v : SMap Bool) : (s.withRetrain v).queues = s.queues := by rfl
@[simp] theorem withRetrain_streams (v : SMap Bool) : (s.withRetrain v).streams = s.streams := by rfl
@[simp] theorem withRetrain_mem (v : SMap Bool) : (s.withRetrain v).mem = s.mem := by rfl
@[simp] theorem withRetrain_psn (v : SMap Bool) : (s.withRetrain v).psn = s.psn := by rfl
@[simp] theorem withRetrain_err (v : SMap Bool) : (s.withRetrain v).err = s.err := by rfl
@[simp] theorem withRetrain_inited (v : SMap Bool) : (s.withRetrain v).inited = s.inited := by rfl
@[simp] theorem withRetrain_dram (v : SMap Bool) : (s.withRetrain v).dram = s.dram := by rfl
@[simp] theorem withRetrain_mig (v : SMap Bool) : (s.withRetrain v).mig = s.mig := by rfl
@[simp] theorem withRetrain_retrain (v : SMap Bool) : (s.withRetrain v).retrain = v := by rfl
@[simp] theorem withRetrain_tack (v : SMap Bool) : (s.withRetrain v).tack = s.tack := by rfl
@[simp] theorem withRetrain_tims (v : SMap Bool) : (s.withRetrain v).tims = s.tims := by rfl
@[simp] theorem withRetrain_flts (v : SMap Bool) : (s.withRetrain v).flts = s.flts := by rfl
@[simp] theorem withRetrain_alarms (v : SMap Bool) : (s.withRetrain v).alarms = s.alarms := by rfl
@[simp] theorem withRetrain_mgt (v : SMap Bool) : (s.withRetrain v).mgt = s.mgt := by rfl

/-! ### withBufPanic -/

@[simp] theorem withBufPanic_pending (v : SMap Bool) : (s.withBufPanic v).pending = s.pending := by rfl
@[simp] theorem withBufPanic_held (v : SMap Bool) : (s.withBufPanic v).held = s.held := by rfl
@[simp] theorem withBufPanic_resuming (v : SMap Bool) : (s.withBufPanic v).resuming = s.resuming := by rfl
@[simp] theorem withBufPanic_out (v : SMap Bool) : (s.withBufPanic v).out = s.out := by rfl
@[simp] theorem withBufPanic_now (v : SMap Bool) : (s.withBufPanic v).now = s.now := by rfl
@[simp] theorem withBufPanic_cnt (v : SMap Bool) : (s.withBufPanic v).cnt = s.cnt := by rfl
@[simp] theorem withBufPanic_freeCtr (v : SMap Bool) : (s.withBufPanic v).freeCtr = s.freeCtr := by rfl
@[simp] theorem withBufPanic_phase (v : SMap Bool) : (s.withBufPanic v).phase = s.phase := by rfl
@[simp] theorem withBufPanic_resetAt (v : SMap Bool) : (s.withBufPanic v).resetAt = s.resetAt := by rfl
@[simp] theorem withBufPanic_regs (v : SMap Bool) : (s.withBufPanic v).regs = s.regs := by rfl
@[simp] theorem withBufPanic_latch (v : SMap Bool) : (s.withBufPanic v).latch = s.latch := by rfl
@[simp] theorem withBufPanic_sess (v : SMap Bool) : (s.withBufPanic v).sess = s.sess := by rfl
@[simp] theorem withBufPanic_owner (v : SMap Bool) : (s.withBufPanic v).owner = s.owner := by rfl
@[simp] theorem withBufPanic_elect (v : SMap Bool) : (s.withBufPanic v).elect = s.elect := by rfl
@[simp] theorem withBufPanic_ops (v : SMap Bool) : (s.withBufPanic v).ops = s.ops := by rfl
@[simp] theorem withBufPanic_reports (v : SMap Bool) : (s.withBufPanic v).reports = s.reports := by rfl
@[simp] theorem withBufPanic_condOn (v : SMap Bool) : (s.withBufPanic v).condOn = s.condOn := by rfl
@[simp] theorem withBufPanic_shadows (v : SMap Bool) : (s.withBufPanic v).shadows = s.shadows := by rfl
@[simp] theorem withBufPanic_rst (v : SMap Bool) : (s.withBufPanic v).rst = s.rst := by rfl
@[simp] theorem withBufPanic_stalls (v : SMap Bool) : (s.withBufPanic v).stalls = s.stalls := by rfl
@[simp] theorem withBufPanic_chans (v : SMap Bool) : (s.withBufPanic v).chans = s.chans := by rfl
@[simp] theorem withBufPanic_queues (v : SMap Bool) : (s.withBufPanic v).queues = s.queues := by rfl
@[simp] theorem withBufPanic_streams (v : SMap Bool) : (s.withBufPanic v).streams = s.streams := by rfl
@[simp] theorem withBufPanic_mem (v : SMap Bool) : (s.withBufPanic v).mem = s.mem := by rfl
@[simp] theorem withBufPanic_psn (v : SMap Bool) : (s.withBufPanic v).psn = s.psn := by rfl
@[simp] theorem withBufPanic_err (v : SMap Bool) : (s.withBufPanic v).err = s.err := by rfl
@[simp] theorem withBufPanic_inited (v : SMap Bool) : (s.withBufPanic v).inited = s.inited := by rfl
@[simp] theorem withBufPanic_dram (v : SMap Bool) : (s.withBufPanic v).dram = s.dram := by rfl
@[simp] theorem withBufPanic_mig (v : SMap Bool) : (s.withBufPanic v).mig = s.mig := by rfl
@[simp] theorem withBufPanic_bufPanic (v : SMap Bool) : (s.withBufPanic v).bufPanic = v := by rfl
@[simp] theorem withBufPanic_tack (v : SMap Bool) : (s.withBufPanic v).tack = s.tack := by rfl
@[simp] theorem withBufPanic_tims (v : SMap Bool) : (s.withBufPanic v).tims = s.tims := by rfl
@[simp] theorem withBufPanic_flts (v : SMap Bool) : (s.withBufPanic v).flts = s.flts := by rfl
@[simp] theorem withBufPanic_alarms (v : SMap Bool) : (s.withBufPanic v).alarms = s.alarms := by rfl
@[simp] theorem withBufPanic_mgt (v : SMap Bool) : (s.withBufPanic v).mgt = s.mgt := by rfl

/-! ### withTack -/

@[simp] theorem withTack_pending (v : SMap Byte) : (s.withTack v).pending = s.pending := by rfl
@[simp] theorem withTack_held (v : SMap Byte) : (s.withTack v).held = s.held := by rfl
@[simp] theorem withTack_resuming (v : SMap Byte) : (s.withTack v).resuming = s.resuming := by rfl
@[simp] theorem withTack_out (v : SMap Byte) : (s.withTack v).out = s.out := by rfl
@[simp] theorem withTack_now (v : SMap Byte) : (s.withTack v).now = s.now := by rfl
@[simp] theorem withTack_cnt (v : SMap Byte) : (s.withTack v).cnt = s.cnt := by rfl
@[simp] theorem withTack_freeCtr (v : SMap Byte) : (s.withTack v).freeCtr = s.freeCtr := by rfl
@[simp] theorem withTack_phase (v : SMap Byte) : (s.withTack v).phase = s.phase := by rfl
@[simp] theorem withTack_resetAt (v : SMap Byte) : (s.withTack v).resetAt = s.resetAt := by rfl
@[simp] theorem withTack_regs (v : SMap Byte) : (s.withTack v).regs = s.regs := by rfl
@[simp] theorem withTack_latch (v : SMap Byte) : (s.withTack v).latch = s.latch := by rfl
@[simp] theorem withTack_sess (v : SMap Byte) : (s.withTack v).sess = s.sess := by rfl
@[simp] theorem withTack_owner (v : SMap Byte) : (s.withTack v).owner = s.owner := by rfl
@[simp] theorem withTack_elect (v : SMap Byte) : (s.withTack v).elect = s.elect := by rfl
@[simp] theorem withTack_ops (v : SMap Byte) : (s.withTack v).ops = s.ops := by rfl
@[simp] theorem withTack_reports (v : SMap Byte) : (s.withTack v).reports = s.reports := by rfl
@[simp] theorem withTack_condOn (v : SMap Byte) : (s.withTack v).condOn = s.condOn := by rfl
@[simp] theorem withTack_shadows (v : SMap Byte) : (s.withTack v).shadows = s.shadows := by rfl
@[simp] theorem withTack_rst (v : SMap Byte) : (s.withTack v).rst = s.rst := by rfl
@[simp] theorem withTack_stalls (v : SMap Byte) : (s.withTack v).stalls = s.stalls := by rfl
@[simp] theorem withTack_chans (v : SMap Byte) : (s.withTack v).chans = s.chans := by rfl
@[simp] theorem withTack_queues (v : SMap Byte) : (s.withTack v).queues = s.queues := by rfl
@[simp] theorem withTack_streams (v : SMap Byte) : (s.withTack v).streams = s.streams := by rfl
@[simp] theorem withTack_mem (v : SMap Byte) : (s.withTack v).mem = s.mem := by rfl
@[simp] theorem withTack_psn (v : SMap Byte) : (s.withTack v).psn = s.psn := by rfl
@[simp] theorem withTack_err (v : SMap Byte) : (s.withTack v).err = s.err := by rfl
@[simp] theorem withTack_inited (v : SMap Byte) : (s.withTack v).inited = s.inited := by rfl
@[simp] theorem withTack_dram (v : SMap Byte) : (s.withTack v).dram = s.dram := by rfl
@[simp] theorem withTack_mig (v : SMap Byte) : (s.withTack v).mig = s.mig := by rfl
@[simp] theorem withTack_tack (v : SMap Byte) : (s.withTack v).tack = v := by rfl
@[simp] theorem withTack_tims (v : SMap Byte) : (s.withTack v).tims = s.tims := by rfl
@[simp] theorem withTack_flts (v : SMap Byte) : (s.withTack v).flts = s.flts := by rfl
@[simp] theorem withTack_alarms (v : SMap Byte) : (s.withTack v).alarms = s.alarms := by rfl
@[simp] theorem withTack_mgt (v : SMap Byte) : (s.withTack v).mgt = s.mgt := by rfl

/-! ### withTims -/

@[simp] theorem withTims_pending (v : SMap Tim) : (s.withTims v).pending = s.pending := by rfl
@[simp] theorem withTims_held (v : SMap Tim) : (s.withTims v).held = s.held := by rfl
@[simp] theorem withTims_resuming (v : SMap Tim) : (s.withTims v).resuming = s.resuming := by rfl
@[simp] theorem withTims_out (v : SMap Tim) : (s.withTims v).out = s.out := by rfl
@[simp] theorem withTims_now (v : SMap Tim) : (s.withTims v).now = s.now := by rfl
@[simp] theorem withTims_cnt (v : SMap Tim) : (s.withTims v).cnt = s.cnt := by rfl
@[simp] theorem withTims_freeCtr (v : SMap Tim) : (s.withTims v).freeCtr = s.freeCtr := by rfl
@[simp] theorem withTims_phase (v : SMap Tim) : (s.withTims v).phase = s.phase := by rfl
@[simp] theorem withTims_resetAt (v : SMap Tim) : (s.withTims v).resetAt = s.resetAt := by rfl
@[simp] theorem withTims_regs (v : SMap Tim) : (s.withTims v).regs = s.regs := by rfl
@[simp] theorem withTims_latch (v : SMap Tim) : (s.withTims v).latch = s.latch := by rfl
@[simp] theorem withTims_sess (v : SMap Tim) : (s.withTims v).sess = s.sess := by rfl
@[simp] theorem withTims_owner (v : SMap Tim) : (s.withTims v).owner = s.owner := by rfl
@[simp] theorem withTims_elect (v : SMap Tim) : (s.withTims v).elect = s.elect := by rfl
@[simp] theorem withTims_ops (v : SMap Tim) : (s.withTims v).ops = s.ops := by rfl
@[simp] theorem withTims_reports (v : SMap Tim) : (s.withTims v).reports = s.reports := by rfl
@[simp] theorem withTims_condOn (v : SMap Tim) : (s.withTims v).condOn = s.condOn := by rfl
@[simp] theorem withTims_shadows (v : SMap Tim) : (s.withTims v).shadows = s.shadows := by rfl
@[simp] theorem withTims_rst (v : SMap Tim) : (s.withTims v).rst = s.rst := by rfl
@[simp] theorem withTims_stalls (v : SMap Tim) : (s.withTims v).stalls = s.stalls := by rfl
@[simp] theorem withTims_chans (v : SMap Tim) : (s.withTims v).chans = s.chans := by rfl
@[simp] theorem withTims_queues (v : SMap Tim) : (s.withTims v).queues = s.queues := by rfl
@[simp] theorem withTims_streams (v : SMap Tim) : (s.withTims v).streams = s.streams := by rfl
@[simp] theorem withTims_mem (v : SMap Tim) : (s.withTims v).mem = s.mem := by rfl
@[simp] theorem withTims_psn (v : SMap Tim) : (s.withTims v).psn = s.psn := by rfl
@[simp] theorem withTims_err (v : SMap Tim) : (s.withTims v).err = s.err := by rfl
@[simp] theorem withTims_inited (v : SMap Tim) : (s.withTims v).inited = s.inited := by rfl
@[simp] theorem withTims_dram (v : SMap Tim) : (s.withTims v).dram = s.dram := by rfl
@[simp] theorem withTims_mig (v : SMap Tim) : (s.withTims v).mig = s.mig := by rfl
@[simp] theorem withTims_tack (v : SMap Tim) : (s.withTims v).tack = s.tack := by rfl
@[simp] theorem withTims_tims (v : SMap Tim) : (s.withTims v).tims = v := by rfl
@[simp] theorem withTims_flts (v : SMap Tim) : (s.withTims v).flts = s.flts := by rfl
@[simp] theorem withTims_alarms (v : SMap Tim) : (s.withTims v).alarms = s.alarms := by rfl
@[simp] theorem withTims_mgt (v : SMap Tim) : (s.withTims v).mgt = s.mgt := by rfl

/-! ### withFlts -/

@[simp] theorem withFlts_pending (v : SMap Flt) : (s.withFlts v).pending = s.pending := by rfl
@[simp] theorem withFlts_held (v : SMap Flt) : (s.withFlts v).held = s.held := by rfl
@[simp] theorem withFlts_resuming (v : SMap Flt) : (s.withFlts v).resuming = s.resuming := by rfl
@[simp] theorem withFlts_out (v : SMap Flt) : (s.withFlts v).out = s.out := by rfl
@[simp] theorem withFlts_now (v : SMap Flt) : (s.withFlts v).now = s.now := by rfl
@[simp] theorem withFlts_cnt (v : SMap Flt) : (s.withFlts v).cnt = s.cnt := by rfl
@[simp] theorem withFlts_freeCtr (v : SMap Flt) : (s.withFlts v).freeCtr = s.freeCtr := by rfl
@[simp] theorem withFlts_phase (v : SMap Flt) : (s.withFlts v).phase = s.phase := by rfl
@[simp] theorem withFlts_resetAt (v : SMap Flt) : (s.withFlts v).resetAt = s.resetAt := by rfl
@[simp] theorem withFlts_regs (v : SMap Flt) : (s.withFlts v).regs = s.regs := by rfl
@[simp] theorem withFlts_latch (v : SMap Flt) : (s.withFlts v).latch = s.latch := by rfl
@[simp] theorem withFlts_sess (v : SMap Flt) : (s.withFlts v).sess = s.sess := by rfl
@[simp] theorem withFlts_owner (v : SMap Flt) : (s.withFlts v).owner = s.owner := by rfl
@[simp] theorem withFlts_elect (v : SMap Flt) : (s.withFlts v).elect = s.elect := by rfl
@[simp] theorem withFlts_ops (v : SMap Flt) : (s.withFlts v).ops = s.ops := by rfl
@[simp] theorem withFlts_reports (v : SMap Flt) : (s.withFlts v).reports = s.reports := by rfl
@[simp] theorem withFlts_condOn (v : SMap Flt) : (s.withFlts v).condOn = s.condOn := by rfl
@[simp] theorem withFlts_shadows (v : SMap Flt) : (s.withFlts v).shadows = s.shadows := by rfl
@[simp] theorem withFlts_rst (v : SMap Flt) : (s.withFlts v).rst = s.rst := by rfl
@[simp] theorem withFlts_stalls (v : SMap Flt) : (s.withFlts v).stalls = s.stalls := by rfl
@[simp] theorem withFlts_chans (v : SMap Flt) : (s.withFlts v).chans = s.chans := by rfl
@[simp] theorem withFlts_queues (v : SMap Flt) : (s.withFlts v).queues = s.queues := by rfl
@[simp] theorem withFlts_streams (v : SMap Flt) : (s.withFlts v).streams = s.streams := by rfl
@[simp] theorem withFlts_mem (v : SMap Flt) : (s.withFlts v).mem = s.mem := by rfl
@[simp] theorem withFlts_psn (v : SMap Flt) : (s.withFlts v).psn = s.psn := by rfl
@[simp] theorem withFlts_err (v : SMap Flt) : (s.withFlts v).err = s.err := by rfl
@[simp] theorem withFlts_inited (v : SMap Flt) : (s.withFlts v).inited = s.inited := by rfl
@[simp] theorem withFlts_dram (v : SMap Flt) : (s.withFlts v).dram = s.dram := by rfl
@[simp] theorem withFlts_mig (v : SMap Flt) : (s.withFlts v).mig = s.mig := by rfl
@[simp] theorem withFlts_tack (v : SMap Flt) : (s.withFlts v).tack = s.tack := by rfl
@[simp] theorem withFlts_tims (v : SMap Flt) : (s.withFlts v).tims = s.tims := by rfl
@[simp] theorem withFlts_flts (v : SMap Flt) : (s.withFlts v).flts = v := by rfl
@[simp] theorem withFlts_alarms (v : SMap Flt) : (s.withFlts v).alarms = s.alarms := by rfl
@[simp] theorem withFlts_mgt (v : SMap Flt) : (s.withFlts v).mgt = s.mgt := by rfl

/-! ### withFltBits -/

@[simp] theorem withFltBits_pending (v : SMap (List (Nat × Bool))) : (s.withFltBits v).pending = s.pending := by rfl
@[simp] theorem withFltBits_held (v : SMap (List (Nat × Bool))) : (s.withFltBits v).held = s.held := by rfl
@[simp] theorem withFltBits_resuming (v : SMap (List (Nat × Bool))) : (s.withFltBits v).resuming = s.resuming := by rfl
@[simp] theorem withFltBits_out (v : SMap (List (Nat × Bool))) : (s.withFltBits v).out = s.out := by rfl
@[simp] theorem withFltBits_now (v : SMap (List (Nat × Bool))) : (s.withFltBits v).now = s.now := by rfl
@[simp] theorem withFltBits_cnt (v : SMap (List (Nat × Bool))) : (s.withFltBits v).cnt = s.cnt := by rfl
@[simp] theorem withFltBits_freeCtr (v : SMap (List (Nat × Bool))) : (s.withFltBits v).freeCtr = s.freeCtr := by rfl
@[simp] theorem withFltBits_phase (v : SMap (List (Nat × Bool))) : (s.withFltBits v).phase = s.phase := by rfl
@[simp] theorem withFltBits_resetAt (v : SMap (List (Nat × Bool))) : (s.withFltBits v).resetAt = s.resetAt := by rfl
@[simp] theorem withFltBits_regs (v : SMap (List (Nat × Bool))) : (s.withFltBits v).regs = s.regs := by rfl
@[simp] theorem withFltBits_latch (v : SMap (List (Nat × Bool))) : (s.withFltBits v).latch = s.latch := by rfl
@[simp] theorem withFltBits_sess (v : SMap (List (Nat × Bool))) : (s.withFltBits v).sess = s.sess := by rfl
@[simp] theorem withFltBits_owner (v : SMap (List (Nat × Bool))) : (s.withFltBits v).owner = s.owner := by rfl
@[simp] theorem withFltBits_elect (v : SMap (List (Nat × Bool))) : (s.withFltBits v).elect = s.elect := by rfl
@[simp] theorem withFltBits_ops (v : SMap (List (Nat × Bool))) : (s.withFltBits v).ops = s.ops := by rfl
@[simp] theorem withFltBits_reports (v : SMap (List (Nat × Bool))) : (s.withFltBits v).reports = s.reports := by rfl
@[simp] theorem withFltBits_condOn (v : SMap (List (Nat × Bool))) : (s.withFltBits v).condOn = s.condOn := by rfl
@[simp] theorem withFltBits_shadows (v : SMap (List (Nat × Bool))) : (s.withFltBits v).shadows = s.shadows := by rfl
@[simp] theorem withFltBits_rst (v : SMap (List (Nat × Bool))) : (s.withFltBits v).rst = s.rst := by rfl
@[simp] theorem withFltBits_stalls (v : SMap (List (Nat × Bool))) : (s.withFltBits v).stalls = s.stalls := by rfl
@[simp] theorem withFltBits_chans (v : SMap (List (Nat × Bool))) : (s.withFltBits v).chans = s.chans := by rfl
@[simp] theorem withFltBits_queues (v : SMap (List (Nat × Bool))) : (s.withFltBits v).queues = s.queues := by rfl
@[simp] theorem withFltBits_streams (v : SMap (List (Nat × Bool))) : (s.withFltBits v).streams = s.streams := by rfl
@[simp] theorem withFltBits_mem (v : SMap (List (Nat × Bool))) : (s.withFltBits v).mem = s.mem := by rfl
@[simp] theorem withFltBits_psn (v : SMap (List (Nat × Bool))) : (s.withFltBits v).psn = s.psn := by rfl
@[simp] theorem withFltBits_err (v : SMap (List (Nat × Bool))) : (s.withFltBits v).err = s.err := by rfl
@[simp] theorem withFltBits_inited (v : SMap (List (Nat × Bool))) : (s.withFltBits v).inited = s.inited := by rfl
@[simp] theorem withFltBits_dram (v : SMap (List (Nat × Bool))) : (s.withFltBits v).dram = s.dram := by rfl
@[simp] theorem withFltBits_mig (v : SMap (List (Nat × Bool))) : (s.withFltBits v).mig = s.mig := by rfl
@[simp] theorem withFltBits_tack (v : SMap (List (Nat × Bool))) : (s.withFltBits v).tack = s.tack := by rfl
@[simp] theorem withFltBits_tims (v : SMap (List (Nat × Bool))) : (s.withFltBits v).tims = s.tims := by rfl
@[simp] theorem withFltBits_flts (v : SMap (List (Nat × Bool))) : (s.withFltBits v).flts = s.flts := by rfl
@[simp] theorem withFltBits_fltBits (v : SMap (List (Nat × Bool))) : (s.withFltBits v).fltBits = v := by rfl
@[simp] theorem withFltBits_alarms (v : SMap (List (Nat × Bool))) : (s.withFltBits v).alarms = s.alarms := by rfl
@[simp] theorem withFltBits_mgt (v : SMap (List (Nat × Bool))) : (s.withFltBits v).mgt = s.mgt := by rfl

/-! ### withOfs -/

@[simp] theorem withOfs_pending (v : Nat) : (s.withOfs v).pending = s.pending := by rfl
@[simp] theorem withOfs_held (v : Nat) : (s.withOfs v).held = s.held := by rfl
@[simp] theorem withOfs_resuming (v : Nat) : (s.withOfs v).resuming = s.resuming := by rfl
@[simp] theorem withOfs_out (v : Nat) : (s.withOfs v).out = s.out := by rfl
@[simp] theorem withOfs_now (v : Nat) : (s.withOfs v).now = s.now := by rfl
@[simp] theorem withOfs_cnt (v : Nat) : (s.withOfs v).cnt = s.cnt := by rfl
@[simp] theorem withOfs_freeCtr (v : Nat) : (s.withOfs v).freeCtr = s.freeCtr := by rfl
@[simp] theorem withOfs_phase (v : Nat) : (s.withOfs v).phase = s.phase := by rfl
@[simp] theorem withOfs_resetAt (v : Nat) : (s.withOfs v).resetAt = s.resetAt := by rfl
@[simp] theorem withOfs_regs (v : Nat) : (s.withOfs v).regs = s.regs := by rfl
@[simp] theorem withOfs_latch (v : Nat) : (s.withOfs v).latch = s.latch := by rfl
@[simp] theorem withOfs_sess (v : Nat) : (s.withOfs v).sess = s.sess := by rfl
@[simp] theorem withOfs_owner (v : Nat) : (s.withOfs v).owner = s.owner := by rfl
@[simp] theorem withOfs_elect (v : Nat) : (s.withOfs v).elect = s.elect := by rfl
@[simp] theorem withOfs_ops (v : Nat) : (s.withOfs v).ops = s.ops := by rfl
@[simp] theorem withOfs_reports (v : Nat) : (s.withOfs v).reports = s.reports := by rfl
@[simp] theorem withOfs_condOn (v : Nat) : (s.withOfs v).condOn = s.condOn := by rfl
@[simp] theorem withOfs_shadows (v : Nat) : (s.withOfs v).shadows = s.shadows := by rfl
@[simp] theorem withOfs_rst (v : Nat) : (s.withOfs v).rst = s.rst := by rfl
@[simp] theorem withOfs_stalls (v : Nat) : (s.withOfs v).stalls = s.stalls := by rfl
@[simp] theorem withOfs_chans (v : Nat) : (s.withOfs v).chans = s.chans := by rfl
@[simp] theorem withOfs_queues (v : Nat) : (s.withOfs v).queues = s.queues := by rfl
@[simp] theorem withOfs_streams (v : Nat) : (s.withOfs v).streams = s.streams := by rfl
@[simp] theorem withOfs_mem (v : Nat) : (s.withOfs v).mem = s.mem := by rfl
@[simp] theorem withOfs_psn (v : Nat) : (s.withOfs v).psn = s.psn := by rfl
@[simp] theorem withOfs_err (v : Nat) : (s.withOfs v).err = s.err := by rfl
@[simp] theorem withOfs_inited (v : Nat) : (s.withOfs v).inited = s.inited := by rfl
@[simp] theorem withOfs_dram (v : Nat) : (s.withOfs v).dram = s.dram := by rfl
@[simp] theorem withOfs_mig (v : Nat) : (s.withOfs v).mig = s.mig := by rfl
@[simp] theorem withOfs_tack (v : Nat) : (s.withOfs v).tack = s.tack := by rfl
@[simp] theorem withOfs_tims (v : Nat) : (s.withOfs v).tims = s.tims := by rfl
@[simp] theorem withOfs_flts (v : Nat) : (s.withOfs v).flts = s.flts := by rfl
@[simp] theorem withOfs_ofs (v : Nat) : (s.withOfs v).ofs = v := by rfl
@[simp] theorem withOfs_alarms (v : Nat) : (s.withOfs v).alarms = s.alarms := by rfl
@[simp] theorem withOfs_mgt (v : Nat) : (s.withOfs v).mgt = s.mgt := by rfl

/-! ### withRate -/

@[simp] theorem withRate_pending (v : Int) : (s.withRate v).pending = s.pending := by rfl
@[simp] theorem withRate_held (v : Int) : (s.withRate v).held = s.held := by rfl
@[simp] theorem withRate_resuming (v : Int) : (s.withRate v).resuming = s.resuming := by rfl
@[simp] theorem withRate_out (v : Int) : (s.withRate v).out = s.out := by rfl
@[simp] theorem withRate_now (v : Int) : (s.withRate v).now = s.now := by rfl
@[simp] theorem withRate_cnt (v : Int) : (s.withRate v).cnt = s.cnt := by rfl
@[simp] theorem withRate_freeCtr (v : Int) : (s.withRate v).freeCtr = s.freeCtr := by rfl
@[simp] theorem withRate_phase (v : Int) : (s.withRate v).phase = s.phase := by rfl
@[simp] theorem withRate_resetAt (v : Int) : (s.withRate v).resetAt = s.resetAt := by rfl
@[simp] theorem withRate_regs (v : Int) : (s.withRate v).regs = s.regs := by rfl
@[simp] theorem withRate_latch (v : Int) : (s.withRate v).latch = s.latch := by rfl
@[simp] theorem withRate_sess (v : Int) : (s.withRate v).sess = s.sess := by rfl
@[simp] theorem withRate_owner (v : Int) : (s.withRate v).owner = s.owner := by rfl
@[simp] theorem withRate_elect (v : Int) : (s.withRate v).elect = s.elect := by rfl
@[simp] theorem withRate_ops (v : Int) : (s.withRate v).ops = s.ops := by rfl
@[simp] theorem withRate_reports (v : Int) : (s.withRate v).reports = s.reports := by rfl
@[simp] theorem withRate_condOn (v : Int) : (s.withRate v).condOn = s.condOn := by rfl
@[simp] theorem withRate_shadows (v : Int) : (s.withRate v).shadows = s.shadows := by rfl
@[simp] theorem withRate_rst (v : Int) : (s.withRate v).rst = s.rst := by rfl
@[simp] theorem withRate_stalls (v : Int) : (s.withRate v).stalls = s.stalls := by rfl
@[simp] theorem withRate_chans (v : Int) : (s.withRate v).chans = s.chans := by rfl
@[simp] theorem withRate_queues (v : Int) : (s.withRate v).queues = s.queues := by rfl
@[simp] theorem withRate_streams (v : Int) : (s.withRate v).streams = s.streams := by rfl
@[simp] theorem withRate_mem (v : Int) : (s.withRate v).mem = s.mem := by rfl
@[simp] theorem withRate_psn (v : Int) : (s.withRate v).psn = s.psn := by rfl
@[simp] theorem withRate_err (v : Int) : (s.withRate v).err = s.err := by rfl
@[simp] theorem withRate_inited (v : Int) : (s.withRate v).inited = s.inited := by rfl
@[simp] theorem withRate_dram (v : Int) : (s.withRate v).dram = s.dram := by rfl
@[simp] theorem withRate_mig (v : Int) : (s.withRate v).mig = s.mig := by rfl
@[simp] theorem withRate_tack (v : Int) : (s.withRate v).tack = s.tack := by rfl
@[simp] theorem withRate_tims (v : Int) : (s.withRate v).tims = s.tims := by rfl
@[simp] theorem withRate_flts (v : Int) : (s.withRate v).flts = s.flts := by rfl
@[simp] theorem withRate_rate (v : Int) : (s.withRate v).rate = v := by rfl
@[simp] theorem withRate_alarms (v : Int) : (s.withRate v).alarms = s.alarms := by rfl
@[simp] theorem withRate_mgt (v : Int) : (s.withRate v).mgt = s.mgt := by rfl

/-! ### withRateLo -/

@[simp] theorem withRateLo_pending (v : Word) : (s.withRateLo v).pending = s.pending := by rfl
@[simp] theorem withRateLo_held (v : Word) : (s.withRateLo v).held = s.held := by rfl
@[simp] theorem withRateLo_resuming (v : Word) : (s.withRateLo v).resuming = s.resuming := by rfl
@[simp] theorem withRateLo_out (v : Word) : (s.withRateLo v).out = s.out := by rfl
@[simp] theorem withRateLo_now (v : Word) : (s.withRateLo v).now = s.now := by rfl
@[simp] theorem withRateLo_cnt (v : Word) : (s.withRateLo v).cnt = s.cnt := by rfl
@[simp] theorem withRateLo_freeCtr (v : Word) : (s.withRateLo v).freeCtr = s.freeCtr := by rfl
@[simp] theorem withRateLo_phase (v : Word) : (s.withRateLo v).phase = s.phase := by rfl
@[simp] theorem withRateLo_resetAt (v : Word) : (s.withRateLo v).resetAt = s.resetAt := by rfl
@[simp] theorem withRateLo_regs (v : Word) : (s.withRateLo v).regs = s.regs := by rfl
@[simp] theorem withRateLo_latch (v : Word) : (s.withRateLo v).latch = s.latch := by rfl
@[simp] theorem withRateLo_sess (v : Word) : (s.withRateLo v).sess = s.sess := by rfl
@[simp] theorem withRateLo_owner (v : Word) : (s.withRateLo v).owner = s.owner := by rfl
@[simp] theorem withRateLo_elect (v : Word) : (s.withRateLo v).elect = s.elect := by rfl
@[simp] theorem withRateLo_ops (v : Word) : (s.withRateLo v).ops = s.ops := by rfl
@[simp] theorem withRateLo_reports (v : Word) : (s.withRateLo v).reports = s.reports := by rfl
@[simp] theorem withRateLo_condOn (v : Word) : (s.withRateLo v).condOn = s.condOn := by rfl
@[simp] theorem withRateLo_shadows (v : Word) : (s.withRateLo v).shadows = s.shadows := by rfl
@[simp] theorem withRateLo_rst (v : Word) : (s.withRateLo v).rst = s.rst := by rfl
@[simp] theorem withRateLo_stalls (v : Word) : (s.withRateLo v).stalls = s.stalls := by rfl
@[simp] theorem withRateLo_chans (v : Word) : (s.withRateLo v).chans = s.chans := by rfl
@[simp] theorem withRateLo_queues (v : Word) : (s.withRateLo v).queues = s.queues := by rfl
@[simp] theorem withRateLo_streams (v : Word) : (s.withRateLo v).streams = s.streams := by rfl
@[simp] theorem withRateLo_mem (v : Word) : (s.withRateLo v).mem = s.mem := by rfl
@[simp] theorem withRateLo_psn (v : Word) : (s.withRateLo v).psn = s.psn := by rfl
@[simp] theorem withRateLo_err (v : Word) : (s.withRateLo v).err = s.err := by rfl
@[simp] theorem withRateLo_inited (v : Word) : (s.withRateLo v).inited = s.inited := by rfl
@[simp] theorem withRateLo_dram (v : Word) : (s.withRateLo v).dram = s.dram := by rfl
@[simp] theorem withRateLo_mig (v : Word) : (s.withRateLo v).mig = s.mig := by rfl
@[simp] theorem withRateLo_tack (v : Word) : (s.withRateLo v).tack = s.tack := by rfl
@[simp] theorem withRateLo_tims (v : Word) : (s.withRateLo v).tims = s.tims := by rfl
@[simp] theorem withRateLo_flts (v : Word) : (s.withRateLo v).flts = s.flts := by rfl
@[simp] theorem withRateLo_rateLo (v : Word) : (s.withRateLo v).rateLo = v := by rfl
@[simp] theorem withRateLo_alarms (v : Word) : (s.withRateLo v).alarms = s.alarms := by rfl
@[simp] theorem withRateLo_mgt (v : Word) : (s.withRateLo v).mgt = s.mgt := by rfl

/-! ### withAlarms -/

@[simp] theorem withAlarms_pending (v : SMap (Option Alarm)) : (s.withAlarms v).pending = s.pending := by rfl
@[simp] theorem withAlarms_held (v : SMap (Option Alarm)) : (s.withAlarms v).held = s.held := by rfl
@[simp] theorem withAlarms_resuming (v : SMap (Option Alarm)) : (s.withAlarms v).resuming = s.resuming := by rfl
@[simp] theorem withAlarms_out (v : SMap (Option Alarm)) : (s.withAlarms v).out = s.out := by rfl
@[simp] theorem withAlarms_now (v : SMap (Option Alarm)) : (s.withAlarms v).now = s.now := by rfl
@[simp] theorem withAlarms_cnt (v : SMap (Option Alarm)) : (s.withAlarms v).cnt = s.cnt := by rfl
@[simp] theorem withAlarms_freeCtr (v : SMap (Option Alarm)) : (s.withAlarms v).freeCtr = s.freeCtr := by rfl
@[simp] theorem withAlarms_phase (v : SMap (Option Alarm)) : (s.withAlarms v).phase = s.phase := by rfl
@[simp] theorem withAlarms_resetAt (v : SMap (Option Alarm)) : (s.withAlarms v).resetAt = s.resetAt := by rfl
@[simp] theorem withAlarms_regs (v : SMap (Option Alarm)) : (s.withAlarms v).regs = s.regs := by rfl
@[simp] theorem withAlarms_latch (v : SMap (Option Alarm)) : (s.withAlarms v).latch = s.latch := by rfl
@[simp] theorem withAlarms_sess (v : SMap (Option Alarm)) : (s.withAlarms v).sess = s.sess := by rfl
@[simp] theorem withAlarms_owner (v : SMap (Option Alarm)) : (s.withAlarms v).owner = s.owner := by rfl
@[simp] theorem withAlarms_elect (v : SMap (Option Alarm)) : (s.withAlarms v).elect = s.elect := by rfl
@[simp] theorem withAlarms_ops (v : SMap (Option Alarm)) : (s.withAlarms v).ops = s.ops := by rfl
@[simp] theorem withAlarms_reports (v : SMap (Option Alarm)) : (s.withAlarms v).reports = s.reports := by rfl
@[simp] theorem withAlarms_condOn (v : SMap (Option Alarm)) : (s.withAlarms v).condOn = s.condOn := by rfl
@[simp] theorem withAlarms_shadows (v : SMap (Option Alarm)) : (s.withAlarms v).shadows = s.shadows := by rfl
@[simp] theorem withAlarms_rst (v : SMap (Option Alarm)) : (s.withAlarms v).rst = s.rst := by rfl
@[simp] theorem withAlarms_stalls (v : SMap (Option Alarm)) : (s.withAlarms v).stalls = s.stalls := by rfl
@[simp] theorem withAlarms_chans (v : SMap (Option Alarm)) : (s.withAlarms v).chans = s.chans := by rfl
@[simp] theorem withAlarms_queues (v : SMap (Option Alarm)) : (s.withAlarms v).queues = s.queues := by rfl
@[simp] theorem withAlarms_streams (v : SMap (Option Alarm)) : (s.withAlarms v).streams = s.streams := by rfl
@[simp] theorem withAlarms_mem (v : SMap (Option Alarm)) : (s.withAlarms v).mem = s.mem := by rfl
@[simp] theorem withAlarms_psn (v : SMap (Option Alarm)) : (s.withAlarms v).psn = s.psn := by rfl
@[simp] theorem withAlarms_err (v : SMap (Option Alarm)) : (s.withAlarms v).err = s.err := by rfl
@[simp] theorem withAlarms_inited (v : SMap (Option Alarm)) : (s.withAlarms v).inited = s.inited := by rfl
@[simp] theorem withAlarms_dram (v : SMap (Option Alarm)) : (s.withAlarms v).dram = s.dram := by rfl
@[simp] theorem withAlarms_mig (v : SMap (Option Alarm)) : (s.withAlarms v).mig = s.mig := by rfl
@[simp] theorem withAlarms_tack (v : SMap (Option Alarm)) : (s.withAlarms v).tack = s.tack := by rfl
@[simp] theorem withAlarms_tims (v : SMap (Option Alarm)) : (s.withAlarms v).tims = s.tims := by rfl
@[simp] theorem withAlarms_flts (v : SMap (Option Alarm)) : (s.withAlarms v).flts = s.flts := by rfl
@[simp] theorem withAlarms_alarms (v : SMap (Option Alarm)) : (s.withAlarms v).alarms = v := by rfl
@[simp] theorem withAlarms_mgt (v : SMap (Option Alarm)) : (s.withAlarms v).mgt = s.mgt := by rfl

/-! ### withPtp -/

@[simp] theorem withPtp_pending (v : SMap Ptp) : (s.withPtp v).pending = s.pending := by rfl
@[simp] theorem withPtp_held (v : SMap Ptp) : (s.withPtp v).held = s.held := by rfl
@[simp] theorem withPtp_resuming (v : SMap Ptp) : (s.withPtp v).resuming = s.resuming := by rfl
@[simp] theorem withPtp_out (v : SMap Ptp) : (s.withPtp v).out = s.out := by rfl
@[simp] theorem withPtp_now (v : SMap Ptp) : (s.withPtp v).now = s.now := by rfl
@[simp] theorem withPtp_cnt (v : SMap Ptp) : (s.withPtp v).cnt = s.cnt := by rfl
@[simp] theorem withPtp_freeCtr (v : SMap Ptp) : (s.withPtp v).freeCtr = s.freeCtr := by rfl
@[simp] theorem withPtp_phase (v : SMap Ptp) : (s.withPtp v).phase = s.phase := by rfl
@[simp] theorem withPtp_resetAt (v : SMap Ptp) : (s.withPtp v).resetAt = s.resetAt := by rfl
@[simp] theorem withPtp_regs (v : SMap Ptp) : (s.withPtp v).regs = s.regs := by rfl
@[simp] theorem withPtp_latch (v : SMap Ptp) : (s.withPtp v).latch = s.latch := by rfl
@[simp] theorem withPtp_sess (v : SMap Ptp) : (s.withPtp v).sess = s.sess := by rfl
@[simp] theorem withPtp_owner (v : SMap Ptp) : (s.withPtp v).owner = s.owner := by rfl
@[simp] theorem withPtp_elect (v : SMap Ptp) : (s.withPtp v).elect = s.elect := by rfl
@[simp] theorem withPtp_ops (v : SMap Ptp) : (s.withPtp v).ops = s.ops := by rfl
@[simp] theorem withPtp_reports (v : SMap Ptp) : (s.withPtp v).reports = s.reports := by rfl
@[simp] theorem withPtp_condOn (v : SMap Ptp) : (s.withPtp v).condOn = s.condOn := by rfl
@[simp] theorem withPtp_shadows (v : SMap Ptp) : (s.withPtp v).shadows = s.shadows := by rfl
@[simp] theorem withPtp_rst (v : SMap Ptp) : (s.withPtp v).rst = s.rst := by rfl
@[simp] theorem withPtp_stalls (v : SMap Ptp) : (s.withPtp v).stalls = s.stalls := by rfl
@[simp] theorem withPtp_chans (v : SMap Ptp) : (s.withPtp v).chans = s.chans := by rfl
@[simp] theorem withPtp_queues (v : SMap Ptp) : (s.withPtp v).queues = s.queues := by rfl
@[simp] theorem withPtp_streams (v : SMap Ptp) : (s.withPtp v).streams = s.streams := by rfl
@[simp] theorem withPtp_mem (v : SMap Ptp) : (s.withPtp v).mem = s.mem := by rfl
@[simp] theorem withPtp_psn (v : SMap Ptp) : (s.withPtp v).psn = s.psn := by rfl
@[simp] theorem withPtp_err (v : SMap Ptp) : (s.withPtp v).err = s.err := by rfl
@[simp] theorem withPtp_inited (v : SMap Ptp) : (s.withPtp v).inited = s.inited := by rfl
@[simp] theorem withPtp_dram (v : SMap Ptp) : (s.withPtp v).dram = s.dram := by rfl
@[simp] theorem withPtp_mig (v : SMap Ptp) : (s.withPtp v).mig = s.mig := by rfl
@[simp] theorem withPtp_tack (v : SMap Ptp) : (s.withPtp v).tack = s.tack := by rfl
@[simp] theorem withPtp_tims (v : SMap Ptp) : (s.withPtp v).tims = s.tims := by rfl
@[simp] theorem withPtp_flts (v : SMap Ptp) : (s.withPtp v).flts = s.flts := by rfl
@[simp] theorem withPtp_alarms (v : SMap Ptp) : (s.withPtp v).alarms = s.alarms := by rfl
@[simp] theorem withPtp_ptp (v : SMap Ptp) : (s.withPtp v).ptp = v := by rfl
@[simp] theorem withPtp_mgt (v : SMap Ptp) : (s.withPtp v).mgt = s.mgt := by rfl

/-! ### withTmpl -/

@[simp] theorem withTmpl_pending (v : SMap (List Byte)) : (s.withTmpl v).pending = s.pending := by rfl
@[simp] theorem withTmpl_held (v : SMap (List Byte)) : (s.withTmpl v).held = s.held := by rfl
@[simp] theorem withTmpl_resuming (v : SMap (List Byte)) : (s.withTmpl v).resuming = s.resuming := by rfl
@[simp] theorem withTmpl_out (v : SMap (List Byte)) : (s.withTmpl v).out = s.out := by rfl
@[simp] theorem withTmpl_now (v : SMap (List Byte)) : (s.withTmpl v).now = s.now := by rfl
@[simp] theorem withTmpl_cnt (v : SMap (List Byte)) : (s.withTmpl v).cnt = s.cnt := by rfl
@[simp] theorem withTmpl_freeCtr (v : SMap (List Byte)) : (s.withTmpl v).freeCtr = s.freeCtr := by rfl
@[simp] theorem withTmpl_phase (v : SMap (List Byte)) : (s.withTmpl v).phase = s.phase := by rfl
@[simp] theorem withTmpl_resetAt (v : SMap (List Byte)) : (s.withTmpl v).resetAt = s.resetAt := by rfl
@[simp] theorem withTmpl_regs (v : SMap (List Byte)) : (s.withTmpl v).regs = s.regs := by rfl
@[simp] theorem withTmpl_latch (v : SMap (List Byte)) : (s.withTmpl v).latch = s.latch := by rfl
@[simp] theorem withTmpl_sess (v : SMap (List Byte)) : (s.withTmpl v).sess = s.sess := by rfl
@[simp] theorem withTmpl_owner (v : SMap (List Byte)) : (s.withTmpl v).owner = s.owner := by rfl
@[simp] theorem withTmpl_elect (v : SMap (List Byte)) : (s.withTmpl v).elect = s.elect := by rfl
@[simp] theorem withTmpl_ops (v : SMap (List Byte)) : (s.withTmpl v).ops = s.ops := by rfl
@[simp] theorem withTmpl_reports (v : SMap (List Byte)) : (s.withTmpl v).reports = s.reports := by rfl
@[simp] theorem withTmpl_condOn (v : SMap (List Byte)) : (s.withTmpl v).condOn = s.condOn := by rfl
@[simp] theorem withTmpl_shadows (v : SMap (List Byte)) : (s.withTmpl v).shadows = s.shadows := by rfl
@[simp] theorem withTmpl_rst (v : SMap (List Byte)) : (s.withTmpl v).rst = s.rst := by rfl
@[simp] theorem withTmpl_stalls (v : SMap (List Byte)) : (s.withTmpl v).stalls = s.stalls := by rfl
@[simp] theorem withTmpl_chans (v : SMap (List Byte)) : (s.withTmpl v).chans = s.chans := by rfl
@[simp] theorem withTmpl_queues (v : SMap (List Byte)) : (s.withTmpl v).queues = s.queues := by rfl
@[simp] theorem withTmpl_streams (v : SMap (List Byte)) : (s.withTmpl v).streams = s.streams := by rfl
@[simp] theorem withTmpl_mem (v : SMap (List Byte)) : (s.withTmpl v).mem = s.mem := by rfl
@[simp] theorem withTmpl_psn (v : SMap (List Byte)) : (s.withTmpl v).psn = s.psn := by rfl
@[simp] theorem withTmpl_err (v : SMap (List Byte)) : (s.withTmpl v).err = s.err := by rfl
@[simp] theorem withTmpl_inited (v : SMap (List Byte)) : (s.withTmpl v).inited = s.inited := by rfl
@[simp] theorem withTmpl_dram (v : SMap (List Byte)) : (s.withTmpl v).dram = s.dram := by rfl
@[simp] theorem withTmpl_mig (v : SMap (List Byte)) : (s.withTmpl v).mig = s.mig := by rfl
@[simp] theorem withTmpl_tack (v : SMap (List Byte)) : (s.withTmpl v).tack = s.tack := by rfl
@[simp] theorem withTmpl_tims (v : SMap (List Byte)) : (s.withTmpl v).tims = s.tims := by rfl
@[simp] theorem withTmpl_flts (v : SMap (List Byte)) : (s.withTmpl v).flts = s.flts := by rfl
@[simp] theorem withTmpl_alarms (v : SMap (List Byte)) : (s.withTmpl v).alarms = s.alarms := by rfl
@[simp] theorem withTmpl_tmpl (v : SMap (List Byte)) : (s.withTmpl v).tmpl = v := by rfl
@[simp] theorem withTmpl_mgt (v : SMap (List Byte)) : (s.withTmpl v).mgt = s.mgt := by rfl

/-! ### withMods -/

@[simp] theorem withMods_pending (v : SMap (List Byte)) : (s.withMods v).pending = s.pending := by rfl
@[simp] theorem withMods_held (v : SMap (List Byte)) : (s.withMods v).held = s.held := by rfl
@[simp] theorem withMods_resuming (v : SMap (List Byte)) : (s.withMods v).resuming = s.resuming := by rfl
@[simp] theorem withMods_out (v : SMap (List Byte)) : (s.withMods v).out = s.out := by rfl
@[simp] theorem withMods_now (v : SMap (List Byte)) : (s.withMods v).now = s.now := by rfl
@[simp] theorem withMods_cnt (v : SMap (List Byte)) : (s.withMods v).cnt = s.cnt := by rfl
@[simp] theorem withMods_freeCtr (v : SMap (List Byte)) : (s.withMods v).freeCtr = s.freeCtr := by rfl
@[simp] theorem withMods_phase (v : SMap (List Byte)) : (s.withMods v).phase = s.phase := by rfl
@[simp] theorem withMods_resetAt (v : SMap (List Byte)) : (s.withMods v).resetAt = s.resetAt := by rfl
@[simp] theorem withMods_regs (v : SMap (List Byte)) : (s.withMods v).regs = s.regs := by rfl
@[simp] theorem withMods_latch (v : SMap (List Byte)) : (s.withMods v).latch = s.latch := by rfl
@[simp] theorem withMods_sess (v : SMap (List Byte)) : (s.withMods v).sess = s.sess := by rfl
@[simp] theorem withMods_owner (v : SMap (List Byte)) : (s.withMods v).owner = s.owner := by rfl
@[simp] theorem withMods_elect (v : SMap (List Byte)) : (s.withMods v).elect = s.elect := by rfl
@[simp] theorem withMods_ops (v : SMap (List Byte)) : (s.withMods v).ops = s.ops := by rfl
@[simp] theorem withMods_reports (v : SMap (List Byte)) : (s.withMods v).reports = s.reports := by rfl
@[simp] theorem withMods_condOn (v : SMap (List Byte)) : (s.withMods v).condOn = s.condOn := by rfl
@[simp] theorem withMods_shadows (v : SMap (List Byte)) : (s.withMods v).shadows = s.shadows := by rfl
@[simp] theorem withMods_rst (v : SMap (List Byte)) : (s.withMods v).rst = s.rst := by rfl
@[simp] theorem withMods_stalls (v : SMap (List Byte)) : (s.withMods v).stalls = s.stalls := by rfl
@[simp] theorem withMods_chans (v : SMap (List Byte)) : (s.withMods v).chans = s.chans := by rfl
@[simp] theorem withMods_queues (v : SMap (List Byte)) : (s.withMods v).queues = s.queues := by rfl
@[simp] theorem withMods_streams (v : SMap (List Byte)) : (s.withMods v).streams = s.streams := by rfl
@[simp] theorem withMods_mem (v : SMap (List Byte)) : (s.withMods v).mem = s.mem := by rfl
@[simp] theorem withMods_psn (v : SMap (List Byte)) : (s.withMods v).psn = s.psn := by rfl
@[simp] theorem withMods_err (v : SMap (List Byte)) : (s.withMods v).err = s.err := by rfl
@[simp] theorem withMods_inited (v : SMap (List Byte)) : (s.withMods v).inited = s.inited := by rfl
@[simp] theorem withMods_dram (v : SMap (List Byte)) : (s.withMods v).dram = s.dram := by rfl
@[simp] theorem withMods_mig (v : SMap (List Byte)) : (s.withMods v).mig = s.mig := by rfl
@[simp] theorem withMods_tack (v : SMap (List Byte)) : (s.withMods v).tack = s.tack := by rfl
@[simp] theorem withMods_tims (v : SMap (List Byte)) : (s.withMods v).tims = s.tims := by rfl
@[simp] theorem withMods_flts (v : SMap (List Byte)) : (s.withMods v).flts = s.flts := by rfl
@[simp] theorem withMods_alarms (v : SMap (List Byte)) : (s.withMods v).alarms = s.alarms := by rfl
@[simp] theorem withMods_mods (v : SMap (List Byte)) : (s.withMods v).mods = v := by rfl
@[simp] theorem withMods_mgt (v : SMap (List Byte)) : (s.withMods v).mgt = s.mgt := by rfl

/-! ### withTrigPend -/

@[simp] theorem withTrigPend_pending (v : SMap Nat) : (s.withTrigPend v).pending = s.pending := by rfl
@[simp] theorem withTrigPend_held (v : SMap Nat) : (s.withTrigPend v).held = s.held := by rfl
@[simp] theorem withTrigPend_resuming (v : SMap Nat) : (s.withTrigPend v).resuming = s.resuming := by rfl
@[simp] theorem withTrigPend_out (v : SMap Nat) : (s.withTrigPend v).out = s.out := by rfl
@[simp] theorem withTrigPend_now (v : SMap Nat) : (s.withTrigPend v).now = s.now := by rfl
@[simp] theorem withTrigPend_cnt (v : SMap Nat) : (s.withTrigPend v).cnt = s.cnt := by rfl
@[simp] theorem withTrigPend_freeCtr (v : SMap Nat) : (s.withTrigPend v).freeCtr = s.freeCtr := by rfl
@[simp] theorem withTrigPend_phase (v : SMap Nat) : (s.withTrigPend v).phase = s.phase := by rfl
@[simp] theorem withTrigPend_resetAt (v : SMap Nat) : (s.withTrigPend v).resetAt = s.resetAt := by rfl
@[simp] theorem withTrigPend_regs (v : SMap Nat) : (s.withTrigPend v).regs = s.regs := by rfl
@[simp] theorem withTrigPend_latch (v : SMap Nat) : (s.withTrigPend v).latch = s.latch := by rfl
@[simp] theorem withTrigPend_sess (v : SMap Nat) : (s.withTrigPend v).sess = s.sess := by rfl
@[simp] theorem withTrigPend_owner (v : SMap Nat) : (s.withTrigPend v).owner = s.owner := by rfl
@[simp] theorem withTrigPend_elect (v : SMap Nat) : (s.withTrigPend v).elect = s.elect := by rfl
@[simp] theorem withTrigPend_ops (v : SMap Nat) : (s.withTrigPend v).ops = s.ops := by rfl
@[simp] theorem withTrigPend_reports (v : SMap Nat) : (s.withTrigPend v).reports = s.reports := by rfl
@[simp] theorem withTrigPend_condOn (v : SMap Nat) : (s.withTrigPend v).condOn = s.condOn := by rfl
@[simp] theorem withTrigPend_shadows (v : SMap Nat) : (s.withTrigPend v).shadows = s.shadows := by rfl
@[simp] theorem withTrigPend_rst (v : SMap Nat) : (s.withTrigPend v).rst = s.rst := by rfl
@[simp] theorem withTrigPend_stalls (v : SMap Nat) : (s.withTrigPend v).stalls = s.stalls := by rfl
@[simp] theorem withTrigPend_chans (v : SMap Nat) : (s.withTrigPend v).chans = s.chans := by rfl
@[simp] theorem withTrigPend_queues (v : SMap Nat) : (s.withTrigPend v).queues = s.queues := by rfl
@[simp] theorem withTrigPend_streams (v : SMap Nat) : (s.withTrigPend v).streams = s.streams := by rfl
@[simp] theorem withTrigPend_mem (v : SMap Nat) : (s.withTrigPend v).mem = s.mem := by rfl
@[simp] theorem withTrigPend_psn (v : SMap Nat) : (s.withTrigPend v).psn = s.psn := by rfl
@[simp] theorem withTrigPend_err (v : SMap Nat) : (s.withTrigPend v).err = s.err := by rfl
@[simp] theorem withTrigPend_inited (v : SMap Nat) : (s.withTrigPend v).inited = s.inited := by rfl
@[simp] theorem withTrigPend_dram (v : SMap Nat) : (s.withTrigPend v).dram = s.dram := by rfl
@[simp] theorem withTrigPend_mig (v : SMap Nat) : (s.withTrigPend v).mig = s.mig := by rfl
@[simp] theorem withTrigPend_tack (v : SMap Nat) : (s.withTrigPend v).tack = s.tack := by rfl
@[simp] theorem withTrigPend_tims (v : SMap Nat) : (s.withTrigPend v).tims = s.tims := by rfl
@[simp] theorem withTrigPend_flts (v : SMap Nat) : (s.withTrigPend v).flts = s.flts := by rfl
@[simp] theorem withTrigPend_alarms (v : SMap Nat) : (s.withTrigPend v).alarms = s.alarms := by rfl
@[simp] theorem withTrigPend_trigPend (v : SMap Nat) : (s.withTrigPend v).trigPend = v := by rfl
@[simp] theorem withTrigPend_mgt (v : SMap Nat) : (s.withTrigPend v).mgt = s.mgt := by rfl

/-! ### withDue -/

@[simp] theorem withDue_pending (v : List Nat) : (s.withDue v).pending = s.pending := by rfl
@[simp] theorem withDue_held (v : List Nat) : (s.withDue v).held = s.held := by rfl
@[simp] theorem withDue_resuming (v : List Nat) : (s.withDue v).resuming = s.resuming := by rfl
@[simp] theorem withDue_out (v : List Nat) : (s.withDue v).out = s.out := by rfl
@[simp] theorem withDue_now (v : List Nat) : (s.withDue v).now = s.now := by rfl
@[simp] theorem withDue_cnt (v : List Nat) : (s.withDue v).cnt = s.cnt := by rfl
@[simp] theorem withDue_freeCtr (v : List Nat) : (s.withDue v).freeCtr = s.freeCtr := by rfl
@[simp] theorem withDue_phase (v : List Nat) : (s.withDue v).phase = s.phase := by rfl
@[simp] theorem withDue_resetAt (v : List Nat) : (s.withDue v).resetAt = s.resetAt := by rfl
@[simp] theorem withDue_regs (v : List Nat) : (s.withDue v).regs = s.regs := by rfl
@[simp] theorem withDue_latch (v : List Nat) : (s.withDue v).latch = s.latch := by rfl
@[simp] theorem withDue_sess (v : List Nat) : (s.withDue v).sess = s.sess := by rfl
@[simp] theorem withDue_owner (v : List Nat) : (s.withDue v).owner = s.owner := by rfl
@[simp] theorem withDue_elect (v : List Nat) : (s.withDue v).elect = s.elect := by rfl
@[simp] theorem withDue_ops (v : List Nat) : (s.withDue v).ops = s.ops := by rfl
@[simp] theorem withDue_reports (v : List Nat) : (s.withDue v).reports = s.reports := by rfl
@[simp] theorem withDue_condOn (v : List Nat) : (s.withDue v).condOn = s.condOn := by rfl
@[simp] theorem withDue_shadows (v : List Nat) : (s.withDue v).shadows = s.shadows := by rfl
@[simp] theorem withDue_rst (v : List Nat) : (s.withDue v).rst = s.rst := by rfl
@[simp] theorem withDue_stalls (v : List Nat) : (s.withDue v).stalls = s.stalls := by rfl
@[simp] theorem withDue_chans (v : List Nat) : (s.withDue v).chans = s.chans := by rfl
@[simp] theorem withDue_queues (v : List Nat) : (s.withDue v).queues = s.queues := by rfl
@[simp] theorem withDue_streams (v : List Nat) : (s.withDue v).streams = s.streams := by rfl
@[simp] theorem withDue_mem (v : List Nat) : (s.withDue v).mem = s.mem := by rfl
@[simp] theorem withDue_psn (v : List Nat) : (s.withDue v).psn = s.psn := by rfl
@[simp] theorem withDue_err (v : List Nat) : (s.withDue v).err = s.err := by rfl
@[simp] theorem withDue_inited (v : List Nat) : (s.withDue v).inited = s.inited := by rfl
@[simp] theorem withDue_dram (v : List Nat) : (s.withDue v).dram = s.dram := by rfl
@[simp] theorem withDue_mig (v : List Nat) : (s.withDue v).mig = s.mig := by rfl
@[simp] theorem withDue_tack (v : List Nat) : (s.withDue v).tack = s.tack := by rfl
@[simp] theorem withDue_tims (v : List Nat) : (s.withDue v).tims = s.tims := by rfl
@[simp] theorem withDue_flts (v : List Nat) : (s.withDue v).flts = s.flts := by rfl
@[simp] theorem withDue_alarms (v : List Nat) : (s.withDue v).alarms = s.alarms := by rfl
@[simp] theorem withDue_due (v : List Nat) : (s.withDue v).due = v := by rfl
@[simp] theorem withDue_mgt (v : List Nat) : (s.withDue v).mgt = s.mgt := by rfl

/-! ### withInsts -/

@[simp] theorem withInsts_pending (v : List Inst) : (s.withInsts v).pending = s.pending := by rfl
@[simp] theorem withInsts_held (v : List Inst) : (s.withInsts v).held = s.held := by rfl
@[simp] theorem withInsts_resuming (v : List Inst) : (s.withInsts v).resuming = s.resuming := by rfl
@[simp] theorem withInsts_out (v : List Inst) : (s.withInsts v).out = s.out := by rfl
@[simp] theorem withInsts_now (v : List Inst) : (s.withInsts v).now = s.now := by rfl
@[simp] theorem withInsts_cnt (v : List Inst) : (s.withInsts v).cnt = s.cnt := by rfl
@[simp] theorem withInsts_freeCtr (v : List Inst) : (s.withInsts v).freeCtr = s.freeCtr := by rfl
@[simp] theorem withInsts_phase (v : List Inst) : (s.withInsts v).phase = s.phase := by rfl
@[simp] theorem withInsts_resetAt (v : List Inst) : (s.withInsts v).resetAt = s.resetAt := by rfl
@[simp] theorem withInsts_regs (v : List Inst) : (s.withInsts v).regs = s.regs := by rfl
@[simp] theorem withInsts_latch (v : List Inst) : (s.withInsts v).latch = s.latch := by rfl
@[simp] theorem withInsts_sess (v : List Inst) : (s.withInsts v).sess = s.sess := by rfl
@[simp] theorem withInsts_owner (v : List Inst) : (s.withInsts v).owner = s.owner := by rfl
@[simp] theorem withInsts_elect (v : List Inst) : (s.withInsts v).elect = s.elect := by rfl
@[simp] theorem withInsts_ops (v : List Inst) : (s.withInsts v).ops = s.ops := by rfl
@[simp] theorem withInsts_reports (v : List Inst) : (s.withInsts v).reports = s.reports := by rfl
@[simp] theorem withInsts_condOn (v : List Inst) : (s.withInsts v).condOn = s.condOn := by rfl
@[simp] theorem withInsts_shadows (v : List Inst) : (s.withInsts v).shadows = s.shadows := by rfl
@[simp] theorem withInsts_rst (v : List Inst) : (s.withInsts v).rst = s.rst := by rfl
@[simp] theorem withInsts_stalls (v : List Inst) : (s.withInsts v).stalls = s.stalls := by rfl
@[simp] theorem withInsts_chans (v : List Inst) : (s.withInsts v).chans = s.chans := by rfl
@[simp] theorem withInsts_queues (v : List Inst) : (s.withInsts v).queues = s.queues := by rfl
@[simp] theorem withInsts_streams (v : List Inst) : (s.withInsts v).streams = s.streams := by rfl
@[simp] theorem withInsts_mem (v : List Inst) : (s.withInsts v).mem = s.mem := by rfl
@[simp] theorem withInsts_psn (v : List Inst) : (s.withInsts v).psn = s.psn := by rfl
@[simp] theorem withInsts_err (v : List Inst) : (s.withInsts v).err = s.err := by rfl
@[simp] theorem withInsts_inited (v : List Inst) : (s.withInsts v).inited = s.inited := by rfl
@[simp] theorem withInsts_dram (v : List Inst) : (s.withInsts v).dram = s.dram := by rfl
@[simp] theorem withInsts_mig (v : List Inst) : (s.withInsts v).mig = s.mig := by rfl
@[simp] theorem withInsts_tack (v : List Inst) : (s.withInsts v).tack = s.tack := by rfl
@[simp] theorem withInsts_tims (v : List Inst) : (s.withInsts v).tims = s.tims := by rfl
@[simp] theorem withInsts_flts (v : List Inst) : (s.withInsts v).flts = s.flts := by rfl
@[simp] theorem withInsts_alarms (v : List Inst) : (s.withInsts v).alarms = s.alarms := by rfl
@[simp] theorem withInsts_insts (v : List Inst) : (s.withInsts v).insts = v := by rfl
@[simp] theorem withInsts_mgt (v : List Inst) : (s.withInsts v).mgt = s.mgt := by rfl

/-! ### withNextInst -/

@[simp] theorem withNextInst_pending (v : BitVec 32) : (s.withNextInst v).pending = s.pending := by rfl
@[simp] theorem withNextInst_held (v : BitVec 32) : (s.withNextInst v).held = s.held := by rfl
@[simp] theorem withNextInst_resuming (v : BitVec 32) : (s.withNextInst v).resuming = s.resuming := by rfl
@[simp] theorem withNextInst_out (v : BitVec 32) : (s.withNextInst v).out = s.out := by rfl
@[simp] theorem withNextInst_now (v : BitVec 32) : (s.withNextInst v).now = s.now := by rfl
@[simp] theorem withNextInst_cnt (v : BitVec 32) : (s.withNextInst v).cnt = s.cnt := by rfl
@[simp] theorem withNextInst_freeCtr (v : BitVec 32) : (s.withNextInst v).freeCtr = s.freeCtr := by rfl
@[simp] theorem withNextInst_phase (v : BitVec 32) : (s.withNextInst v).phase = s.phase := by rfl
@[simp] theorem withNextInst_resetAt (v : BitVec 32) : (s.withNextInst v).resetAt = s.resetAt := by rfl
@[simp] theorem withNextInst_regs (v : BitVec 32) : (s.withNextInst v).regs = s.regs := by rfl
@[simp] theorem withNextInst_latch (v : BitVec 32) : (s.withNextInst v).latch = s.latch := by rfl
@[simp] theorem withNextInst_sess (v : BitVec 32) : (s.withNextInst v).sess = s.sess := by rfl
@[simp] theorem withNextInst_owner (v : BitVec 32) : (s.withNextInst v).owner = s.owner := by rfl
@[simp] theorem withNextInst_elect (v : BitVec 32) : (s.withNextInst v).elect = s.elect := by rfl
@[simp] theorem withNextInst_ops (v : BitVec 32) : (s.withNextInst v).ops = s.ops := by rfl
@[simp] theorem withNextInst_reports (v : BitVec 32) : (s.withNextInst v).reports = s.reports := by rfl
@[simp] theorem withNextInst_condOn (v : BitVec 32) : (s.withNextInst v).condOn = s.condOn := by rfl
@[simp] theorem withNextInst_shadows (v : BitVec 32) : (s.withNextInst v).shadows = s.shadows := by rfl
@[simp] theorem withNextInst_rst (v : BitVec 32) : (s.withNextInst v).rst = s.rst := by rfl
@[simp] theorem withNextInst_stalls (v : BitVec 32) : (s.withNextInst v).stalls = s.stalls := by rfl
@[simp] theorem withNextInst_chans (v : BitVec 32) : (s.withNextInst v).chans = s.chans := by rfl
@[simp] theorem withNextInst_queues (v : BitVec 32) : (s.withNextInst v).queues = s.queues := by rfl
@[simp] theorem withNextInst_streams (v : BitVec 32) : (s.withNextInst v).streams = s.streams := by rfl
@[simp] theorem withNextInst_mem (v : BitVec 32) : (s.withNextInst v).mem = s.mem := by rfl
@[simp] theorem withNextInst_psn (v : BitVec 32) : (s.withNextInst v).psn = s.psn := by rfl
@[simp] theorem withNextInst_err (v : BitVec 32) : (s.withNextInst v).err = s.err := by rfl
@[simp] theorem withNextInst_inited (v : BitVec 32) : (s.withNextInst v).inited = s.inited := by rfl
@[simp] theorem withNextInst_dram (v : BitVec 32) : (s.withNextInst v).dram = s.dram := by rfl
@[simp] theorem withNextInst_mig (v : BitVec 32) : (s.withNextInst v).mig = s.mig := by rfl
@[simp] theorem withNextInst_tack (v : BitVec 32) : (s.withNextInst v).tack = s.tack := by rfl
@[simp] theorem withNextInst_tims (v : BitVec 32) : (s.withNextInst v).tims = s.tims := by rfl
@[simp] theorem withNextInst_flts (v : BitVec 32) : (s.withNextInst v).flts = s.flts := by rfl
@[simp] theorem withNextInst_alarms (v : BitVec 32) : (s.withNextInst v).alarms = s.alarms := by rfl
@[simp] theorem withNextInst_nextInst (v : BitVec 32) : (s.withNextInst v).nextInst = v := by rfl
@[simp] theorem withNextInst_mgt (v : BitVec 32) : (s.withNextInst v).mgt = s.mgt := by rfl

/-! ### withFlows -/

@[simp] theorem withFlows_pending (v : SMap Flow) : (s.withFlows v).pending = s.pending := by rfl
@[simp] theorem withFlows_held (v : SMap Flow) : (s.withFlows v).held = s.held := by rfl
@[simp] theorem withFlows_resuming (v : SMap Flow) : (s.withFlows v).resuming = s.resuming := by rfl
@[simp] theorem withFlows_out (v : SMap Flow) : (s.withFlows v).out = s.out := by rfl
@[simp] theorem withFlows_now (v : SMap Flow) : (s.withFlows v).now = s.now := by rfl
@[simp] theorem withFlows_cnt (v : SMap Flow) : (s.withFlows v).cnt = s.cnt := by rfl
@[simp] theorem withFlows_freeCtr (v : SMap Flow) : (s.withFlows v).freeCtr = s.freeCtr := by rfl
@[simp] theorem withFlows_phase (v : SMap Flow) : (s.withFlows v).phase = s.phase := by rfl
@[simp] theorem withFlows_resetAt (v : SMap Flow) : (s.withFlows v).resetAt = s.resetAt := by rfl
@[simp] theorem withFlows_regs (v : SMap Flow) : (s.withFlows v).regs = s.regs := by rfl
@[simp] theorem withFlows_latch (v : SMap Flow) : (s.withFlows v).latch = s.latch := by rfl
@[simp] theorem withFlows_sess (v : SMap Flow) : (s.withFlows v).sess = s.sess := by rfl
@[simp] theorem withFlows_owner (v : SMap Flow) : (s.withFlows v).owner = s.owner := by rfl
@[simp] theorem withFlows_elect (v : SMap Flow) : (s.withFlows v).elect = s.elect := by rfl
@[simp] theorem withFlows_ops (v : SMap Flow) : (s.withFlows v).ops = s.ops := by rfl
@[simp] theorem withFlows_reports (v : SMap Flow) : (s.withFlows v).reports = s.reports := by rfl
@[simp] theorem withFlows_condOn (v : SMap Flow) : (s.withFlows v).condOn = s.condOn := by rfl
@[simp] theorem withFlows_shadows (v : SMap Flow) : (s.withFlows v).shadows = s.shadows := by rfl
@[simp] theorem withFlows_rst (v : SMap Flow) : (s.withFlows v).rst = s.rst := by rfl
@[simp] theorem withFlows_stalls (v : SMap Flow) : (s.withFlows v).stalls = s.stalls := by rfl
@[simp] theorem withFlows_chans (v : SMap Flow) : (s.withFlows v).chans = s.chans := by rfl
@[simp] theorem withFlows_queues (v : SMap Flow) : (s.withFlows v).queues = s.queues := by rfl
@[simp] theorem withFlows_streams (v : SMap Flow) : (s.withFlows v).streams = s.streams := by rfl
@[simp] theorem withFlows_mem (v : SMap Flow) : (s.withFlows v).mem = s.mem := by rfl
@[simp] theorem withFlows_psn (v : SMap Flow) : (s.withFlows v).psn = s.psn := by rfl
@[simp] theorem withFlows_err (v : SMap Flow) : (s.withFlows v).err = s.err := by rfl
@[simp] theorem withFlows_inited (v : SMap Flow) : (s.withFlows v).inited = s.inited := by rfl
@[simp] theorem withFlows_dram (v : SMap Flow) : (s.withFlows v).dram = s.dram := by rfl
@[simp] theorem withFlows_mig (v : SMap Flow) : (s.withFlows v).mig = s.mig := by rfl
@[simp] theorem withFlows_tack (v : SMap Flow) : (s.withFlows v).tack = s.tack := by rfl
@[simp] theorem withFlows_tims (v : SMap Flow) : (s.withFlows v).tims = s.tims := by rfl
@[simp] theorem withFlows_flts (v : SMap Flow) : (s.withFlows v).flts = s.flts := by rfl
@[simp] theorem withFlows_alarms (v : SMap Flow) : (s.withFlows v).alarms = s.alarms := by rfl
@[simp] theorem withFlows_flows (v : SMap Flow) : (s.withFlows v).flows = v := by rfl
@[simp] theorem withFlows_mgt (v : SMap Flow) : (s.withFlows v).mgt = s.mgt := by rfl

/-! ### withYstate -/

@[simp] theorem withYstate_pending (v : SMap Byte) : (s.withYstate v).pending = s.pending := by rfl
@[simp] theorem withYstate_held (v : SMap Byte) : (s.withYstate v).held = s.held := by rfl
@[simp] theorem withYstate_resuming (v : SMap Byte) : (s.withYstate v).resuming = s.resuming := by rfl
@[simp] theorem withYstate_out (v : SMap Byte) : (s.withYstate v).out = s.out := by rfl
@[simp] theorem withYstate_now (v : SMap Byte) : (s.withYstate v).now = s.now := by rfl
@[simp] theorem withYstate_cnt (v : SMap Byte) : (s.withYstate v).cnt = s.cnt := by rfl
@[simp] theorem withYstate_freeCtr (v : SMap Byte) : (s.withYstate v).freeCtr = s.freeCtr := by rfl
@[simp] theorem withYstate_phase (v : SMap Byte) : (s.withYstate v).phase = s.phase := by rfl
@[simp] theorem withYstate_resetAt (v : SMap Byte) : (s.withYstate v).resetAt = s.resetAt := by rfl
@[simp] theorem withYstate_regs (v : SMap Byte) : (s.withYstate v).regs = s.regs := by rfl
@[simp] theorem withYstate_latch (v : SMap Byte) : (s.withYstate v).latch = s.latch := by rfl
@[simp] theorem withYstate_sess (v : SMap Byte) : (s.withYstate v).sess = s.sess := by rfl
@[simp] theorem withYstate_owner (v : SMap Byte) : (s.withYstate v).owner = s.owner := by rfl
@[simp] theorem withYstate_elect (v : SMap Byte) : (s.withYstate v).elect = s.elect := by rfl
@[simp] theorem withYstate_ops (v : SMap Byte) : (s.withYstate v).ops = s.ops := by rfl
@[simp] theorem withYstate_reports (v : SMap Byte) : (s.withYstate v).reports = s.reports := by rfl
@[simp] theorem withYstate_condOn (v : SMap Byte) : (s.withYstate v).condOn = s.condOn := by rfl
@[simp] theorem withYstate_shadows (v : SMap Byte) : (s.withYstate v).shadows = s.shadows := by rfl
@[simp] theorem withYstate_rst (v : SMap Byte) : (s.withYstate v).rst = s.rst := by rfl
@[simp] theorem withYstate_stalls (v : SMap Byte) : (s.withYstate v).stalls = s.stalls := by rfl
@[simp] theorem withYstate_chans (v : SMap Byte) : (s.withYstate v).chans = s.chans := by rfl
@[simp] theorem withYstate_queues (v : SMap Byte) : (s.withYstate v).queues = s.queues := by rfl
@[simp] theorem withYstate_streams (v : SMap Byte) : (s.withYstate v).streams = s.streams := by rfl
@[simp] theorem withYstate_mem (v : SMap Byte) : (s.withYstate v).mem = s.mem := by rfl
@[simp] theorem withYstate_psn (v : SMap Byte) : (s.withYstate v).psn = s.psn := by rfl
@[simp] theorem withYstate_err (v : SMap Byte) : (s.withYstate v).err = s.err := by rfl
@[simp] theorem withYstate_inited (v : SMap Byte) : (s.withYstate v).inited = s.inited := by rfl
@[simp] theorem withYstate_dram (v : SMap Byte) : (s.withYstate v).dram = s.dram := by rfl
@[simp] theorem withYstate_mig (v : SMap Byte) : (s.withYstate v).mig = s.mig := by rfl
@[simp] theorem withYstate_tack (v : SMap Byte) : (s.withYstate v).tack = s.tack := by rfl
@[simp] theorem withYstate_tims (v : SMap Byte) : (s.withYstate v).tims = s.tims := by rfl
@[simp] theorem withYstate_flts (v : SMap Byte) : (s.withYstate v).flts = s.flts := by rfl
@[simp] theorem withYstate_alarms (v : SMap Byte) : (s.withYstate v).alarms = s.alarms := by rfl
@[simp] theorem withYstate_ystate (v : SMap Byte) : (s.withYstate v).ystate = v := by rfl
@[simp] theorem withYstate_mgt (v : SMap Byte) : (s.withYstate v).mgt = s.mgt := by rfl

/-! ### withCores -/

@[simp] theorem withCores_pending (v : SMap Core) : (s.withCores v).pending = s.pending := by rfl
@[simp] theorem withCores_held (v : SMap Core) : (s.withCores v).held = s.held := by rfl
@[simp] theorem withCores_resuming (v : SMap Core) : (s.withCores v).resuming = s.resuming := by rfl
@[simp] theorem withCores_out (v : SMap Core) : (s.withCores v).out = s.out := by rfl
@[simp] theorem withCores_now (v : SMap Core) : (s.withCores v).now = s.now := by rfl
@[simp] theorem withCores_cnt (v : SMap Core) : (s.withCores v).cnt = s.cnt := by rfl
@[simp] theorem withCores_freeCtr (v : SMap Core) : (s.withCores v).freeCtr = s.freeCtr := by rfl
@[simp] theorem withCores_phase (v : SMap Core) : (s.withCores v).phase = s.phase := by rfl
@[simp] theorem withCores_resetAt (v : SMap Core) : (s.withCores v).resetAt = s.resetAt := by rfl
@[simp] theorem withCores_regs (v : SMap Core) : (s.withCores v).regs = s.regs := by rfl
@[simp] theorem withCores_latch (v : SMap Core) : (s.withCores v).latch = s.latch := by rfl
@[simp] theorem withCores_sess (v : SMap Core) : (s.withCores v).sess = s.sess := by rfl
@[simp] theorem withCores_owner (v : SMap Core) : (s.withCores v).owner = s.owner := by rfl
@[simp] theorem withCores_elect (v : SMap Core) : (s.withCores v).elect = s.elect := by rfl
@[simp] theorem withCores_ops (v : SMap Core) : (s.withCores v).ops = s.ops := by rfl
@[simp] theorem withCores_reports (v : SMap Core) : (s.withCores v).reports = s.reports := by rfl
@[simp] theorem withCores_condOn (v : SMap Core) : (s.withCores v).condOn = s.condOn := by rfl
@[simp] theorem withCores_shadows (v : SMap Core) : (s.withCores v).shadows = s.shadows := by rfl
@[simp] theorem withCores_rst (v : SMap Core) : (s.withCores v).rst = s.rst := by rfl
@[simp] theorem withCores_stalls (v : SMap Core) : (s.withCores v).stalls = s.stalls := by rfl
@[simp] theorem withCores_chans (v : SMap Core) : (s.withCores v).chans = s.chans := by rfl
@[simp] theorem withCores_queues (v : SMap Core) : (s.withCores v).queues = s.queues := by rfl
@[simp] theorem withCores_streams (v : SMap Core) : (s.withCores v).streams = s.streams := by rfl
@[simp] theorem withCores_mem (v : SMap Core) : (s.withCores v).mem = s.mem := by rfl
@[simp] theorem withCores_psn (v : SMap Core) : (s.withCores v).psn = s.psn := by rfl
@[simp] theorem withCores_err (v : SMap Core) : (s.withCores v).err = s.err := by rfl
@[simp] theorem withCores_inited (v : SMap Core) : (s.withCores v).inited = s.inited := by rfl
@[simp] theorem withCores_dram (v : SMap Core) : (s.withCores v).dram = s.dram := by rfl
@[simp] theorem withCores_mig (v : SMap Core) : (s.withCores v).mig = s.mig := by rfl
@[simp] theorem withCores_tack (v : SMap Core) : (s.withCores v).tack = s.tack := by rfl
@[simp] theorem withCores_tims (v : SMap Core) : (s.withCores v).tims = s.tims := by rfl
@[simp] theorem withCores_flts (v : SMap Core) : (s.withCores v).flts = s.flts := by rfl
@[simp] theorem withCores_alarms (v : SMap Core) : (s.withCores v).alarms = s.alarms := by rfl
@[simp] theorem withCores_cores (v : SMap Core) : (s.withCores v).cores = v := by rfl
@[simp] theorem withCores_mgt (v : SMap Core) : (s.withCores v).mgt = s.mgt := by rfl

/-! ### withYflags -/

@[simp] theorem withYflags_pending (v : SMap (List (Nat × BitVec 8 × BitVec 8))) : (s.withYflags v).pending = s.pending := by rfl
@[simp] theorem withYflags_held (v : SMap (List (Nat × BitVec 8 × BitVec 8))) : (s.withYflags v).held = s.held := by rfl
@[simp] theorem withYflags_resuming (v : SMap (List (Nat × BitVec 8 × BitVec 8))) : (s.withYflags v).resuming = s.resuming := by rfl
@[simp] theorem withYflags_out (v : SMap (List (Nat × BitVec 8 × BitVec 8))) : (s.withYflags v).out = s.out := by rfl
@[simp] theorem withYflags_now (v : SMap (List (Nat × BitVec 8 × BitVec 8))) : (s.withYflags v).now = s.now := by rfl
@[simp] theorem withYflags_cnt (v : SMap (List (Nat × BitVec 8 × BitVec 8))) : (s.withYflags v).cnt = s.cnt := by rfl
@[simp] theorem withYflags_freeCtr (v : SMap (List (Nat × BitVec 8 × BitVec 8))) : (s.withYflags v).freeCtr = s.freeCtr := by rfl
@[simp] theorem withYflags_phase (v : SMap (List (Nat × BitVec 8 × BitVec 8))) : (s.withYflags v).phase = s.phase := by rfl
@[simp] theorem withYflags_resetAt (v : SMap (List (Nat × BitVec 8 × BitVec 8))) : (s.withYflags v).resetAt = s.resetAt := by rfl
@[simp] theorem withYflags_regs (v : SMap (List (Nat × BitVec 8 × BitVec 8))) : (s.withYflags v).regs = s.regs := by rfl
@[simp] theorem withYflags_latch (v : SMap (List (Nat × BitVec 8 × BitVec 8))) : (s.withYflags v).latch = s.latch := by rfl
@[simp] theorem withYflags_sess (v : SMap (List (Nat × BitVec 8 × BitVec 8))) : (s.withYflags v).sess = s.sess := by rfl
@[simp] theorem withYflags_owner (v : SMap (List (Nat × BitVec 8 × BitVec 8))) : (s.withYflags v).owner = s.owner := by rfl
@[simp] theorem withYflags_elect (v : SMap (List (Nat × BitVec 8 × BitVec 8))) : (s.withYflags v).elect = s.elect := by rfl
@[simp] theorem withYflags_ops (v : SMap (List (Nat × BitVec 8 × BitVec 8))) : (s.withYflags v).ops = s.ops := by rfl
@[simp] theorem withYflags_reports (v : SMap (List (Nat × BitVec 8 × BitVec 8))) : (s.withYflags v).reports = s.reports := by rfl
@[simp] theorem withYflags_condOn (v : SMap (List (Nat × BitVec 8 × BitVec 8))) : (s.withYflags v).condOn = s.condOn := by rfl
@[simp] theorem withYflags_shadows (v : SMap (List (Nat × BitVec 8 × BitVec 8))) : (s.withYflags v).shadows = s.shadows := by rfl
@[simp] theorem withYflags_rst (v : SMap (List (Nat × BitVec 8 × BitVec 8))) : (s.withYflags v).rst = s.rst := by rfl
@[simp] theorem withYflags_stalls (v : SMap (List (Nat × BitVec 8 × BitVec 8))) : (s.withYflags v).stalls = s.stalls := by rfl
@[simp] theorem withYflags_chans (v : SMap (List (Nat × BitVec 8 × BitVec 8))) : (s.withYflags v).chans = s.chans := by rfl
@[simp] theorem withYflags_queues (v : SMap (List (Nat × BitVec 8 × BitVec 8))) : (s.withYflags v).queues = s.queues := by rfl
@[simp] theorem withYflags_streams (v : SMap (List (Nat × BitVec 8 × BitVec 8))) : (s.withYflags v).streams = s.streams := by rfl
@[simp] theorem withYflags_mem (v : SMap (List (Nat × BitVec 8 × BitVec 8))) : (s.withYflags v).mem = s.mem := by rfl
@[simp] theorem withYflags_psn (v : SMap (List (Nat × BitVec 8 × BitVec 8))) : (s.withYflags v).psn = s.psn := by rfl
@[simp] theorem withYflags_err (v : SMap (List (Nat × BitVec 8 × BitVec 8))) : (s.withYflags v).err = s.err := by rfl
@[simp] theorem withYflags_inited (v : SMap (List (Nat × BitVec 8 × BitVec 8))) : (s.withYflags v).inited = s.inited := by rfl
@[simp] theorem withYflags_dram (v : SMap (List (Nat × BitVec 8 × BitVec 8))) : (s.withYflags v).dram = s.dram := by rfl
@[simp] theorem withYflags_mig (v : SMap (List (Nat × BitVec 8 × BitVec 8))) : (s.withYflags v).mig = s.mig := by rfl
@[simp] theorem withYflags_tack (v : SMap (List (Nat × BitVec 8 × BitVec 8))) : (s.withYflags v).tack = s.tack := by rfl
@[simp] theorem withYflags_tims (v : SMap (List (Nat × BitVec 8 × BitVec 8))) : (s.withYflags v).tims = s.tims := by rfl
@[simp] theorem withYflags_flts (v : SMap (List (Nat × BitVec 8 × BitVec 8))) : (s.withYflags v).flts = s.flts := by rfl
@[simp] theorem withYflags_alarms (v : SMap (List (Nat × BitVec 8 × BitVec 8))) : (s.withYflags v).alarms = s.alarms := by rfl
@[simp] theorem withYflags_yflags (v : SMap (List (Nat × BitVec 8 × BitVec 8))) : (s.withYflags v).yflags = v := by rfl
@[simp] theorem withYflags_mgt (v : SMap (List (Nat × BitVec 8 × BitVec 8))) : (s.withYflags v).mgt = s.mgt := by rfl

/-! ### withYended -/

@[simp] theorem withYended_pending (v : Nat) : (s.withYended v).pending = s.pending := by rfl
@[simp] theorem withYended_held (v : Nat) : (s.withYended v).held = s.held := by rfl
@[simp] theorem withYended_resuming (v : Nat) : (s.withYended v).resuming = s.resuming := by rfl
@[simp] theorem withYended_out (v : Nat) : (s.withYended v).out = s.out := by rfl
@[simp] theorem withYended_now (v : Nat) : (s.withYended v).now = s.now := by rfl
@[simp] theorem withYended_cnt (v : Nat) : (s.withYended v).cnt = s.cnt := by rfl
@[simp] theorem withYended_freeCtr (v : Nat) : (s.withYended v).freeCtr = s.freeCtr := by rfl
@[simp] theorem withYended_phase (v : Nat) : (s.withYended v).phase = s.phase := by rfl
@[simp] theorem withYended_resetAt (v : Nat) : (s.withYended v).resetAt = s.resetAt := by rfl
@[simp] theorem withYended_regs (v : Nat) : (s.withYended v).regs = s.regs := by rfl
@[simp] theorem withYended_latch (v : Nat) : (s.withYended v).latch = s.latch := by rfl
@[simp] theorem withYended_sess (v : Nat) : (s.withYended v).sess = s.sess := by rfl
@[simp] theorem withYended_owner (v : Nat) : (s.withYended v).owner = s.owner := by rfl
@[simp] theorem withYended_elect (v : Nat) : (s.withYended v).elect = s.elect := by rfl
@[simp] theorem withYended_ops (v : Nat) : (s.withYended v).ops = s.ops := by rfl
@[simp] theorem withYended_reports (v : Nat) : (s.withYended v).reports = s.reports := by rfl
@[simp] theorem withYended_condOn (v : Nat) : (s.withYended v).condOn = s.condOn := by rfl
@[simp] theorem withYended_shadows (v : Nat) : (s.withYended v).shadows = s.shadows := by rfl
@[simp] theorem withYended_rst (v : Nat) : (s.withYended v).rst = s.rst := by rfl
@[simp] theorem withYended_stalls (v : Nat) : (s.withYended v).stalls = s.stalls := by rfl
@[simp] theorem withYended_chans (v : Nat) : (s.withYended v).chans = s.chans := by rfl
@[simp] theorem withYended_queues (v : Nat) : (s.withYended v).queues = s.queues := by rfl
@[simp] theorem withYended_streams (v : Nat) : (s.withYended v).streams = s.streams := by rfl
@[simp] theorem withYended_mem (v : Nat) : (s.withYended v).mem = s.mem := by rfl
@[simp] theorem withYended_psn (v : Nat) : (s.withYended v).psn = s.psn := by rfl
@[simp] theorem withYended_err (v : Nat) : (s.withYended v).err = s.err := by rfl
@[simp] theorem withYended_inited (v : Nat) : (s.withYended v).inited = s.inited := by rfl
@[simp] theorem withYended_dram (v : Nat) : (s.withYended v).dram = s.dram := by rfl
@[simp] theorem withYended_mig (v : Nat) : (s.withYended v).mig = s.mig := by rfl
@[simp] theorem withYended_tack (v : Nat) : (s.withYended v).tack = s.tack := by rfl
@[simp] theorem withYended_tims (v : Nat) : (s.withYended v).tims = s.tims := by rfl
@[simp] theorem withYended_flts (v : Nat) : (s.withYended v).flts = s.flts := by rfl
@[simp] theorem withYended_alarms (v : Nat) : (s.withYended v).alarms = s.alarms := by rfl
@[simp] theorem withYended_yended (v : Nat) : (s.withYended v).yended = v := by rfl
@[simp] theorem withYended_mgt (v : Nat) : (s.withYended v).mgt = s.mgt := by rfl

/-! ### withCal -/

@[simp] theorem withCal_pending (v : SMap CalElem) : (s.withCal v).pending = s.pending := by rfl
@[simp] theorem withCal_held (v : SMap CalElem) : (s.withCal v).held = s.held := by rfl
@[simp] theorem withCal_resuming (v : SMap CalElem) : (s.withCal v).resuming = s.resuming := by rfl
@[simp] theorem withCal_out (v : SMap CalElem) : (s.withCal v).out = s.out := by rfl
@[simp] theorem withCal_now (v : SMap CalElem) : (s.withCal v).now = s.now := by rfl
@[simp] theorem withCal_cnt (v : SMap CalElem) : (s.withCal v).cnt = s.cnt := by rfl
@[simp] theorem withCal_freeCtr (v : SMap CalElem) : (s.withCal v).freeCtr = s.freeCtr := by rfl
@[simp] theorem withCal_phase (v : SMap CalElem) : (s.withCal v).phase = s.phase := by rfl
@[simp] theorem withCal_resetAt (v : SMap CalElem) : (s.withCal v).resetAt = s.resetAt := by rfl
@[simp] theorem withCal_regs (v : SMap CalElem) : (s.withCal v).regs = s.regs := by rfl
@[simp] theorem withCal_latch (v : SMap CalElem) : (s.withCal v).latch = s.latch := by rfl
@[simp] theorem withCal_sess (v : SMap CalElem) : (s.withCal v).sess = s.sess := by rfl
@[simp] theorem withCal_owner (v : SMap CalElem) : (s.withCal v).owner = s.owner := by rfl
@[simp] theorem withCal_elect (v : SMap CalElem) : (s.withCal v).elect = s.elect := by rfl
@[simp] theorem withCal_ops (v : SMap CalElem) : (s.withCal v).ops = s.ops := by rfl
@[simp] theorem withCal_reports (v : SMap CalElem) : (s.withCal v).reports = s.reports := by rfl
@[simp] theorem withCal_condOn (v : SMap CalElem) : (s.withCal v).condOn = s.condOn := by rfl
@[simp] theorem withCal_shadows (v : SMap CalElem) : (s.withCal v).shadows = s.shadows := by rfl
@[simp] theorem withCal_rst (v : SMap CalElem) : (s.withCal v).rst = s.rst := by rfl
@[simp] theorem withCal_stalls (v : SMap CalElem) : (s.withCal v).stalls = s.stalls := by rfl
@[simp] theorem withCal_chans (v : SMap CalElem) : (s.withCal v).chans = s.chans := by rfl
@[simp] theorem withCal_queues (v : SMap CalElem) : (s.withCal v).queues = s.queues := by rfl
@[simp] theorem withCal_streams (v : SMap CalElem) : (s.withCal v).streams = s.streams := by rfl
@[simp] theorem withCal_mem (v : SMap CalElem) : (s.withCal v).mem = s.mem := by rfl
@[simp] theorem withCal_psn (v : SMap CalElem) : (s.withCal v).psn = s.psn := by rfl
@[simp] theorem withCal_err (v : SMap CalElem) : (s.withCal v).err = s.err := by rfl
@[simp] theorem withCal_inited (v : SMap CalElem) : (s.withCal v).inited = s.inited := by rfl
@[simp] theorem withCal_dram (v : SMap CalElem) : (s.withCal v).dram = s.dram := by rfl
@[simp] theorem withCal_mig (v : SMap CalElem) : (s.withCal v).mig = s.mig := by rfl
@[simp] theorem withCal_tack (v : SMap CalElem) : (s.withCal v).tack = s.tack := by rfl
@[simp] theorem withCal_tims (v : SMap CalElem) : (s.withCal v).tims = s.tims := by rfl
@[simp] theorem withCal_flts (v : SMap CalElem) : (s.withCal v).flts = s.flts := by rfl
@[simp] theorem withCal_alarms (v : SMap CalElem) : (s.withCal v).alarms = s.alarms := by rfl
@[simp] theorem withCal_cal (v : SMap CalElem) : (s.withCal v).cal = v := by rfl
@[simp] theorem withCal_mgt (v : SMap CalElem) : (s.withCal v).mgt = s.mgt := by rfl

/-! ### withCalOp -/

@[simp] theorem withCalOp_pending (v : Option Nat) : (s.withCalOp v).pending = s.pending := by rfl
@[simp] theorem withCalOp_held (v : Option Nat) : (s.withCalOp v).held = s.held := by rfl
@[simp] theorem withCalOp_resuming (v : Option Nat) : (s.withCalOp v).resuming = s.resuming := by rfl
@[simp] theorem withCalOp_out (v : Option Nat) : (s.withCalOp v).out = s.out := by rfl
@[simp] theorem withCalOp_now (v : Option Nat) : (s.withCalOp v).now = s.now := by rfl
@[simp] theorem withCalOp_cnt (v : Option Nat) : (s.withCalOp v).cnt = s.cnt := by rfl
@[simp] theorem withCalOp_freeCtr (v : Option Nat) : (s.withCalOp v).freeCtr = s.freeCtr := by rfl
@[simp] theorem withCalOp_phase (v : Option Nat) : (s.withCalOp v).phase = s.phase := by rfl
@[simp] theorem withCalOp_resetAt (v : Option Nat) : (s.withCalOp v).resetAt = s.resetAt := by rfl
@[simp] theorem withCalOp_regs (v : Option Nat) : (s.withCalOp v).regs = s.regs := by rfl
@[simp] theorem withCalOp_latch (v : Option Nat) : (s.withCalOp v).latch = s.latch := by rfl
@[simp] theorem withCalOp_sess (v : Option Nat) : (s.withCalOp v).sess = s.sess := by rfl
@[simp] theorem withCalOp_owner (v : Option Nat) : (s.withCalOp v).owner = s.owner := by rfl
@[simp] theorem withCalOp_elect (v : Option Nat) : (s.withCalOp v).elect = s.elect := by rfl
@[simp] theorem withCalOp_ops (v : Option Nat) : (s.withCalOp v).ops = s.ops := by rfl
@[simp] theorem withCalOp_reports (v : Option Nat) : (s.withCalOp v).reports = s.reports := by rfl
@[simp] theorem withCalOp_condOn (v : Option Nat) : (s.withCalOp v).condOn = s.condOn := by rfl
@[simp] theorem withCalOp_shadows (v : Option Nat) : (s.withCalOp v).shadows = s.shadows := by rfl
@[simp] theorem withCalOp_rst (v : Option Nat) : (s.withCalOp v).rst = s.rst := by rfl
@[simp] theorem withCalOp_stalls (v : Option Nat) : (s.withCalOp v).stalls = s.stalls := by rfl
@[simp] theorem withCalOp_chans (v : Option Nat) : (s.withCalOp v).chans = s.chans := by rfl
@[simp] theorem withCalOp_queues (v : Option Nat) : (s.withCalOp v).queues = s.queues := by rfl
@[simp] theorem withCalOp_streams (v : Option Nat) : (s.withCalOp v).streams = s.streams := by rfl
@[simp] theorem withCalOp_mem (v : Option Nat) : (s.withCalOp v).mem = s.mem := by rfl
@[simp] theorem withCalOp_psn (v : Option Nat) : (s.withCalOp v).psn = s.psn := by rfl
@[simp] theorem withCalOp_err (v : Option Nat) : (s.withCalOp v).err = s.err := by rfl
@[simp] theorem withCalOp_inited (v : Option Nat) : (s.withCalOp v).inited = s.inited := by rfl
@[simp] theorem withCalOp_dram (v : Option Nat) : (s.withCalOp v).dram = s.dram := by rfl
@[simp] theorem withCalOp_mig (v : Option Nat) : (s.withCalOp v).mig = s.mig := by rfl
@[simp] theorem withCalOp_tack (v : Option Nat) : (s.withCalOp v).tack = s.tack := by rfl
@[simp] theorem withCalOp_tims (v : Option Nat) : (s.withCalOp v).tims = s.tims := by rfl
@[simp] theorem withCalOp_flts (v : Option Nat) : (s.withCalOp v).flts = s.flts := by rfl
@[simp] theorem withCalOp_alarms (v : Option Nat) : (s.withCalOp v).alarms = s.alarms := by rfl
@[simp] theorem withCalOp_calOp (v : Option Nat) : (s.withCalOp v).calOp = v := by rfl
@[simp] theorem withCalOp_mgt (v : Option Nat) : (s.withCalOp v).mgt = s.mgt := by rfl

/-! ### withTests -/

@[simp] theorem withTests_pending (v : SMap (Option TestFinding)) : (s.withTests v).pending = s.pending := by rfl
@[simp] theorem withTests_held (v : SMap (Option TestFinding)) : (s.withTests v).held = s.held := by rfl
@[simp] theorem withTests_resuming (v : SMap (Option TestFinding)) : (s.withTests v).resuming = s.resuming := by rfl
@[simp] theorem withTests_out (v : SMap (Option TestFinding)) : (s.withTests v).out = s.out := by rfl
@[simp] theorem withTests_now (v : SMap (Option TestFinding)) : (s.withTests v).now = s.now := by rfl
@[simp] theorem withTests_cnt (v : SMap (Option TestFinding)) : (s.withTests v).cnt = s.cnt := by rfl
@[simp] theorem withTests_freeCtr (v : SMap (Option TestFinding)) : (s.withTests v).freeCtr = s.freeCtr := by rfl
@[simp] theorem withTests_phase (v : SMap (Option TestFinding)) : (s.withTests v).phase = s.phase := by rfl
@[simp] theorem withTests_resetAt (v : SMap (Option TestFinding)) : (s.withTests v).resetAt = s.resetAt := by rfl
@[simp] theorem withTests_regs (v : SMap (Option TestFinding)) : (s.withTests v).regs = s.regs := by rfl
@[simp] theorem withTests_latch (v : SMap (Option TestFinding)) : (s.withTests v).latch = s.latch := by rfl
@[simp] theorem withTests_sess (v : SMap (Option TestFinding)) : (s.withTests v).sess = s.sess := by rfl
@[simp] theorem withTests_owner (v : SMap (Option TestFinding)) : (s.withTests v).owner = s.owner := by rfl
@[simp] theorem withTests_elect (v : SMap (Option TestFinding)) : (s.withTests v).elect = s.elect := by rfl
@[simp] theorem withTests_ops (v : SMap (Option TestFinding)) : (s.withTests v).ops = s.ops := by rfl
@[simp] theorem withTests_reports (v : SMap (Option TestFinding)) : (s.withTests v).reports = s.reports := by rfl
@[simp] theorem withTests_condOn (v : SMap (Option TestFinding)) : (s.withTests v).condOn = s.condOn := by rfl
@[simp] theorem withTests_shadows (v : SMap (Option TestFinding)) : (s.withTests v).shadows = s.shadows := by rfl
@[simp] theorem withTests_rst (v : SMap (Option TestFinding)) : (s.withTests v).rst = s.rst := by rfl
@[simp] theorem withTests_stalls (v : SMap (Option TestFinding)) : (s.withTests v).stalls = s.stalls := by rfl
@[simp] theorem withTests_chans (v : SMap (Option TestFinding)) : (s.withTests v).chans = s.chans := by rfl
@[simp] theorem withTests_queues (v : SMap (Option TestFinding)) : (s.withTests v).queues = s.queues := by rfl
@[simp] theorem withTests_streams (v : SMap (Option TestFinding)) : (s.withTests v).streams = s.streams := by rfl
@[simp] theorem withTests_mem (v : SMap (Option TestFinding)) : (s.withTests v).mem = s.mem := by rfl
@[simp] theorem withTests_psn (v : SMap (Option TestFinding)) : (s.withTests v).psn = s.psn := by rfl
@[simp] theorem withTests_err (v : SMap (Option TestFinding)) : (s.withTests v).err = s.err := by rfl
@[simp] theorem withTests_inited (v : SMap (Option TestFinding)) : (s.withTests v).inited = s.inited := by rfl
@[simp] theorem withTests_dram (v : SMap (Option TestFinding)) : (s.withTests v).dram = s.dram := by rfl
@[simp] theorem withTests_mig (v : SMap (Option TestFinding)) : (s.withTests v).mig = s.mig := by rfl
@[simp] theorem withTests_tack (v : SMap (Option TestFinding)) : (s.withTests v).tack = s.tack := by rfl
@[simp] theorem withTests_tims (v : SMap (Option TestFinding)) : (s.withTests v).tims = s.tims := by rfl
@[simp] theorem withTests_flts (v : SMap (Option TestFinding)) : (s.withTests v).flts = s.flts := by rfl
@[simp] theorem withTests_alarms (v : SMap (Option TestFinding)) : (s.withTests v).alarms = s.alarms := by rfl
@[simp] theorem withTests_tests (v : SMap (Option TestFinding)) : (s.withTests v).tests = v := by rfl
@[simp] theorem withTests_mgt (v : SMap (Option TestFinding)) : (s.withTests v).mgt = s.mgt := by rfl

/-! ### withPes -/

@[simp] theorem withPes_pending (v : SMap Pes) : (s.withPes v).pending = s.pending := by rfl
@[simp] theorem withPes_held (v : SMap Pes) : (s.withPes v).held = s.held := by rfl
@[simp] theorem withPes_resuming (v : SMap Pes) : (s.withPes v).resuming = s.resuming := by rfl
@[simp] theorem withPes_out (v : SMap Pes) : (s.withPes v).out = s.out := by rfl
@[simp] theorem withPes_now (v : SMap Pes) : (s.withPes v).now = s.now := by rfl
@[simp] theorem withPes_cnt (v : SMap Pes) : (s.withPes v).cnt = s.cnt := by rfl
@[simp] theorem withPes_freeCtr (v : SMap Pes) : (s.withPes v).freeCtr = s.freeCtr := by rfl
@[simp] theorem withPes_phase (v : SMap Pes) : (s.withPes v).phase = s.phase := by rfl
@[simp] theorem withPes_resetAt (v : SMap Pes) : (s.withPes v).resetAt = s.resetAt := by rfl
@[simp] theorem withPes_regs (v : SMap Pes) : (s.withPes v).regs = s.regs := by rfl
@[simp] theorem withPes_latch (v : SMap Pes) : (s.withPes v).latch = s.latch := by rfl
@[simp] theorem withPes_sess (v : SMap Pes) : (s.withPes v).sess = s.sess := by rfl
@[simp] theorem withPes_owner (v : SMap Pes) : (s.withPes v).owner = s.owner := by rfl
@[simp] theorem withPes_elect (v : SMap Pes) : (s.withPes v).elect = s.elect := by rfl
@[simp] theorem withPes_ops (v : SMap Pes) : (s.withPes v).ops = s.ops := by rfl
@[simp] theorem withPes_reports (v : SMap Pes) : (s.withPes v).reports = s.reports := by rfl
@[simp] theorem withPes_condOn (v : SMap Pes) : (s.withPes v).condOn = s.condOn := by rfl
@[simp] theorem withPes_shadows (v : SMap Pes) : (s.withPes v).shadows = s.shadows := by rfl
@[simp] theorem withPes_rst (v : SMap Pes) : (s.withPes v).rst = s.rst := by rfl
@[simp] theorem withPes_stalls (v : SMap Pes) : (s.withPes v).stalls = s.stalls := by rfl
@[simp] theorem withPes_chans (v : SMap Pes) : (s.withPes v).chans = s.chans := by rfl
@[simp] theorem withPes_queues (v : SMap Pes) : (s.withPes v).queues = s.queues := by rfl
@[simp] theorem withPes_streams (v : SMap Pes) : (s.withPes v).streams = s.streams := by rfl
@[simp] theorem withPes_mem (v : SMap Pes) : (s.withPes v).mem = s.mem := by rfl
@[simp] theorem withPes_psn (v : SMap Pes) : (s.withPes v).psn = s.psn := by rfl
@[simp] theorem withPes_err (v : SMap Pes) : (s.withPes v).err = s.err := by rfl
@[simp] theorem withPes_inited (v : SMap Pes) : (s.withPes v).inited = s.inited := by rfl
@[simp] theorem withPes_dram (v : SMap Pes) : (s.withPes v).dram = s.dram := by rfl
@[simp] theorem withPes_mig (v : SMap Pes) : (s.withPes v).mig = s.mig := by rfl
@[simp] theorem withPes_tack (v : SMap Pes) : (s.withPes v).tack = s.tack := by rfl
@[simp] theorem withPes_tims (v : SMap Pes) : (s.withPes v).tims = s.tims := by rfl
@[simp] theorem withPes_flts (v : SMap Pes) : (s.withPes v).flts = s.flts := by rfl
@[simp] theorem withPes_alarms (v : SMap Pes) : (s.withPes v).alarms = s.alarms := by rfl
@[simp] theorem withPes_pes (v : SMap Pes) : (s.withPes v).pes = v := by rfl
@[simp] theorem withPes_mgt (v : SMap Pes) : (s.withPes v).mgt = s.mgt := by rfl

/-! ### withMgt -/

@[simp] theorem withMgt_pending (v : Mgt) : (s.withMgt v).pending = s.pending := by rfl
@[simp] theorem withMgt_held (v : Mgt) : (s.withMgt v).held = s.held := by rfl
@[simp] theorem withMgt_resuming (v : Mgt) : (s.withMgt v).resuming = s.resuming := by rfl
@[simp] theorem withMgt_out (v : Mgt) : (s.withMgt v).out = s.out := by rfl
@[simp] theorem withMgt_now (v : Mgt) : (s.withMgt v).now = s.now := by rfl
@[simp] theorem withMgt_cnt (v : Mgt) : (s.withMgt v).cnt = s.cnt := by rfl
@[simp] theorem withMgt_freeCtr (v : Mgt) : (s.withMgt v).freeCtr = s.freeCtr := by rfl
@[simp] theorem withMgt_phase (v : Mgt) : (s.withMgt v).phase = s.phase := by rfl
@[simp] theorem withMgt_resetAt (v : Mgt) : (s.withMgt v).resetAt = s.resetAt := by rfl
@[simp] theorem withMgt_regs (v : Mgt) : (s.withMgt v).regs = s.regs := by rfl
@[simp] theorem withMgt_latch (v : Mgt) : (s.withMgt v).latch = s.latch := by rfl
@[simp] theorem withMgt_sess (v : Mgt) : (s.withMgt v).sess = s.sess := by rfl
@[simp] theorem withMgt_owner (v : Mgt) : (s.withMgt v).owner = s.owner := by rfl
@[simp] theorem withMgt_elect (v : Mgt) : (s.withMgt v).elect = s.elect := by rfl
@[simp] theorem withMgt_ops (v : Mgt) : (s.withMgt v).ops = s.ops := by rfl
@[simp] theorem withMgt_reports (v : Mgt) : (s.withMgt v).reports = s.reports := by rfl
@[simp] theorem withMgt_condOn (v : Mgt) : (s.withMgt v).condOn = s.condOn := by rfl
@[simp] theorem withMgt_shadows (v : Mgt) : (s.withMgt v).shadows = s.shadows := by rfl
@[simp] theorem withMgt_rst (v : Mgt) : (s.withMgt v).rst = s.rst := by rfl
@[simp] theorem withMgt_stalls (v : Mgt) : (s.withMgt v).stalls = s.stalls := by rfl
@[simp] theorem withMgt_chans (v : Mgt) : (s.withMgt v).chans = s.chans := by rfl
@[simp] theorem withMgt_queues (v : Mgt) : (s.withMgt v).queues = s.queues := by rfl
@[simp] theorem withMgt_streams (v : Mgt) : (s.withMgt v).streams = s.streams := by rfl
@[simp] theorem withMgt_mem (v : Mgt) : (s.withMgt v).mem = s.mem := by rfl
@[simp] theorem withMgt_psn (v : Mgt) : (s.withMgt v).psn = s.psn := by rfl
@[simp] theorem withMgt_err (v : Mgt) : (s.withMgt v).err = s.err := by rfl
@[simp] theorem withMgt_inited (v : Mgt) : (s.withMgt v).inited = s.inited := by rfl
@[simp] theorem withMgt_dram (v : Mgt) : (s.withMgt v).dram = s.dram := by rfl
@[simp] theorem withMgt_mig (v : Mgt) : (s.withMgt v).mig = s.mig := by rfl
@[simp] theorem withMgt_tack (v : Mgt) : (s.withMgt v).tack = s.tack := by rfl
@[simp] theorem withMgt_tims (v : Mgt) : (s.withMgt v).tims = s.tims := by rfl
@[simp] theorem withMgt_flts (v : Mgt) : (s.withMgt v).flts = s.flts := by rfl
@[simp] theorem withMgt_alarms (v : Mgt) : (s.withMgt v).alarms = s.alarms := by rfl
@[simp] theorem withMgt_mgt (v : Mgt) : (s.withMgt v).mgt = v := by rfl

/-! ### withTrigIn -/

@[simp] theorem withTrigIn_pending (v : BitVec 4) : (s.withTrigIn v).pending = s.pending := by rfl
@[simp] theorem withTrigIn_held (v : BitVec 4) : (s.withTrigIn v).held = s.held := by rfl
@[simp] theorem withTrigIn_resuming (v : BitVec 4) : (s.withTrigIn v).resuming = s.resuming := by rfl
@[simp] theorem withTrigIn_out (v : BitVec 4) : (s.withTrigIn v).out = s.out := by rfl
@[simp] theorem withTrigIn_now (v : BitVec 4) : (s.withTrigIn v).now = s.now := by rfl
@[simp] theorem withTrigIn_cnt (v : BitVec 4) : (s.withTrigIn v).cnt = s.cnt := by rfl
@[simp] theorem withTrigIn_freeCtr (v : BitVec 4) : (s.withTrigIn v).freeCtr = s.freeCtr := by rfl
@[simp] theorem withTrigIn_phase (v : BitVec 4) : (s.withTrigIn v).phase = s.phase := by rfl
@[simp] theorem withTrigIn_resetAt (v : BitVec 4) : (s.withTrigIn v).resetAt = s.resetAt := by rfl
@[simp] theorem withTrigIn_regs (v : BitVec 4) : (s.withTrigIn v).regs = s.regs := by rfl
@[simp] theorem withTrigIn_latch (v : BitVec 4) : (s.withTrigIn v).latch = s.latch := by rfl
@[simp] theorem withTrigIn_sess (v : BitVec 4) : (s.withTrigIn v).sess = s.sess := by rfl
@[simp] theorem withTrigIn_owner (v : BitVec 4) : (s.withTrigIn v).owner = s.owner := by rfl
@[simp] theorem withTrigIn_elect (v : BitVec 4) : (s.withTrigIn v).elect = s.elect := by rfl
@[simp] theorem withTrigIn_ops (v : BitVec 4) : (s.withTrigIn v).ops = s.ops := by rfl
@[simp] theorem withTrigIn_reports (v : BitVec 4) : (s.withTrigIn v).reports = s.reports := by rfl
@[simp] theorem withTrigIn_condOn (v : BitVec 4) : (s.withTrigIn v).condOn = s.condOn := by rfl
@[simp] theorem withTrigIn_shadows (v : BitVec 4) : (s.withTrigIn v).shadows = s.shadows := by rfl
@[simp] theorem withTrigIn_rst (v : BitVec 4) : (s.withTrigIn v).rst = s.rst := by rfl
@[simp] theorem withTrigIn_stalls (v : BitVec 4) : (s.withTrigIn v).stalls = s.stalls := by rfl
@[simp] theorem withTrigIn_chans (v : BitVec 4) : (s.withTrigIn v).chans = s.chans := by rfl
@[simp] theorem withTrigIn_queues (v : BitVec 4) : (s.withTrigIn v).queues = s.queues := by rfl
@[simp] theorem withTrigIn_streams (v : BitVec 4) : (s.withTrigIn v).streams = s.streams := by rfl
@[simp] theorem withTrigIn_mem (v : BitVec 4) : (s.withTrigIn v).mem = s.mem := by rfl
@[simp] theorem withTrigIn_psn (v : BitVec 4) : (s.withTrigIn v).psn = s.psn := by rfl
@[simp] theorem withTrigIn_err (v : BitVec 4) : (s.withTrigIn v).err = s.err := by rfl
@[simp] theorem withTrigIn_inited (v : BitVec 4) : (s.withTrigIn v).inited = s.inited := by rfl
@[simp] theorem withTrigIn_dram (v : BitVec 4) : (s.withTrigIn v).dram = s.dram := by rfl
@[simp] theorem withTrigIn_mig (v : BitVec 4) : (s.withTrigIn v).mig = s.mig := by rfl
@[simp] theorem withTrigIn_tack (v : BitVec 4) : (s.withTrigIn v).tack = s.tack := by rfl
@[simp] theorem withTrigIn_tims (v : BitVec 4) : (s.withTrigIn v).tims = s.tims := by rfl
@[simp] theorem withTrigIn_flts (v : BitVec 4) : (s.withTrigIn v).flts = s.flts := by rfl
@[simp] theorem withTrigIn_alarms (v : BitVec 4) : (s.withTrigIn v).alarms = s.alarms := by rfl
@[simp] theorem withTrigIn_mgt (v : BitVec 4) : (s.withTrigIn v).mgt = s.mgt := by rfl
@[simp] theorem withTrigIn_trigIn (v : BitVec 4) : (s.withTrigIn v).trigIn = v := by rfl

/-! ### withMkr -/

@[simp] theorem withMkr_pending (v : BitVec 8) : (s.withMkr v).pending = s.pending := by rfl
@[simp] theorem withMkr_held (v : BitVec 8) : (s.withMkr v).held = s.held := by rfl
@[simp] theorem withMkr_resuming (v : BitVec 8) : (s.withMkr v).resuming = s.resuming := by rfl
@[simp] theorem withMkr_out (v : BitVec 8) : (s.withMkr v).out = s.out := by rfl
@[simp] theorem withMkr_now (v : BitVec 8) : (s.withMkr v).now = s.now := by rfl
@[simp] theorem withMkr_cnt (v : BitVec 8) : (s.withMkr v).cnt = s.cnt := by rfl
@[simp] theorem withMkr_freeCtr (v : BitVec 8) : (s.withMkr v).freeCtr = s.freeCtr := by rfl
@[simp] theorem withMkr_phase (v : BitVec 8) : (s.withMkr v).phase = s.phase := by rfl
@[simp] theorem withMkr_resetAt (v : BitVec 8) : (s.withMkr v).resetAt = s.resetAt := by rfl
@[simp] theorem withMkr_regs (v : BitVec 8) : (s.withMkr v).regs = s.regs := by rfl
@[simp] theorem withMkr_latch (v : BitVec 8) : (s.withMkr v).latch = s.latch := by rfl
@[simp] theorem withMkr_sess (v : BitVec 8) : (s.withMkr v).sess = s.sess := by rfl
@[simp] theorem withMkr_owner (v : BitVec 8) : (s.withMkr v).owner = s.owner := by rfl
@[simp] theorem withMkr_elect (v : BitVec 8) : (s.withMkr v).elect = s.elect := by rfl
@[simp] theorem withMkr_ops (v : BitVec 8) : (s.withMkr v).ops = s.ops := by rfl
@[simp] theorem withMkr_reports (v : BitVec 8) : (s.withMkr v).reports = s.reports := by rfl
@[simp] theorem withMkr_condOn (v : BitVec 8) : (s.withMkr v).condOn = s.condOn := by rfl
@[simp] theorem withMkr_shadows (v : BitVec 8) : (s.withMkr v).shadows = s.shadows := by rfl
@[simp] theorem withMkr_rst (v : BitVec 8) : (s.withMkr v).rst = s.rst := by rfl
@[simp] theorem withMkr_stalls (v : BitVec 8) : (s.withMkr v).stalls = s.stalls := by rfl
@[simp] theorem withMkr_chans (v : BitVec 8) : (s.withMkr v).chans = s.chans := by rfl
@[simp] theorem withMkr_queues (v : BitVec 8) : (s.withMkr v).queues = s.queues := by rfl
@[simp] theorem withMkr_streams (v : BitVec 8) : (s.withMkr v).streams = s.streams := by rfl
@[simp] theorem withMkr_mem (v : BitVec 8) : (s.withMkr v).mem = s.mem := by rfl
@[simp] theorem withMkr_psn (v : BitVec 8) : (s.withMkr v).psn = s.psn := by rfl
@[simp] theorem withMkr_err (v : BitVec 8) : (s.withMkr v).err = s.err := by rfl
@[simp] theorem withMkr_inited (v : BitVec 8) : (s.withMkr v).inited = s.inited := by rfl
@[simp] theorem withMkr_dram (v : BitVec 8) : (s.withMkr v).dram = s.dram := by rfl
@[simp] theorem withMkr_mig (v : BitVec 8) : (s.withMkr v).mig = s.mig := by rfl
@[simp] theorem withMkr_tack (v : BitVec 8) : (s.withMkr v).tack = s.tack := by rfl
@[simp] theorem withMkr_tims (v : BitVec 8) : (s.withMkr v).tims = s.tims := by rfl
@[simp] theorem withMkr_flts (v : BitVec 8) : (s.withMkr v).flts = s.flts := by rfl
@[simp] theorem withMkr_alarms (v : BitVec 8) : (s.withMkr v).alarms = s.alarms := by rfl
@[simp] theorem withMkr_mgt (v : BitVec 8) : (s.withMkr v).mgt = s.mgt := by rfl
@[simp] theorem withMkr_mkr (v : BitVec 8) : (s.withMkr v).mkr = v := by rfl

/-! ### withMkrEdges -/

@[simp] theorem withMkrEdges_pending (v : List (Nat × Nat × Bool)) : (s.withMkrEdges v).pending = s.pending := by rfl
@[simp] theorem withMkrEdges_held (v : List (Nat × Nat × Bool)) : (s.withMkrEdges v).held = s.held := by rfl
@[simp] theorem withMkrEdges_resuming (v : List (Nat × Nat × Bool)) : (s.withMkrEdges v).resuming = s.resuming := by rfl
@[simp] theorem withMkrEdges_out (v : List (Nat × Nat × Bool)) : (s.withMkrEdges v).out = s.out := by rfl
@[simp] theorem withMkrEdges_now (v : List (Nat × Nat × Bool)) : (s.withMkrEdges v).now = s.now := by rfl
@[simp] theorem withMkrEdges_cnt (v : List (Nat × Nat × Bool)) : (s.withMkrEdges v).cnt = s.cnt := by rfl
@[simp] theorem withMkrEdges_freeCtr (v : List (Nat × Nat × Bool)) : (s.withMkrEdges v).freeCtr = s.freeCtr := by rfl
@[simp] theorem withMkrEdges_phase (v : List (Nat × Nat × Bool)) : (s.withMkrEdges v).phase = s.phase := by rfl
@[simp] theorem withMkrEdges_resetAt (v : List (Nat × Nat × Bool)) : (s.withMkrEdges v).resetAt = s.resetAt := by rfl
@[simp] theorem withMkrEdges_regs (v : List (Nat × Nat × Bool)) : (s.withMkrEdges v).regs = s.regs := by rfl
@[simp] theorem withMkrEdges_latch (v : List (Nat × Nat × Bool)) : (s.withMkrEdges v).latch = s.latch := by rfl
@[simp] theorem withMkrEdges_sess (v : List (Nat × Nat × Bool)) : (s.withMkrEdges v).sess = s.sess := by rfl
@[simp] theorem withMkrEdges_owner (v : List (Nat × Nat × Bool)) : (s.withMkrEdges v).owner = s.owner := by rfl
@[simp] theorem withMkrEdges_elect (v : List (Nat × Nat × Bool)) : (s.withMkrEdges v).elect = s.elect := by rfl
@[simp] theorem withMkrEdges_ops (v : List (Nat × Nat × Bool)) : (s.withMkrEdges v).ops = s.ops := by rfl
@[simp] theorem withMkrEdges_reports (v : List (Nat × Nat × Bool)) : (s.withMkrEdges v).reports = s.reports := by rfl
@[simp] theorem withMkrEdges_condOn (v : List (Nat × Nat × Bool)) : (s.withMkrEdges v).condOn = s.condOn := by rfl
@[simp] theorem withMkrEdges_shadows (v : List (Nat × Nat × Bool)) : (s.withMkrEdges v).shadows = s.shadows := by rfl
@[simp] theorem withMkrEdges_rst (v : List (Nat × Nat × Bool)) : (s.withMkrEdges v).rst = s.rst := by rfl
@[simp] theorem withMkrEdges_stalls (v : List (Nat × Nat × Bool)) : (s.withMkrEdges v).stalls = s.stalls := by rfl
@[simp] theorem withMkrEdges_chans (v : List (Nat × Nat × Bool)) : (s.withMkrEdges v).chans = s.chans := by rfl
@[simp] theorem withMkrEdges_queues (v : List (Nat × Nat × Bool)) : (s.withMkrEdges v).queues = s.queues := by rfl
@[simp] theorem withMkrEdges_streams (v : List (Nat × Nat × Bool)) : (s.withMkrEdges v).streams = s.streams := by rfl
@[simp] theorem withMkrEdges_mem (v : List (Nat × Nat × Bool)) : (s.withMkrEdges v).mem = s.mem := by rfl
@[simp] theorem withMkrEdges_psn (v : List (Nat × Nat × Bool)) : (s.withMkrEdges v).psn = s.psn := by rfl
@[simp] theorem withMkrEdges_err (v : List (Nat × Nat × Bool)) : (s.withMkrEdges v).err = s.err := by rfl
@[simp] theorem withMkrEdges_inited (v : List (Nat × Nat × Bool)) : (s.withMkrEdges v).inited = s.inited := by rfl
@[simp] theorem withMkrEdges_dram (v : List (Nat × Nat × Bool)) : (s.withMkrEdges v).dram = s.dram := by rfl
@[simp] theorem withMkrEdges_mig (v : List (Nat × Nat × Bool)) : (s.withMkrEdges v).mig = s.mig := by rfl
@[simp] theorem withMkrEdges_tack (v : List (Nat × Nat × Bool)) : (s.withMkrEdges v).tack = s.tack := by rfl
@[simp] theorem withMkrEdges_tims (v : List (Nat × Nat × Bool)) : (s.withMkrEdges v).tims = s.tims := by rfl
@[simp] theorem withMkrEdges_flts (v : List (Nat × Nat × Bool)) : (s.withMkrEdges v).flts = s.flts := by rfl
@[simp] theorem withMkrEdges_alarms (v : List (Nat × Nat × Bool)) : (s.withMkrEdges v).alarms = s.alarms := by rfl
@[simp] theorem withMkrEdges_mgt (v : List (Nat × Nat × Bool)) : (s.withMkrEdges v).mgt = s.mgt := by rfl
@[simp] theorem withMkrEdges_mkrEdges (v : List (Nat × Nat × Bool)) : (s.withMkrEdges v).mkrEdges = v := by rfl

/-! ### withMkrLog -/

@[simp] theorem withMkrLog_pending (v : List (Nat × Nat × Bool)) : (s.withMkrLog v).pending = s.pending := by rfl
@[simp] theorem withMkrLog_held (v : List (Nat × Nat × Bool)) : (s.withMkrLog v).held = s.held := by rfl
@[simp] theorem withMkrLog_resuming (v : List (Nat × Nat × Bool)) : (s.withMkrLog v).resuming = s.resuming := by rfl
@[simp] theorem withMkrLog_out (v : List (Nat × Nat × Bool)) : (s.withMkrLog v).out = s.out := by rfl
@[simp] theorem withMkrLog_now (v : List (Nat × Nat × Bool)) : (s.withMkrLog v).now = s.now := by rfl
@[simp] theorem withMkrLog_cnt (v : List (Nat × Nat × Bool)) : (s.withMkrLog v).cnt = s.cnt := by rfl
@[simp] theorem withMkrLog_freeCtr (v : List (Nat × Nat × Bool)) : (s.withMkrLog v).freeCtr = s.freeCtr := by rfl
@[simp] theorem withMkrLog_phase (v : List (Nat × Nat × Bool)) : (s.withMkrLog v).phase = s.phase := by rfl
@[simp] theorem withMkrLog_resetAt (v : List (Nat × Nat × Bool)) : (s.withMkrLog v).resetAt = s.resetAt := by rfl
@[simp] theorem withMkrLog_regs (v : List (Nat × Nat × Bool)) : (s.withMkrLog v).regs = s.regs := by rfl
@[simp] theorem withMkrLog_latch (v : List (Nat × Nat × Bool)) : (s.withMkrLog v).latch = s.latch := by rfl
@[simp] theorem withMkrLog_sess (v : List (Nat × Nat × Bool)) : (s.withMkrLog v).sess = s.sess := by rfl
@[simp] theorem withMkrLog_owner (v : List (Nat × Nat × Bool)) : (s.withMkrLog v).owner = s.owner := by rfl
@[simp] theorem withMkrLog_elect (v : List (Nat × Nat × Bool)) : (s.withMkrLog v).elect = s.elect := by rfl
@[simp] theorem withMkrLog_ops (v : List (Nat × Nat × Bool)) : (s.withMkrLog v).ops = s.ops := by rfl
@[simp] theorem withMkrLog_reports (v : List (Nat × Nat × Bool)) : (s.withMkrLog v).reports = s.reports := by rfl
@[simp] theorem withMkrLog_condOn (v : List (Nat × Nat × Bool)) : (s.withMkrLog v).condOn = s.condOn := by rfl
@[simp] theorem withMkrLog_shadows (v : List (Nat × Nat × Bool)) : (s.withMkrLog v).shadows = s.shadows := by rfl
@[simp] theorem withMkrLog_rst (v : List (Nat × Nat × Bool)) : (s.withMkrLog v).rst = s.rst := by rfl
@[simp] theorem withMkrLog_stalls (v : List (Nat × Nat × Bool)) : (s.withMkrLog v).stalls = s.stalls := by rfl
@[simp] theorem withMkrLog_chans (v : List (Nat × Nat × Bool)) : (s.withMkrLog v).chans = s.chans := by rfl
@[simp] theorem withMkrLog_queues (v : List (Nat × Nat × Bool)) : (s.withMkrLog v).queues = s.queues := by rfl
@[simp] theorem withMkrLog_streams (v : List (Nat × Nat × Bool)) : (s.withMkrLog v).streams = s.streams := by rfl
@[simp] theorem withMkrLog_mem (v : List (Nat × Nat × Bool)) : (s.withMkrLog v).mem = s.mem := by rfl
@[simp] theorem withMkrLog_psn (v : List (Nat × Nat × Bool)) : (s.withMkrLog v).psn = s.psn := by rfl
@[simp] theorem withMkrLog_err (v : List (Nat × Nat × Bool)) : (s.withMkrLog v).err = s.err := by rfl
@[simp] theorem withMkrLog_inited (v : List (Nat × Nat × Bool)) : (s.withMkrLog v).inited = s.inited := by rfl
@[simp] theorem withMkrLog_dram (v : List (Nat × Nat × Bool)) : (s.withMkrLog v).dram = s.dram := by rfl
@[simp] theorem withMkrLog_mig (v : List (Nat × Nat × Bool)) : (s.withMkrLog v).mig = s.mig := by rfl
@[simp] theorem withMkrLog_tack (v : List (Nat × Nat × Bool)) : (s.withMkrLog v).tack = s.tack := by rfl
@[simp] theorem withMkrLog_tims (v : List (Nat × Nat × Bool)) : (s.withMkrLog v).tims = s.tims := by rfl
@[simp] theorem withMkrLog_flts (v : List (Nat × Nat × Bool)) : (s.withMkrLog v).flts = s.flts := by rfl
@[simp] theorem withMkrLog_alarms (v : List (Nat × Nat × Bool)) : (s.withMkrLog v).alarms = s.alarms := by rfl
@[simp] theorem withMkrLog_mgt (v : List (Nat × Nat × Bool)) : (s.withMkrLog v).mgt = s.mgt := by rfl
@[simp] theorem withMkrLog_mkrLog (v : List (Nat × Nat × Bool)) : (s.withMkrLog v).mkrLog = v := by rfl

/-! ### withTrigOut -/

@[simp] theorem withTrigOut_pending (v : SMap Pulse) : (s.withTrigOut v).pending = s.pending := by rfl
@[simp] theorem withTrigOut_held (v : SMap Pulse) : (s.withTrigOut v).held = s.held := by rfl
@[simp] theorem withTrigOut_resuming (v : SMap Pulse) : (s.withTrigOut v).resuming = s.resuming := by rfl
@[simp] theorem withTrigOut_out (v : SMap Pulse) : (s.withTrigOut v).out = s.out := by rfl
@[simp] theorem withTrigOut_now (v : SMap Pulse) : (s.withTrigOut v).now = s.now := by rfl
@[simp] theorem withTrigOut_cnt (v : SMap Pulse) : (s.withTrigOut v).cnt = s.cnt := by rfl
@[simp] theorem withTrigOut_freeCtr (v : SMap Pulse) : (s.withTrigOut v).freeCtr = s.freeCtr := by rfl
@[simp] theorem withTrigOut_phase (v : SMap Pulse) : (s.withTrigOut v).phase = s.phase := by rfl
@[simp] theorem withTrigOut_resetAt (v : SMap Pulse) : (s.withTrigOut v).resetAt = s.resetAt := by rfl
@[simp] theorem withTrigOut_regs (v : SMap Pulse) : (s.withTrigOut v).regs = s.regs := by rfl
@[simp] theorem withTrigOut_latch (v : SMap Pulse) : (s.withTrigOut v).latch = s.latch := by rfl
@[simp] theorem withTrigOut_sess (v : SMap Pulse) : (s.withTrigOut v).sess = s.sess := by rfl
@[simp] theorem withTrigOut_owner (v : SMap Pulse) : (s.withTrigOut v).owner = s.owner := by rfl
@[simp] theorem withTrigOut_elect (v : SMap Pulse) : (s.withTrigOut v).elect = s.elect := by rfl
@[simp] theorem withTrigOut_ops (v : SMap Pulse) : (s.withTrigOut v).ops = s.ops := by rfl
@[simp] theorem withTrigOut_reports (v : SMap Pulse) : (s.withTrigOut v).reports = s.reports := by rfl
@[simp] theorem withTrigOut_condOn (v : SMap Pulse) : (s.withTrigOut v).condOn = s.condOn := by rfl
@[simp] theorem withTrigOut_shadows (v : SMap Pulse) : (s.withTrigOut v).shadows = s.shadows := by rfl
@[simp] theorem withTrigOut_rst (v : SMap Pulse) : (s.withTrigOut v).rst = s.rst := by rfl
@[simp] theorem withTrigOut_stalls (v : SMap Pulse) : (s.withTrigOut v).stalls = s.stalls := by rfl
@[simp] theorem withTrigOut_chans (v : SMap Pulse) : (s.withTrigOut v).chans = s.chans := by rfl
@[simp] theorem withTrigOut_queues (v : SMap Pulse) : (s.withTrigOut v).queues = s.queues := by rfl
@[simp] theorem withTrigOut_streams (v : SMap Pulse) : (s.withTrigOut v).streams = s.streams := by rfl
@[simp] theorem withTrigOut_mem (v : SMap Pulse) : (s.withTrigOut v).mem = s.mem := by rfl
@[simp] theorem withTrigOut_psn (v : SMap Pulse) : (s.withTrigOut v).psn = s.psn := by rfl
@[simp] theorem withTrigOut_err (v : SMap Pulse) : (s.withTrigOut v).err = s.err := by rfl
@[simp] theorem withTrigOut_inited (v : SMap Pulse) : (s.withTrigOut v).inited = s.inited := by rfl
@[simp] theorem withTrigOut_dram (v : SMap Pulse) : (s.withTrigOut v).dram = s.dram := by rfl
@[simp] theorem withTrigOut_mig (v : SMap Pulse) : (s.withTrigOut v).mig = s.mig := by rfl
@[simp] theorem withTrigOut_tack (v : SMap Pulse) : (s.withTrigOut v).tack = s.tack := by rfl
@[simp] theorem withTrigOut_tims (v : SMap Pulse) : (s.withTrigOut v).tims = s.tims := by rfl
@[simp] theorem withTrigOut_flts (v : SMap Pulse) : (s.withTrigOut v).flts = s.flts := by rfl
@[simp] theorem withTrigOut_alarms (v : SMap Pulse) : (s.withTrigOut v).alarms = s.alarms := by rfl
@[simp] theorem withTrigOut_mgt (v : SMap Pulse) : (s.withTrigOut v).mgt = s.mgt := by rfl
@[simp] theorem withTrigOut_trigOut (v : SMap Pulse) : (s.withTrigOut v).trigOut = v := by rfl

/-! ### withTout -/

@[simp] theorem withTout_pending (v : SMap Pulse) : (s.withTout v).pending = s.pending := by rfl
@[simp] theorem withTout_held (v : SMap Pulse) : (s.withTout v).held = s.held := by rfl
@[simp] theorem withTout_resuming (v : SMap Pulse) : (s.withTout v).resuming = s.resuming := by rfl
@[simp] theorem withTout_out (v : SMap Pulse) : (s.withTout v).out = s.out := by rfl
@[simp] theorem withTout_now (v : SMap Pulse) : (s.withTout v).now = s.now := by rfl
@[simp] theorem withTout_cnt (v : SMap Pulse) : (s.withTout v).cnt = s.cnt := by rfl
@[simp] theorem withTout_freeCtr (v : SMap Pulse) : (s.withTout v).freeCtr = s.freeCtr := by rfl
@[simp] theorem withTout_phase (v : SMap Pulse) : (s.withTout v).phase = s.phase := by rfl
@[simp] theorem withTout_resetAt (v : SMap Pulse) : (s.withTout v).resetAt = s.resetAt := by rfl
@[simp] theorem withTout_regs (v : SMap Pulse) : (s.withTout v).regs = s.regs := by rfl
@[simp] theorem withTout_latch (v : SMap Pulse) : (s.withTout v).latch = s.latch := by rfl
@[simp] theorem withTout_sess (v : SMap Pulse) : (s.withTout v).sess = s.sess := by rfl
@[simp] theorem withTout_owner (v : SMap Pulse) : (s.withTout v).owner = s.owner := by rfl
@[simp] theorem withTout_elect (v : SMap Pulse) : (s.withTout v).elect = s.elect := by rfl
@[simp] theorem withTout_ops (v : SMap Pulse) : (s.withTout v).ops = s.ops := by rfl
@[simp] theorem withTout_reports (v : SMap Pulse) : (s.withTout v).reports = s.reports := by rfl
@[simp] theorem withTout_condOn (v : SMap Pulse) : (s.withTout v).condOn = s.condOn := by rfl
@[simp] theorem withTout_shadows (v : SMap Pulse) : (s.withTout v).shadows = s.shadows := by rfl
@[simp] theorem withTout_rst (v : SMap Pulse) : (s.withTout v).rst = s.rst := by rfl
@[simp] theorem withTout_stalls (v : SMap Pulse) : (s.withTout v).stalls = s.stalls := by rfl
@[simp] theorem withTout_chans (v : SMap Pulse) : (s.withTout v).chans = s.chans := by rfl
@[simp] theorem withTout_queues (v : SMap Pulse) : (s.withTout v).queues = s.queues := by rfl
@[simp] theorem withTout_streams (v : SMap Pulse) : (s.withTout v).streams = s.streams := by rfl
@[simp] theorem withTout_mem (v : SMap Pulse) : (s.withTout v).mem = s.mem := by rfl
@[simp] theorem withTout_psn (v : SMap Pulse) : (s.withTout v).psn = s.psn := by rfl
@[simp] theorem withTout_err (v : SMap Pulse) : (s.withTout v).err = s.err := by rfl
@[simp] theorem withTout_inited (v : SMap Pulse) : (s.withTout v).inited = s.inited := by rfl
@[simp] theorem withTout_dram (v : SMap Pulse) : (s.withTout v).dram = s.dram := by rfl
@[simp] theorem withTout_mig (v : SMap Pulse) : (s.withTout v).mig = s.mig := by rfl
@[simp] theorem withTout_tack (v : SMap Pulse) : (s.withTout v).tack = s.tack := by rfl
@[simp] theorem withTout_tims (v : SMap Pulse) : (s.withTout v).tims = s.tims := by rfl
@[simp] theorem withTout_flts (v : SMap Pulse) : (s.withTout v).flts = s.flts := by rfl
@[simp] theorem withTout_alarms (v : SMap Pulse) : (s.withTout v).alarms = s.alarms := by rfl
@[simp] theorem withTout_mgt (v : SMap Pulse) : (s.withTout v).mgt = s.mgt := by rfl
@[simp] theorem withTout_tout (v : SMap Pulse) : (s.withTout v).tout = v := by rfl

/-! ### withToutLvl -/

@[simp] theorem withToutLvl_pending (v : BitVec 4) : (s.withToutLvl v).pending = s.pending := by rfl
@[simp] theorem withToutLvl_held (v : BitVec 4) : (s.withToutLvl v).held = s.held := by rfl
@[simp] theorem withToutLvl_resuming (v : BitVec 4) : (s.withToutLvl v).resuming = s.resuming := by rfl
@[simp] theorem withToutLvl_out (v : BitVec 4) : (s.withToutLvl v).out = s.out := by rfl
@[simp] theorem withToutLvl_now (v : BitVec 4) : (s.withToutLvl v).now = s.now := by rfl
@[simp] theorem withToutLvl_cnt (v : BitVec 4) : (s.withToutLvl v).cnt = s.cnt := by rfl
@[simp] theorem withToutLvl_freeCtr (v : BitVec 4) : (s.withToutLvl v).freeCtr = s.freeCtr := by rfl
@[simp] theorem withToutLvl_phase (v : BitVec 4) : (s.withToutLvl v).phase = s.phase := by rfl
@[simp] theorem withToutLvl_resetAt (v : BitVec 4) : (s.withToutLvl v).resetAt = s.resetAt := by rfl
@[simp] theorem withToutLvl_regs (v : BitVec 4) : (s.withToutLvl v).regs = s.regs := by rfl
@[simp] theorem withToutLvl_latch (v : BitVec 4) : (s.withToutLvl v).latch = s.latch := by rfl
@[simp] theorem withToutLvl_sess (v : BitVec 4) : (s.withToutLvl v).sess = s.sess := by rfl
@[simp] theorem withToutLvl_owner (v : BitVec 4) : (s.withToutLvl v).owner = s.owner := by rfl
@[simp] theorem withToutLvl_elect (v : BitVec 4) : (s.withToutLvl v).elect = s.elect := by rfl
@[simp] theorem withToutLvl_ops (v : BitVec 4) : (s.withToutLvl v).ops = s.ops := by rfl
@[simp] theorem withToutLvl_reports (v : BitVec 4) : (s.withToutLvl v).reports = s.reports := by rfl
@[simp] theorem withToutLvl_condOn (v : BitVec 4) : (s.withToutLvl v).condOn = s.condOn := by rfl
@[simp] theorem withToutLvl_shadows (v : BitVec 4) : (s.withToutLvl v).shadows = s.shadows := by rfl
@[simp] theorem withToutLvl_rst (v : BitVec 4) : (s.withToutLvl v).rst = s.rst := by rfl
@[simp] theorem withToutLvl_stalls (v : BitVec 4) : (s.withToutLvl v).stalls = s.stalls := by rfl
@[simp] theorem withToutLvl_chans (v : BitVec 4) : (s.withToutLvl v).chans = s.chans := by rfl
@[simp] theorem withToutLvl_queues (v : BitVec 4) : (s.withToutLvl v).queues = s.queues := by rfl
@[simp] theorem withToutLvl_streams (v : BitVec 4) : (s.withToutLvl v).streams = s.streams := by rfl
@[simp] theorem withToutLvl_mem (v : BitVec 4) : (s.withToutLvl v).mem = s.mem := by rfl
@[simp] theorem withToutLvl_psn (v : BitVec 4) : (s.withToutLvl v).psn = s.psn := by rfl
@[simp] theorem withToutLvl_err (v : BitVec 4) : (s.withToutLvl v).err = s.err := by rfl
@[simp] theorem withToutLvl_inited (v : BitVec 4) : (s.withToutLvl v).inited = s.inited := by rfl
@[simp] theorem withToutLvl_dram (v : BitVec 4) : (s.withToutLvl v).dram = s.dram := by rfl
@[simp] theorem withToutLvl_mig (v : BitVec 4) : (s.withToutLvl v).mig = s.mig := by rfl
@[simp] theorem withToutLvl_tack (v : BitVec 4) : (s.withToutLvl v).tack = s.tack := by rfl
@[simp] theorem withToutLvl_tims (v : BitVec 4) : (s.withToutLvl v).tims = s.tims := by rfl
@[simp] theorem withToutLvl_flts (v : BitVec 4) : (s.withToutLvl v).flts = s.flts := by rfl
@[simp] theorem withToutLvl_alarms (v : BitVec 4) : (s.withToutLvl v).alarms = s.alarms := by rfl
@[simp] theorem withToutLvl_mgt (v : BitVec 4) : (s.withToutLvl v).mgt = s.mgt := by rfl
@[simp] theorem withToutLvl_toutLvl (v : BitVec 4) : (s.withToutLvl v).toutLvl = v := by rfl

/-! ### withSyncOut -/

@[simp] theorem withSyncOut_pending (v : Pulse) : (s.withSyncOut v).pending = s.pending := by rfl
@[simp] theorem withSyncOut_held (v : Pulse) : (s.withSyncOut v).held = s.held := by rfl
@[simp] theorem withSyncOut_resuming (v : Pulse) : (s.withSyncOut v).resuming = s.resuming := by rfl
@[simp] theorem withSyncOut_out (v : Pulse) : (s.withSyncOut v).out = s.out := by rfl
@[simp] theorem withSyncOut_now (v : Pulse) : (s.withSyncOut v).now = s.now := by rfl
@[simp] theorem withSyncOut_cnt (v : Pulse) : (s.withSyncOut v).cnt = s.cnt := by rfl
@[simp] theorem withSyncOut_freeCtr (v : Pulse) : (s.withSyncOut v).freeCtr = s.freeCtr := by rfl
@[simp] theorem withSyncOut_phase (v : Pulse) : (s.withSyncOut v).phase = s.phase := by rfl
@[simp] theorem withSyncOut_resetAt (v : Pulse) : (s.withSyncOut v).resetAt = s.resetAt := by rfl
@[simp] theorem withSyncOut_regs (v : Pulse) : (s.withSyncOut v).regs = s.regs := by rfl
@[simp] theorem withSyncOut_latch (v : Pulse) : (s.withSyncOut v).latch = s.latch := by rfl
@[simp] theorem withSyncOut_sess (v : Pulse) : (s.withSyncOut v).sess = s.sess := by rfl
@[simp] theorem withSyncOut_owner (v : Pulse) : (s.withSyncOut v).owner = s.owner := by rfl
@[simp] theorem withSyncOut_elect (v : Pulse) : (s.withSyncOut v).elect = s.elect := by rfl
@[simp] theorem withSyncOut_ops (v : Pulse) : (s.withSyncOut v).ops = s.ops := by rfl
@[simp] theorem withSyncOut_reports (v : Pulse) : (s.withSyncOut v).reports = s.reports := by rfl
@[simp] theorem withSyncOut_condOn (v : Pulse) : (s.withSyncOut v).condOn = s.condOn := by rfl
@[simp] theorem withSyncOut_shadows (v : Pulse) : (s.withSyncOut v).shadows = s.shadows := by rfl
@[simp] theorem withSyncOut_rst (v : Pulse) : (s.withSyncOut v).rst = s.rst := by rfl
@[simp] theorem withSyncOut_stalls (v : Pulse) : (s.withSyncOut v).stalls = s.stalls := by rfl
@[simp] theorem withSyncOut_chans (v : Pulse) : (s.withSyncOut v).chans = s.chans := by rfl
@[simp] theorem withSyncOut_queues (v : Pulse) : (s.withSyncOut v).queues = s.queues := by rfl
@[simp] theorem withSyncOut_streams (v : Pulse) : (s.withSyncOut v).streams = s.streams := by rfl
@[simp] theorem withSyncOut_mem (v : Pulse) : (s.withSyncOut v).mem = s.mem := by rfl
@[simp] theorem withSyncOut_psn (v : Pulse) : (s.withSyncOut v).psn = s.psn := by rfl
@[simp] theorem withSyncOut_err (v : Pulse) : (s.withSyncOut v).err = s.err := by rfl
@[simp] theorem withSyncOut_inited (v : Pulse) : (s.withSyncOut v).inited = s.inited := by rfl
@[simp] theorem withSyncOut_dram (v : Pulse) : (s.withSyncOut v).dram = s.dram := by rfl
@[simp] theorem withSyncOut_mig (v : Pulse) : (s.withSyncOut v).mig = s.mig := by rfl
@[simp] theorem withSyncOut_tack (v : Pulse) : (s.withSyncOut v).tack = s.tack := by rfl
@[simp] theorem withSyncOut_tims (v : Pulse) : (s.withSyncOut v).tims = s.tims := by rfl
@[simp] theorem withSyncOut_flts (v : Pulse) : (s.withSyncOut v).flts = s.flts := by rfl
@[simp] theorem withSyncOut_alarms (v : Pulse) : (s.withSyncOut v).alarms = s.alarms := by rfl
@[simp] theorem withSyncOut_mgt (v : Pulse) : (s.withSyncOut v).mgt = s.mgt := by rfl
@[simp] theorem withSyncOut_syncOut (v : Pulse) : (s.withSyncOut v).syncOut = v := by rfl

/-! ### withSyncDue -/

@[simp] theorem withSyncDue_pending (v : List Nat) : (s.withSyncDue v).pending = s.pending := by rfl
@[simp] theorem withSyncDue_held (v : List Nat) : (s.withSyncDue v).held = s.held := by rfl
@[simp] theorem withSyncDue_resuming (v : List Nat) : (s.withSyncDue v).resuming = s.resuming := by rfl
@[simp] theorem withSyncDue_out (v : List Nat) : (s.withSyncDue v).out = s.out := by rfl
@[simp] theorem withSyncDue_now (v : List Nat) : (s.withSyncDue v).now = s.now := by rfl
@[simp] theorem withSyncDue_cnt (v : List Nat) : (s.withSyncDue v).cnt = s.cnt := by rfl
@[simp] theorem withSyncDue_freeCtr (v : List Nat) : (s.withSyncDue v).freeCtr = s.freeCtr := by rfl
@[simp] theorem withSyncDue_phase (v : List Nat) : (s.withSyncDue v).phase = s.phase := by rfl
@[simp] theorem withSyncDue_resetAt (v : List Nat) : (s.withSyncDue v).resetAt = s.resetAt := by rfl
@[simp] theorem withSyncDue_regs (v : List Nat) : (s.withSyncDue v).regs = s.regs := by rfl
@[simp] theorem withSyncDue_latch (v : List Nat) : (s.withSyncDue v).latch = s.latch := by rfl
@[simp] theorem withSyncDue_sess (v : List Nat) : (s.withSyncDue v).sess = s.sess := by rfl
@[simp] theorem withSyncDue_owner (v : List Nat) : (s.withSyncDue v).owner = s.owner := by rfl
@[simp] theorem withSyncDue_elect (v : List Nat) : (s.withSyncDue v).elect = s.elect := by rfl
@[simp] theorem withSyncDue_ops (v : List Nat) : (s.withSyncDue v).ops = s.ops := by rfl
@[simp] theorem withSyncDue_reports (v : List Nat) : (s.withSyncDue v).reports = s.reports := by rfl
@[simp] theorem withSyncDue_condOn (v : List Nat) : (s.withSyncDue v).condOn = s.condOn := by rfl
@[simp] theorem withSyncDue_shadows (v : List Nat) : (s.withSyncDue v).shadows = s.shadows := by rfl
@[simp] theorem withSyncDue_rst (v : List Nat) : (s.withSyncDue v).rst = s.rst := by rfl
@[simp] theorem withSyncDue_stalls (v : List Nat) : (s.withSyncDue v).stalls = s.stalls := by rfl
@[simp] theorem withSyncDue_chans (v : List Nat) : (s.withSyncDue v).chans = s.chans := by rfl
@[simp] theorem withSyncDue_queues (v : List Nat) : (s.withSyncDue v).queues = s.queues := by rfl
@[simp] theorem withSyncDue_streams (v : List Nat) : (s.withSyncDue v).streams = s.streams := by rfl
@[simp] theorem withSyncDue_mem (v : List Nat) : (s.withSyncDue v).mem = s.mem := by rfl
@[simp] theorem withSyncDue_psn (v : List Nat) : (s.withSyncDue v).psn = s.psn := by rfl
@[simp] theorem withSyncDue_err (v : List Nat) : (s.withSyncDue v).err = s.err := by rfl
@[simp] theorem withSyncDue_inited (v : List Nat) : (s.withSyncDue v).inited = s.inited := by rfl
@[simp] theorem withSyncDue_dram (v : List Nat) : (s.withSyncDue v).dram = s.dram := by rfl
@[simp] theorem withSyncDue_mig (v : List Nat) : (s.withSyncDue v).mig = s.mig := by rfl
@[simp] theorem withSyncDue_tack (v : List Nat) : (s.withSyncDue v).tack = s.tack := by rfl
@[simp] theorem withSyncDue_tims (v : List Nat) : (s.withSyncDue v).tims = s.tims := by rfl
@[simp] theorem withSyncDue_flts (v : List Nat) : (s.withSyncDue v).flts = s.flts := by rfl
@[simp] theorem withSyncDue_alarms (v : List Nat) : (s.withSyncDue v).alarms = s.alarms := by rfl
@[simp] theorem withSyncDue_mgt (v : List Nat) : (s.withSyncDue v).mgt = s.mgt := by rfl
@[simp] theorem withSyncDue_syncDue (v : List Nat) : (s.withSyncDue v).syncDue = v := by rfl

/-! ### withSyncMs -/

@[simp] theorem withSyncMs_pending (v : List Nat) : (s.withSyncMs v).pending = s.pending := by rfl
@[simp] theorem withSyncMs_held (v : List Nat) : (s.withSyncMs v).held = s.held := by rfl
@[simp] theorem withSyncMs_resuming (v : List Nat) : (s.withSyncMs v).resuming = s.resuming := by rfl
@[simp] theorem withSyncMs_out (v : List Nat) : (s.withSyncMs v).out = s.out := by rfl
@[simp] theorem withSyncMs_now (v : List Nat) : (s.withSyncMs v).now = s.now := by rfl
@[simp] theorem withSyncMs_cnt (v : List Nat) : (s.withSyncMs v).cnt = s.cnt := by rfl
@[simp] theorem withSyncMs_freeCtr (v : List Nat) : (s.withSyncMs v).freeCtr = s.freeCtr := by rfl
@[simp] theorem withSyncMs_phase (v : List Nat) : (s.withSyncMs v).phase = s.phase := by rfl
@[simp] theorem withSyncMs_resetAt (v : List Nat) : (s.withSyncMs v).resetAt = s.resetAt := by rfl
@[simp] theorem withSyncMs_regs (v : List Nat) : (s.withSyncMs v).regs = s.regs := by rfl
@[simp] theorem withSyncMs_latch (v : List Nat) : (s.withSyncMs v).latch = s.latch := by rfl
@[simp] theorem withSyncMs_sess (v : List Nat) : (s.withSyncMs v).sess = s.sess := by rfl
@[simp] theorem withSyncMs_owner (v : List Nat) : (s.withSyncMs v).owner = s.owner := by rfl
@[simp] theorem withSyncMs_elect (v : List Nat) : (s.withSyncMs v).elect = s.elect := by rfl
@[simp] theorem withSyncMs_ops (v : List Nat) : (s.withSyncMs v).ops = s.ops := by rfl
@[simp] theorem withSyncMs_reports (v : List Nat) : (s.withSyncMs v).reports = s.reports := by rfl
@[simp] theorem withSyncMs_condOn (v : List Nat) : (s.withSyncMs v).condOn = s.condOn := by rfl
@[simp] theorem withSyncMs_shadows (v : List Nat) : (s.withSyncMs v).shadows = s.shadows := by rfl
@[simp] theorem withSyncMs_rst (v : List Nat) : (s.withSyncMs v).rst = s.rst := by rfl
@[simp] theorem withSyncMs_stalls (v : List Nat) : (s.withSyncMs v).stalls = s.stalls := by rfl
@[simp] theorem withSyncMs_chans (v : List Nat) : (s.withSyncMs v).chans = s.chans := by rfl
@[simp] theorem withSyncMs_queues (v : List Nat) : (s.withSyncMs v).queues = s.queues := by rfl
@[simp] theorem withSyncMs_streams (v : List Nat) : (s.withSyncMs v).streams = s.streams := by rfl
@[simp] theorem withSyncMs_mem (v : List Nat) : (s.withSyncMs v).mem = s.mem := by rfl
@[simp] theorem withSyncMs_psn (v : List Nat) : (s.withSyncMs v).psn = s.psn := by rfl
@[simp] theorem withSyncMs_err (v : List Nat) : (s.withSyncMs v).err = s.err := by rfl
@[simp] theorem withSyncMs_inited (v : List Nat) : (s.withSyncMs v).inited = s.inited := by rfl
@[simp] theorem withSyncMs_dram (v : List Nat) : (s.withSyncMs v).dram = s.dram := by rfl
@[simp] theorem withSyncMs_mig (v : List Nat) : (s.withSyncMs v).mig = s.mig := by rfl
@[simp] theorem withSyncMs_tack (v : List Nat) : (s.withSyncMs v).tack = s.tack := by rfl
@[simp] theorem withSyncMs_tims (v : List Nat) : (s.withSyncMs v).tims = s.tims := by rfl
@[simp] theorem withSyncMs_flts (v : List Nat) : (s.withSyncMs v).flts = s.flts := by rfl
@[simp] theorem withSyncMs_alarms (v : List Nat) : (s.withSyncMs v).alarms = s.alarms := by rfl
@[simp] theorem withSyncMs_mgt (v : List Nat) : (s.withSyncMs v).mgt = s.mgt := by rfl
@[simp] theorem withSyncMs_syncMs (v : List Nat) : (s.withSyncMs v).syncMs = v := by rfl

/-! ### withSyncFell -/

@[simp] theorem withSyncFell_pending (v : Option Nat) : (s.withSyncFell v).pending = s.pending := by rfl
@[simp] theorem withSyncFell_held (v : Option Nat) : (s.withSyncFell v).held = s.held := by rfl
@[simp] theorem withSyncFell_resuming (v : Option Nat) : (s.withSyncFell v).resuming = s.resuming := by rfl
@[simp] theorem withSyncFell_out (v : Option Nat) : (s.withSyncFell v).out = s.out := by rfl
@[simp] theorem withSyncFell_now (v : Option Nat) : (s.withSyncFell v).now = s.now := by rfl
@[simp] theorem withSyncFell_cnt (v : Option Nat) : (s.withSyncFell v).cnt = s.cnt := by rfl
@[simp] theorem withSyncFell_freeCtr (v : Option Nat) : (s.withSyncFell v).freeCtr = s.freeCtr := by rfl
@[simp] theorem withSyncFell_phase (v : Option Nat) : (s.withSyncFell v).phase = s.phase := by rfl
@[simp] theorem withSyncFell_resetAt (v : Option Nat) : (s.withSyncFell v).resetAt = s.resetAt := by rfl
@[simp] theorem withSyncFell_regs (v : Option Nat) : (s.withSyncFell v).regs = s.regs := by rfl
@[simp] theorem withSyncFell_latch (v : Option Nat) : (s.withSyncFell v).latch = s.latch := by rfl
@[simp] theorem withSyncFell_sess (v : Option Nat) : (s.withSyncFell v).sess = s.sess := by rfl
@[simp] theorem withSyncFell_owner (v : Option Nat) : (s.withSyncFell v).owner = s.owner := by rfl
@[simp] theorem withSyncFell_elect (v : Option Nat) : (s.withSyncFell v).elect = s.elect := by rfl
@[simp] theorem withSyncFell_ops (v : Option Nat) : (s.withSyncFell v).ops = s.ops := by rfl
@[simp] theorem withSyncFell_reports (v : Option Nat) : (s.withSyncFell v).reports = s.reports := by rfl
@[simp] theorem withSyncFell_condOn (v : Option Nat) : (s.withSyncFell v).condOn = s.condOn := by rfl
@[simp] theorem withSyncFell_shadows (v : Option Nat) : (s.withSyncFell v).shadows = s.shadows := by rfl
@[simp] theorem withSyncFell_rst (v : Option Nat) : (s.withSyncFell v).rst = s.rst := by rfl
@[simp] theorem withSyncFell_stalls (v : Option Nat) : (s.withSyncFell v).stalls = s.stalls := by rfl
@[simp] theorem withSyncFell_chans (v : Option Nat) : (s.withSyncFell v).chans = s.chans := by rfl
@[simp] theorem withSyncFell_queues (v : Option Nat) : (s.withSyncFell v).queues = s.queues := by rfl
@[simp] theorem withSyncFell_streams (v : Option Nat) : (s.withSyncFell v).streams = s.streams := by rfl
@[simp] theorem withSyncFell_mem (v : Option Nat) : (s.withSyncFell v).mem = s.mem := by rfl
@[simp] theorem withSyncFell_psn (v : Option Nat) : (s.withSyncFell v).psn = s.psn := by rfl
@[simp] theorem withSyncFell_err (v : Option Nat) : (s.withSyncFell v).err = s.err := by rfl
@[simp] theorem withSyncFell_inited (v : Option Nat) : (s.withSyncFell v).inited = s.inited := by rfl
@[simp] theorem withSyncFell_dram (v : Option Nat) : (s.withSyncFell v).dram = s.dram := by rfl
@[simp] theorem withSyncFell_mig (v : Option Nat) : (s.withSyncFell v).mig = s.mig := by rfl
@[simp] theorem withSyncFell_tack (v : Option Nat) : (s.withSyncFell v).tack = s.tack := by rfl
@[simp] theorem withSyncFell_tims (v : Option Nat) : (s.withSyncFell v).tims = s.tims := by rfl
@[simp] theorem withSyncFell_flts (v : Option Nat) : (s.withSyncFell v).flts = s.flts := by rfl
@[simp] theorem withSyncFell_alarms (v : Option Nat) : (s.withSyncFell v).alarms = s.alarms := by rfl
@[simp] theorem withSyncFell_mgt (v : Option Nat) : (s.withSyncFell v).mgt = s.mgt := by rfl
@[simp] theorem withSyncFell_syncFell (v : Option Nat) : (s.withSyncFell v).syncFell = v := by rfl

/-! ### withSyncFrom -/

@[simp] theorem withSyncFrom_pending (v : Nat) : (s.withSyncFrom v).pending = s.pending := by rfl
@[simp] theorem withSyncFrom_held (v : Nat) : (s.withSyncFrom v).held = s.held := by rfl
@[simp] theorem withSyncFrom_resuming (v : Nat) : (s.withSyncFrom v).resuming = s.resuming := by rfl
@[simp] theorem withSyncFrom_out (v : Nat) : (s.withSyncFrom v).out = s.out := by rfl
@[simp] theorem withSyncFrom_now (v : Nat) : (s.withSyncFrom v).now = s.now := by rfl
@[simp] theorem withSyncFrom_cnt (v : Nat) : (s.withSyncFrom v).cnt = s.cnt := by rfl
@[simp] theorem withSyncFrom_freeCtr (v : Nat) : (s.withSyncFrom v).freeCtr = s.freeCtr := by rfl
@[simp] theorem withSyncFrom_phase (v : Nat) : (s.withSyncFrom v).phase = s.phase := by rfl
@[simp] theorem withSyncFrom_resetAt (v : Nat) : (s.withSyncFrom v).resetAt = s.resetAt := by rfl
@[simp] theorem withSyncFrom_regs (v : Nat) : (s.withSyncFrom v).regs = s.regs := by rfl
@[simp] theorem withSyncFrom_latch (v : Nat) : (s.withSyncFrom v).latch = s.latch := by rfl
@[simp] theorem withSyncFrom_sess (v : Nat) : (s.withSyncFrom v).sess = s.sess := by rfl
@[simp] theorem withSyncFrom_owner (v : Nat) : (s.withSyncFrom v).owner = s.owner := by rfl
@[simp] theorem withSyncFrom_elect (v : Nat) : (s.withSyncFrom v).elect = s.elect := by rfl
@[simp] theorem withSyncFrom_ops (v : Nat) : (s.withSyncFrom v).ops = s.ops := by rfl
@[simp] theorem withSyncFrom_reports (v : Nat) : (s.withSyncFrom v).reports = s.reports := by rfl
@[simp] theorem withSyncFrom_condOn (v : Nat) : (s.withSyncFrom v).condOn = s.condOn := by rfl
@[simp] theorem withSyncFrom_shadows (v : Nat) : (s.withSyncFrom v).shadows = s.shadows := by rfl
@[simp] theorem withSyncFrom_rst (v : Nat) : (s.withSyncFrom v).rst = s.rst := by rfl
@[simp] theorem withSyncFrom_stalls (v : Nat) : (s.withSyncFrom v).stalls = s.stalls := by rfl
@[simp] theorem withSyncFrom_chans (v : Nat) : (s.withSyncFrom v).chans = s.chans := by rfl
@[simp] theorem withSyncFrom_queues (v : Nat) : (s.withSyncFrom v).queues = s.queues := by rfl
@[simp] theorem withSyncFrom_streams (v : Nat) : (s.withSyncFrom v).streams = s.streams := by rfl
@[simp] theorem withSyncFrom_mem (v : Nat) : (s.withSyncFrom v).mem = s.mem := by rfl
@[simp] theorem withSyncFrom_psn (v : Nat) : (s.withSyncFrom v).psn = s.psn := by rfl
@[simp] theorem withSyncFrom_err (v : Nat) : (s.withSyncFrom v).err = s.err := by rfl
@[simp] theorem withSyncFrom_inited (v : Nat) : (s.withSyncFrom v).inited = s.inited := by rfl
@[simp] theorem withSyncFrom_dram (v : Nat) : (s.withSyncFrom v).dram = s.dram := by rfl
@[simp] theorem withSyncFrom_mig (v : Nat) : (s.withSyncFrom v).mig = s.mig := by rfl
@[simp] theorem withSyncFrom_tack (v : Nat) : (s.withSyncFrom v).tack = s.tack := by rfl
@[simp] theorem withSyncFrom_tims (v : Nat) : (s.withSyncFrom v).tims = s.tims := by rfl
@[simp] theorem withSyncFrom_flts (v : Nat) : (s.withSyncFrom v).flts = s.flts := by rfl
@[simp] theorem withSyncFrom_alarms (v : Nat) : (s.withSyncFrom v).alarms = s.alarms := by rfl
@[simp] theorem withSyncFrom_mgt (v : Nat) : (s.withSyncFrom v).mgt = s.mgt := by rfl
@[simp] theorem withSyncFrom_syncFrom (v : Nat) : (s.withSyncFrom v).syncFrom = v := by rfl

/-! ### withSyncLast -/

@[simp] theorem withSyncLast_pending (v : Option (Nat × Bool)) : (s.withSyncLast v).pending = s.pending := by rfl
@[simp] theorem withSyncLast_held (v : Option (Nat × Bool)) : (s.withSyncLast v).held = s.held := by rfl
@[simp] theorem withSyncLast_resuming (v : Option (Nat × Bool)) : (s.withSyncLast v).resuming = s.resuming := by rfl
@[simp] theorem withSyncLast_out (v : Option (Nat × Bool)) : (s.withSyncLast v).out = s.out := by rfl
@[simp] theorem withSyncLast_now (v : Option (Nat × Bool)) : (s.withSyncLast v).now = s.now := by rfl
@[simp] theorem withSyncLast_cnt (v : Option (Nat × Bool)) : (s.withSyncLast v).cnt = s.cnt := by rfl
@[simp] theorem withSyncLast_freeCtr (v : Option (Nat × Bool)) : (s.withSyncLast v).freeCtr = s.freeCtr := by rfl
@[simp] theorem withSyncLast_phase (v : Option (Nat × Bool)) : (s.withSyncLast v).phase = s.phase := by rfl
@[simp] theorem withSyncLast_resetAt (v : Option (Nat × Bool)) : (s.withSyncLast v).resetAt = s.resetAt := by rfl
@[simp] theorem withSyncLast_regs (v : Option (Nat × Bool)) : (s.withSyncLast v).regs = s.regs := by rfl
@[simp] theorem withSyncLast_latch (v : Option (Nat × Bool)) : (s.withSyncLast v).latch = s.latch := by rfl
@[simp] theorem withSyncLast_sess (v : Option (Nat × Bool)) : (s.withSyncLast v).sess = s.sess := by rfl
@[simp] theorem withSyncLast_owner (v : Option (Nat × Bool)) : (s.withSyncLast v).owner = s.owner := by rfl
@[simp] theorem withSyncLast_elect (v : Option (Nat × Bool)) : (s.withSyncLast v).elect = s.elect := by rfl
@[simp] theorem withSyncLast_ops (v : Option (Nat × Bool)) : (s.withSyncLast v).ops = s.ops := by rfl
@[simp] theorem withSyncLast_reports (v : Option (Nat × Bool)) : (s.withSyncLast v).reports = s.reports := by rfl
@[simp] theorem withSyncLast_condOn (v : Option (Nat × Bool)) : (s.withSyncLast v).condOn = s.condOn := by rfl
@[simp] theorem withSyncLast_shadows (v : Option (Nat × Bool)) : (s.withSyncLast v).shadows = s.shadows := by rfl
@[simp] theorem withSyncLast_rst (v : Option (Nat × Bool)) : (s.withSyncLast v).rst = s.rst := by rfl
@[simp] theorem withSyncLast_stalls (v : Option (Nat × Bool)) : (s.withSyncLast v).stalls = s.stalls := by rfl
@[simp] theorem withSyncLast_chans (v : Option (Nat × Bool)) : (s.withSyncLast v).chans = s.chans := by rfl
@[simp] theorem withSyncLast_queues (v : Option (Nat × Bool)) : (s.withSyncLast v).queues = s.queues := by rfl
@[simp] theorem withSyncLast_streams (v : Option (Nat × Bool)) : (s.withSyncLast v).streams = s.streams := by rfl
@[simp] theorem withSyncLast_mem (v : Option (Nat × Bool)) : (s.withSyncLast v).mem = s.mem := by rfl
@[simp] theorem withSyncLast_psn (v : Option (Nat × Bool)) : (s.withSyncLast v).psn = s.psn := by rfl
@[simp] theorem withSyncLast_err (v : Option (Nat × Bool)) : (s.withSyncLast v).err = s.err := by rfl
@[simp] theorem withSyncLast_inited (v : Option (Nat × Bool)) : (s.withSyncLast v).inited = s.inited := by rfl
@[simp] theorem withSyncLast_dram (v : Option (Nat × Bool)) : (s.withSyncLast v).dram = s.dram := by rfl
@[simp] theorem withSyncLast_mig (v : Option (Nat × Bool)) : (s.withSyncLast v).mig = s.mig := by rfl
@[simp] theorem withSyncLast_tack (v : Option (Nat × Bool)) : (s.withSyncLast v).tack = s.tack := by rfl
@[simp] theorem withSyncLast_tims (v : Option (Nat × Bool)) : (s.withSyncLast v).tims = s.tims := by rfl
@[simp] theorem withSyncLast_flts (v : Option (Nat × Bool)) : (s.withSyncLast v).flts = s.flts := by rfl
@[simp] theorem withSyncLast_alarms (v : Option (Nat × Bool)) : (s.withSyncLast v).alarms = s.alarms := by rfl
@[simp] theorem withSyncLast_mgt (v : Option (Nat × Bool)) : (s.withSyncLast v).mgt = s.mgt := by rfl
@[simp] theorem withSyncLast_syncLast (v : Option (Nat × Bool)) : (s.withSyncLast v).syncLast = v := by rfl

/-! ### withTap -/

@[simp] theorem withTap_pending (v : Tap) : (s.withTap v).pending = s.pending := by rfl
@[simp] theorem withTap_held (v : Tap) : (s.withTap v).held = s.held := by rfl
@[simp] theorem withTap_resuming (v : Tap) : (s.withTap v).resuming = s.resuming := by rfl
@[simp] theorem withTap_out (v : Tap) : (s.withTap v).out = s.out := by rfl
@[simp] theorem withTap_now (v : Tap) : (s.withTap v).now = s.now := by rfl
@[simp] theorem withTap_cnt (v : Tap) : (s.withTap v).cnt = s.cnt := by rfl
@[simp] theorem withTap_freeCtr (v : Tap) : (s.withTap v).freeCtr = s.freeCtr := by rfl
@[simp] theorem withTap_phase (v : Tap) : (s.withTap v).phase = s.phase := by rfl
@[simp] theorem withTap_resetAt (v : Tap) : (s.withTap v).resetAt = s.resetAt := by rfl
@[simp] theorem withTap_regs (v : Tap) : (s.withTap v).regs = s.regs := by rfl
@[simp] theorem withTap_latch (v : Tap) : (s.withTap v).latch = s.latch := by rfl
@[simp] theorem withTap_sess (v : Tap) : (s.withTap v).sess = s.sess := by rfl
@[simp] theorem withTap_owner (v : Tap) : (s.withTap v).owner = s.owner := by rfl
@[simp] theorem withTap_elect (v : Tap) : (s.withTap v).elect = s.elect := by rfl
@[simp] theorem withTap_ops (v : Tap) : (s.withTap v).ops = s.ops := by rfl
@[simp] theorem withTap_reports (v : Tap) : (s.withTap v).reports = s.reports := by rfl
@[simp] theorem withTap_condOn (v : Tap) : (s.withTap v).condOn = s.condOn := by rfl
@[simp] theorem withTap_shadows (v : Tap) : (s.withTap v).shadows = s.shadows := by rfl
@[simp] theorem withTap_rst (v : Tap) : (s.withTap v).rst = s.rst := by rfl
@[simp] theorem withTap_stalls (v : Tap) : (s.withTap v).stalls = s.stalls := by rfl
@[simp] theorem withTap_chans (v : Tap) : (s.withTap v).chans = s.chans := by rfl
@[simp] theorem withTap_queues (v : Tap) : (s.withTap v).queues = s.queues := by rfl
@[simp] theorem withTap_streams (v : Tap) : (s.withTap v).streams = s.streams := by rfl
@[simp] theorem withTap_mem (v : Tap) : (s.withTap v).mem = s.mem := by rfl
@[simp] theorem withTap_psn (v : Tap) : (s.withTap v).psn = s.psn := by rfl
@[simp] theorem withTap_err (v : Tap) : (s.withTap v).err = s.err := by rfl
@[simp] theorem withTap_inited (v : Tap) : (s.withTap v).inited = s.inited := by rfl
@[simp] theorem withTap_dram (v : Tap) : (s.withTap v).dram = s.dram := by rfl
@[simp] theorem withTap_mig (v : Tap) : (s.withTap v).mig = s.mig := by rfl
@[simp] theorem withTap_tack (v : Tap) : (s.withTap v).tack = s.tack := by rfl
@[simp] theorem withTap_tims (v : Tap) : (s.withTap v).tims = s.tims := by rfl
@[simp] theorem withTap_flts (v : Tap) : (s.withTap v).flts = s.flts := by rfl
@[simp] theorem withTap_alarms (v : Tap) : (s.withTap v).alarms = s.alarms := by rfl
@[simp] theorem withTap_mgt (v : Tap) : (s.withTap v).mgt = s.mgt := by rfl
@[simp] theorem withTap_tap (v : Tap) : (s.withTap v).tap = v := by rfl

/-! ### withWrstLow -/

@[simp] theorem withWrstLow_pending (v : Bool) : (s.withWrstLow v).pending = s.pending := by rfl
@[simp] theorem withWrstLow_held (v : Bool) : (s.withWrstLow v).held = s.held := by rfl
@[simp] theorem withWrstLow_resuming (v : Bool) : (s.withWrstLow v).resuming = s.resuming := by rfl
@[simp] theorem withWrstLow_out (v : Bool) : (s.withWrstLow v).out = s.out := by rfl
@[simp] theorem withWrstLow_now (v : Bool) : (s.withWrstLow v).now = s.now := by rfl
@[simp] theorem withWrstLow_cnt (v : Bool) : (s.withWrstLow v).cnt = s.cnt := by rfl
@[simp] theorem withWrstLow_freeCtr (v : Bool) : (s.withWrstLow v).freeCtr = s.freeCtr := by rfl
@[simp] theorem withWrstLow_phase (v : Bool) : (s.withWrstLow v).phase = s.phase := by rfl
@[simp] theorem withWrstLow_resetAt (v : Bool) : (s.withWrstLow v).resetAt = s.resetAt := by rfl
@[simp] theorem withWrstLow_regs (v : Bool) : (s.withWrstLow v).regs = s.regs := by rfl
@[simp] theorem withWrstLow_latch (v : Bool) : (s.withWrstLow v).latch = s.latch := by rfl
@[simp] theorem withWrstLow_sess (v : Bool) : (s.withWrstLow v).sess = s.sess := by rfl
@[simp] theorem withWrstLow_owner (v : Bool) : (s.withWrstLow v).owner = s.owner := by rfl
@[simp] theorem withWrstLow_elect (v : Bool) : (s.withWrstLow v).elect = s.elect := by rfl
@[simp] theorem withWrstLow_ops (v : Bool) : (s.withWrstLow v).ops = s.ops := by rfl
@[simp] theorem withWrstLow_reports (v : Bool) : (s.withWrstLow v).reports = s.reports := by rfl
@[simp] theorem withWrstLow_condOn (v : Bool) : (s.withWrstLow v).condOn = s.condOn := by rfl
@[simp] theorem withWrstLow_shadows (v : Bool) : (s.withWrstLow v).shadows = s.shadows := by rfl
@[simp] theorem withWrstLow_rst (v : Bool) : (s.withWrstLow v).rst = s.rst := by rfl
@[simp] theorem withWrstLow_stalls (v : Bool) : (s.withWrstLow v).stalls = s.stalls := by rfl
@[simp] theorem withWrstLow_chans (v : Bool) : (s.withWrstLow v).chans = s.chans := by rfl
@[simp] theorem withWrstLow_queues (v : Bool) : (s.withWrstLow v).queues = s.queues := by rfl
@[simp] theorem withWrstLow_streams (v : Bool) : (s.withWrstLow v).streams = s.streams := by rfl
@[simp] theorem withWrstLow_mem (v : Bool) : (s.withWrstLow v).mem = s.mem := by rfl
@[simp] theorem withWrstLow_psn (v : Bool) : (s.withWrstLow v).psn = s.psn := by rfl
@[simp] theorem withWrstLow_err (v : Bool) : (s.withWrstLow v).err = s.err := by rfl
@[simp] theorem withWrstLow_inited (v : Bool) : (s.withWrstLow v).inited = s.inited := by rfl
@[simp] theorem withWrstLow_dram (v : Bool) : (s.withWrstLow v).dram = s.dram := by rfl
@[simp] theorem withWrstLow_mig (v : Bool) : (s.withWrstLow v).mig = s.mig := by rfl
@[simp] theorem withWrstLow_tack (v : Bool) : (s.withWrstLow v).tack = s.tack := by rfl
@[simp] theorem withWrstLow_tims (v : Bool) : (s.withWrstLow v).tims = s.tims := by rfl
@[simp] theorem withWrstLow_flts (v : Bool) : (s.withWrstLow v).flts = s.flts := by rfl
@[simp] theorem withWrstLow_alarms (v : Bool) : (s.withWrstLow v).alarms = s.alarms := by rfl
@[simp] theorem withWrstLow_mgt (v : Bool) : (s.withWrstLow v).mgt = s.mgt := by rfl
@[simp] theorem withWrstLow_wrstLow (v : Bool) : (s.withWrstLow v).wrstLow = v := by rfl

/-! ### withFwWritten -/

@[simp] theorem withFwWritten_pending (v : BitVec 2) : (s.withFwWritten v).pending = s.pending := by rfl
@[simp] theorem withFwWritten_held (v : BitVec 2) : (s.withFwWritten v).held = s.held := by rfl
@[simp] theorem withFwWritten_resuming (v : BitVec 2) : (s.withFwWritten v).resuming = s.resuming := by rfl
@[simp] theorem withFwWritten_out (v : BitVec 2) : (s.withFwWritten v).out = s.out := by rfl
@[simp] theorem withFwWritten_now (v : BitVec 2) : (s.withFwWritten v).now = s.now := by rfl
@[simp] theorem withFwWritten_cnt (v : BitVec 2) : (s.withFwWritten v).cnt = s.cnt := by rfl
@[simp] theorem withFwWritten_freeCtr (v : BitVec 2) : (s.withFwWritten v).freeCtr = s.freeCtr := by rfl
@[simp] theorem withFwWritten_phase (v : BitVec 2) : (s.withFwWritten v).phase = s.phase := by rfl
@[simp] theorem withFwWritten_resetAt (v : BitVec 2) : (s.withFwWritten v).resetAt = s.resetAt := by rfl
@[simp] theorem withFwWritten_regs (v : BitVec 2) : (s.withFwWritten v).regs = s.regs := by rfl
@[simp] theorem withFwWritten_latch (v : BitVec 2) : (s.withFwWritten v).latch = s.latch := by rfl
@[simp] theorem withFwWritten_sess (v : BitVec 2) : (s.withFwWritten v).sess = s.sess := by rfl
@[simp] theorem withFwWritten_owner (v : BitVec 2) : (s.withFwWritten v).owner = s.owner := by rfl
@[simp] theorem withFwWritten_elect (v : BitVec 2) : (s.withFwWritten v).elect = s.elect := by rfl
@[simp] theorem withFwWritten_ops (v : BitVec 2) : (s.withFwWritten v).ops = s.ops := by rfl
@[simp] theorem withFwWritten_reports (v : BitVec 2) : (s.withFwWritten v).reports = s.reports := by rfl
@[simp] theorem withFwWritten_condOn (v : BitVec 2) : (s.withFwWritten v).condOn = s.condOn := by rfl
@[simp] theorem withFwWritten_shadows (v : BitVec 2) : (s.withFwWritten v).shadows = s.shadows := by rfl
@[simp] theorem withFwWritten_rst (v : BitVec 2) : (s.withFwWritten v).rst = s.rst := by rfl
@[simp] theorem withFwWritten_stalls (v : BitVec 2) : (s.withFwWritten v).stalls = s.stalls := by rfl
@[simp] theorem withFwWritten_chans (v : BitVec 2) : (s.withFwWritten v).chans = s.chans := by rfl
@[simp] theorem withFwWritten_queues (v : BitVec 2) : (s.withFwWritten v).queues = s.queues := by rfl
@[simp] theorem withFwWritten_streams (v : BitVec 2) : (s.withFwWritten v).streams = s.streams := by rfl
@[simp] theorem withFwWritten_mem (v : BitVec 2) : (s.withFwWritten v).mem = s.mem := by rfl
@[simp] theorem withFwWritten_psn (v : BitVec 2) : (s.withFwWritten v).psn = s.psn := by rfl
@[simp] theorem withFwWritten_err (v : BitVec 2) : (s.withFwWritten v).err = s.err := by rfl
@[simp] theorem withFwWritten_inited (v : BitVec 2) : (s.withFwWritten v).inited = s.inited := by rfl
@[simp] theorem withFwWritten_dram (v : BitVec 2) : (s.withFwWritten v).dram = s.dram := by rfl
@[simp] theorem withFwWritten_mig (v : BitVec 2) : (s.withFwWritten v).mig = s.mig := by rfl
@[simp] theorem withFwWritten_tack (v : BitVec 2) : (s.withFwWritten v).tack = s.tack := by rfl
@[simp] theorem withFwWritten_tims (v : BitVec 2) : (s.withFwWritten v).tims = s.tims := by rfl
@[simp] theorem withFwWritten_flts (v : BitVec 2) : (s.withFwWritten v).flts = s.flts := by rfl
@[simp] theorem withFwWritten_alarms (v : BitVec 2) : (s.withFwWritten v).alarms = s.alarms := by rfl
@[simp] theorem withFwWritten_mgt (v : BitVec 2) : (s.withFwWritten v).mgt = s.mgt := by rfl
@[simp] theorem withFwWritten_fwWritten (v : BitVec 2) : (s.withFwWritten v).fwWritten = v := by rfl

end Sys2Proof.Machine
end

