-- ==== Sys2Proof/Laws/State.lean ====
section
/-! SUPPORT. The state's fields after each update: one lemma per field and update for the fields that claims speak of, and
what an accessor of an indexed part reads after its setter. -/

namespace Sys2Proof.Machine

variable (s : State)

/-! ### setStall -/

@[simp] theorem setStall_pending (k : Nat) (v : Stall) : (s.setStall k v).pending = s.pending := by rfl
@[simp] theorem setStall_held (k : Nat) (v : Stall) : (s.setStall k v).held = s.held := by rfl
@[simp] theorem setStall_resuming (k : Nat) (v : Stall) : (s.setStall k v).resuming = s.resuming := by rfl
@[simp] theorem setStall_out (k : Nat) (v : Stall) : (s.setStall k v).out = s.out := by rfl
@[simp] theorem setStall_now (k : Nat) (v : Stall) : (s.setStall k v).now = s.now := by rfl
@[simp] theorem setStall_cnt (k : Nat) (v : Stall) : (s.setStall k v).cnt = s.cnt := by rfl
@[simp] theorem setStall_freeCtr (k : Nat) (v : Stall) : (s.setStall k v).freeCtr = s.freeCtr := by rfl
@[simp] theorem setStall_phase (k : Nat) (v : Stall) : (s.setStall k v).phase = s.phase := by rfl
@[simp] theorem setStall_regs (k : Nat) (v : Stall) : (s.setStall k v).regs = s.regs := by rfl
@[simp] theorem setStall_latch (k : Nat) (v : Stall) : (s.setStall k v).latch = s.latch := by rfl
@[simp] theorem setStall_sess (k : Nat) (v : Stall) : (s.setStall k v).sess = s.sess := by rfl
@[simp] theorem setStall_owner (k : Nat) (v : Stall) : (s.setStall k v).owner = s.owner := by rfl
@[simp] theorem setStall_elect (k : Nat) (v : Stall) : (s.setStall k v).elect = s.elect := by rfl
@[simp] theorem setStall_ops (k : Nat) (v : Stall) : (s.setStall k v).ops = s.ops := by rfl
@[simp] theorem setStall_reports (k : Nat) (v : Stall) : (s.setStall k v).reports = s.reports := by rfl
@[simp] theorem setStall_shadows (k : Nat) (v : Stall) : (s.setStall k v).shadows = s.shadows := by rfl
@[simp] theorem setStall_chans (k : Nat) (v : Stall) : (s.setStall k v).chans = s.chans := by rfl
@[simp] theorem setStall_queues (k : Nat) (v : Stall) : (s.setStall k v).queues = s.queues := by rfl
@[simp] theorem setStall_streams (k : Nat) (v : Stall) : (s.setStall k v).streams = s.streams := by rfl
@[simp] theorem setStall_mem (k : Nat) (v : Stall) : (s.setStall k v).mem = s.mem := by rfl
@[simp] theorem setStall_psn (k : Nat) (v : Stall) : (s.setStall k v).psn = s.psn := by rfl
@[simp] theorem setStall_err (k : Nat) (v : Stall) : (s.setStall k v).err = s.err := by rfl
@[simp] theorem setStall_inited (k : Nat) (v : Stall) : (s.setStall k v).inited = s.inited := by rfl
@[simp] theorem setStall_dram (k : Nat) (v : Stall) : (s.setStall k v).dram = s.dram := by rfl
@[simp] theorem setStall_tack (k : Nat) (v : Stall) : (s.setStall k v).tack = s.tack := by rfl
@[simp] theorem setStall_resetAt (k : Nat) (v : Stall) : (s.setStall k v).resetAt = s.resetAt := by rfl
@[simp] theorem setStall_rst (k : Nat) (v : Stall) : (s.setStall k v).rst = s.rst := by rfl
@[simp] theorem setStall_mig (k : Nat) (v : Stall) : (s.setStall k v).mig = s.mig := by rfl
@[simp] theorem setStall_mgt (k : Nat) (v : Stall) : (s.setStall k v).mgt = s.mgt := by rfl

/-! ### setChan -/

@[simp] theorem setChan_pending (k : Nat) (v : Chan) : (s.setChan k v).pending = s.pending := by rfl
@[simp] theorem setChan_held (k : Nat) (v : Chan) : (s.setChan k v).held = s.held := by rfl
@[simp] theorem setChan_resuming (k : Nat) (v : Chan) : (s.setChan k v).resuming = s.resuming := by rfl
@[simp] theorem setChan_out (k : Nat) (v : Chan) : (s.setChan k v).out = s.out := by rfl
@[simp] theorem setChan_now (k : Nat) (v : Chan) : (s.setChan k v).now = s.now := by rfl
@[simp] theorem setChan_cnt (k : Nat) (v : Chan) : (s.setChan k v).cnt = s.cnt := by rfl
@[simp] theorem setChan_freeCtr (k : Nat) (v : Chan) : (s.setChan k v).freeCtr = s.freeCtr := by rfl
@[simp] theorem setChan_phase (k : Nat) (v : Chan) : (s.setChan k v).phase = s.phase := by rfl
@[simp] theorem setChan_regs (k : Nat) (v : Chan) : (s.setChan k v).regs = s.regs := by rfl
@[simp] theorem setChan_latch (k : Nat) (v : Chan) : (s.setChan k v).latch = s.latch := by rfl
@[simp] theorem setChan_sess (k : Nat) (v : Chan) : (s.setChan k v).sess = s.sess := by rfl
@[simp] theorem setChan_owner (k : Nat) (v : Chan) : (s.setChan k v).owner = s.owner := by rfl
@[simp] theorem setChan_elect (k : Nat) (v : Chan) : (s.setChan k v).elect = s.elect := by rfl
@[simp] theorem setChan_ops (k : Nat) (v : Chan) : (s.setChan k v).ops = s.ops := by rfl
@[simp] theorem setChan_reports (k : Nat) (v : Chan) : (s.setChan k v).reports = s.reports := by rfl
@[simp] theorem setChan_shadows (k : Nat) (v : Chan) : (s.setChan k v).shadows = s.shadows := by rfl
@[simp] theorem setChan_stalls (k : Nat) (v : Chan) : (s.setChan k v).stalls = s.stalls := by rfl
@[simp] theorem setChan_queues (k : Nat) (v : Chan) : (s.setChan k v).queues = s.queues := by rfl
@[simp] theorem setChan_streams (k : Nat) (v : Chan) : (s.setChan k v).streams = s.streams := by rfl
@[simp] theorem setChan_mem (k : Nat) (v : Chan) : (s.setChan k v).mem = s.mem := by rfl
@[simp] theorem setChan_psn (k : Nat) (v : Chan) : (s.setChan k v).psn = s.psn := by rfl
@[simp] theorem setChan_err (k : Nat) (v : Chan) : (s.setChan k v).err = s.err := by rfl
@[simp] theorem setChan_inited (k : Nat) (v : Chan) : (s.setChan k v).inited = s.inited := by rfl
@[simp] theorem setChan_dram (k : Nat) (v : Chan) : (s.setChan k v).dram = s.dram := by rfl
@[simp] theorem setChan_tack (k : Nat) (v : Chan) : (s.setChan k v).tack = s.tack := by rfl
@[simp] theorem setChan_resetAt (k : Nat) (v : Chan) : (s.setChan k v).resetAt = s.resetAt := by rfl
@[simp] theorem setChan_rst (k : Nat) (v : Chan) : (s.setChan k v).rst = s.rst := by rfl
@[simp] theorem setChan_mig (k : Nat) (v : Chan) : (s.setChan k v).mig = s.mig := by rfl
@[simp] theorem setChan_mgt (k : Nat) (v : Chan) : (s.setChan k v).mgt = s.mgt := by rfl

/-! ### setFramer -/

@[simp] theorem setFramer_pending (k : Nat) (v : Framer) : (s.setFramer k v).pending = s.pending := by rfl
@[simp] theorem setFramer_held (k : Nat) (v : Framer) : (s.setFramer k v).held = s.held := by rfl
@[simp] theorem setFramer_resuming (k : Nat) (v : Framer) : (s.setFramer k v).resuming = s.resuming := by rfl
@[simp] theorem setFramer_out (k : Nat) (v : Framer) : (s.setFramer k v).out = s.out := by rfl
@[simp] theorem setFramer_now (k : Nat) (v : Framer) : (s.setFramer k v).now = s.now := by rfl
@[simp] theorem setFramer_cnt (k : Nat) (v : Framer) : (s.setFramer k v).cnt = s.cnt := by rfl
@[simp] theorem setFramer_freeCtr (k : Nat) (v : Framer) : (s.setFramer k v).freeCtr = s.freeCtr := by rfl
@[simp] theorem setFramer_phase (k : Nat) (v : Framer) : (s.setFramer k v).phase = s.phase := by rfl
@[simp] theorem setFramer_regs (k : Nat) (v : Framer) : (s.setFramer k v).regs = s.regs := by rfl
@[simp] theorem setFramer_latch (k : Nat) (v : Framer) : (s.setFramer k v).latch = s.latch := by rfl
@[simp] theorem setFramer_sess (k : Nat) (v : Framer) : (s.setFramer k v).sess = s.sess := by rfl
@[simp] theorem setFramer_owner (k : Nat) (v : Framer) : (s.setFramer k v).owner = s.owner := by rfl
@[simp] theorem setFramer_elect (k : Nat) (v : Framer) : (s.setFramer k v).elect = s.elect := by rfl
@[simp] theorem setFramer_ops (k : Nat) (v : Framer) : (s.setFramer k v).ops = s.ops := by rfl
@[simp] theorem setFramer_reports (k : Nat) (v : Framer) : (s.setFramer k v).reports = s.reports := by rfl
@[simp] theorem setFramer_shadows (k : Nat) (v : Framer) : (s.setFramer k v).shadows = s.shadows := by rfl
@[simp] theorem setFramer_stalls (k : Nat) (v : Framer) : (s.setFramer k v).stalls = s.stalls := by rfl
@[simp] theorem setFramer_chans (k : Nat) (v : Framer) : (s.setFramer k v).chans = s.chans := by rfl
@[simp] theorem setFramer_queues (k : Nat) (v : Framer) : (s.setFramer k v).queues = s.queues := by rfl
@[simp] theorem setFramer_streams (k : Nat) (v : Framer) : (s.setFramer k v).streams = s.streams := by rfl
@[simp] theorem setFramer_mem (k : Nat) (v : Framer) : (s.setFramer k v).mem = s.mem := by rfl
@[simp] theorem setFramer_psn (k : Nat) (v : Framer) : (s.setFramer k v).psn = s.psn := by rfl
@[simp] theorem setFramer_err (k : Nat) (v : Framer) : (s.setFramer k v).err = s.err := by rfl
@[simp] theorem setFramer_inited (k : Nat) (v : Framer) : (s.setFramer k v).inited = s.inited := by rfl
@[simp] theorem setFramer_dram (k : Nat) (v : Framer) : (s.setFramer k v).dram = s.dram := by rfl
@[simp] theorem setFramer_tack (k : Nat) (v : Framer) : (s.setFramer k v).tack = s.tack := by rfl
@[simp] theorem setFramer_resetAt (k : Nat) (v : Framer) : (s.setFramer k v).resetAt = s.resetAt := by rfl
@[simp] theorem setFramer_rst (k : Nat) (v : Framer) : (s.setFramer k v).rst = s.rst := by rfl
@[simp] theorem setFramer_mig (k : Nat) (v : Framer) : (s.setFramer k v).mig = s.mig := by rfl
@[simp] theorem setFramer_mgt (k : Nat) (v : Framer) : (s.setFramer k v).mgt = s.mgt := by rfl

/-! ### setQueue -/

@[simp] theorem setQueue_pending (k : Nat) (v : QState) : (s.setQueue k v).pending = s.pending := by rfl
@[simp] theorem setQueue_held (k : Nat) (v : QState) : (s.setQueue k v).held = s.held := by rfl
@[simp] theorem setQueue_resuming (k : Nat) (v : QState) : (s.setQueue k v).resuming = s.resuming := by rfl
@[simp] theorem setQueue_out (k : Nat) (v : QState) : (s.setQueue k v).out = s.out := by rfl
@[simp] theorem setQueue_now (k : Nat) (v : QState) : (s.setQueue k v).now = s.now := by rfl
@[simp] theorem setQueue_cnt (k : Nat) (v : QState) : (s.setQueue k v).cnt = s.cnt := by rfl
@[simp] theorem setQueue_freeCtr (k : Nat) (v : QState) : (s.setQueue k v).freeCtr = s.freeCtr := by rfl
@[simp] theorem setQueue_phase (k : Nat) (v : QState) : (s.setQueue k v).phase = s.phase := by rfl
@[simp] theorem setQueue_regs (k : Nat) (v : QState) : (s.setQueue k v).regs = s.regs := by rfl
@[simp] theorem setQueue_latch (k : Nat) (v : QState) : (s.setQueue k v).latch = s.latch := by rfl
@[simp] theorem setQueue_sess (k : Nat) (v : QState) : (s.setQueue k v).sess = s.sess := by rfl
@[simp] theorem setQueue_owner (k : Nat) (v : QState) : (s.setQueue k v).owner = s.owner := by rfl
@[simp] theorem setQueue_elect (k : Nat) (v : QState) : (s.setQueue k v).elect = s.elect := by rfl
@[simp] theorem setQueue_ops (k : Nat) (v : QState) : (s.setQueue k v).ops = s.ops := by rfl
@[simp] theorem setQueue_reports (k : Nat) (v : QState) : (s.setQueue k v).reports = s.reports := by rfl
@[simp] theorem setQueue_shadows (k : Nat) (v : QState) : (s.setQueue k v).shadows = s.shadows := by rfl
@[simp] theorem setQueue_stalls (k : Nat) (v : QState) : (s.setQueue k v).stalls = s.stalls := by rfl
@[simp] theorem setQueue_chans (k : Nat) (v : QState) : (s.setQueue k v).chans = s.chans := by rfl
@[simp] theorem setQueue_streams (k : Nat) (v : QState) : (s.setQueue k v).streams = s.streams := by rfl
@[simp] theorem setQueue_mem (k : Nat) (v : QState) : (s.setQueue k v).mem = s.mem := by rfl
@[simp] theorem setQueue_psn (k : Nat) (v : QState) : (s.setQueue k v).psn = s.psn := by rfl
@[simp] theorem setQueue_err (k : Nat) (v : QState) : (s.setQueue k v).err = s.err := by rfl
@[simp] theorem setQueue_inited (k : Nat) (v : QState) : (s.setQueue k v).inited = s.inited := by rfl
@[simp] theorem setQueue_dram (k : Nat) (v : QState) : (s.setQueue k v).dram = s.dram := by rfl
@[simp] theorem setQueue_tack (k : Nat) (v : QState) : (s.setQueue k v).tack = s.tack := by rfl
@[simp] theorem setQueue_resetAt (k : Nat) (v : QState) : (s.setQueue k v).resetAt = s.resetAt := by rfl
@[simp] theorem setQueue_rst (k : Nat) (v : QState) : (s.setQueue k v).rst = s.rst := by rfl
@[simp] theorem setQueue_mig (k : Nat) (v : QState) : (s.setQueue k v).mig = s.mig := by rfl
@[simp] theorem setQueue_mgt (k : Nat) (v : QState) : (s.setQueue k v).mgt = s.mgt := by rfl

/-! ### setStream -/

@[simp] theorem setStream_pending (k : Nat) (v : Option Stream) : (s.setStream k v).pending = s.pending := by rfl
@[simp] theorem setStream_held (k : Nat) (v : Option Stream) : (s.setStream k v).held = s.held := by rfl
@[simp] theorem setStream_resuming (k : Nat) (v : Option Stream) : (s.setStream k v).resuming = s.resuming := by rfl
@[simp] theorem setStream_out (k : Nat) (v : Option Stream) : (s.setStream k v).out = s.out := by rfl
@[simp] theorem setStream_now (k : Nat) (v : Option Stream) : (s.setStream k v).now = s.now := by rfl
@[simp] theorem setStream_cnt (k : Nat) (v : Option Stream) : (s.setStream k v).cnt = s.cnt := by rfl
@[simp] theorem setStream_freeCtr (k : Nat) (v : Option Stream) : (s.setStream k v).freeCtr = s.freeCtr := by rfl
@[simp] theorem setStream_phase (k : Nat) (v : Option Stream) : (s.setStream k v).phase = s.phase := by rfl
@[simp] theorem setStream_regs (k : Nat) (v : Option Stream) : (s.setStream k v).regs = s.regs := by rfl
@[simp] theorem setStream_latch (k : Nat) (v : Option Stream) : (s.setStream k v).latch = s.latch := by rfl
@[simp] theorem setStream_sess (k : Nat) (v : Option Stream) : (s.setStream k v).sess = s.sess := by rfl
@[simp] theorem setStream_owner (k : Nat) (v : Option Stream) : (s.setStream k v).owner = s.owner := by rfl
@[simp] theorem setStream_elect (k : Nat) (v : Option Stream) : (s.setStream k v).elect = s.elect := by rfl
@[simp] theorem setStream_ops (k : Nat) (v : Option Stream) : (s.setStream k v).ops = s.ops := by rfl
@[simp] theorem setStream_reports (k : Nat) (v : Option Stream) : (s.setStream k v).reports = s.reports := by rfl
@[simp] theorem setStream_shadows (k : Nat) (v : Option Stream) : (s.setStream k v).shadows = s.shadows := by rfl
@[simp] theorem setStream_stalls (k : Nat) (v : Option Stream) : (s.setStream k v).stalls = s.stalls := by rfl
@[simp] theorem setStream_chans (k : Nat) (v : Option Stream) : (s.setStream k v).chans = s.chans := by rfl
@[simp] theorem setStream_queues (k : Nat) (v : Option Stream) : (s.setStream k v).queues = s.queues := by rfl
@[simp] theorem setStream_mem (k : Nat) (v : Option Stream) : (s.setStream k v).mem = s.mem := by rfl
@[simp] theorem setStream_psn (k : Nat) (v : Option Stream) : (s.setStream k v).psn = s.psn := by rfl
@[simp] theorem setStream_err (k : Nat) (v : Option Stream) : (s.setStream k v).err = s.err := by rfl
@[simp] theorem setStream_inited (k : Nat) (v : Option Stream) : (s.setStream k v).inited = s.inited := by rfl
@[simp] theorem setStream_dram (k : Nat) (v : Option Stream) : (s.setStream k v).dram = s.dram := by rfl
@[simp] theorem setStream_tack (k : Nat) (v : Option Stream) : (s.setStream k v).tack = s.tack := by rfl
@[simp] theorem setStream_resetAt (k : Nat) (v : Option Stream) : (s.setStream k v).resetAt = s.resetAt := by rfl
@[simp] theorem setStream_rst (k : Nat) (v : Option Stream) : (s.setStream k v).rst = s.rst := by rfl
@[simp] theorem setStream_mig (k : Nat) (v : Option Stream) : (s.setStream k v).mig = s.mig := by rfl
@[simp] theorem setStream_mgt (k : Nat) (v : Option Stream) : (s.setStream k v).mgt = s.mgt := by rfl

/-! ### setLane -/

@[simp] theorem setLane_pending (k : Nat) (v : Lane) : (s.setLane k v).pending = s.pending := by rfl
@[simp] theorem setLane_held (k : Nat) (v : Lane) : (s.setLane k v).held = s.held := by rfl
@[simp] theorem setLane_resuming (k : Nat) (v : Lane) : (s.setLane k v).resuming = s.resuming := by rfl
@[simp] theorem setLane_out (k : Nat) (v : Lane) : (s.setLane k v).out = s.out := by rfl
@[simp] theorem setLane_now (k : Nat) (v : Lane) : (s.setLane k v).now = s.now := by rfl
@[simp] theorem setLane_cnt (k : Nat) (v : Lane) : (s.setLane k v).cnt = s.cnt := by rfl
@[simp] theorem setLane_freeCtr (k : Nat) (v : Lane) : (s.setLane k v).freeCtr = s.freeCtr := by rfl
@[simp] theorem setLane_phase (k : Nat) (v : Lane) : (s.setLane k v).phase = s.phase := by rfl
@[simp] theorem setLane_regs (k : Nat) (v : Lane) : (s.setLane k v).regs = s.regs := by rfl
@[simp] theorem setLane_latch (k : Nat) (v : Lane) : (s.setLane k v).latch = s.latch := by rfl
@[simp] theorem setLane_sess (k : Nat) (v : Lane) : (s.setLane k v).sess = s.sess := by rfl
@[simp] theorem setLane_owner (k : Nat) (v : Lane) : (s.setLane k v).owner = s.owner := by rfl
@[simp] theorem setLane_elect (k : Nat) (v : Lane) : (s.setLane k v).elect = s.elect := by rfl
@[simp] theorem setLane_ops (k : Nat) (v : Lane) : (s.setLane k v).ops = s.ops := by rfl
@[simp] theorem setLane_reports (k : Nat) (v : Lane) : (s.setLane k v).reports = s.reports := by rfl
@[simp] theorem setLane_shadows (k : Nat) (v : Lane) : (s.setLane k v).shadows = s.shadows := by rfl
@[simp] theorem setLane_stalls (k : Nat) (v : Lane) : (s.setLane k v).stalls = s.stalls := by rfl
@[simp] theorem setLane_chans (k : Nat) (v : Lane) : (s.setLane k v).chans = s.chans := by rfl
@[simp] theorem setLane_queues (k : Nat) (v : Lane) : (s.setLane k v).queues = s.queues := by rfl
@[simp] theorem setLane_streams (k : Nat) (v : Lane) : (s.setLane k v).streams = s.streams := by rfl
@[simp] theorem setLane_mem (k : Nat) (v : Lane) : (s.setLane k v).mem = s.mem := by rfl
@[simp] theorem setLane_psn (k : Nat) (v : Lane) : (s.setLane k v).psn = s.psn := by rfl
@[simp] theorem setLane_err (k : Nat) (v : Lane) : (s.setLane k v).err = s.err := by rfl
@[simp] theorem setLane_inited (k : Nat) (v : Lane) : (s.setLane k v).inited = s.inited := by rfl
@[simp] theorem setLane_dram (k : Nat) (v : Lane) : (s.setLane k v).dram = s.dram := by rfl
@[simp] theorem setLane_tack (k : Nat) (v : Lane) : (s.setLane k v).tack = s.tack := by rfl
@[simp] theorem setLane_resetAt (k : Nat) (v : Lane) : (s.setLane k v).resetAt = s.resetAt := by rfl
@[simp] theorem setLane_rst (k : Nat) (v : Lane) : (s.setLane k v).rst = s.rst := by rfl
@[simp] theorem setLane_mig (k : Nat) (v : Lane) : (s.setLane k v).mig = s.mig := by rfl
@[simp] theorem setLane_mgt (k : Nat) (v : Lane) : (s.setLane k v).mgt = s.mgt := by rfl

/-! ### setSession -/

@[simp] theorem setSession_pending (k : Nat) (v : Option Session) : (s.setSession k v).pending = s.pending := by rfl
@[simp] theorem setSession_held (k : Nat) (v : Option Session) : (s.setSession k v).held = s.held := by rfl
@[simp] theorem setSession_resuming (k : Nat) (v : Option Session) : (s.setSession k v).resuming = s.resuming := by rfl
@[simp] theorem setSession_out (k : Nat) (v : Option Session) : (s.setSession k v).out = s.out := by rfl
@[simp] theorem setSession_now (k : Nat) (v : Option Session) : (s.setSession k v).now = s.now := by rfl
@[simp] theorem setSession_cnt (k : Nat) (v : Option Session) : (s.setSession k v).cnt = s.cnt := by rfl
@[simp] theorem setSession_freeCtr (k : Nat) (v : Option Session) : (s.setSession k v).freeCtr = s.freeCtr := by rfl
@[simp] theorem setSession_phase (k : Nat) (v : Option Session) : (s.setSession k v).phase = s.phase := by rfl
@[simp] theorem setSession_regs (k : Nat) (v : Option Session) : (s.setSession k v).regs = s.regs := by rfl
@[simp] theorem setSession_latch (k : Nat) (v : Option Session) : (s.setSession k v).latch = s.latch := by rfl
@[simp] theorem setSession_owner (k : Nat) (v : Option Session) : (s.setSession k v).owner = s.owner := by rfl
@[simp] theorem setSession_elect (k : Nat) (v : Option Session) : (s.setSession k v).elect = s.elect := by rfl
@[simp] theorem setSession_ops (k : Nat) (v : Option Session) : (s.setSession k v).ops = s.ops := by rfl
@[simp] theorem setSession_reports (k : Nat) (v : Option Session) : (s.setSession k v).reports = s.reports := by rfl
@[simp] theorem setSession_shadows (k : Nat) (v : Option Session) : (s.setSession k v).shadows = s.shadows := by rfl
@[simp] theorem setSession_stalls (k : Nat) (v : Option Session) : (s.setSession k v).stalls = s.stalls := by rfl
@[simp] theorem setSession_chans (k : Nat) (v : Option Session) : (s.setSession k v).chans = s.chans := by rfl
@[simp] theorem setSession_queues (k : Nat) (v : Option Session) : (s.setSession k v).queues = s.queues := by rfl
@[simp] theorem setSession_streams (k : Nat) (v : Option Session) : (s.setSession k v).streams = s.streams := by rfl
@[simp] theorem setSession_mem (k : Nat) (v : Option Session) : (s.setSession k v).mem = s.mem := by rfl
@[simp] theorem setSession_psn (k : Nat) (v : Option Session) : (s.setSession k v).psn = s.psn := by rfl
@[simp] theorem setSession_err (k : Nat) (v : Option Session) : (s.setSession k v).err = s.err := by rfl
@[simp] theorem setSession_inited (k : Nat) (v : Option Session) : (s.setSession k v).inited = s.inited := by rfl
@[simp] theorem setSession_dram (k : Nat) (v : Option Session) : (s.setSession k v).dram = s.dram := by rfl
@[simp] theorem setSession_tack (k : Nat) (v : Option Session) : (s.setSession k v).tack = s.tack := by rfl
@[simp] theorem setSession_resetAt (k : Nat) (v : Option Session) : (s.setSession k v).resetAt = s.resetAt := by rfl
@[simp] theorem setSession_rst (k : Nat) (v : Option Session) : (s.setSession k v).rst = s.rst := by rfl
@[simp] theorem setSession_mig (k : Nat) (v : Option Session) : (s.setSession k v).mig = s.mig := by rfl
@[simp] theorem setSession_mgt (k : Nat) (v : Option Session) : (s.setSession k v).mgt = s.mgt := by rfl

/-! ### setOwner -/

@[simp] theorem setOwner_pending (k : Nat) (v : Option Nat) : (s.setOwner k v).pending = s.pending := by rfl
@[simp] theorem setOwner_held (k : Nat) (v : Option Nat) : (s.setOwner k v).held = s.held := by rfl
@[simp] theorem setOwner_resuming (k : Nat) (v : Option Nat) : (s.setOwner k v).resuming = s.resuming := by rfl
@[simp] theorem setOwner_out (k : Nat) (v : Option Nat) : (s.setOwner k v).out = s.out := by rfl
@[simp] theorem setOwner_now (k : Nat) (v : Option Nat) : (s.setOwner k v).now = s.now := by rfl
@[simp] theorem setOwner_cnt (k : Nat) (v : Option Nat) : (s.setOwner k v).cnt = s.cnt := by rfl
@[simp] theorem setOwner_freeCtr (k : Nat) (v : Option Nat) : (s.setOwner k v).freeCtr = s.freeCtr := by rfl
@[simp] theorem setOwner_phase (k : Nat) (v : Option Nat) : (s.setOwner k v).phase = s.phase := by rfl
@[simp] theorem setOwner_regs (k : Nat) (v : Option Nat) : (s.setOwner k v).regs = s.regs := by rfl
@[simp] theorem setOwner_latch (k : Nat) (v : Option Nat) : (s.setOwner k v).latch = s.latch := by rfl
@[simp] theorem setOwner_sess (k : Nat) (v : Option Nat) : (s.setOwner k v).sess = s.sess := by rfl
@[simp] theorem setOwner_elect (k : Nat) (v : Option Nat) : (s.setOwner k v).elect = s.elect := by rfl
@[simp] theorem setOwner_ops (k : Nat) (v : Option Nat) : (s.setOwner k v).ops = s.ops := by rfl
@[simp] theorem setOwner_reports (k : Nat) (v : Option Nat) : (s.setOwner k v).reports = s.reports := by rfl
@[simp] theorem setOwner_shadows (k : Nat) (v : Option Nat) : (s.setOwner k v).shadows = s.shadows := by rfl
@[simp] theorem setOwner_stalls (k : Nat) (v : Option Nat) : (s.setOwner k v).stalls = s.stalls := by rfl
@[simp] theorem setOwner_chans (k : Nat) (v : Option Nat) : (s.setOwner k v).chans = s.chans := by rfl
@[simp] theorem setOwner_queues (k : Nat) (v : Option Nat) : (s.setOwner k v).queues = s.queues := by rfl
@[simp] theorem setOwner_streams (k : Nat) (v : Option Nat) : (s.setOwner k v).streams = s.streams := by rfl
@[simp] theorem setOwner_mem (k : Nat) (v : Option Nat) : (s.setOwner k v).mem = s.mem := by rfl
@[simp] theorem setOwner_psn (k : Nat) (v : Option Nat) : (s.setOwner k v).psn = s.psn := by rfl
@[simp] theorem setOwner_err (k : Nat) (v : Option Nat) : (s.setOwner k v).err = s.err := by rfl
@[simp] theorem setOwner_inited (k : Nat) (v : Option Nat) : (s.setOwner k v).inited = s.inited := by rfl
@[simp] theorem setOwner_dram (k : Nat) (v : Option Nat) : (s.setOwner k v).dram = s.dram := by rfl
@[simp] theorem setOwner_tack (k : Nat) (v : Option Nat) : (s.setOwner k v).tack = s.tack := by rfl
@[simp] theorem setOwner_resetAt (k : Nat) (v : Option Nat) : (s.setOwner k v).resetAt = s.resetAt := by rfl
@[simp] theorem setOwner_rst (k : Nat) (v : Option Nat) : (s.setOwner k v).rst = s.rst := by rfl
@[simp] theorem setOwner_mig (k : Nat) (v : Option Nat) : (s.setOwner k v).mig = s.mig := by rfl
@[simp] theorem setOwner_mgt (k : Nat) (v : Option Nat) : (s.setOwner k v).mgt = s.mgt := by rfl

/-! ### setElection -/

@[simp] theorem setElection_pending (k : Nat) (v : Option Election) : (s.setElection k v).pending = s.pending := by rfl
@[simp] theorem setElection_held (k : Nat) (v : Option Election) : (s.setElection k v).held = s.held := by rfl
@[simp] theorem setElection_resuming (k : Nat) (v : Option Election) : (s.setElection k v).resuming = s.resuming := by rfl
@[simp] theorem setElection_out (k : Nat) (v : Option Election) : (s.setElection k v).out = s.out := by rfl
@[simp] theorem setElection_now (k : Nat) (v : Option Election) : (s.setElection k v).now = s.now := by rfl
@[simp] theorem setElection_cnt (k : Nat) (v : Option Election) : (s.setElection k v).cnt = s.cnt := by rfl
@[simp] theorem setElection_freeCtr (k : Nat) (v : Option Election) : (s.setElection k v).freeCtr = s.freeCtr := by rfl
@[simp] theorem setElection_phase (k : Nat) (v : Option Election) : (s.setElection k v).phase = s.phase := by rfl
@[simp] theorem setElection_regs (k : Nat) (v : Option Election) : (s.setElection k v).regs = s.regs := by rfl
@[simp] theorem setElection_latch (k : Nat) (v : Option Election) : (s.setElection k v).latch = s.latch := by rfl
@[simp] theorem setElection_sess (k : Nat) (v : Option Election) : (s.setElection k v).sess = s.sess := by rfl
@[simp] theorem setElection_owner (k : Nat) (v : Option Election) : (s.setElection k v).owner = s.owner := by rfl
@[simp] theorem setElection_ops (k : Nat) (v : Option Election) : (s.setElection k v).ops = s.ops := by rfl
@[simp] theorem setElection_reports (k : Nat) (v : Option Election) : (s.setElection k v).reports = s.reports := by rfl
@[simp] theorem setElection_shadows (k : Nat) (v : Option Election) : (s.setElection k v).shadows = s.shadows := by rfl
@[simp] theorem setElection_stalls (k : Nat) (v : Option Election) : (s.setElection k v).stalls = s.stalls := by rfl
@[simp] theorem setElection_chans (k : Nat) (v : Option Election) : (s.setElection k v).chans = s.chans := by rfl
@[simp] theorem setElection_queues (k : Nat) (v : Option Election) : (s.setElection k v).queues = s.queues := by rfl
@[simp] theorem setElection_streams (k : Nat) (v : Option Election) : (s.setElection k v).streams = s.streams := by rfl
@[simp] theorem setElection_mem (k : Nat) (v : Option Election) : (s.setElection k v).mem = s.mem := by rfl
@[simp] theorem setElection_psn (k : Nat) (v : Option Election) : (s.setElection k v).psn = s.psn := by rfl
@[simp] theorem setElection_err (k : Nat) (v : Option Election) : (s.setElection k v).err = s.err := by rfl
@[simp] theorem setElection_inited (k : Nat) (v : Option Election) : (s.setElection k v).inited = s.inited := by rfl
@[simp] theorem setElection_dram (k : Nat) (v : Option Election) : (s.setElection k v).dram = s.dram := by rfl
@[simp] theorem setElection_tack (k : Nat) (v : Option Election) : (s.setElection k v).tack = s.tack := by rfl
@[simp] theorem setElection_resetAt (k : Nat) (v : Option Election) : (s.setElection k v).resetAt = s.resetAt := by rfl
@[simp] theorem setElection_rst (k : Nat) (v : Option Election) : (s.setElection k v).rst = s.rst := by rfl
@[simp] theorem setElection_mig (k : Nat) (v : Option Election) : (s.setElection k v).mig = s.mig := by rfl
@[simp] theorem setElection_mgt (k : Nat) (v : Option Election) : (s.setElection k v).mgt = s.mgt := by rfl

/-! ### setOp -/

@[simp] theorem setOp_pending (k : Nat) (v : Option OpRec) : (s.setOp k v).pending = s.pending := by rfl
@[simp] theorem setOp_held (k : Nat) (v : Option OpRec) : (s.setOp k v).held = s.held := by rfl
@[simp] theorem setOp_resuming (k : Nat) (v : Option OpRec) : (s.setOp k v).resuming = s.resuming := by rfl
@[simp] theorem setOp_out (k : Nat) (v : Option OpRec) : (s.setOp k v).out = s.out := by rfl
@[simp] theorem setOp_now (k : Nat) (v : Option OpRec) : (s.setOp k v).now = s.now := by rfl
@[simp] theorem setOp_cnt (k : Nat) (v : Option OpRec) : (s.setOp k v).cnt = s.cnt := by rfl
@[simp] theorem setOp_freeCtr (k : Nat) (v : Option OpRec) : (s.setOp k v).freeCtr = s.freeCtr := by rfl
@[simp] theorem setOp_phase (k : Nat) (v : Option OpRec) : (s.setOp k v).phase = s.phase := by rfl
@[simp] theorem setOp_regs (k : Nat) (v : Option OpRec) : (s.setOp k v).regs = s.regs := by rfl
@[simp] theorem setOp_latch (k : Nat) (v : Option OpRec) : (s.setOp k v).latch = s.latch := by rfl
@[simp] theorem setOp_sess (k : Nat) (v : Option OpRec) : (s.setOp k v).sess = s.sess := by rfl
@[simp] theorem setOp_owner (k : Nat) (v : Option OpRec) : (s.setOp k v).owner = s.owner := by rfl
@[simp] theorem setOp_elect (k : Nat) (v : Option OpRec) : (s.setOp k v).elect = s.elect := by rfl
@[simp] theorem setOp_reports (k : Nat) (v : Option OpRec) : (s.setOp k v).reports = s.reports := by rfl
@[simp] theorem setOp_shadows (k : Nat) (v : Option OpRec) : (s.setOp k v).shadows = s.shadows := by rfl
@[simp] theorem setOp_stalls (k : Nat) (v : Option OpRec) : (s.setOp k v).stalls = s.stalls := by rfl
@[simp] theorem setOp_chans (k : Nat) (v : Option OpRec) : (s.setOp k v).chans = s.chans := by rfl
@[simp] theorem setOp_queues (k : Nat) (v : Option OpRec) : (s.setOp k v).queues = s.queues := by rfl
@[simp] theorem setOp_streams (k : Nat) (v : Option OpRec) : (s.setOp k v).streams = s.streams := by rfl
@[simp] theorem setOp_mem (k : Nat) (v : Option OpRec) : (s.setOp k v).mem = s.mem := by rfl
@[simp] theorem setOp_psn (k : Nat) (v : Option OpRec) : (s.setOp k v).psn = s.psn := by rfl
@[simp] theorem setOp_err (k : Nat) (v : Option OpRec) : (s.setOp k v).err = s.err := by rfl
@[simp] theorem setOp_inited (k : Nat) (v : Option OpRec) : (s.setOp k v).inited = s.inited := by rfl
@[simp] theorem setOp_dram (k : Nat) (v : Option OpRec) : (s.setOp k v).dram = s.dram := by rfl
@[simp] theorem setOp_tack (k : Nat) (v : Option OpRec) : (s.setOp k v).tack = s.tack := by rfl
@[simp] theorem setOp_resetAt (k : Nat) (v : Option OpRec) : (s.setOp k v).resetAt = s.resetAt := by rfl
@[simp] theorem setOp_rst (k : Nat) (v : Option OpRec) : (s.setOp k v).rst = s.rst := by rfl
@[simp] theorem setOp_mig (k : Nat) (v : Option OpRec) : (s.setOp k v).mig = s.mig := by rfl
@[simp] theorem setOp_mgt (k : Nat) (v : Option OpRec) : (s.setOp k v).mgt = s.mgt := by rfl

/-! ### setTim -/

@[simp] theorem setTim_pending (k : Nat) (v : Tim) : (s.setTim k v).pending = s.pending := by rfl
@[simp] theorem setTim_held (k : Nat) (v : Tim) : (s.setTim k v).held = s.held := by rfl
@[simp] theorem setTim_resuming (k : Nat) (v : Tim) : (s.setTim k v).resuming = s.resuming := by rfl
@[simp] theorem setTim_out (k : Nat) (v : Tim) : (s.setTim k v).out = s.out := by rfl
@[simp] theorem setTim_now (k : Nat) (v : Tim) : (s.setTim k v).now = s.now := by rfl
@[simp] theorem setTim_cnt (k : Nat) (v : Tim) : (s.setTim k v).cnt = s.cnt := by rfl
@[simp] theorem setTim_freeCtr (k : Nat) (v : Tim) : (s.setTim k v).freeCtr = s.freeCtr := by rfl
@[simp] theorem setTim_phase (k : Nat) (v : Tim) : (s.setTim k v).phase = s.phase := by rfl
@[simp] theorem setTim_regs (k : Nat) (v : Tim) : (s.setTim k v).regs = s.regs := by rfl
@[simp] theorem setTim_latch (k : Nat) (v : Tim) : (s.setTim k v).latch = s.latch := by rfl
@[simp] theorem setTim_sess (k : Nat) (v : Tim) : (s.setTim k v).sess = s.sess := by rfl
@[simp] theorem setTim_owner (k : Nat) (v : Tim) : (s.setTim k v).owner = s.owner := by rfl
@[simp] theorem setTim_elect (k : Nat) (v : Tim) : (s.setTim k v).elect = s.elect := by rfl
@[simp] theorem setTim_ops (k : Nat) (v : Tim) : (s.setTim k v).ops = s.ops := by rfl
@[simp] theorem setTim_reports (k : Nat) (v : Tim) : (s.setTim k v).reports = s.reports := by rfl
@[simp] theorem setTim_shadows (k : Nat) (v : Tim) : (s.setTim k v).shadows = s.shadows := by rfl
@[simp] theorem setTim_stalls (k : Nat) (v : Tim) : (s.setTim k v).stalls = s.stalls := by rfl
@[simp] theorem setTim_chans (k : Nat) (v : Tim) : (s.setTim k v).chans = s.chans := by rfl
@[simp] theorem setTim_queues (k : Nat) (v : Tim) : (s.setTim k v).queues = s.queues := by rfl
@[simp] theorem setTim_streams (k : Nat) (v : Tim) : (s.setTim k v).streams = s.streams := by rfl
@[simp] theorem setTim_mem (k : Nat) (v : Tim) : (s.setTim k v).mem = s.mem := by rfl
@[simp] theorem setTim_psn (k : Nat) (v : Tim) : (s.setTim k v).psn = s.psn := by rfl
@[simp] theorem setTim_err (k : Nat) (v : Tim) : (s.setTim k v).err = s.err := by rfl
@[simp] theorem setTim_inited (k : Nat) (v : Tim) : (s.setTim k v).inited = s.inited := by rfl
@[simp] theorem setTim_dram (k : Nat) (v : Tim) : (s.setTim k v).dram = s.dram := by rfl
@[simp] theorem setTim_tack (k : Nat) (v : Tim) : (s.setTim k v).tack = s.tack := by rfl
@[simp] theorem setTim_resetAt (k : Nat) (v : Tim) : (s.setTim k v).resetAt = s.resetAt := by rfl
@[simp] theorem setTim_rst (k : Nat) (v : Tim) : (s.setTim k v).rst = s.rst := by rfl
@[simp] theorem setTim_mig (k : Nat) (v : Tim) : (s.setTim k v).mig = s.mig := by rfl
@[simp] theorem setTim_mgt (k : Nat) (v : Tim) : (s.setTim k v).mgt = s.mgt := by rfl

/-! ### setFlt -/

@[simp] theorem setFlt_pending (k : Nat) (v : Flt) : (s.setFlt k v).pending = s.pending := by rfl
@[simp] theorem setFlt_held (k : Nat) (v : Flt) : (s.setFlt k v).held = s.held := by rfl
@[simp] theorem setFlt_resuming (k : Nat) (v : Flt) : (s.setFlt k v).resuming = s.resuming := by rfl
@[simp] theorem setFlt_out (k : Nat) (v : Flt) : (s.setFlt k v).out = s.out := by rfl
@[simp] theorem setFlt_now (k : Nat) (v : Flt) : (s.setFlt k v).now = s.now := by rfl
@[simp] theorem setFlt_cnt (k : Nat) (v : Flt) : (s.setFlt k v).cnt = s.cnt := by rfl
@[simp] theorem setFlt_freeCtr (k : Nat) (v : Flt) : (s.setFlt k v).freeCtr = s.freeCtr := by rfl
@[simp] theorem setFlt_phase (k : Nat) (v : Flt) : (s.setFlt k v).phase = s.phase := by rfl
@[simp] theorem setFlt_regs (k : Nat) (v : Flt) : (s.setFlt k v).regs = s.regs := by rfl
@[simp] theorem setFlt_latch (k : Nat) (v : Flt) : (s.setFlt k v).latch = s.latch := by rfl
@[simp] theorem setFlt_sess (k : Nat) (v : Flt) : (s.setFlt k v).sess = s.sess := by rfl
@[simp] theorem setFlt_owner (k : Nat) (v : Flt) : (s.setFlt k v).owner = s.owner := by rfl
@[simp] theorem setFlt_elect (k : Nat) (v : Flt) : (s.setFlt k v).elect = s.elect := by rfl
@[simp] theorem setFlt_ops (k : Nat) (v : Flt) : (s.setFlt k v).ops = s.ops := by rfl
@[simp] theorem setFlt_reports (k : Nat) (v : Flt) : (s.setFlt k v).reports = s.reports := by rfl
@[simp] theorem setFlt_shadows (k : Nat) (v : Flt) : (s.setFlt k v).shadows = s.shadows := by rfl
@[simp] theorem setFlt_stalls (k : Nat) (v : Flt) : (s.setFlt k v).stalls = s.stalls := by rfl
@[simp] theorem setFlt_chans (k : Nat) (v : Flt) : (s.setFlt k v).chans = s.chans := by rfl
@[simp] theorem setFlt_queues (k : Nat) (v : Flt) : (s.setFlt k v).queues = s.queues := by rfl
@[simp] theorem setFlt_streams (k : Nat) (v : Flt) : (s.setFlt k v).streams = s.streams := by rfl
@[simp] theorem setFlt_mem (k : Nat) (v : Flt) : (s.setFlt k v).mem = s.mem := by rfl
@[simp] theorem setFlt_psn (k : Nat) (v : Flt) : (s.setFlt k v).psn = s.psn := by rfl
@[simp] theorem setFlt_err (k : Nat) (v : Flt) : (s.setFlt k v).err = s.err := by rfl
@[simp] theorem setFlt_inited (k : Nat) (v : Flt) : (s.setFlt k v).inited = s.inited := by rfl
@[simp] theorem setFlt_dram (k : Nat) (v : Flt) : (s.setFlt k v).dram = s.dram := by rfl
@[simp] theorem setFlt_tack (k : Nat) (v : Flt) : (s.setFlt k v).tack = s.tack := by rfl
@[simp] theorem setFlt_resetAt (k : Nat) (v : Flt) : (s.setFlt k v).resetAt = s.resetAt := by rfl
@[simp] theorem setFlt_rst (k : Nat) (v : Flt) : (s.setFlt k v).rst = s.rst := by rfl
@[simp] theorem setFlt_mig (k : Nat) (v : Flt) : (s.setFlt k v).mig = s.mig := by rfl
@[simp] theorem setFlt_mgt (k : Nat) (v : Flt) : (s.setFlt k v).mgt = s.mgt := by rfl

/-! ### setCore -/

@[simp] theorem setCore_pending (k : Nat) (v : Core) : (s.setCore k v).pending = s.pending := by rfl
@[simp] theorem setCore_held (k : Nat) (v : Core) : (s.setCore k v).held = s.held := by rfl
@[simp] theorem setCore_resuming (k : Nat) (v : Core) : (s.setCore k v).resuming = s.resuming := by rfl
@[simp] theorem setCore_out (k : Nat) (v : Core) : (s.setCore k v).out = s.out := by rfl
@[simp] theorem setCore_now (k : Nat) (v : Core) : (s.setCore k v).now = s.now := by rfl
@[simp] theorem setCore_cnt (k : Nat) (v : Core) : (s.setCore k v).cnt = s.cnt := by rfl
@[simp] theorem setCore_freeCtr (k : Nat) (v : Core) : (s.setCore k v).freeCtr = s.freeCtr := by rfl
@[simp] theorem setCore_phase (k : Nat) (v : Core) : (s.setCore k v).phase = s.phase := by rfl
@[simp] theorem setCore_regs (k : Nat) (v : Core) : (s.setCore k v).regs = s.regs := by rfl
@[simp] theorem setCore_latch (k : Nat) (v : Core) : (s.setCore k v).latch = s.latch := by rfl
@[simp] theorem setCore_sess (k : Nat) (v : Core) : (s.setCore k v).sess = s.sess := by rfl
@[simp] theorem setCore_owner (k : Nat) (v : Core) : (s.setCore k v).owner = s.owner := by rfl
@[simp] theorem setCore_elect (k : Nat) (v : Core) : (s.setCore k v).elect = s.elect := by rfl
@[simp] theorem setCore_ops (k : Nat) (v : Core) : (s.setCore k v).ops = s.ops := by rfl
@[simp] theorem setCore_reports (k : Nat) (v : Core) : (s.setCore k v).reports = s.reports := by rfl
@[simp] theorem setCore_shadows (k : Nat) (v : Core) : (s.setCore k v).shadows = s.shadows := by rfl
@[simp] theorem setCore_stalls (k : Nat) (v : Core) : (s.setCore k v).stalls = s.stalls := by rfl
@[simp] theorem setCore_chans (k : Nat) (v : Core) : (s.setCore k v).chans = s.chans := by rfl
@[simp] theorem setCore_queues (k : Nat) (v : Core) : (s.setCore k v).queues = s.queues := by rfl
@[simp] theorem setCore_streams (k : Nat) (v : Core) : (s.setCore k v).streams = s.streams := by rfl
@[simp] theorem setCore_mem (k : Nat) (v : Core) : (s.setCore k v).mem = s.mem := by rfl
@[simp] theorem setCore_psn (k : Nat) (v : Core) : (s.setCore k v).psn = s.psn := by rfl
@[simp] theorem setCore_err (k : Nat) (v : Core) : (s.setCore k v).err = s.err := by rfl
@[simp] theorem setCore_inited (k : Nat) (v : Core) : (s.setCore k v).inited = s.inited := by rfl
@[simp] theorem setCore_dram (k : Nat) (v : Core) : (s.setCore k v).dram = s.dram := by rfl
@[simp] theorem setCore_tack (k : Nat) (v : Core) : (s.setCore k v).tack = s.tack := by rfl
@[simp] theorem setCore_resetAt (k : Nat) (v : Core) : (s.setCore k v).resetAt = s.resetAt := by rfl
@[simp] theorem setCore_rst (k : Nat) (v : Core) : (s.setCore k v).rst = s.rst := by rfl
@[simp] theorem setCore_mig (k : Nat) (v : Core) : (s.setCore k v).mig = s.mig := by rfl
@[simp] theorem setCore_mgt (k : Nat) (v : Core) : (s.setCore k v).mgt = s.mgt := by rfl

/-! ### setFlow -/

@[simp] theorem setFlow_pending (k : Nat) (v : Flow) : (s.setFlow k v).pending = s.pending := by rfl
@[simp] theorem setFlow_held (k : Nat) (v : Flow) : (s.setFlow k v).held = s.held := by rfl
@[simp] theorem setFlow_resuming (k : Nat) (v : Flow) : (s.setFlow k v).resuming = s.resuming := by rfl
@[simp] theorem setFlow_out (k : Nat) (v : Flow) : (s.setFlow k v).out = s.out := by rfl
@[simp] theorem setFlow_now (k : Nat) (v : Flow) : (s.setFlow k v).now = s.now := by rfl
@[simp] theorem setFlow_cnt (k : Nat) (v : Flow) : (s.setFlow k v).cnt = s.cnt := by rfl
@[simp] theorem setFlow_freeCtr (k : Nat) (v : Flow) : (s.setFlow k v).freeCtr = s.freeCtr := by rfl
@[simp] theorem setFlow_phase (k : Nat) (v : Flow) : (s.setFlow k v).phase = s.phase := by rfl
@[simp] theorem setFlow_regs (k : Nat) (v : Flow) : (s.setFlow k v).regs = s.regs := by rfl
@[simp] theorem setFlow_latch (k : Nat) (v : Flow) : (s.setFlow k v).latch = s.latch := by rfl
@[simp] theorem setFlow_sess (k : Nat) (v : Flow) : (s.setFlow k v).sess = s.sess := by rfl
@[simp] theorem setFlow_owner (k : Nat) (v : Flow) : (s.setFlow k v).owner = s.owner := by rfl
@[simp] theorem setFlow_elect (k : Nat) (v : Flow) : (s.setFlow k v).elect = s.elect := by rfl
@[simp] theorem setFlow_ops (k : Nat) (v : Flow) : (s.setFlow k v).ops = s.ops := by rfl
@[simp] theorem setFlow_reports (k : Nat) (v : Flow) : (s.setFlow k v).reports = s.reports := by rfl
@[simp] theorem setFlow_shadows (k : Nat) (v : Flow) : (s.setFlow k v).shadows = s.shadows := by rfl
@[simp] theorem setFlow_stalls (k : Nat) (v : Flow) : (s.setFlow k v).stalls = s.stalls := by rfl
@[simp] theorem setFlow_chans (k : Nat) (v : Flow) : (s.setFlow k v).chans = s.chans := by rfl
@[simp] theorem setFlow_queues (k : Nat) (v : Flow) : (s.setFlow k v).queues = s.queues := by rfl
@[simp] theorem setFlow_streams (k : Nat) (v : Flow) : (s.setFlow k v).streams = s.streams := by rfl
@[simp] theorem setFlow_mem (k : Nat) (v : Flow) : (s.setFlow k v).mem = s.mem := by rfl
@[simp] theorem setFlow_psn (k : Nat) (v : Flow) : (s.setFlow k v).psn = s.psn := by rfl
@[simp] theorem setFlow_err (k : Nat) (v : Flow) : (s.setFlow k v).err = s.err := by rfl
@[simp] theorem setFlow_inited (k : Nat) (v : Flow) : (s.setFlow k v).inited = s.inited := by rfl
@[simp] theorem setFlow_dram (k : Nat) (v : Flow) : (s.setFlow k v).dram = s.dram := by rfl
@[simp] theorem setFlow_tack (k : Nat) (v : Flow) : (s.setFlow k v).tack = s.tack := by rfl
@[simp] theorem setFlow_resetAt (k : Nat) (v : Flow) : (s.setFlow k v).resetAt = s.resetAt := by rfl
@[simp] theorem setFlow_rst (k : Nat) (v : Flow) : (s.setFlow k v).rst = s.rst := by rfl
@[simp] theorem setFlow_mig (k : Nat) (v : Flow) : (s.setFlow k v).mig = s.mig := by rfl
@[simp] theorem setFlow_mgt (k : Nat) (v : Flow) : (s.setFlow k v).mgt = s.mgt := by rfl

/-! ### setPesm -/

@[simp] theorem setPesm_pending (k : Nat) (v : Pes) : (s.setPesm k v).pending = s.pending := by rfl
@[simp] theorem setPesm_held (k : Nat) (v : Pes) : (s.setPesm k v).held = s.held := by rfl
@[simp] theorem setPesm_resuming (k : Nat) (v : Pes) : (s.setPesm k v).resuming = s.resuming := by rfl
@[simp] theorem setPesm_out (k : Nat) (v : Pes) : (s.setPesm k v).out = s.out := by rfl
@[simp] theorem setPesm_now (k : Nat) (v : Pes) : (s.setPesm k v).now = s.now := by rfl
@[simp] theorem setPesm_cnt (k : Nat) (v : Pes) : (s.setPesm k v).cnt = s.cnt := by rfl
@[simp] theorem setPesm_freeCtr (k : Nat) (v : Pes) : (s.setPesm k v).freeCtr = s.freeCtr := by rfl
@[simp] theorem setPesm_phase (k : Nat) (v : Pes) : (s.setPesm k v).phase = s.phase := by rfl
@[simp] theorem setPesm_regs (k : Nat) (v : Pes) : (s.setPesm k v).regs = s.regs := by rfl
@[simp] theorem setPesm_latch (k : Nat) (v : Pes) : (s.setPesm k v).latch = s.latch := by rfl
@[simp] theorem setPesm_sess (k : Nat) (v : Pes) : (s.setPesm k v).sess = s.sess := by rfl
@[simp] theorem setPesm_owner (k : Nat) (v : Pes) : (s.setPesm k v).owner = s.owner := by rfl
@[simp] theorem setPesm_elect (k : Nat) (v : Pes) : (s.setPesm k v).elect = s.elect := by rfl
@[simp] theorem setPesm_ops (k : Nat) (v : Pes) : (s.setPesm k v).ops = s.ops := by rfl
@[simp] theorem setPesm_reports (k : Nat) (v : Pes) : (s.setPesm k v).reports = s.reports := by rfl
@[simp] theorem setPesm_shadows (k : Nat) (v : Pes) : (s.setPesm k v).shadows = s.shadows := by rfl
@[simp] theorem setPesm_stalls (k : Nat) (v : Pes) : (s.setPesm k v).stalls = s.stalls := by rfl
@[simp] theorem setPesm_chans (k : Nat) (v : Pes) : (s.setPesm k v).chans = s.chans := by rfl
@[simp] theorem setPesm_queues (k : Nat) (v : Pes) : (s.setPesm k v).queues = s.queues := by rfl
@[simp] theorem setPesm_streams (k : Nat) (v : Pes) : (s.setPesm k v).streams = s.streams := by rfl
@[simp] theorem setPesm_mem (k : Nat) (v : Pes) : (s.setPesm k v).mem = s.mem := by rfl
@[simp] theorem setPesm_psn (k : Nat) (v : Pes) : (s.setPesm k v).psn = s.psn := by rfl
@[simp] theorem setPesm_err (k : Nat) (v : Pes) : (s.setPesm k v).err = s.err := by rfl
@[simp] theorem setPesm_inited (k : Nat) (v : Pes) : (s.setPesm k v).inited = s.inited := by rfl
@[simp] theorem setPesm_dram (k : Nat) (v : Pes) : (s.setPesm k v).dram = s.dram := by rfl
@[simp] theorem setPesm_tack (k : Nat) (v : Pes) : (s.setPesm k v).tack = s.tack := by rfl
@[simp] theorem setPesm_resetAt (k : Nat) (v : Pes) : (s.setPesm k v).resetAt = s.resetAt := by rfl
@[simp] theorem setPesm_rst (k : Nat) (v : Pes) : (s.setPesm k v).rst = s.rst := by rfl
@[simp] theorem setPesm_mig (k : Nat) (v : Pes) : (s.setPesm k v).mig = s.mig := by rfl
@[simp] theorem setPesm_mgt (k : Nat) (v : Pes) : (s.setPesm k v).mgt = s.mgt := by rfl

/-! ### setBuf -/

@[simp] theorem setBuf_pending (k : Nat) (v : List Rec) : (s.setBuf k v).pending = s.pending := by rfl
@[simp] theorem setBuf_held (k : Nat) (v : List Rec) : (s.setBuf k v).held = s.held := by rfl
@[simp] theorem setBuf_resuming (k : Nat) (v : List Rec) : (s.setBuf k v).resuming = s.resuming := by rfl
@[simp] theorem setBuf_out (k : Nat) (v : List Rec) : (s.setBuf k v).out = s.out := by rfl
@[simp] theorem setBuf_now (k : Nat) (v : List Rec) : (s.setBuf k v).now = s.now := by rfl
@[simp] theorem setBuf_cnt (k : Nat) (v : List Rec) : (s.setBuf k v).cnt = s.cnt := by rfl
@[simp] theorem setBuf_freeCtr (k : Nat) (v : List Rec) : (s.setBuf k v).freeCtr = s.freeCtr := by rfl
@[simp] theorem setBuf_phase (k : Nat) (v : List Rec) : (s.setBuf k v).phase = s.phase := by rfl
@[simp] theorem setBuf_regs (k : Nat) (v : List Rec) : (s.setBuf k v).regs = s.regs := by rfl
@[simp] theorem setBuf_latch (k : Nat) (v : List Rec) : (s.setBuf k v).latch = s.latch := by rfl
@[simp] theorem setBuf_sess (k : Nat) (v : List Rec) : (s.setBuf k v).sess = s.sess := by rfl
@[simp] theorem setBuf_owner (k : Nat) (v : List Rec) : (s.setBuf k v).owner = s.owner := by rfl
@[simp] theorem setBuf_elect (k : Nat) (v : List Rec) : (s.setBuf k v).elect = s.elect := by rfl
@[simp] theorem setBuf_ops (k : Nat) (v : List Rec) : (s.setBuf k v).ops = s.ops := by rfl
@[simp] theorem setBuf_reports (k : Nat) (v : List Rec) : (s.setBuf k v).reports = s.reports := by rfl
@[simp] theorem setBuf_shadows (k : Nat) (v : List Rec) : (s.setBuf k v).shadows = s.shadows := by rfl
@[simp] theorem setBuf_stalls (k : Nat) (v : List Rec) : (s.setBuf k v).stalls = s.stalls := by rfl
@[simp] theorem setBuf_chans (k : Nat) (v : List Rec) : (s.setBuf k v).chans = s.chans := by rfl
@[simp] theorem setBuf_queues (k : Nat) (v : List Rec) : (s.setBuf k v).queues = s.queues := by rfl
@[simp] theorem setBuf_streams (k : Nat) (v : List Rec) : (s.setBuf k v).streams = s.streams := by rfl
@[simp] theorem setBuf_mem (k : Nat) (v : List Rec) : (s.setBuf k v).mem = s.mem := by rfl
@[simp] theorem setBuf_psn (k : Nat) (v : List Rec) : (s.setBuf k v).psn = s.psn := by rfl
@[simp] theorem setBuf_err (k : Nat) (v : List Rec) : (s.setBuf k v).err = s.err := by rfl
@[simp] theorem setBuf_inited (k : Nat) (v : List Rec) : (s.setBuf k v).inited = s.inited := by rfl
@[simp] theorem setBuf_dram (k : Nat) (v : List Rec) : (s.setBuf k v).dram = s.dram := by rfl
@[simp] theorem setBuf_tack (k : Nat) (v : List Rec) : (s.setBuf k v).tack = s.tack := by rfl
@[simp] theorem setBuf_resetAt (k : Nat) (v : List Rec) : (s.setBuf k v).resetAt = s.resetAt := by rfl
@[simp] theorem setBuf_rst (k : Nat) (v : List Rec) : (s.setBuf k v).rst = s.rst := by rfl
@[simp] theorem setBuf_mig (k : Nat) (v : List Rec) : (s.setBuf k v).mig = s.mig := by rfl
@[simp] theorem setBuf_mgt (k : Nat) (v : List Rec) : (s.setBuf k v).mgt = s.mgt := by rfl

/-! ### setAlarm -/

@[simp] theorem setAlarm_pending (k : Nat) (v : Option Alarm) : (s.setAlarm k v).pending = s.pending := by rfl
@[simp] theorem setAlarm_held (k : Nat) (v : Option Alarm) : (s.setAlarm k v).held = s.held := by rfl
@[simp] theorem setAlarm_resuming (k : Nat) (v : Option Alarm) : (s.setAlarm k v).resuming = s.resuming := by rfl
@[simp] theorem setAlarm_out (k : Nat) (v : Option Alarm) : (s.setAlarm k v).out = s.out := by rfl
@[simp] theorem setAlarm_now (k : Nat) (v : Option Alarm) : (s.setAlarm k v).now = s.now := by rfl
@[simp] theorem setAlarm_cnt (k : Nat) (v : Option Alarm) : (s.setAlarm k v).cnt = s.cnt := by rfl
@[simp] theorem setAlarm_freeCtr (k : Nat) (v : Option Alarm) : (s.setAlarm k v).freeCtr = s.freeCtr := by rfl
@[simp] theorem setAlarm_phase (k : Nat) (v : Option Alarm) : (s.setAlarm k v).phase = s.phase := by rfl
@[simp] theorem setAlarm_regs (k : Nat) (v : Option Alarm) : (s.setAlarm k v).regs = s.regs := by rfl
@[simp] theorem setAlarm_latch (k : Nat) (v : Option Alarm) : (s.setAlarm k v).latch = s.latch := by rfl
@[simp] theorem setAlarm_sess (k : Nat) (v : Option Alarm) : (s.setAlarm k v).sess = s.sess := by rfl
@[simp] theorem setAlarm_owner (k : Nat) (v : Option Alarm) : (s.setAlarm k v).owner = s.owner := by rfl
@[simp] theorem setAlarm_elect (k : Nat) (v : Option Alarm) : (s.setAlarm k v).elect = s.elect := by rfl
@[simp] theorem setAlarm_ops (k : Nat) (v : Option Alarm) : (s.setAlarm k v).ops = s.ops := by rfl
@[simp] theorem setAlarm_reports (k : Nat) (v : Option Alarm) : (s.setAlarm k v).reports = s.reports := by rfl
@[simp] theorem setAlarm_shadows (k : Nat) (v : Option Alarm) : (s.setAlarm k v).shadows = s.shadows := by rfl
@[simp] theorem setAlarm_stalls (k : Nat) (v : Option Alarm) : (s.setAlarm k v).stalls = s.stalls := by rfl
@[simp] theorem setAlarm_chans (k : Nat) (v : Option Alarm) : (s.setAlarm k v).chans = s.chans := by rfl
@[simp] theorem setAlarm_queues (k : Nat) (v : Option Alarm) : (s.setAlarm k v).queues = s.queues := by rfl
@[simp] theorem setAlarm_streams (k : Nat) (v : Option Alarm) : (s.setAlarm k v).streams = s.streams := by rfl
@[simp] theorem setAlarm_mem (k : Nat) (v : Option Alarm) : (s.setAlarm k v).mem = s.mem := by rfl
@[simp] theorem setAlarm_psn (k : Nat) (v : Option Alarm) : (s.setAlarm k v).psn = s.psn := by rfl
@[simp] theorem setAlarm_err (k : Nat) (v : Option Alarm) : (s.setAlarm k v).err = s.err := by rfl
@[simp] theorem setAlarm_inited (k : Nat) (v : Option Alarm) : (s.setAlarm k v).inited = s.inited := by rfl
@[simp] theorem setAlarm_dram (k : Nat) (v : Option Alarm) : (s.setAlarm k v).dram = s.dram := by rfl
@[simp] theorem setAlarm_tack (k : Nat) (v : Option Alarm) : (s.setAlarm k v).tack = s.tack := by rfl
@[simp] theorem setAlarm_resetAt (k : Nat) (v : Option Alarm) : (s.setAlarm k v).resetAt = s.resetAt := by rfl
@[simp] theorem setAlarm_rst (k : Nat) (v : Option Alarm) : (s.setAlarm k v).rst = s.rst := by rfl
@[simp] theorem setAlarm_mig (k : Nat) (v : Option Alarm) : (s.setAlarm k v).mig = s.mig := by rfl
@[simp] theorem setAlarm_mgt (k : Nat) (v : Option Alarm) : (s.setAlarm k v).mgt = s.mgt := by rfl

/-! ### wr -/

@[simp] theorem wr_pending (a : Nat) (v : Word) : (s.wr a v).pending = s.pending := by rfl
@[simp] theorem wr_held (a : Nat) (v : Word) : (s.wr a v).held = s.held := by rfl
@[simp] theorem wr_resuming (a : Nat) (v : Word) : (s.wr a v).resuming = s.resuming := by rfl
@[simp] theorem wr_out (a : Nat) (v : Word) : (s.wr a v).out = s.out := by rfl
@[simp] theorem wr_now (a : Nat) (v : Word) : (s.wr a v).now = s.now := by rfl
@[simp] theorem wr_cnt (a : Nat) (v : Word) : (s.wr a v).cnt = s.cnt := by rfl
@[simp] theorem wr_freeCtr (a : Nat) (v : Word) : (s.wr a v).freeCtr = s.freeCtr := by rfl
@[simp] theorem wr_phase (a : Nat) (v : Word) : (s.wr a v).phase = s.phase := by rfl
@[simp] theorem wr_latch (a : Nat) (v : Word) : (s.wr a v).latch = s.latch := by rfl
@[simp] theorem wr_sess (a : Nat) (v : Word) : (s.wr a v).sess = s.sess := by rfl
@[simp] theorem wr_owner (a : Nat) (v : Word) : (s.wr a v).owner = s.owner := by rfl
@[simp] theorem wr_elect (a : Nat) (v : Word) : (s.wr a v).elect = s.elect := by rfl
@[simp] theorem wr_ops (a : Nat) (v : Word) : (s.wr a v).ops = s.ops := by rfl
@[simp] theorem wr_reports (a : Nat) (v : Word) : (s.wr a v).reports = s.reports := by rfl
@[simp] theorem wr_shadows (a : Nat) (v : Word) : (s.wr a v).shadows = s.shadows := by rfl
@[simp] theorem wr_stalls (a : Nat) (v : Word) : (s.wr a v).stalls = s.stalls := by rfl
@[simp] theorem wr_chans (a : Nat) (v : Word) : (s.wr a v).chans = s.chans := by rfl
@[simp] theorem wr_queues (a : Nat) (v : Word) : (s.wr a v).queues = s.queues := by rfl
@[simp] theorem wr_streams (a : Nat) (v : Word) : (s.wr a v).streams = s.streams := by rfl
@[simp] theorem wr_mem (a : Nat) (v : Word) : (s.wr a v).mem = s.mem := by rfl
@[simp] theorem wr_psn (a : Nat) (v : Word) : (s.wr a v).psn = s.psn := by rfl
@[simp] theorem wr_err (a : Nat) (v : Word) : (s.wr a v).err = s.err := by rfl
@[simp] theorem wr_inited (a : Nat) (v : Word) : (s.wr a v).inited = s.inited := by rfl
@[simp] theorem wr_dram (a : Nat) (v : Word) : (s.wr a v).dram = s.dram := by rfl
@[simp] theorem wr_tack (a : Nat) (v : Word) : (s.wr a v).tack = s.tack := by rfl
@[simp] theorem wr_resetAt (a : Nat) (v : Word) : (s.wr a v).resetAt = s.resetAt := by rfl
@[simp] theorem wr_rst (a : Nat) (v : Word) : (s.wr a v).rst = s.rst := by rfl
@[simp] theorem wr_mig (a : Nat) (v : Word) : (s.wr a v).mig = s.mig := by rfl
@[simp] theorem wr_mgt (a : Nat) (v : Word) : (s.wr a v).mgt = s.mgt := by rfl

/-! ### setRg -/

@[simp] theorem setRg_pending (r : R) (v i j : Nat) : (s.setRg r v i j).pending = s.pending := by rfl
@[simp] theorem setRg_held (r : R) (v i j : Nat) : (s.setRg r v i j).held = s.held := by rfl
@[simp] theorem setRg_resuming (r : R) (v i j : Nat) : (s.setRg r v i j).resuming = s.resuming := by rfl
@[simp] theorem setRg_out (r : R) (v i j : Nat) : (s.setRg r v i j).out = s.out := by rfl
@[simp] theorem setRg_now (r : R) (v i j : Nat) : (s.setRg r v i j).now = s.now := by rfl
@[simp] theorem setRg_cnt (r : R) (v i j : Nat) : (s.setRg r v i j).cnt = s.cnt := by rfl
@[simp] theorem setRg_freeCtr (r : R) (v i j : Nat) : (s.setRg r v i j).freeCtr = s.freeCtr := by rfl
@[simp] theorem setRg_phase (r : R) (v i j : Nat) : (s.setRg r v i j).phase = s.phase := by rfl
@[simp] theorem setRg_latch (r : R) (v i j : Nat) : (s.setRg r v i j).latch = s.latch := by rfl
@[simp] theorem setRg_sess (r : R) (v i j : Nat) : (s.setRg r v i j).sess = s.sess := by rfl
@[simp] theorem setRg_owner (r : R) (v i j : Nat) : (s.setRg r v i j).owner = s.owner := by rfl
@[simp] theorem setRg_elect (r : R) (v i j : Nat) : (s.setRg r v i j).elect = s.elect := by rfl
@[simp] theorem setRg_ops (r : R) (v i j : Nat) : (s.setRg r v i j).ops = s.ops := by rfl
@[simp] theorem setRg_reports (r : R) (v i j : Nat) : (s.setRg r v i j).reports = s.reports := by rfl
@[simp] theorem setRg_shadows (r : R) (v i j : Nat) : (s.setRg r v i j).shadows = s.shadows := by rfl
@[simp] theorem setRg_stalls (r : R) (v i j : Nat) : (s.setRg r v i j).stalls = s.stalls := by rfl
@[simp] theorem setRg_chans (r : R) (v i j : Nat) : (s.setRg r v i j).chans = s.chans := by rfl
@[simp] theorem setRg_queues (r : R) (v i j : Nat) : (s.setRg r v i j).queues = s.queues := by rfl
@[simp] theorem setRg_streams (r : R) (v i j : Nat) : (s.setRg r v i j).streams = s.streams := by rfl
@[simp] theorem setRg_mem (r : R) (v i j : Nat) : (s.setRg r v i j).mem = s.mem := by rfl
@[simp] theorem setRg_psn (r : R) (v i j : Nat) : (s.setRg r v i j).psn = s.psn := by rfl
@[simp] theorem setRg_err (r : R) (v i j : Nat) : (s.setRg r v i j).err = s.err := by rfl
@[simp] theorem setRg_inited (r : R) (v i j : Nat) : (s.setRg r v i j).inited = s.inited := by rfl
@[simp] theorem setRg_dram (r : R) (v i j : Nat) : (s.setRg r v i j).dram = s.dram := by rfl
@[simp] theorem setRg_tack (r : R) (v i j : Nat) : (s.setRg r v i j).tack = s.tack := by rfl
@[simp] theorem setRg_resetAt (r : R) (v i j : Nat) : (s.setRg r v i j).resetAt = s.resetAt := by rfl
@[simp] theorem setRg_rst (r : R) (v i j : Nat) : (s.setRg r v i j).rst = s.rst := by rfl
@[simp] theorem setRg_mig (r : R) (v i j : Nat) : (s.setRg r v i j).mig = s.mig := by rfl
@[simp] theorem setRg_mgt (r : R) (v i j : Nat) : (s.setRg r v i j).mgt = s.mgt := by rfl

/-! ### setFl -/

@[simp] theorem setFl_pending (f : FRef) (v i j : Nat) : (s.setFl f v i j).pending = s.pending := by rfl
@[simp] theorem setFl_held (f : FRef) (v i j : Nat) : (s.setFl f v i j).held = s.held := by rfl
@[simp] theorem setFl_resuming (f : FRef) (v i j : Nat) : (s.setFl f v i j).resuming = s.resuming := by rfl
@[simp] theorem setFl_out (f : FRef) (v i j : Nat) : (s.setFl f v i j).out = s.out := by rfl
@[simp] theorem setFl_now (f : FRef) (v i j : Nat) : (s.setFl f v i j).now = s.now := by rfl
@[simp] theorem setFl_cnt (f : FRef) (v i j : Nat) : (s.setFl f v i j).cnt = s.cnt := by rfl
@[simp] theorem setFl_freeCtr (f : FRef) (v i j : Nat) : (s.setFl f v i j).freeCtr = s.freeCtr := by rfl
@[simp] theorem setFl_phase (f : FRef) (v i j : Nat) : (s.setFl f v i j).phase = s.phase := by rfl
@[simp] theorem setFl_latch (f : FRef) (v i j : Nat) : (s.setFl f v i j).latch = s.latch := by rfl
@[simp] theorem setFl_sess (f : FRef) (v i j : Nat) : (s.setFl f v i j).sess = s.sess := by rfl
@[simp] theorem setFl_owner (f : FRef) (v i j : Nat) : (s.setFl f v i j).owner = s.owner := by rfl
@[simp] theorem setFl_elect (f : FRef) (v i j : Nat) : (s.setFl f v i j).elect = s.elect := by rfl
@[simp] theorem setFl_ops (f : FRef) (v i j : Nat) : (s.setFl f v i j).ops = s.ops := by rfl
@[simp] theorem setFl_reports (f : FRef) (v i j : Nat) : (s.setFl f v i j).reports = s.reports := by rfl
@[simp] theorem setFl_shadows (f : FRef) (v i j : Nat) : (s.setFl f v i j).shadows = s.shadows := by rfl
@[simp] theorem setFl_stalls (f : FRef) (v i j : Nat) : (s.setFl f v i j).stalls = s.stalls := by rfl
@[simp] theorem setFl_chans (f : FRef) (v i j : Nat) : (s.setFl f v i j).chans = s.chans := by rfl
@[simp] theorem setFl_queues (f : FRef) (v i j : Nat) : (s.setFl f v i j).queues = s.queues := by rfl
@[simp] theorem setFl_streams (f : FRef) (v i j : Nat) : (s.setFl f v i j).streams = s.streams := by rfl
@[simp] theorem setFl_mem (f : FRef) (v i j : Nat) : (s.setFl f v i j).mem = s.mem := by rfl
@[simp] theorem setFl_psn (f : FRef) (v i j : Nat) : (s.setFl f v i j).psn = s.psn := by rfl
@[simp] theorem setFl_err (f : FRef) (v i j : Nat) : (s.setFl f v i j).err = s.err := by rfl
@[simp] theorem setFl_inited (f : FRef) (v i j : Nat) : (s.setFl f v i j).inited = s.inited := by rfl
@[simp] theorem setFl_dram (f : FRef) (v i j : Nat) : (s.setFl f v i j).dram = s.dram := by rfl
@[simp] theorem setFl_tack (f : FRef) (v i j : Nat) : (s.setFl f v i j).tack = s.tack := by rfl
@[simp] theorem setFl_resetAt (f : FRef) (v i j : Nat) : (s.setFl f v i j).resetAt = s.resetAt := by rfl
@[simp] theorem setFl_rst (f : FRef) (v i j : Nat) : (s.setFl f v i j).rst = s.rst := by rfl
@[simp] theorem setFl_mig (f : FRef) (v i j : Nat) : (s.setFl f v i j).mig = s.mig := by rfl
@[simp] theorem setFl_mgt (f : FRef) (v i j : Nat) : (s.setFl f v i j).mgt = s.mgt := by rfl

/-! ### setFlag -/

@[simp] theorem setFlag_pending (f : FRef) (b : Bool) (i j : Nat) : (s.setFlag f b i j).pending = s.pending := by rfl
@[simp] theorem setFlag_held (f : FRef) (b : Bool) (i j : Nat) : (s.setFlag f b i j).held = s.held := by rfl
@[simp] theorem setFlag_resuming (f : FRef) (b : Bool) (i j : Nat) : (s.setFlag f b i j).resuming = s.resuming := by rfl
@[simp] theorem setFlag_out (f : FRef) (b : Bool) (i j : Nat) : (s.setFlag f b i j).out = s.out := by rfl
@[simp] theorem setFlag_now (f : FRef) (b : Bool) (i j : Nat) : (s.setFlag f b i j).now = s.now := by rfl
@[simp] theorem setFlag_cnt (f : FRef) (b : Bool) (i j : Nat) : (s.setFlag f b i j).cnt = s.cnt := by rfl
@[simp] theorem setFlag_freeCtr (f : FRef) (b : Bool) (i j : Nat) : (s.setFlag f b i j).freeCtr = s.freeCtr := by rfl
@[simp] theorem setFlag_phase (f : FRef) (b : Bool) (i j : Nat) : (s.setFlag f b i j).phase = s.phase := by rfl
@[simp] theorem setFlag_latch (f : FRef) (b : Bool) (i j : Nat) : (s.setFlag f b i j).latch = s.latch := by rfl
@[simp] theorem setFlag_sess (f : FRef) (b : Bool) (i j : Nat) : (s.setFlag f b i j).sess = s.sess := by rfl
@[simp] theorem setFlag_owner (f : FRef) (b : Bool) (i j : Nat) : (s.setFlag f b i j).owner = s.owner := by rfl
@[simp] theorem setFlag_elect (f : FRef) (b : Bool) (i j : Nat) : (s.setFlag f b i j).elect = s.elect := by rfl
@[simp] theorem setFlag_ops (f : FRef) (b : Bool) (i j : Nat) : (s.setFlag f b i j).ops = s.ops := by rfl
@[simp] theorem setFlag_reports (f : FRef) (b : Bool) (i j : Nat) : (s.setFlag f b i j).reports = s.reports := by rfl
@[simp] theorem setFlag_shadows (f : FRef) (b : Bool) (i j : Nat) : (s.setFlag f b i j).shadows = s.shadows := by rfl
@[simp] theorem setFlag_stalls (f : FRef) (b : Bool) (i j : Nat) : (s.setFlag f b i j).stalls = s.stalls := by rfl
@[simp] theorem setFlag_chans (f : FRef) (b : Bool) (i j : Nat) : (s.setFlag f b i j).chans = s.chans := by rfl
@[simp] theorem setFlag_queues (f : FRef) (b : Bool) (i j : Nat) : (s.setFlag f b i j).queues = s.queues := by rfl
@[simp] theorem setFlag_streams (f : FRef) (b : Bool) (i j : Nat) : (s.setFlag f b i j).streams = s.streams := by rfl
@[simp] theorem setFlag_mem (f : FRef) (b : Bool) (i j : Nat) : (s.setFlag f b i j).mem = s.mem := by rfl
@[simp] theorem setFlag_psn (f : FRef) (b : Bool) (i j : Nat) : (s.setFlag f b i j).psn = s.psn := by rfl
@[simp] theorem setFlag_err (f : FRef) (b : Bool) (i j : Nat) : (s.setFlag f b i j).err = s.err := by rfl
@[simp] theorem setFlag_inited (f : FRef) (b : Bool) (i j : Nat) : (s.setFlag f b i j).inited = s.inited := by rfl
@[simp] theorem setFlag_dram (f : FRef) (b : Bool) (i j : Nat) : (s.setFlag f b i j).dram = s.dram := by rfl
@[simp] theorem setFlag_tack (f : FRef) (b : Bool) (i j : Nat) : (s.setFlag f b i j).tack = s.tack := by rfl
@[simp] theorem setFlag_resetAt (f : FRef) (b : Bool) (i j : Nat) : (s.setFlag f b i j).resetAt = s.resetAt := by rfl
@[simp] theorem setFlag_rst (f : FRef) (b : Bool) (i j : Nat) : (s.setFlag f b i j).rst = s.rst := by rfl
@[simp] theorem setFlag_mig (f : FRef) (b : Bool) (i j : Nat) : (s.setFlag f b i j).mig = s.mig := by rfl
@[simp] theorem setFlag_mgt (f : FRef) (b : Bool) (i j : Nat) : (s.setFlag f b i j).mgt = s.mgt := by rfl

/-! ### bump -/

@[simp] theorem bump_pending (f : FRef) (n i j : Nat) : (s.bump f n i j).pending = s.pending := by rfl
@[simp] theorem bump_held (f : FRef) (n i j : Nat) : (s.bump f n i j).held = s.held := by rfl
@[simp] theorem bump_resuming (f : FRef) (n i j : Nat) : (s.bump f n i j).resuming = s.resuming := by rfl
@[simp] theorem bump_out (f : FRef) (n i j : Nat) : (s.bump f n i j).out = s.out := by rfl
@[simp] theorem bump_now (f : FRef) (n i j : Nat) : (s.bump f n i j).now = s.now := by rfl
@[simp] theorem bump_cnt (f : FRef) (n i j : Nat) : (s.bump f n i j).cnt = s.cnt := by rfl
@[simp] theorem bump_freeCtr (f : FRef) (n i j : Nat) : (s.bump f n i j).freeCtr = s.freeCtr := by rfl
@[simp] theorem bump_phase (f : FRef) (n i j : Nat) : (s.bump f n i j).phase = s.phase := by rfl
@[simp] theorem bump_latch (f : FRef) (n i j : Nat) : (s.bump f n i j).latch = s.latch := by rfl
@[simp] theorem bump_sess (f : FRef) (n i j : Nat) : (s.bump f n i j).sess = s.sess := by rfl
@[simp] theorem bump_owner (f : FRef) (n i j : Nat) : (s.bump f n i j).owner = s.owner := by rfl
@[simp] theorem bump_elect (f : FRef) (n i j : Nat) : (s.bump f n i j).elect = s.elect := by rfl
@[simp] theorem bump_ops (f : FRef) (n i j : Nat) : (s.bump f n i j).ops = s.ops := by rfl
@[simp] theorem bump_reports (f : FRef) (n i j : Nat) : (s.bump f n i j).reports = s.reports := by rfl
@[simp] theorem bump_shadows (f : FRef) (n i j : Nat) : (s.bump f n i j).shadows = s.shadows := by rfl
@[simp] theorem bump_stalls (f : FRef) (n i j : Nat) : (s.bump f n i j).stalls = s.stalls := by rfl
@[simp] theorem bump_chans (f : FRef) (n i j : Nat) : (s.bump f n i j).chans = s.chans := by rfl
@[simp] theorem bump_queues (f : FRef) (n i j : Nat) : (s.bump f n i j).queues = s.queues := by rfl
@[simp] theorem bump_streams (f : FRef) (n i j : Nat) : (s.bump f n i j).streams = s.streams := by rfl
@[simp] theorem bump_mem (f : FRef) (n i j : Nat) : (s.bump f n i j).mem = s.mem := by rfl
@[simp] theorem bump_psn (f : FRef) (n i j : Nat) : (s.bump f n i j).psn = s.psn := by rfl
@[simp] theorem bump_err (f : FRef) (n i j : Nat) : (s.bump f n i j).err = s.err := by rfl
@[simp] theorem bump_inited (f : FRef) (n i j : Nat) : (s.bump f n i j).inited = s.inited := by rfl
@[simp] theorem bump_dram (f : FRef) (n i j : Nat) : (s.bump f n i j).dram = s.dram := by rfl
@[simp] theorem bump_tack (f : FRef) (n i j : Nat) : (s.bump f n i j).tack = s.tack := by rfl
@[simp] theorem bump_resetAt (f : FRef) (n i j : Nat) : (s.bump f n i j).resetAt = s.resetAt := by rfl
@[simp] theorem bump_rst (f : FRef) (n i j : Nat) : (s.bump f n i j).rst = s.rst := by rfl
@[simp] theorem bump_mig (f : FRef) (n i j : Nat) : (s.bump f n i j).mig = s.mig := by rfl
@[simp] theorem bump_mgt (f : FRef) (n i j : Nat) : (s.bump f n i j).mgt = s.mgt := by rfl

/-! ### raise -/

@[simp] theorem raise_pending (n d : Nat) (b : Bool) (st : Option Nat) : (s.raise n d b st).pending = s.pending := by rfl
@[simp] theorem raise_held (n d : Nat) (b : Bool) (st : Option Nat) : (s.raise n d b st).held = s.held := by rfl
@[simp] theorem raise_resuming (n d : Nat) (b : Bool) (st : Option Nat) : (s.raise n d b st).resuming = s.resuming := by rfl
@[simp] theorem raise_out (n d : Nat) (b : Bool) (st : Option Nat) : (s.raise n d b st).out = s.out := by rfl
@[simp] theorem raise_now (n d : Nat) (b : Bool) (st : Option Nat) : (s.raise n d b st).now = s.now := by rfl
@[simp] theorem raise_cnt (n d : Nat) (b : Bool) (st : Option Nat) : (s.raise n d b st).cnt = s.cnt := by rfl
@[simp] theorem raise_freeCtr (n d : Nat) (b : Bool) (st : Option Nat) : (s.raise n d b st).freeCtr = s.freeCtr := by rfl
@[simp] theorem raise_phase (n d : Nat) (b : Bool) (st : Option Nat) : (s.raise n d b st).phase = s.phase := by rfl
@[simp] theorem raise_regs (n d : Nat) (b : Bool) (st : Option Nat) : (s.raise n d b st).regs = s.regs := by rfl
@[simp] theorem raise_latch (n d : Nat) (b : Bool) (st : Option Nat) : (s.raise n d b st).latch = s.latch := by rfl
@[simp] theorem raise_sess (n d : Nat) (b : Bool) (st : Option Nat) : (s.raise n d b st).sess = s.sess := by rfl
@[simp] theorem raise_owner (n d : Nat) (b : Bool) (st : Option Nat) : (s.raise n d b st).owner = s.owner := by rfl
@[simp] theorem raise_elect (n d : Nat) (b : Bool) (st : Option Nat) : (s.raise n d b st).elect = s.elect := by rfl
@[simp] theorem raise_ops (n d : Nat) (b : Bool) (st : Option Nat) : (s.raise n d b st).ops = s.ops := by rfl
@[simp] theorem raise_shadows (n d : Nat) (b : Bool) (st : Option Nat) : (s.raise n d b st).shadows = s.shadows := by rfl
@[simp] theorem raise_stalls (n d : Nat) (b : Bool) (st : Option Nat) : (s.raise n d b st).stalls = s.stalls := by rfl
@[simp] theorem raise_chans (n d : Nat) (b : Bool) (st : Option Nat) : (s.raise n d b st).chans = s.chans := by rfl
@[simp] theorem raise_queues (n d : Nat) (b : Bool) (st : Option Nat) : (s.raise n d b st).queues = s.queues := by rfl
@[simp] theorem raise_streams (n d : Nat) (b : Bool) (st : Option Nat) : (s.raise n d b st).streams = s.streams := by rfl
@[simp] theorem raise_mem (n d : Nat) (b : Bool) (st : Option Nat) : (s.raise n d b st).mem = s.mem := by rfl
@[simp] theorem raise_psn (n d : Nat) (b : Bool) (st : Option Nat) : (s.raise n d b st).psn = s.psn := by rfl
@[simp] theorem raise_err (n d : Nat) (b : Bool) (st : Option Nat) : (s.raise n d b st).err = s.err := by rfl
@[simp] theorem raise_inited (n d : Nat) (b : Bool) (st : Option Nat) : (s.raise n d b st).inited = s.inited := by rfl
@[simp] theorem raise_dram (n d : Nat) (b : Bool) (st : Option Nat) : (s.raise n d b st).dram = s.dram := by rfl
@[simp] theorem raise_tack (n d : Nat) (b : Bool) (st : Option Nat) : (s.raise n d b st).tack = s.tack := by rfl
@[simp] theorem raise_resetAt (n d : Nat) (b : Bool) (st : Option Nat) : (s.raise n d b st).resetAt = s.resetAt := by rfl
@[simp] theorem raise_rst (n d : Nat) (b : Bool) (st : Option Nat) : (s.raise n d b st).rst = s.rst := by rfl
@[simp] theorem raise_mig (n d : Nat) (b : Bool) (st : Option Nat) : (s.raise n d b st).mig = s.mig := by rfl
@[simp] theorem raise_mgt (n d : Nat) (b : Bool) (st : Option Nat) : (s.raise n d b st).mgt = s.mgt := by rfl

/-! ### setCond -/

@[simp] theorem setCond_pending (n : Nat) (b : Bool) : (s.setCond n b).pending = s.pending := by rfl
@[simp] theorem setCond_held (n : Nat) (b : Bool) : (s.setCond n b).held = s.held := by rfl
@[simp] theorem setCond_resuming (n : Nat) (b : Bool) : (s.setCond n b).resuming = s.resuming := by rfl
@[simp] theorem setCond_out (n : Nat) (b : Bool) : (s.setCond n b).out = s.out := by rfl
@[simp] theorem setCond_now (n : Nat) (b : Bool) : (s.setCond n b).now = s.now := by rfl
@[simp] theorem setCond_cnt (n : Nat) (b : Bool) : (s.setCond n b).cnt = s.cnt := by rfl
@[simp] theorem setCond_freeCtr (n : Nat) (b : Bool) : (s.setCond n b).freeCtr = s.freeCtr := by rfl
@[simp] theorem setCond_phase (n : Nat) (b : Bool) : (s.setCond n b).phase = s.phase := by rfl
@[simp] theorem setCond_regs (n : Nat) (b : Bool) : (s.setCond n b).regs = s.regs := by rfl
@[simp] theorem setCond_latch (n : Nat) (b : Bool) : (s.setCond n b).latch = s.latch := by rfl
@[simp] theorem setCond_sess (n : Nat) (b : Bool) : (s.setCond n b).sess = s.sess := by rfl
@[simp] theorem setCond_owner (n : Nat) (b : Bool) : (s.setCond n b).owner = s.owner := by rfl
@[simp] theorem setCond_elect (n : Nat) (b : Bool) : (s.setCond n b).elect = s.elect := by rfl
@[simp] theorem setCond_ops (n : Nat) (b : Bool) : (s.setCond n b).ops = s.ops := by rfl
@[simp] theorem setCond_reports (n : Nat) (b : Bool) : (s.setCond n b).reports = s.reports := by rfl
@[simp] theorem setCond_shadows (n : Nat) (b : Bool) : (s.setCond n b).shadows = s.shadows := by rfl
@[simp] theorem setCond_stalls (n : Nat) (b : Bool) : (s.setCond n b).stalls = s.stalls := by rfl
@[simp] theorem setCond_chans (n : Nat) (b : Bool) : (s.setCond n b).chans = s.chans := by rfl
@[simp] theorem setCond_queues (n : Nat) (b : Bool) : (s.setCond n b).queues = s.queues := by rfl
@[simp] theorem setCond_streams (n : Nat) (b : Bool) : (s.setCond n b).streams = s.streams := by rfl
@[simp] theorem setCond_mem (n : Nat) (b : Bool) : (s.setCond n b).mem = s.mem := by rfl
@[simp] theorem setCond_psn (n : Nat) (b : Bool) : (s.setCond n b).psn = s.psn := by rfl
@[simp] theorem setCond_err (n : Nat) (b : Bool) : (s.setCond n b).err = s.err := by rfl
@[simp] theorem setCond_inited (n : Nat) (b : Bool) : (s.setCond n b).inited = s.inited := by rfl
@[simp] theorem setCond_dram (n : Nat) (b : Bool) : (s.setCond n b).dram = s.dram := by rfl
@[simp] theorem setCond_tack (n : Nat) (b : Bool) : (s.setCond n b).tack = s.tack := by rfl
@[simp] theorem setCond_resetAt (n : Nat) (b : Bool) : (s.setCond n b).resetAt = s.resetAt := by rfl
@[simp] theorem setCond_rst (n : Nat) (b : Bool) : (s.setCond n b).rst = s.rst := by rfl
@[simp] theorem setCond_mig (n : Nat) (b : Bool) : (s.setCond n b).mig = s.mig := by rfl
@[simp] theorem setCond_mgt (n : Nat) (b : Bool) : (s.setCond n b).mgt = s.mgt := by rfl

/-! ### setLatch -/

@[simp] theorem setLatch_pending (r : R) (v i j : Nat) : (s.setLatch r v i j).pending = s.pending := by rfl
@[simp] theorem setLatch_held (r : R) (v i j : Nat) : (s.setLatch r v i j).held = s.held := by rfl
@[simp] theorem setLatch_resuming (r : R) (v i j : Nat) : (s.setLatch r v i j).resuming = s.resuming := by rfl
@[simp] theorem setLatch_out (r : R) (v i j : Nat) : (s.setLatch r v i j).out = s.out := by rfl
@[simp] theorem setLatch_now (r : R) (v i j : Nat) : (s.setLatch r v i j).now = s.now := by rfl
@[simp] theorem setLatch_cnt (r : R) (v i j : Nat) : (s.setLatch r v i j).cnt = s.cnt := by rfl
@[simp] theorem setLatch_freeCtr (r : R) (v i j : Nat) : (s.setLatch r v i j).freeCtr = s.freeCtr := by rfl
@[simp] theorem setLatch_phase (r : R) (v i j : Nat) : (s.setLatch r v i j).phase = s.phase := by rfl
@[simp] theorem setLatch_regs (r : R) (v i j : Nat) : (s.setLatch r v i j).regs = s.regs := by rfl
@[simp] theorem setLatch_sess (r : R) (v i j : Nat) : (s.setLatch r v i j).sess = s.sess := by rfl
@[simp] theorem setLatch_owner (r : R) (v i j : Nat) : (s.setLatch r v i j).owner = s.owner := by rfl
@[simp] theorem setLatch_elect (r : R) (v i j : Nat) : (s.setLatch r v i j).elect = s.elect := by rfl
@[simp] theorem setLatch_ops (r : R) (v i j : Nat) : (s.setLatch r v i j).ops = s.ops := by rfl
@[simp] theorem setLatch_reports (r : R) (v i j : Nat) : (s.setLatch r v i j).reports = s.reports := by rfl
@[simp] theorem setLatch_shadows (r : R) (v i j : Nat) : (s.setLatch r v i j).shadows = s.shadows := by rfl
@[simp] theorem setLatch_stalls (r : R) (v i j : Nat) : (s.setLatch r v i j).stalls = s.stalls := by rfl
@[simp] theorem setLatch_chans (r : R) (v i j : Nat) : (s.setLatch r v i j).chans = s.chans := by rfl
@[simp] theorem setLatch_queues (r : R) (v i j : Nat) : (s.setLatch r v i j).queues = s.queues := by rfl
@[simp] theorem setLatch_streams (r : R) (v i j : Nat) : (s.setLatch r v i j).streams = s.streams := by rfl
@[simp] theorem setLatch_mem (r : R) (v i j : Nat) : (s.setLatch r v i j).mem = s.mem := by rfl
@[simp] theorem setLatch_psn (r : R) (v i j : Nat) : (s.setLatch r v i j).psn = s.psn := by rfl
@[simp] theorem setLatch_err (r : R) (v i j : Nat) : (s.setLatch r v i j).err = s.err := by rfl
@[simp] theorem setLatch_inited (r : R) (v i j : Nat) : (s.setLatch r v i j).inited = s.inited := by rfl
@[simp] theorem setLatch_dram (r : R) (v i j : Nat) : (s.setLatch r v i j).dram = s.dram := by rfl
@[simp] theorem setLatch_tack (r : R) (v i j : Nat) : (s.setLatch r v i j).tack = s.tack := by rfl
@[simp] theorem setLatch_resetAt (r : R) (v i j : Nat) : (s.setLatch r v i j).resetAt = s.resetAt := by rfl
@[simp] theorem setLatch_rst (r : R) (v i j : Nat) : (s.setLatch r v i j).rst = s.rst := by rfl
@[simp] theorem setLatch_mig (r : R) (v i j : Nat) : (s.setLatch r v i j).mig = s.mig := by rfl
@[simp] theorem setLatch_mgt (r : R) (v i j : Nat) : (s.setLatch r v i j).mgt = s.mgt := by rfl

/-! ### dropLatch -/

@[simp] theorem dropLatch_pending (r : R) (i j : Nat) : (s.dropLatch r i j).pending = s.pending := by rfl
@[simp] theorem dropLatch_held (r : R) (i j : Nat) : (s.dropLatch r i j).held = s.held := by rfl
@[simp] theorem dropLatch_resuming (r : R) (i j : Nat) : (s.dropLatch r i j).resuming = s.resuming := by rfl
@[simp] theorem dropLatch_out (r : R) (i j : Nat) : (s.dropLatch r i j).out = s.out := by rfl
@[simp] theorem dropLatch_now (r : R) (i j : Nat) : (s.dropLatch r i j).now = s.now := by rfl
@[simp] theorem dropLatch_cnt (r : R) (i j : Nat) : (s.dropLatch r i j).cnt = s.cnt := by rfl
@[simp] theorem dropLatch_freeCtr (r : R) (i j : Nat) : (s.dropLatch r i j).freeCtr = s.freeCtr := by rfl
@[simp] theorem dropLatch_phase (r : R) (i j : Nat) : (s.dropLatch r i j).phase = s.phase := by rfl
@[simp] theorem dropLatch_regs (r : R) (i j : Nat) : (s.dropLatch r i j).regs = s.regs := by rfl
@[simp] theorem dropLatch_sess (r : R) (i j : Nat) : (s.dropLatch r i j).sess = s.sess := by rfl
@[simp] theorem dropLatch_owner (r : R) (i j : Nat) : (s.dropLatch r i j).owner = s.owner := by rfl
@[simp] theorem dropLatch_elect (r : R) (i j : Nat) : (s.dropLatch r i j).elect = s.elect := by rfl
@[simp] theorem dropLatch_ops (r : R) (i j : Nat) : (s.dropLatch r i j).ops = s.ops := by rfl
@[simp] theorem dropLatch_reports (r : R) (i j : Nat) : (s.dropLatch r i j).reports = s.reports := by rfl
@[simp] theorem dropLatch_shadows (r : R) (i j : Nat) : (s.dropLatch r i j).shadows = s.shadows := by rfl
@[simp] theorem dropLatch_stalls (r : R) (i j : Nat) : (s.dropLatch r i j).stalls = s.stalls := by rfl
@[simp] theorem dropLatch_chans (r : R) (i j : Nat) : (s.dropLatch r i j).chans = s.chans := by rfl
@[simp] theorem dropLatch_queues (r : R) (i j : Nat) : (s.dropLatch r i j).queues = s.queues := by rfl
@[simp] theorem dropLatch_streams (r : R) (i j : Nat) : (s.dropLatch r i j).streams = s.streams := by rfl
@[simp] theorem dropLatch_mem (r : R) (i j : Nat) : (s.dropLatch r i j).mem = s.mem := by rfl
@[simp] theorem dropLatch_psn (r : R) (i j : Nat) : (s.dropLatch r i j).psn = s.psn := by rfl
@[simp] theorem dropLatch_err (r : R) (i j : Nat) : (s.dropLatch r i j).err = s.err := by rfl
@[simp] theorem dropLatch_inited (r : R) (i j : Nat) : (s.dropLatch r i j).inited = s.inited := by rfl
@[simp] theorem dropLatch_dram (r : R) (i j : Nat) : (s.dropLatch r i j).dram = s.dram := by rfl
@[simp] theorem dropLatch_tack (r : R) (i j : Nat) : (s.dropLatch r i j).tack = s.tack := by rfl
@[simp] theorem dropLatch_resetAt (r : R) (i j : Nat) : (s.dropLatch r i j).resetAt = s.resetAt := by rfl
@[simp] theorem dropLatch_rst (r : R) (i j : Nat) : (s.dropLatch r i j).rst = s.rst := by rfl
@[simp] theorem dropLatch_mig (r : R) (i j : Nat) : (s.dropLatch r i j).mig = s.mig := by rfl
@[simp] theorem dropLatch_mgt (r : R) (i j : Nat) : (s.dropLatch r i j).mgt = s.mgt := by rfl

/-! ### draw -/

@[simp] theorem draw_pending (w : Nat) : (s.draw w).2.pending = s.pending := by rfl
@[simp] theorem draw_held (w : Nat) : (s.draw w).2.held = s.held := by rfl
@[simp] theorem draw_resuming (w : Nat) : (s.draw w).2.resuming = s.resuming := by rfl
@[simp] theorem draw_out (w : Nat) : (s.draw w).2.out = s.out := by rfl
@[simp] theorem draw_now (w : Nat) : (s.draw w).2.now = s.now := by rfl
@[simp] theorem draw_cnt (w : Nat) : (s.draw w).2.cnt = s.cnt := by rfl
@[simp] theorem draw_phase (w : Nat) : (s.draw w).2.phase = s.phase := by rfl
@[simp] theorem draw_regs (w : Nat) : (s.draw w).2.regs = s.regs := by rfl
@[simp] theorem draw_latch (w : Nat) : (s.draw w).2.latch = s.latch := by rfl
@[simp] theorem draw_sess (w : Nat) : (s.draw w).2.sess = s.sess := by rfl
@[simp] theorem draw_owner (w : Nat) : (s.draw w).2.owner = s.owner := by rfl
@[simp] theorem draw_elect (w : Nat) : (s.draw w).2.elect = s.elect := by rfl
@[simp] theorem draw_ops (w : Nat) : (s.draw w).2.ops = s.ops := by rfl
@[simp] theorem draw_reports (w : Nat) : (s.draw w).2.reports = s.reports := by rfl
@[simp] theorem draw_shadows (w : Nat) : (s.draw w).2.shadows = s.shadows := by rfl
@[simp] theorem draw_stalls (w : Nat) : (s.draw w).2.stalls = s.stalls := by rfl
@[simp] theorem draw_chans (w : Nat) : (s.draw w).2.chans = s.chans := by rfl
@[simp] theorem draw_queues (w : Nat) : (s.draw w).2.queues = s.queues := by rfl
@[simp] theorem draw_streams (w : Nat) : (s.draw w).2.streams = s.streams := by rfl
@[simp] theorem draw_mem (w : Nat) : (s.draw w).2.mem = s.mem := by rfl
@[simp] theorem draw_psn (w : Nat) : (s.draw w).2.psn = s.psn := by rfl
@[simp] theorem draw_err (w : Nat) : (s.draw w).2.err = s.err := by rfl
@[simp] theorem draw_inited (w : Nat) : (s.draw w).2.inited = s.inited := by rfl
@[simp] theorem draw_dram (w : Nat) : (s.draw w).2.dram = s.dram := by rfl
@[simp] theorem draw_tack (w : Nat) : (s.draw w).2.tack = s.tack := by rfl
@[simp] theorem draw_resetAt (w : Nat) : (s.draw w).2.resetAt = s.resetAt := by rfl
@[simp] theorem draw_rst (w : Nat) : (s.draw w).2.rst = s.rst := by rfl
@[simp] theorem draw_mig (w : Nat) : (s.draw w).2.mig = s.mig := by rfl
@[simp] theorem draw_mgt (w : Nat) : (s.draw w).2.mgt = s.mgt := by rfl

/-! ### Time -/

@[simp] theorem advTo_pending (t : Nat) : (s.advTo t).pending = s.pending := by unfold State.advTo; split <;> rfl
@[simp] theorem advTo_held (t : Nat) : (s.advTo t).held = s.held := by unfold State.advTo; split <;> rfl
@[simp] theorem advTo_resuming (t : Nat) : (s.advTo t).resuming = s.resuming := by unfold State.advTo; split <;> rfl
@[simp] theorem advTo_out (t : Nat) : (s.advTo t).out = s.out := by unfold State.advTo; split <;> rfl
@[simp] theorem advTo_freeCtr (t : Nat) : (s.advTo t).freeCtr = s.freeCtr := by unfold State.advTo; split <;> rfl
@[simp] theorem advTo_phase (t : Nat) : (s.advTo t).phase = s.phase := by unfold State.advTo; split <;> rfl
@[simp] theorem advTo_regs (t : Nat) : (s.advTo t).regs = s.regs := by unfold State.advTo; split <;> rfl
@[simp] theorem advTo_latch (t : Nat) : (s.advTo t).latch = s.latch := by unfold State.advTo; split <;> rfl
@[simp] theorem advTo_sess (t : Nat) : (s.advTo t).sess = s.sess := by unfold State.advTo; split <;> rfl
@[simp] theorem advTo_owner (t : Nat) : (s.advTo t).owner = s.owner := by unfold State.advTo; split <;> rfl
@[simp] theorem advTo_elect (t : Nat) : (s.advTo t).elect = s.elect := by unfold State.advTo; split <;> rfl
@[simp] theorem advTo_ops (t : Nat) : (s.advTo t).ops = s.ops := by unfold State.advTo; split <;> rfl
@[simp] theorem advTo_reports (t : Nat) : (s.advTo t).reports = s.reports := by unfold State.advTo; split <;> rfl
@[simp] theorem advTo_shadows (t : Nat) : (s.advTo t).shadows = s.shadows := by unfold State.advTo; split <;> rfl
@[simp] theorem advTo_stalls (t : Nat) : (s.advTo t).stalls = s.stalls := by unfold State.advTo; split <;> rfl
@[simp] theorem advTo_chans (t : Nat) : (s.advTo t).chans = s.chans := by unfold State.advTo; split <;> rfl
@[simp] theorem advTo_queues (t : Nat) : (s.advTo t).queues = s.queues := by unfold State.advTo; split <;> rfl
@[simp] theorem advTo_streams (t : Nat) : (s.advTo t).streams = s.streams := by unfold State.advTo; split <;> rfl
@[simp] theorem advTo_mem (t : Nat) : (s.advTo t).mem = s.mem := by unfold State.advTo; split <;> rfl
@[simp] theorem advTo_psn (t : Nat) : (s.advTo t).psn = s.psn := by unfold State.advTo; split <;> rfl
@[simp] theorem advTo_err (t : Nat) : (s.advTo t).err = s.err := by unfold State.advTo; split <;> rfl
@[simp] theorem advTo_inited (t : Nat) : (s.advTo t).inited = s.inited := by unfold State.advTo; split <;> rfl
@[simp] theorem advTo_dram (t : Nat) : (s.advTo t).dram = s.dram := by unfold State.advTo; split <;> rfl
@[simp] theorem advTo_tack (t : Nat) : (s.advTo t).tack = s.tack := by unfold State.advTo; split <;> rfl
@[simp] theorem advTo_resetAt (t : Nat) : (s.advTo t).resetAt = s.resetAt := by unfold State.advTo; split <;> rfl
@[simp] theorem advTo_rst (t : Nat) : (s.advTo t).rst = s.rst := by unfold State.advTo; split <;> rfl
@[simp] theorem advTo_mig (t : Nat) : (s.advTo t).mig = s.mig := by unfold State.advTo; split <;> rfl
@[simp] theorem advTo_mgt (t : Nat) : (s.advTo t).mgt = s.mgt := by unfold State.advTo; split <;> rfl
@[simp] theorem advTo_now (t : Nat) : (s.advTo t).now = max s.now t := by
  unfold State.advTo
  split
  · show t = _
    omega
  · omega

/-! ### Accessors after their setters -/

theorem stall_setStall_ne {k k' : Nat} (v : Stall) (h : k' ≠ k) : (s.setStall k v).stall k' = s.stall k' := mget_mset_ne _ _ v h
theorem chan_setChan_ne {k k' : Nat} (v : Chan) (h : k' ≠ k) : (s.setChan k v).chan k' = s.chan k' := mget_mset_ne _ _ v h
theorem framer_setFramer_ne {k k' : Nat} (v : Framer) (h : k' ≠ k) : (s.setFramer k v).framer k' = s.framer k' := mget_mset_ne _ _ v h
theorem queue_setQueue_ne {k k' : Nat} (v : QState) (h : k' ≠ k) : (s.setQueue k v).queue k' = s.queue k' := mget_mset_ne _ _ v h
theorem stream_setStream_ne {k k' : Nat} (v : Option Stream) (h : k' ≠ k) : (s.setStream k v).stream k' = s.stream k' := mget_mset_ne _ _ v h
@[simp] theorem stream_setStream_some (k : Nat) (v : Stream) : (s.setStream k (some v)).stream k = some v :=
  mget_mset_listed _ _ k (by simp)
theorem lane_setLane_ne {k k' : Nat} (v : Lane) (h : k' ≠ k) : (s.setLane k v).lane k' = s.lane k' := mget_mset_ne _ _ v h
theorem session_setSession_ne {k k' : Nat} (v : Option Session) (h : k' ≠ k) : (s.setSession k v).session k' = s.session k' := mget_mset_ne _ _ v h
@[simp] theorem session_setSession_some (k : Nat) (v : Session) : (s.setSession k (some v)).session k = some v :=
  mget_mset_listed _ _ k (by simp)
theorem ownerOf_setOwner_ne {k k' : Nat} (v : Option Nat) (h : k' ≠ k) : (s.setOwner k v).ownerOf k' = s.ownerOf k' := mget_mset_ne _ _ v h
@[simp] theorem ownerOf_setOwner_some (k : Nat) (v : Nat) : (s.setOwner k (some v)).ownerOf k = some v :=
  mget_mset_listed _ _ k (by simp)
theorem election_setElection_ne {k k' : Nat} (v : Option Election) (h : k' ≠ k) : (s.setElection k v).election k' = s.election k' := mget_mset_ne _ _ v h
@[simp] theorem election_setElection_some (k : Nat) (v : Election) : (s.setElection k (some v)).election k = some v :=
  mget_mset_listed _ _ k (by simp)
theorem op_setOp_ne {k k' : Nat} (v : Option OpRec) (h : k' ≠ k) : (s.setOp k v).op k' = s.op k' := mget_mset_ne _ _ v h
@[simp] theorem op_setOp_some (k : Nat) (v : OpRec) : (s.setOp k (some v)).op k = some v :=
  mget_mset_listed _ _ k (by simp)
theorem tim_setTim_ne {k k' : Nat} (v : Tim) (h : k' ≠ k) : (s.setTim k v).tim k' = s.tim k' := mget_mset_ne _ _ v h
theorem flt_setFlt_ne {k k' : Nat} (v : Flt) (h : k' ≠ k) : (s.setFlt k v).flt k' = s.flt k' := mget_mset_ne _ _ v h
theorem core_setCore_ne {k k' : Nat} (v : Core) (h : k' ≠ k) : (s.setCore k v).core k' = s.core k' := mget_mset_ne _ _ v h
theorem flow_setFlow_ne {k k' : Nat} (v : Flow) (h : k' ≠ k) : (s.setFlow k v).flow k' = s.flow k' := mget_mset_ne _ _ v h
theorem pesm_setPesm_ne {k k' : Nat} (v : Pes) (h : k' ≠ k) : (s.setPesm k v).pesm k' = s.pesm k' := mget_mset_ne _ _ v h
theorem alarm_setAlarm_ne {k k' : Nat} (v : Option Alarm) (h : k' ≠ k) : (s.setAlarm k v).alarm k' = s.alarm k' := mget_mset_ne _ _ v h
@[simp] theorem alarm_setAlarm_some (k : Nat) (v : Alarm) : (s.setAlarm k (some v)).alarm k = some v :=
  mget_mset_listed _ _ k (by simp)

end Sys2Proof.Machine
end

