-- ==== Sys2Proof/Laws/Dcp.lean ====
section
/-! SUPPORT. The command engine and the fault collector: what each shared operation can change, the state that an admitted
command sees, and how a command ends. -/

namespace Sys2Proof.Machine

open Sys2Proof

/-! ### The end of a command -/

/-- With no report waiting, a command ends with the sweep of the shadows. -/
theorem settle_calm {s : State} (h : s.reports = []) : s.settle = s.sweepShadows := by
  unfold State.settle
  by_cases hs : s.shadows = []
  · simp [h, hs, State.sweepShadows]
  · simp [h, hs, State.settleN]

/-- With no report waiting, a command answers the state with its shadows swept. -/
theorem done_calm {s : State} (h : s.reports = []) : done s = .next s.sweepShadows := by
  rw [done, settle_calm h]

/-- One step of the sweep changes the shadows only. -/
theorem sweep_fold (l : List Shadow) : ∀ s : State, ∃ k, l.foldl
    (fun (s : State) (x : Shadow) => match x.blk, x.endsAt with
      | .stall st, none => if (s.stall st.val).stops.any (fun p => p.cause == 6) then s else s.closeShadow x.blk
      | _, _ => s) s = { s with shadows := k } := by
  induction l with
  | nil => intro s; exact ⟨s.shadows, rfl⟩
  | cons x t ih =>
    intro s
    simp only [List.foldl_cons]
    split
    · split
      · exact ih s
      · obtain ⟨k, hk⟩ := ih (s.closeShadow x.blk)
        exact ⟨k, hk⟩
    · exact ih s

/-- The sweep changes the shadows only. -/
theorem sweepShadows_eq (s : State) : ∃ k, s.sweepShadows = { s with shadows := k } := sweep_fold s.shadows s

/-- With no shadow open the sweep does nothing. -/
theorem sweepShadows_none {s : State} (h : s.shadows = []) : s.sweepShadows = s := by
  simp [State.sweepShadows, h]

@[simp] theorem sweepShadows_pending (s : State) : s.sweepShadows.pending = s.pending := by
  obtain ⟨k, h⟩ := sweepShadows_eq s; rw [h]
@[simp] theorem sweepShadows_held (s : State) : s.sweepShadows.held = s.held := by
  obtain ⟨k, h⟩ := sweepShadows_eq s; rw [h]
@[simp] theorem sweepShadows_resuming (s : State) : s.sweepShadows.resuming = s.resuming := by
  obtain ⟨k, h⟩ := sweepShadows_eq s; rw [h]
@[simp] theorem sweepShadows_out (s : State) : s.sweepShadows.out = s.out := by
  obtain ⟨k, h⟩ := sweepShadows_eq s; rw [h]
@[simp] theorem sweepShadows_now (s : State) : s.sweepShadows.now = s.now := by
  obtain ⟨k, h⟩ := sweepShadows_eq s; rw [h]
@[simp] theorem sweepShadows_cnt (s : State) : s.sweepShadows.cnt = s.cnt := by
  obtain ⟨k, h⟩ := sweepShadows_eq s; rw [h]
@[simp] theorem sweepShadows_freeCtr (s : State) : s.sweepShadows.freeCtr = s.freeCtr := by
  obtain ⟨k, h⟩ := sweepShadows_eq s; rw [h]
@[simp] theorem sweepShadows_phase (s : State) : s.sweepShadows.phase = s.phase := by
  obtain ⟨k, h⟩ := sweepShadows_eq s; rw [h]
@[simp] theorem sweepShadows_startIn (s : State) : s.sweepShadows.startIn = s.startIn := by
  obtain ⟨k, h⟩ := sweepShadows_eq s; rw [h]
@[simp] theorem sweepShadows_drive (s : State) : s.sweepShadows.drive = s.drive := by
  obtain ⟨k, h⟩ := sweepShadows_eq s; rw [h]
@[simp] theorem sweepShadows_resetAt (s : State) : s.sweepShadows.resetAt = s.resetAt := by
  obtain ⟨k, h⟩ := sweepShadows_eq s; rw [h]
@[simp] theorem sweepShadows_regs (s : State) : s.sweepShadows.regs = s.regs := by
  obtain ⟨k, h⟩ := sweepShadows_eq s; rw [h]
@[simp] theorem sweepShadows_latch (s : State) : s.sweepShadows.latch = s.latch := by
  obtain ⟨k, h⟩ := sweepShadows_eq s; rw [h]
@[simp] theorem sweepShadows_sess (s : State) : s.sweepShadows.sess = s.sess := by
  obtain ⟨k, h⟩ := sweepShadows_eq s; rw [h]
@[simp] theorem sweepShadows_owner (s : State) : s.sweepShadows.owner = s.owner := by
  obtain ⟨k, h⟩ := sweepShadows_eq s; rw [h]
@[simp] theorem sweepShadows_elect (s : State) : s.sweepShadows.elect = s.elect := by
  obtain ⟨k, h⟩ := sweepShadows_eq s; rw [h]
@[simp] theorem sweepShadows_ops (s : State) : s.sweepShadows.ops = s.ops := by
  obtain ⟨k, h⟩ := sweepShadows_eq s; rw [h]
@[simp] theorem sweepShadows_ownEff (s : State) : s.sweepShadows.ownEff = s.ownEff := by
  obtain ⟨k, h⟩ := sweepShadows_eq s; rw [h]
@[simp] theorem sweepShadows_ownAt (s : State) : s.sweepShadows.ownAt = s.ownAt := by
  obtain ⟨k, h⟩ := sweepShadows_eq s; rw [h]
@[simp] theorem sweepShadows_lanes (s : State) : s.sweepShadows.lanes = s.lanes := by
  obtain ⟨k, h⟩ := sweepShadows_eq s; rw [h]
@[simp] theorem sweepShadows_reports (s : State) : s.sweepShadows.reports = s.reports := by
  obtain ⟨k, h⟩ := sweepShadows_eq s; rw [h]
@[simp] theorem sweepShadows_condOn (s : State) : s.sweepShadows.condOn = s.condOn := by
  obtain ⟨k, h⟩ := sweepShadows_eq s; rw [h]
@[simp] theorem sweepShadows_rst (s : State) : s.sweepShadows.rst = s.rst := by
  obtain ⟨k, h⟩ := sweepShadows_eq s; rw [h]
@[simp] theorem sweepShadows_stalls (s : State) : s.sweepShadows.stalls = s.stalls := by
  obtain ⟨k, h⟩ := sweepShadows_eq s; rw [h]
@[simp] theorem sweepShadows_chans (s : State) : s.sweepShadows.chans = s.chans := by
  obtain ⟨k, h⟩ := sweepShadows_eq s; rw [h]
@[simp] theorem sweepShadows_framers (s : State) : s.sweepShadows.framers = s.framers := by
  obtain ⟨k, h⟩ := sweepShadows_eq s; rw [h]
@[simp] theorem sweepShadows_queues (s : State) : s.sweepShadows.queues = s.queues := by
  obtain ⟨k, h⟩ := sweepShadows_eq s; rw [h]
@[simp] theorem sweepShadows_streams (s : State) : s.sweepShadows.streams = s.streams := by
  obtain ⟨k, h⟩ := sweepShadows_eq s; rw [h]
@[simp] theorem sweepShadows_mem (s : State) : s.sweepShadows.mem = s.mem := by
  obtain ⟨k, h⟩ := sweepShadows_eq s; rw [h]
@[simp] theorem sweepShadows_psn (s : State) : s.sweepShadows.psn = s.psn := by
  obtain ⟨k, h⟩ := sweepShadows_eq s; rw [h]
@[simp] theorem sweepShadows_err (s : State) : s.sweepShadows.err = s.err := by
  obtain ⟨k, h⟩ := sweepShadows_eq s; rw [h]
@[simp] theorem sweepShadows_inited (s : State) : s.sweepShadows.inited = s.inited := by
  obtain ⟨k, h⟩ := sweepShadows_eq s; rw [h]
@[simp] theorem sweepShadows_dram (s : State) : s.sweepShadows.dram = s.dram := by
  obtain ⟨k, h⟩ := sweepShadows_eq s; rw [h]
@[simp] theorem sweepShadows_mig (s : State) : s.sweepShadows.mig = s.mig := by
  obtain ⟨k, h⟩ := sweepShadows_eq s; rw [h]
@[simp] theorem sweepShadows_tack (s : State) : s.sweepShadows.tack = s.tack := by
  obtain ⟨k, h⟩ := sweepShadows_eq s; rw [h]
@[simp] theorem sweepShadows_tims (s : State) : s.sweepShadows.tims = s.tims := by
  obtain ⟨k, h⟩ := sweepShadows_eq s; rw [h]
@[simp] theorem sweepShadows_flts (s : State) : s.sweepShadows.flts = s.flts := by
  obtain ⟨k, h⟩ := sweepShadows_eq s; rw [h]
@[simp] theorem sweepShadows_ofs (s : State) : s.sweepShadows.ofs = s.ofs := by
  obtain ⟨k, h⟩ := sweepShadows_eq s; rw [h]
@[simp] theorem sweepShadows_rate (s : State) : s.sweepShadows.rate = s.rate := by
  obtain ⟨k, h⟩ := sweepShadows_eq s; rw [h]
@[simp] theorem sweepShadows_alarms (s : State) : s.sweepShadows.alarms = s.alarms := by
  obtain ⟨k, h⟩ := sweepShadows_eq s; rw [h]
@[simp] theorem sweepShadows_tmpl (s : State) : s.sweepShadows.tmpl = s.tmpl := by
  obtain ⟨k, h⟩ := sweepShadows_eq s; rw [h]
@[simp] theorem sweepShadows_mods (s : State) : s.sweepShadows.mods = s.mods := by
  obtain ⟨k, h⟩ := sweepShadows_eq s; rw [h]
@[simp] theorem sweepShadows_insts (s : State) : s.sweepShadows.insts = s.insts := by
  obtain ⟨k, h⟩ := sweepShadows_eq s; rw [h]
@[simp] theorem sweepShadows_flows (s : State) : s.sweepShadows.flows = s.flows := by
  obtain ⟨k, h⟩ := sweepShadows_eq s; rw [h]
@[simp] theorem sweepShadows_cores (s : State) : s.sweepShadows.cores = s.cores := by
  obtain ⟨k, h⟩ := sweepShadows_eq s; rw [h]
@[simp] theorem sweepShadows_cal (s : State) : s.sweepShadows.cal = s.cal := by
  obtain ⟨k, h⟩ := sweepShadows_eq s; rw [h]
@[simp] theorem sweepShadows_tests (s : State) : s.sweepShadows.tests = s.tests := by
  obtain ⟨k, h⟩ := sweepShadows_eq s; rw [h]
@[simp] theorem sweepShadows_pes (s : State) : s.sweepShadows.pes = s.pes := by
  obtain ⟨k, h⟩ := sweepShadows_eq s; rw [h]
@[simp] theorem sweepShadows_mgt (s : State) : s.sweepShadows.mgt = s.mgt := by
  obtain ⟨k, h⟩ := sweepShadows_eq s; rw [h]
@[simp] theorem sweepShadows_trigOut (s : State) : s.sweepShadows.trigOut = s.trigOut := by
  obtain ⟨k, h⟩ := sweepShadows_eq s; rw [h]
@[simp] theorem sweepShadows_tout (s : State) : s.sweepShadows.tout = s.tout := by
  obtain ⟨k, h⟩ := sweepShadows_eq s; rw [h]

/-! ### Sending -/

/-- Sending a message changes what was sent, the lane's counters and the management target only. -/
theorem sendDcp_eq (s : State) (b : Binding) (m : Msg) :
    ∃ o r g, s.sendDcp b m = { s with out := o, regs := r, mgt := g } := by
  unfold State.sendDcp
  split
  · unfold State.offer
    split
    · exact ⟨_, _, s.mgt, rfl⟩
    · exact ⟨s.out, _, s.mgt, rfl⟩
  · split
    · exact ⟨s.out, s.regs, _, rfl⟩
    · exact ⟨s.out, s.regs, s.mgt, rfl⟩

/-- Sending a reply changes what was sent, the lane's counters, the management target and the sessions only. -/
theorem replyTo_eq (s : State) (n : Nat) (op : BitVec 16) (q : BitVec 32) (t : BitVec 8) (c : Nat) (p : List Byte) :
    ∃ o r g e, s.replyTo n op q t c p = { s with out := o, regs := r, mgt := g, sess := e } := by
  unfold State.replyTo
  split
  · exact ⟨s.out, s.regs, s.mgt, s.sess, rfl⟩
  · next x _ =>
    simp only
    generalize hm : (⟨.reply, false, s.handle (some n), q, t, op, BitVec.ofNat 16 c, p⟩ : Msg) = m
    obtain ⟨o, r, g, h⟩ := sendDcp_eq (s.setSession n (some { x with cache := (m :: x.cache).take cacheSize })) x.bind m
    exact ⟨o, r, g, _, h⟩

/-- Sending an event changes what was sent, the counters, the management target and the sessions only. -/
theorem event_eq (s : State) (to_ : Option Nat) (c t : Nat) (p : List Byte) :
    ∃ o r g e, s.event to_ c t p = { s with out := o, regs := r, mgt := g, sess := e } := by
  unfold State.event
  split
  · exact ⟨s.out, _, s.mgt, s.sess, rfl⟩
  · split
    · exact ⟨s.out, _, s.mgt, s.sess, rfl⟩
    · rename_i n _ x _
      generalize hm : (⟨.event, false, s.handle (some n), x.evSeq, BitVec.ofNat 8 t, BitVec.ofNat 16 c, 0, p⟩ : Msg) = m
      obtain ⟨o, r, g, h⟩ := sendDcp_eq (s.setSession n (some { x with evSeq := x.evSeq + 1 })) x.bind m
      exact ⟨o, r, g, _, h⟩

@[simp] theorem sendDcp_pending (s : State) (b : Binding) (m : Msg) : (s.sendDcp b m).pending = s.pending := by
  obtain ⟨_, _, _, h⟩ := sendDcp_eq s b m; rw [h]
@[simp] theorem replyTo_pending (s : State) (n : Nat) (op : BitVec 16) (q : BitVec 32) (t : BitVec 8) (c : Nat)
    (p : List Byte) : (s.replyTo n op q t c p).pending = s.pending := by
  obtain ⟨_, _, _, _, h⟩ := replyTo_eq s n op q t c p; rw [h]
@[simp] theorem event_pending (s : State) (to_ : Option Nat) (c t : Nat) (p : List Byte) :
    (s.event to_ c t p).pending = s.pending := by
  obtain ⟨_, _, _, _, h⟩ := event_eq s to_ c t p; rw [h]
@[simp] theorem sendDcp_held (s : State) (b : Binding) (m : Msg) : (s.sendDcp b m).held = s.held := by
  obtain ⟨_, _, _, h⟩ := sendDcp_eq s b m; rw [h]
@[simp] theorem replyTo_held (s : State) (n : Nat) (op : BitVec 16) (q : BitVec 32) (t : BitVec 8) (c : Nat)
    (p : List Byte) : (s.replyTo n op q t c p).held = s.held := by
  obtain ⟨_, _, _, _, h⟩ := replyTo_eq s n op q t c p; rw [h]
@[simp] theorem event_held (s : State) (to_ : Option Nat) (c t : Nat) (p : List Byte) :
    (s.event to_ c t p).held = s.held := by
  obtain ⟨_, _, _, _, h⟩ := event_eq s to_ c t p; rw [h]
@[simp] theorem sendDcp_resuming (s : State) (b : Binding) (m : Msg) : (s.sendDcp b m).resuming = s.resuming := by
  obtain ⟨_, _, _, h⟩ := sendDcp_eq s b m; rw [h]
@[simp] theorem replyTo_resuming (s : State) (n : Nat) (op : BitVec 16) (q : BitVec 32) (t : BitVec 8) (c : Nat)
    (p : List Byte) : (s.replyTo n op q t c p).resuming = s.resuming := by
  obtain ⟨_, _, _, _, h⟩ := replyTo_eq s n op q t c p; rw [h]
@[simp] theorem event_resuming (s : State) (to_ : Option Nat) (c t : Nat) (p : List Byte) :
    (s.event to_ c t p).resuming = s.resuming := by
  obtain ⟨_, _, _, _, h⟩ := event_eq s to_ c t p; rw [h]
@[simp] theorem sendDcp_now (s : State) (b : Binding) (m : Msg) : (s.sendDcp b m).now = s.now := by
  obtain ⟨_, _, _, h⟩ := sendDcp_eq s b m; rw [h]
@[simp] theorem replyTo_now (s : State) (n : Nat) (op : BitVec 16) (q : BitVec 32) (t : BitVec 8) (c : Nat)
    (p : List Byte) : (s.replyTo n op q t c p).now = s.now := by
  obtain ⟨_, _, _, _, h⟩ := replyTo_eq s n op q t c p; rw [h]
@[simp] theorem event_now (s : State) (to_ : Option Nat) (c t : Nat) (p : List Byte) :
    (s.event to_ c t p).now = s.now := by
  obtain ⟨_, _, _, _, h⟩ := event_eq s to_ c t p; rw [h]
@[simp] theorem sendDcp_cnt (s : State) (b : Binding) (m : Msg) : (s.sendDcp b m).cnt = s.cnt := by
  obtain ⟨_, _, _, h⟩ := sendDcp_eq s b m; rw [h]
@[simp] theorem replyTo_cnt (s : State) (n : Nat) (op : BitVec 16) (q : BitVec 32) (t : BitVec 8) (c : Nat)
    (p : List Byte) : (s.replyTo n op q t c p).cnt = s.cnt := by
  obtain ⟨_, _, _, _, h⟩ := replyTo_eq s n op q t c p; rw [h]
@[simp] theorem event_cnt (s : State) (to_ : Option Nat) (c t : Nat) (p : List Byte) :
    (s.event to_ c t p).cnt = s.cnt := by
  obtain ⟨_, _, _, _, h⟩ := event_eq s to_ c t p; rw [h]
@[simp] theorem sendDcp_freeCtr (s : State) (b : Binding) (m : Msg) : (s.sendDcp b m).freeCtr = s.freeCtr := by
  obtain ⟨_, _, _, h⟩ := sendDcp_eq s b m; rw [h]
@[simp] theorem replyTo_freeCtr (s : State) (n : Nat) (op : BitVec 16) (q : BitVec 32) (t : BitVec 8) (c : Nat)
    (p : List Byte) : (s.replyTo n op q t c p).freeCtr = s.freeCtr := by
  obtain ⟨_, _, _, _, h⟩ := replyTo_eq s n op q t c p; rw [h]
@[simp] theorem event_freeCtr (s : State) (to_ : Option Nat) (c t : Nat) (p : List Byte) :
    (s.event to_ c t p).freeCtr = s.freeCtr := by
  obtain ⟨_, _, _, _, h⟩ := event_eq s to_ c t p; rw [h]
@[simp] theorem sendDcp_phase (s : State) (b : Binding) (m : Msg) : (s.sendDcp b m).phase = s.phase := by
  obtain ⟨_, _, _, h⟩ := sendDcp_eq s b m; rw [h]
@[simp] theorem replyTo_phase (s : State) (n : Nat) (op : BitVec 16) (q : BitVec 32) (t : BitVec 8) (c : Nat)
    (p : List Byte) : (s.replyTo n op q t c p).phase = s.phase := by
  obtain ⟨_, _, _, _, h⟩ := replyTo_eq s n op q t c p; rw [h]
@[simp] theorem event_phase (s : State) (to_ : Option Nat) (c t : Nat) (p : List Byte) :
    (s.event to_ c t p).phase = s.phase := by
  obtain ⟨_, _, _, _, h⟩ := event_eq s to_ c t p; rw [h]
@[simp] theorem sendDcp_startIn (s : State) (b : Binding) (m : Msg) : (s.sendDcp b m).startIn = s.startIn := by
  obtain ⟨_, _, _, h⟩ := sendDcp_eq s b m; rw [h]
@[simp] theorem replyTo_startIn (s : State) (n : Nat) (op : BitVec 16) (q : BitVec 32) (t : BitVec 8) (c : Nat)
    (p : List Byte) : (s.replyTo n op q t c p).startIn = s.startIn := by
  obtain ⟨_, _, _, _, h⟩ := replyTo_eq s n op q t c p; rw [h]
@[simp] theorem event_startIn (s : State) (to_ : Option Nat) (c t : Nat) (p : List Byte) :
    (s.event to_ c t p).startIn = s.startIn := by
  obtain ⟨_, _, _, _, h⟩ := event_eq s to_ c t p; rw [h]
@[simp] theorem sendDcp_drive (s : State) (b : Binding) (m : Msg) : (s.sendDcp b m).drive = s.drive := by
  obtain ⟨_, _, _, h⟩ := sendDcp_eq s b m; rw [h]
@[simp] theorem replyTo_drive (s : State) (n : Nat) (op : BitVec 16) (q : BitVec 32) (t : BitVec 8) (c : Nat)
    (p : List Byte) : (s.replyTo n op q t c p).drive = s.drive := by
  obtain ⟨_, _, _, _, h⟩ := replyTo_eq s n op q t c p; rw [h]
@[simp] theorem event_drive (s : State) (to_ : Option Nat) (c t : Nat) (p : List Byte) :
    (s.event to_ c t p).drive = s.drive := by
  obtain ⟨_, _, _, _, h⟩ := event_eq s to_ c t p; rw [h]
@[simp] theorem sendDcp_resetAt (s : State) (b : Binding) (m : Msg) : (s.sendDcp b m).resetAt = s.resetAt := by
  obtain ⟨_, _, _, h⟩ := sendDcp_eq s b m; rw [h]
@[simp] theorem replyTo_resetAt (s : State) (n : Nat) (op : BitVec 16) (q : BitVec 32) (t : BitVec 8) (c : Nat)
    (p : List Byte) : (s.replyTo n op q t c p).resetAt = s.resetAt := by
  obtain ⟨_, _, _, _, h⟩ := replyTo_eq s n op q t c p; rw [h]
@[simp] theorem event_resetAt (s : State) (to_ : Option Nat) (c t : Nat) (p : List Byte) :
    (s.event to_ c t p).resetAt = s.resetAt := by
  obtain ⟨_, _, _, _, h⟩ := event_eq s to_ c t p; rw [h]
@[simp] theorem sendDcp_latch (s : State) (b : Binding) (m : Msg) : (s.sendDcp b m).latch = s.latch := by
  obtain ⟨_, _, _, h⟩ := sendDcp_eq s b m; rw [h]
@[simp] theorem replyTo_latch (s : State) (n : Nat) (op : BitVec 16) (q : BitVec 32) (t : BitVec 8) (c : Nat)
    (p : List Byte) : (s.replyTo n op q t c p).latch = s.latch := by
  obtain ⟨_, _, _, _, h⟩ := replyTo_eq s n op q t c p; rw [h]
@[simp] theorem event_latch (s : State) (to_ : Option Nat) (c t : Nat) (p : List Byte) :
    (s.event to_ c t p).latch = s.latch := by
  obtain ⟨_, _, _, _, h⟩ := event_eq s to_ c t p; rw [h]
@[simp] theorem sendDcp_owner (s : State) (b : Binding) (m : Msg) : (s.sendDcp b m).owner = s.owner := by
  obtain ⟨_, _, _, h⟩ := sendDcp_eq s b m; rw [h]
@[simp] theorem replyTo_owner (s : State) (n : Nat) (op : BitVec 16) (q : BitVec 32) (t : BitVec 8) (c : Nat)
    (p : List Byte) : (s.replyTo n op q t c p).owner = s.owner := by
  obtain ⟨_, _, _, _, h⟩ := replyTo_eq s n op q t c p; rw [h]
@[simp] theorem event_owner (s : State) (to_ : Option Nat) (c t : Nat) (p : List Byte) :
    (s.event to_ c t p).owner = s.owner := by
  obtain ⟨_, _, _, _, h⟩ := event_eq s to_ c t p; rw [h]
@[simp] theorem sendDcp_elect (s : State) (b : Binding) (m : Msg) : (s.sendDcp b m).elect = s.elect := by
  obtain ⟨_, _, _, h⟩ := sendDcp_eq s b m; rw [h]
@[simp] theorem replyTo_elect (s : State) (n : Nat) (op : BitVec 16) (q : BitVec 32) (t : BitVec 8) (c : Nat)
    (p : List Byte) : (s.replyTo n op q t c p).elect = s.elect := by
  obtain ⟨_, _, _, _, h⟩ := replyTo_eq s n op q t c p; rw [h]
@[simp] theorem event_elect (s : State) (to_ : Option Nat) (c t : Nat) (p : List Byte) :
    (s.event to_ c t p).elect = s.elect := by
  obtain ⟨_, _, _, _, h⟩ := event_eq s to_ c t p; rw [h]
@[simp] theorem sendDcp_ops (s : State) (b : Binding) (m : Msg) : (s.sendDcp b m).ops = s.ops := by
  obtain ⟨_, _, _, h⟩ := sendDcp_eq s b m; rw [h]
@[simp] theorem replyTo_ops (s : State) (n : Nat) (op : BitVec 16) (q : BitVec 32) (t : BitVec 8) (c : Nat)
    (p : List Byte) : (s.replyTo n op q t c p).ops = s.ops := by
  obtain ⟨_, _, _, _, h⟩ := replyTo_eq s n op q t c p; rw [h]
@[simp] theorem event_ops (s : State) (to_ : Option Nat) (c t : Nat) (p : List Byte) :
    (s.event to_ c t p).ops = s.ops := by
  obtain ⟨_, _, _, _, h⟩ := event_eq s to_ c t p; rw [h]
@[simp] theorem sendDcp_ownEff (s : State) (b : Binding) (m : Msg) : (s.sendDcp b m).ownEff = s.ownEff := by
  obtain ⟨_, _, _, h⟩ := sendDcp_eq s b m; rw [h]
@[simp] theorem replyTo_ownEff (s : State) (n : Nat) (op : BitVec 16) (q : BitVec 32) (t : BitVec 8) (c : Nat)
    (p : List Byte) : (s.replyTo n op q t c p).ownEff = s.ownEff := by
  obtain ⟨_, _, _, _, h⟩ := replyTo_eq s n op q t c p; rw [h]
@[simp] theorem event_ownEff (s : State) (to_ : Option Nat) (c t : Nat) (p : List Byte) :
    (s.event to_ c t p).ownEff = s.ownEff := by
  obtain ⟨_, _, _, _, h⟩ := event_eq s to_ c t p; rw [h]
@[simp] theorem sendDcp_ownAt (s : State) (b : Binding) (m : Msg) : (s.sendDcp b m).ownAt = s.ownAt := by
  obtain ⟨_, _, _, h⟩ := sendDcp_eq s b m; rw [h]
@[simp] theorem replyTo_ownAt (s : State) (n : Nat) (op : BitVec 16) (q : BitVec 32) (t : BitVec 8) (c : Nat)
    (p : List Byte) : (s.replyTo n op q t c p).ownAt = s.ownAt := by
  obtain ⟨_, _, _, _, h⟩ := replyTo_eq s n op q t c p; rw [h]
@[simp] theorem event_ownAt (s : State) (to_ : Option Nat) (c t : Nat) (p : List Byte) :
    (s.event to_ c t p).ownAt = s.ownAt := by
  obtain ⟨_, _, _, _, h⟩ := event_eq s to_ c t p; rw [h]
@[simp] theorem sendDcp_lanes (s : State) (b : Binding) (m : Msg) : (s.sendDcp b m).lanes = s.lanes := by
  obtain ⟨_, _, _, h⟩ := sendDcp_eq s b m; rw [h]
@[simp] theorem replyTo_lanes (s : State) (n : Nat) (op : BitVec 16) (q : BitVec 32) (t : BitVec 8) (c : Nat)
    (p : List Byte) : (s.replyTo n op q t c p).lanes = s.lanes := by
  obtain ⟨_, _, _, _, h⟩ := replyTo_eq s n op q t c p; rw [h]
@[simp] theorem event_lanes (s : State) (to_ : Option Nat) (c t : Nat) (p : List Byte) :
    (s.event to_ c t p).lanes = s.lanes := by
  obtain ⟨_, _, _, _, h⟩ := event_eq s to_ c t p; rw [h]
@[simp] theorem sendDcp_reports (s : State) (b : Binding) (m : Msg) : (s.sendDcp b m).reports = s.reports := by
  obtain ⟨_, _, _, h⟩ := sendDcp_eq s b m; rw [h]
@[simp] theorem replyTo_reports (s : State) (n : Nat) (op : BitVec 16) (q : BitVec 32) (t : BitVec 8) (c : Nat)
    (p : List Byte) : (s.replyTo n op q t c p).reports = s.reports := by
  obtain ⟨_, _, _, _, h⟩ := replyTo_eq s n op q t c p; rw [h]
@[simp] theorem event_reports (s : State) (to_ : Option Nat) (c t : Nat) (p : List Byte) :
    (s.event to_ c t p).reports = s.reports := by
  obtain ⟨_, _, _, _, h⟩ := event_eq s to_ c t p; rw [h]
@[simp] theorem sendDcp_shadows (s : State) (b : Binding) (m : Msg) : (s.sendDcp b m).shadows = s.shadows := by
  obtain ⟨_, _, _, h⟩ := sendDcp_eq s b m; rw [h]
@[simp] theorem replyTo_shadows (s : State) (n : Nat) (op : BitVec 16) (q : BitVec 32) (t : BitVec 8) (c : Nat)
    (p : List Byte) : (s.replyTo n op q t c p).shadows = s.shadows := by
  obtain ⟨_, _, _, _, h⟩ := replyTo_eq s n op q t c p; rw [h]
@[simp] theorem event_shadows (s : State) (to_ : Option Nat) (c t : Nat) (p : List Byte) :
    (s.event to_ c t p).shadows = s.shadows := by
  obtain ⟨_, _, _, _, h⟩ := event_eq s to_ c t p; rw [h]
@[simp] theorem sendDcp_condOn (s : State) (b : Binding) (m : Msg) : (s.sendDcp b m).condOn = s.condOn := by
  obtain ⟨_, _, _, h⟩ := sendDcp_eq s b m; rw [h]
@[simp] theorem replyTo_condOn (s : State) (n : Nat) (op : BitVec 16) (q : BitVec 32) (t : BitVec 8) (c : Nat)
    (p : List Byte) : (s.replyTo n op q t c p).condOn = s.condOn := by
  obtain ⟨_, _, _, _, h⟩ := replyTo_eq s n op q t c p; rw [h]
@[simp] theorem event_condOn (s : State) (to_ : Option Nat) (c t : Nat) (p : List Byte) :
    (s.event to_ c t p).condOn = s.condOn := by
  obtain ⟨_, _, _, _, h⟩ := event_eq s to_ c t p; rw [h]
@[simp] theorem sendDcp_rst (s : State) (b : Binding) (m : Msg) : (s.sendDcp b m).rst = s.rst := by
  obtain ⟨_, _, _, h⟩ := sendDcp_eq s b m; rw [h]
@[simp] theorem replyTo_rst (s : State) (n : Nat) (op : BitVec 16) (q : BitVec 32) (t : BitVec 8) (c : Nat)
    (p : List Byte) : (s.replyTo n op q t c p).rst = s.rst := by
  obtain ⟨_, _, _, _, h⟩ := replyTo_eq s n op q t c p; rw [h]
@[simp] theorem event_rst (s : State) (to_ : Option Nat) (c t : Nat) (p : List Byte) :
    (s.event to_ c t p).rst = s.rst := by
  obtain ⟨_, _, _, _, h⟩ := event_eq s to_ c t p; rw [h]
@[simp] theorem sendDcp_stalls (s : State) (b : Binding) (m : Msg) : (s.sendDcp b m).stalls = s.stalls := by
  obtain ⟨_, _, _, h⟩ := sendDcp_eq s b m; rw [h]
@[simp] theorem replyTo_stalls (s : State) (n : Nat) (op : BitVec 16) (q : BitVec 32) (t : BitVec 8) (c : Nat)
    (p : List Byte) : (s.replyTo n op q t c p).stalls = s.stalls := by
  obtain ⟨_, _, _, _, h⟩ := replyTo_eq s n op q t c p; rw [h]
@[simp] theorem event_stalls (s : State) (to_ : Option Nat) (c t : Nat) (p : List Byte) :
    (s.event to_ c t p).stalls = s.stalls := by
  obtain ⟨_, _, _, _, h⟩ := event_eq s to_ c t p; rw [h]
@[simp] theorem sendDcp_chans (s : State) (b : Binding) (m : Msg) : (s.sendDcp b m).chans = s.chans := by
  obtain ⟨_, _, _, h⟩ := sendDcp_eq s b m; rw [h]
@[simp] theorem replyTo_chans (s : State) (n : Nat) (op : BitVec 16) (q : BitVec 32) (t : BitVec 8) (c : Nat)
    (p : List Byte) : (s.replyTo n op q t c p).chans = s.chans := by
  obtain ⟨_, _, _, _, h⟩ := replyTo_eq s n op q t c p; rw [h]
@[simp] theorem event_chans (s : State) (to_ : Option Nat) (c t : Nat) (p : List Byte) :
    (s.event to_ c t p).chans = s.chans := by
  obtain ⟨_, _, _, _, h⟩ := event_eq s to_ c t p; rw [h]
@[simp] theorem sendDcp_framers (s : State) (b : Binding) (m : Msg) : (s.sendDcp b m).framers = s.framers := by
  obtain ⟨_, _, _, h⟩ := sendDcp_eq s b m; rw [h]
@[simp] theorem replyTo_framers (s : State) (n : Nat) (op : BitVec 16) (q : BitVec 32) (t : BitVec 8) (c : Nat)
    (p : List Byte) : (s.replyTo n op q t c p).framers = s.framers := by
  obtain ⟨_, _, _, _, h⟩ := replyTo_eq s n op q t c p; rw [h]
@[simp] theorem event_framers (s : State) (to_ : Option Nat) (c t : Nat) (p : List Byte) :
    (s.event to_ c t p).framers = s.framers := by
  obtain ⟨_, _, _, _, h⟩ := event_eq s to_ c t p; rw [h]
@[simp] theorem sendDcp_queues (s : State) (b : Binding) (m : Msg) : (s.sendDcp b m).queues = s.queues := by
  obtain ⟨_, _, _, h⟩ := sendDcp_eq s b m; rw [h]
@[simp] theorem replyTo_queues (s : State) (n : Nat) (op : BitVec 16) (q : BitVec 32) (t : BitVec 8) (c : Nat)
    (p : List Byte) : (s.replyTo n op q t c p).queues = s.queues := by
  obtain ⟨_, _, _, _, h⟩ := replyTo_eq s n op q t c p; rw [h]
@[simp] theorem event_queues (s : State) (to_ : Option Nat) (c t : Nat) (p : List Byte) :
    (s.event to_ c t p).queues = s.queues := by
  obtain ⟨_, _, _, _, h⟩ := event_eq s to_ c t p; rw [h]
@[simp] theorem sendDcp_streams (s : State) (b : Binding) (m : Msg) : (s.sendDcp b m).streams = s.streams := by
  obtain ⟨_, _, _, h⟩ := sendDcp_eq s b m; rw [h]
@[simp] theorem replyTo_streams (s : State) (n : Nat) (op : BitVec 16) (q : BitVec 32) (t : BitVec 8) (c : Nat)
    (p : List Byte) : (s.replyTo n op q t c p).streams = s.streams := by
  obtain ⟨_, _, _, _, h⟩ := replyTo_eq s n op q t c p; rw [h]
@[simp] theorem event_streams (s : State) (to_ : Option Nat) (c t : Nat) (p : List Byte) :
    (s.event to_ c t p).streams = s.streams := by
  obtain ⟨_, _, _, _, h⟩ := event_eq s to_ c t p; rw [h]
@[simp] theorem sendDcp_mem (s : State) (b : Binding) (m : Msg) : (s.sendDcp b m).mem = s.mem := by
  obtain ⟨_, _, _, h⟩ := sendDcp_eq s b m; rw [h]
@[simp] theorem replyTo_mem (s : State) (n : Nat) (op : BitVec 16) (q : BitVec 32) (t : BitVec 8) (c : Nat)
    (p : List Byte) : (s.replyTo n op q t c p).mem = s.mem := by
  obtain ⟨_, _, _, _, h⟩ := replyTo_eq s n op q t c p; rw [h]
@[simp] theorem event_mem (s : State) (to_ : Option Nat) (c t : Nat) (p : List Byte) :
    (s.event to_ c t p).mem = s.mem := by
  obtain ⟨_, _, _, _, h⟩ := event_eq s to_ c t p; rw [h]
@[simp] theorem sendDcp_psn (s : State) (b : Binding) (m : Msg) : (s.sendDcp b m).psn = s.psn := by
  obtain ⟨_, _, _, h⟩ := sendDcp_eq s b m; rw [h]
@[simp] theorem replyTo_psn (s : State) (n : Nat) (op : BitVec 16) (q : BitVec 32) (t : BitVec 8) (c : Nat)
    (p : List Byte) : (s.replyTo n op q t c p).psn = s.psn := by
  obtain ⟨_, _, _, _, h⟩ := replyTo_eq s n op q t c p; rw [h]
@[simp] theorem event_psn (s : State) (to_ : Option Nat) (c t : Nat) (p : List Byte) :
    (s.event to_ c t p).psn = s.psn := by
  obtain ⟨_, _, _, _, h⟩ := event_eq s to_ c t p; rw [h]
@[simp] theorem sendDcp_err (s : State) (b : Binding) (m : Msg) : (s.sendDcp b m).err = s.err := by
  obtain ⟨_, _, _, h⟩ := sendDcp_eq s b m; rw [h]
@[simp] theorem replyTo_err (s : State) (n : Nat) (op : BitVec 16) (q : BitVec 32) (t : BitVec 8) (c : Nat)
    (p : List Byte) : (s.replyTo n op q t c p).err = s.err := by
  obtain ⟨_, _, _, _, h⟩ := replyTo_eq s n op q t c p; rw [h]
@[simp] theorem event_err (s : State) (to_ : Option Nat) (c t : Nat) (p : List Byte) :
    (s.event to_ c t p).err = s.err := by
  obtain ⟨_, _, _, _, h⟩ := event_eq s to_ c t p; rw [h]
@[simp] theorem sendDcp_inited (s : State) (b : Binding) (m : Msg) : (s.sendDcp b m).inited = s.inited := by
  obtain ⟨_, _, _, h⟩ := sendDcp_eq s b m; rw [h]
@[simp] theorem replyTo_inited (s : State) (n : Nat) (op : BitVec 16) (q : BitVec 32) (t : BitVec 8) (c : Nat)
    (p : List Byte) : (s.replyTo n op q t c p).inited = s.inited := by
  obtain ⟨_, _, _, _, h⟩ := replyTo_eq s n op q t c p; rw [h]
@[simp] theorem event_inited (s : State) (to_ : Option Nat) (c t : Nat) (p : List Byte) :
    (s.event to_ c t p).inited = s.inited := by
  obtain ⟨_, _, _, _, h⟩ := event_eq s to_ c t p; rw [h]
@[simp] theorem sendDcp_dram (s : State) (b : Binding) (m : Msg) : (s.sendDcp b m).dram = s.dram := by
  obtain ⟨_, _, _, h⟩ := sendDcp_eq s b m; rw [h]
@[simp] theorem replyTo_dram (s : State) (n : Nat) (op : BitVec 16) (q : BitVec 32) (t : BitVec 8) (c : Nat)
    (p : List Byte) : (s.replyTo n op q t c p).dram = s.dram := by
  obtain ⟨_, _, _, _, h⟩ := replyTo_eq s n op q t c p; rw [h]
@[simp] theorem event_dram (s : State) (to_ : Option Nat) (c t : Nat) (p : List Byte) :
    (s.event to_ c t p).dram = s.dram := by
  obtain ⟨_, _, _, _, h⟩ := event_eq s to_ c t p; rw [h]
@[simp] theorem sendDcp_mig (s : State) (b : Binding) (m : Msg) : (s.sendDcp b m).mig = s.mig := by
  obtain ⟨_, _, _, h⟩ := sendDcp_eq s b m; rw [h]
@[simp] theorem replyTo_mig (s : State) (n : Nat) (op : BitVec 16) (q : BitVec 32) (t : BitVec 8) (c : Nat)
    (p : List Byte) : (s.replyTo n op q t c p).mig = s.mig := by
  obtain ⟨_, _, _, _, h⟩ := replyTo_eq s n op q t c p; rw [h]
@[simp] theorem event_mig (s : State) (to_ : Option Nat) (c t : Nat) (p : List Byte) :
    (s.event to_ c t p).mig = s.mig := by
  obtain ⟨_, _, _, _, h⟩ := event_eq s to_ c t p; rw [h]
@[simp] theorem sendDcp_tack (s : State) (b : Binding) (m : Msg) : (s.sendDcp b m).tack = s.tack := by
  obtain ⟨_, _, _, h⟩ := sendDcp_eq s b m; rw [h]
@[simp] theorem replyTo_tack (s : State) (n : Nat) (op : BitVec 16) (q : BitVec 32) (t : BitVec 8) (c : Nat)
    (p : List Byte) : (s.replyTo n op q t c p).tack = s.tack := by
  obtain ⟨_, _, _, _, h⟩ := replyTo_eq s n op q t c p; rw [h]
@[simp] theorem event_tack (s : State) (to_ : Option Nat) (c t : Nat) (p : List Byte) :
    (s.event to_ c t p).tack = s.tack := by
  obtain ⟨_, _, _, _, h⟩ := event_eq s to_ c t p; rw [h]
@[simp] theorem sendDcp_tims (s : State) (b : Binding) (m : Msg) : (s.sendDcp b m).tims = s.tims := by
  obtain ⟨_, _, _, h⟩ := sendDcp_eq s b m; rw [h]
@[simp] theorem replyTo_tims (s : State) (n : Nat) (op : BitVec 16) (q : BitVec 32) (t : BitVec 8) (c : Nat)
    (p : List Byte) : (s.replyTo n op q t c p).tims = s.tims := by
  obtain ⟨_, _, _, _, h⟩ := replyTo_eq s n op q t c p; rw [h]
@[simp] theorem event_tims (s : State) (to_ : Option Nat) (c t : Nat) (p : List Byte) :
    (s.event to_ c t p).tims = s.tims := by
  obtain ⟨_, _, _, _, h⟩ := event_eq s to_ c t p; rw [h]
@[simp] theorem sendDcp_flts (s : State) (b : Binding) (m : Msg) : (s.sendDcp b m).flts = s.flts := by
  obtain ⟨_, _, _, h⟩ := sendDcp_eq s b m; rw [h]
@[simp] theorem replyTo_flts (s : State) (n : Nat) (op : BitVec 16) (q : BitVec 32) (t : BitVec 8) (c : Nat)
    (p : List Byte) : (s.replyTo n op q t c p).flts = s.flts := by
  obtain ⟨_, _, _, _, h⟩ := replyTo_eq s n op q t c p; rw [h]
@[simp] theorem event_flts (s : State) (to_ : Option Nat) (c t : Nat) (p : List Byte) :
    (s.event to_ c t p).flts = s.flts := by
  obtain ⟨_, _, _, _, h⟩ := event_eq s to_ c t p; rw [h]
@[simp] theorem sendDcp_ofs (s : State) (b : Binding) (m : Msg) : (s.sendDcp b m).ofs = s.ofs := by
  obtain ⟨_, _, _, h⟩ := sendDcp_eq s b m; rw [h]
@[simp] theorem replyTo_ofs (s : State) (n : Nat) (op : BitVec 16) (q : BitVec 32) (t : BitVec 8) (c : Nat)
    (p : List Byte) : (s.replyTo n op q t c p).ofs = s.ofs := by
  obtain ⟨_, _, _, _, h⟩ := replyTo_eq s n op q t c p; rw [h]
@[simp] theorem event_ofs (s : State) (to_ : Option Nat) (c t : Nat) (p : List Byte) :
    (s.event to_ c t p).ofs = s.ofs := by
  obtain ⟨_, _, _, _, h⟩ := event_eq s to_ c t p; rw [h]
@[simp] theorem sendDcp_rate (s : State) (b : Binding) (m : Msg) : (s.sendDcp b m).rate = s.rate := by
  obtain ⟨_, _, _, h⟩ := sendDcp_eq s b m; rw [h]
@[simp] theorem replyTo_rate (s : State) (n : Nat) (op : BitVec 16) (q : BitVec 32) (t : BitVec 8) (c : Nat)
    (p : List Byte) : (s.replyTo n op q t c p).rate = s.rate := by
  obtain ⟨_, _, _, _, h⟩ := replyTo_eq s n op q t c p; rw [h]
@[simp] theorem event_rate (s : State) (to_ : Option Nat) (c t : Nat) (p : List Byte) :
    (s.event to_ c t p).rate = s.rate := by
  obtain ⟨_, _, _, _, h⟩ := event_eq s to_ c t p; rw [h]
@[simp] theorem sendDcp_alarms (s : State) (b : Binding) (m : Msg) : (s.sendDcp b m).alarms = s.alarms := by
  obtain ⟨_, _, _, h⟩ := sendDcp_eq s b m; rw [h]
@[simp] theorem replyTo_alarms (s : State) (n : Nat) (op : BitVec 16) (q : BitVec 32) (t : BitVec 8) (c : Nat)
    (p : List Byte) : (s.replyTo n op q t c p).alarms = s.alarms := by
  obtain ⟨_, _, _, _, h⟩ := replyTo_eq s n op q t c p; rw [h]
@[simp] theorem event_alarms (s : State) (to_ : Option Nat) (c t : Nat) (p : List Byte) :
    (s.event to_ c t p).alarms = s.alarms := by
  obtain ⟨_, _, _, _, h⟩ := event_eq s to_ c t p; rw [h]
@[simp] theorem sendDcp_tmpl (s : State) (b : Binding) (m : Msg) : (s.sendDcp b m).tmpl = s.tmpl := by
  obtain ⟨_, _, _, h⟩ := sendDcp_eq s b m; rw [h]
@[simp] theorem replyTo_tmpl (s : State) (n : Nat) (op : BitVec 16) (q : BitVec 32) (t : BitVec 8) (c : Nat)
    (p : List Byte) : (s.replyTo n op q t c p).tmpl = s.tmpl := by
  obtain ⟨_, _, _, _, h⟩ := replyTo_eq s n op q t c p; rw [h]
@[simp] theorem event_tmpl (s : State) (to_ : Option Nat) (c t : Nat) (p : List Byte) :
    (s.event to_ c t p).tmpl = s.tmpl := by
  obtain ⟨_, _, _, _, h⟩ := event_eq s to_ c t p; rw [h]
@[simp] theorem sendDcp_mods (s : State) (b : Binding) (m : Msg) : (s.sendDcp b m).mods = s.mods := by
  obtain ⟨_, _, _, h⟩ := sendDcp_eq s b m; rw [h]
@[simp] theorem replyTo_mods (s : State) (n : Nat) (op : BitVec 16) (q : BitVec 32) (t : BitVec 8) (c : Nat)
    (p : List Byte) : (s.replyTo n op q t c p).mods = s.mods := by
  obtain ⟨_, _, _, _, h⟩ := replyTo_eq s n op q t c p; rw [h]
@[simp] theorem event_mods (s : State) (to_ : Option Nat) (c t : Nat) (p : List Byte) :
    (s.event to_ c t p).mods = s.mods := by
  obtain ⟨_, _, _, _, h⟩ := event_eq s to_ c t p; rw [h]
@[simp] theorem sendDcp_insts (s : State) (b : Binding) (m : Msg) : (s.sendDcp b m).insts = s.insts := by
  obtain ⟨_, _, _, h⟩ := sendDcp_eq s b m; rw [h]
@[simp] theorem replyTo_insts (s : State) (n : Nat) (op : BitVec 16) (q : BitVec 32) (t : BitVec 8) (c : Nat)
    (p : List Byte) : (s.replyTo n op q t c p).insts = s.insts := by
  obtain ⟨_, _, _, _, h⟩ := replyTo_eq s n op q t c p; rw [h]
@[simp] theorem event_insts (s : State) (to_ : Option Nat) (c t : Nat) (p : List Byte) :
    (s.event to_ c t p).insts = s.insts := by
  obtain ⟨_, _, _, _, h⟩ := event_eq s to_ c t p; rw [h]
@[simp] theorem sendDcp_flows (s : State) (b : Binding) (m : Msg) : (s.sendDcp b m).flows = s.flows := by
  obtain ⟨_, _, _, h⟩ := sendDcp_eq s b m; rw [h]
@[simp] theorem replyTo_flows (s : State) (n : Nat) (op : BitVec 16) (q : BitVec 32) (t : BitVec 8) (c : Nat)
    (p : List Byte) : (s.replyTo n op q t c p).flows = s.flows := by
  obtain ⟨_, _, _, _, h⟩ := replyTo_eq s n op q t c p; rw [h]
@[simp] theorem event_flows (s : State) (to_ : Option Nat) (c t : Nat) (p : List Byte) :
    (s.event to_ c t p).flows = s.flows := by
  obtain ⟨_, _, _, _, h⟩ := event_eq s to_ c t p; rw [h]
@[simp] theorem sendDcp_cores (s : State) (b : Binding) (m : Msg) : (s.sendDcp b m).cores = s.cores := by
  obtain ⟨_, _, _, h⟩ := sendDcp_eq s b m; rw [h]
@[simp] theorem replyTo_cores (s : State) (n : Nat) (op : BitVec 16) (q : BitVec 32) (t : BitVec 8) (c : Nat)
    (p : List Byte) : (s.replyTo n op q t c p).cores = s.cores := by
  obtain ⟨_, _, _, _, h⟩ := replyTo_eq s n op q t c p; rw [h]
@[simp] theorem event_cores (s : State) (to_ : Option Nat) (c t : Nat) (p : List Byte) :
    (s.event to_ c t p).cores = s.cores := by
  obtain ⟨_, _, _, _, h⟩ := event_eq s to_ c t p; rw [h]
@[simp] theorem sendDcp_cal (s : State) (b : Binding) (m : Msg) : (s.sendDcp b m).cal = s.cal := by
  obtain ⟨_, _, _, h⟩ := sendDcp_eq s b m; rw [h]
@[simp] theorem replyTo_cal (s : State) (n : Nat) (op : BitVec 16) (q : BitVec 32) (t : BitVec 8) (c : Nat)
    (p : List Byte) : (s.replyTo n op q t c p).cal = s.cal := by
  obtain ⟨_, _, _, _, h⟩ := replyTo_eq s n op q t c p; rw [h]
@[simp] theorem event_cal (s : State) (to_ : Option Nat) (c t : Nat) (p : List Byte) :
    (s.event to_ c t p).cal = s.cal := by
  obtain ⟨_, _, _, _, h⟩ := event_eq s to_ c t p; rw [h]
@[simp] theorem sendDcp_tests (s : State) (b : Binding) (m : Msg) : (s.sendDcp b m).tests = s.tests := by
  obtain ⟨_, _, _, h⟩ := sendDcp_eq s b m; rw [h]
@[simp] theorem replyTo_tests (s : State) (n : Nat) (op : BitVec 16) (q : BitVec 32) (t : BitVec 8) (c : Nat)
    (p : List Byte) : (s.replyTo n op q t c p).tests = s.tests := by
  obtain ⟨_, _, _, _, h⟩ := replyTo_eq s n op q t c p; rw [h]
@[simp] theorem event_tests (s : State) (to_ : Option Nat) (c t : Nat) (p : List Byte) :
    (s.event to_ c t p).tests = s.tests := by
  obtain ⟨_, _, _, _, h⟩ := event_eq s to_ c t p; rw [h]
@[simp] theorem sendDcp_pes (s : State) (b : Binding) (m : Msg) : (s.sendDcp b m).pes = s.pes := by
  obtain ⟨_, _, _, h⟩ := sendDcp_eq s b m; rw [h]
@[simp] theorem replyTo_pes (s : State) (n : Nat) (op : BitVec 16) (q : BitVec 32) (t : BitVec 8) (c : Nat)
    (p : List Byte) : (s.replyTo n op q t c p).pes = s.pes := by
  obtain ⟨_, _, _, _, h⟩ := replyTo_eq s n op q t c p; rw [h]
@[simp] theorem event_pes (s : State) (to_ : Option Nat) (c t : Nat) (p : List Byte) :
    (s.event to_ c t p).pes = s.pes := by
  obtain ⟨_, _, _, _, h⟩ := event_eq s to_ c t p; rw [h]

/-- The session of a reply keeps the reply as its newest cached one (R111). -/
theorem replyTo_session {s : State} {n : Nat} {x : Session} (hx : s.session n = some x) (op : BitVec 16) (q : BitVec 32)
    (t : BitVec 8) (c : Nat) (p : List Byte) :
    (s.replyTo n op q t c p).session n = some { x with
      cache := ((⟨.reply, false, s.handle (some n), q, t, op, BitVec.ofNat 16 c, p⟩ : Msg) :: x.cache).take cacheSize } := by
  unfold State.replyTo
  simp only [hx]
  generalize hm : (⟨.reply, false, s.handle (some n), q, t, op, BitVec.ofNat 16 c, p⟩ : Msg) = m
  obtain ⟨o, r, g, h⟩ := sendDcp_eq (s.setSession n (some { x with cache := (m :: x.cache).take cacheSize })) x.bind m
  rw [h]
  exact session_setSession_some s n _

/-! ### Receipt -/

/-- Receipt of a frame changes the lane's counters only. -/
theorem heard_eq (s : State) (g : Hdr) : ∃ r, (s.heard g).2 = { s with regs := r } := by
  unfold State.heard
  split
  · exact ⟨s.regs, rfl⟩
  · split
    · exact ⟨s.regs, rfl⟩
    · split
      · exact ⟨_, rfl⟩
      · exact ⟨_, rfl⟩

@[simp] theorem heard_pending (s : State) (g : Hdr) : (s.heard g).2.pending = s.pending := by
  obtain ⟨_, h⟩ := heard_eq s g; rw [h]
@[simp] theorem heard_held (s : State) (g : Hdr) : (s.heard g).2.held = s.held := by
  obtain ⟨_, h⟩ := heard_eq s g; rw [h]
@[simp] theorem heard_resuming (s : State) (g : Hdr) : (s.heard g).2.resuming = s.resuming := by
  obtain ⟨_, h⟩ := heard_eq s g; rw [h]
@[simp] theorem heard_out (s : State) (g : Hdr) : (s.heard g).2.out = s.out := by
  obtain ⟨_, h⟩ := heard_eq s g; rw [h]
@[simp] theorem heard_now (s : State) (g : Hdr) : (s.heard g).2.now = s.now := by
  obtain ⟨_, h⟩ := heard_eq s g; rw [h]
@[simp] theorem heard_cnt (s : State) (g : Hdr) : (s.heard g).2.cnt = s.cnt := by
  obtain ⟨_, h⟩ := heard_eq s g; rw [h]
@[simp] theorem heard_freeCtr (s : State) (g : Hdr) : (s.heard g).2.freeCtr = s.freeCtr := by
  obtain ⟨_, h⟩ := heard_eq s g; rw [h]
@[simp] theorem heard_phase (s : State) (g : Hdr) : (s.heard g).2.phase = s.phase := by
  obtain ⟨_, h⟩ := heard_eq s g; rw [h]
@[simp] theorem heard_resetAt (s : State) (g : Hdr) : (s.heard g).2.resetAt = s.resetAt := by
  obtain ⟨_, h⟩ := heard_eq s g; rw [h]
@[simp] theorem heard_latch (s : State) (g : Hdr) : (s.heard g).2.latch = s.latch := by
  obtain ⟨_, h⟩ := heard_eq s g; rw [h]
@[simp] theorem heard_sess (s : State) (g : Hdr) : (s.heard g).2.sess = s.sess := by
  obtain ⟨_, h⟩ := heard_eq s g; rw [h]
@[simp] theorem heard_owner (s : State) (g : Hdr) : (s.heard g).2.owner = s.owner := by
  obtain ⟨_, h⟩ := heard_eq s g; rw [h]
@[simp] theorem heard_elect (s : State) (g : Hdr) : (s.heard g).2.elect = s.elect := by
  obtain ⟨_, h⟩ := heard_eq s g; rw [h]
@[simp] theorem heard_ops (s : State) (g : Hdr) : (s.heard g).2.ops = s.ops := by
  obtain ⟨_, h⟩ := heard_eq s g; rw [h]
@[simp] theorem heard_reports (s : State) (g : Hdr) : (s.heard g).2.reports = s.reports := by
  obtain ⟨_, h⟩ := heard_eq s g; rw [h]
@[simp] theorem heard_shadows (s : State) (g : Hdr) : (s.heard g).2.shadows = s.shadows := by
  obtain ⟨_, h⟩ := heard_eq s g; rw [h]
@[simp] theorem heard_rst (s : State) (g : Hdr) : (s.heard g).2.rst = s.rst := by
  obtain ⟨_, h⟩ := heard_eq s g; rw [h]
@[simp] theorem heard_stalls (s : State) (g : Hdr) : (s.heard g).2.stalls = s.stalls := by
  obtain ⟨_, h⟩ := heard_eq s g; rw [h]
@[simp] theorem heard_queues (s : State) (g : Hdr) : (s.heard g).2.queues = s.queues := by
  obtain ⟨_, h⟩ := heard_eq s g; rw [h]
@[simp] theorem heard_streams (s : State) (g : Hdr) : (s.heard g).2.streams = s.streams := by
  obtain ⟨_, h⟩ := heard_eq s g; rw [h]
@[simp] theorem heard_mem (s : State) (g : Hdr) : (s.heard g).2.mem = s.mem := by
  obtain ⟨_, h⟩ := heard_eq s g; rw [h]
@[simp] theorem heard_psn (s : State) (g : Hdr) : (s.heard g).2.psn = s.psn := by
  obtain ⟨_, h⟩ := heard_eq s g; rw [h]
@[simp] theorem heard_err (s : State) (g : Hdr) : (s.heard g).2.err = s.err := by
  obtain ⟨_, h⟩ := heard_eq s g; rw [h]
@[simp] theorem heard_inited (s : State) (g : Hdr) : (s.heard g).2.inited = s.inited := by
  obtain ⟨_, h⟩ := heard_eq s g; rw [h]
@[simp] theorem heard_dram (s : State) (g : Hdr) : (s.heard g).2.dram = s.dram := by
  obtain ⟨_, h⟩ := heard_eq s g; rw [h]
@[simp] theorem heard_mig (s : State) (g : Hdr) : (s.heard g).2.mig = s.mig := by
  obtain ⟨_, h⟩ := heard_eq s g; rw [h]
@[simp] theorem heard_tack (s : State) (g : Hdr) : (s.heard g).2.tack = s.tack := by
  obtain ⟨_, h⟩ := heard_eq s g; rw [h]
@[simp] theorem heard_mgt (s : State) (g : Hdr) : (s.heard g).2.mgt = s.mgt := by
  obtain ⟨_, h⟩ := heard_eq s g; rw [h]
@[simp] theorem heard_session (s : State) (g : Hdr) (k : Nat) : (s.heard g).2.session k = s.session k := by
  simp [State.session]
@[simp] theorem heard_slotOf (s : State) (g : Hdr) (h : BitVec 16) :
    (s.heard g).2.slotOf h = s.slotOf h := by simp [State.slotOf]
@[simp] theorem heard_ready (s : State) (g : Hdr) : (s.heard g).2.ready = s.ready := by simp [State.ready]
@[simp] theorem heard_sessionWaits (s : State) (g : Hdr) (h : BitVec 16) :
    (s.heard g).2.sessionWaits h = s.sessionWaits h := by simp [State.sessionWaits]
@[simp] theorem heard_mustWait (s : State) (g : Hdr) (h : Hdr) :
    (s.heard g).2.mustWait h = s.mustWait h := by simp [State.mustWait]

/-! ### The state that an admitted command sees -/

@[simp] theorem taken_pending (s : State) (h : Hdr) (n : Nat) (x : Session) : (s.taken h n x).pending = s.pending := by
  simp [State.taken, State.accept]
@[simp] theorem taken_held (s : State) (h : Hdr) (n : Nat) (x : Session) : (s.taken h n x).held = s.held := by
  simp [State.taken, State.accept]
@[simp] theorem taken_resuming (s : State) (h : Hdr) (n : Nat) (x : Session) : (s.taken h n x).resuming = s.resuming := by
  simp [State.taken, State.accept]
@[simp] theorem taken_out (s : State) (h : Hdr) (n : Nat) (x : Session) : (s.taken h n x).out = s.out := by
  simp [State.taken, State.accept]
@[simp] theorem taken_now (s : State) (h : Hdr) (n : Nat) (x : Session) : (s.taken h n x).now = s.now := by
  simp [State.taken, State.accept]
@[simp] theorem taken_cnt (s : State) (h : Hdr) (n : Nat) (x : Session) : (s.taken h n x).cnt = s.cnt := by
  simp [State.taken, State.accept]
@[simp] theorem taken_freeCtr (s : State) (h : Hdr) (n : Nat) (x : Session) : (s.taken h n x).freeCtr = s.freeCtr := by
  simp [State.taken, State.accept]
@[simp] theorem taken_phase (s : State) (h : Hdr) (n : Nat) (x : Session) : (s.taken h n x).phase = s.phase := by
  simp [State.taken, State.accept]
@[simp] theorem taken_resetAt (s : State) (h : Hdr) (n : Nat) (x : Session) : (s.taken h n x).resetAt = s.resetAt := by
  simp [State.taken, State.accept]
@[simp] theorem taken_latch (s : State) (h : Hdr) (n : Nat) (x : Session) : (s.taken h n x).latch = s.latch := by
  simp [State.taken, State.accept]
@[simp] theorem taken_owner (s : State) (h : Hdr) (n : Nat) (x : Session) : (s.taken h n x).owner = s.owner := by
  simp [State.taken, State.accept]
@[simp] theorem taken_elect (s : State) (h : Hdr) (n : Nat) (x : Session) : (s.taken h n x).elect = s.elect := by
  simp [State.taken, State.accept]
@[simp] theorem taken_ops (s : State) (h : Hdr) (n : Nat) (x : Session) : (s.taken h n x).ops = s.ops := by
  simp [State.taken, State.accept]
@[simp] theorem taken_reports (s : State) (h : Hdr) (n : Nat) (x : Session) : (s.taken h n x).reports = s.reports := by
  simp [State.taken, State.accept]
@[simp] theorem taken_shadows (s : State) (h : Hdr) (n : Nat) (x : Session) : (s.taken h n x).shadows = s.shadows := by
  simp [State.taken, State.accept]
@[simp] theorem taken_rst (s : State) (h : Hdr) (n : Nat) (x : Session) : (s.taken h n x).rst = s.rst := by
  simp [State.taken, State.accept]
@[simp] theorem taken_stalls (s : State) (h : Hdr) (n : Nat) (x : Session) : (s.taken h n x).stalls = s.stalls := by
  simp [State.taken, State.accept]
@[simp] theorem taken_queues (s : State) (h : Hdr) (n : Nat) (x : Session) : (s.taken h n x).queues = s.queues := by
  simp [State.taken, State.accept]
@[simp] theorem taken_streams (s : State) (h : Hdr) (n : Nat) (x : Session) : (s.taken h n x).streams = s.streams := by
  simp [State.taken, State.accept]
@[simp] theorem taken_mem (s : State) (h : Hdr) (n : Nat) (x : Session) : (s.taken h n x).mem = s.mem := by
  simp [State.taken, State.accept]
@[simp] theorem taken_psn (s : State) (h : Hdr) (n : Nat) (x : Session) : (s.taken h n x).psn = s.psn := by
  simp [State.taken, State.accept]
@[simp] theorem taken_err (s : State) (h : Hdr) (n : Nat) (x : Session) : (s.taken h n x).err = s.err := by
  simp [State.taken, State.accept]
@[simp] theorem taken_inited (s : State) (h : Hdr) (n : Nat) (x : Session) : (s.taken h n x).inited = s.inited := by
  simp [State.taken, State.accept]
@[simp] theorem taken_dram (s : State) (h : Hdr) (n : Nat) (x : Session) : (s.taken h n x).dram = s.dram := by
  simp [State.taken, State.accept]
@[simp] theorem taken_mig (s : State) (h : Hdr) (n : Nat) (x : Session) : (s.taken h n x).mig = s.mig := by
  simp [State.taken, State.accept]
@[simp] theorem taken_tack (s : State) (h : Hdr) (n : Nat) (x : Session) : (s.taken h n x).tack = s.tack := by
  simp [State.taken, State.accept]
@[simp] theorem taken_mgt (s : State) (h : Hdr) (n : Nat) (x : Session) : (s.taken h n x).mgt = s.mgt := by
  simp [State.taken, State.accept]

/-- The session after check 4: its sequence number is used and its lease starts again. -/
theorem taken_session (s : State) (h : Hdr) (n : Nat) (x : Session) : (s.taken h n x).session n =
    some { x with nextSeq := x.nextSeq + 1, leaseEnd := s.now + x.leaseMs * msCyc, helloOnly := false } := by
  simp [State.taken, State.accept]

/-- An admitted command is its body on the state that it sees, and the answer of the body. -/
theorem cmd_admitted {s : State} {h : Hdr} {slot : Nat} {x : Session} (A : Admits s h slot x) (op : Nat) (self : Instr)
    (rom : Bool) (body : Body) : s.cmd h op self rom body =
      ((body slot (s.taken h slot x)).2.finish slot h op (body slot (s.taken h slot x)).1).withResuming false := by
  have hr : (s.heard h).2.ready = true := by simp [State.ready, A.ready]
  have hp : (s.heard h).2.phase = .ready := by simp [A.ready]
  have hf : (s.heard h).2.withResuming false = (s.heard h).2 := by
    obtain ⟨r, e⟩ := heard_eq s h
    rw [e]
    simp [← A.fresh, State.withResuming]
  unfold State.cmd
  have hs : ((s.heard h).2.phase == Phase.strapStop && h.bind == Binding.mgmt) = false := by rw [hp]; rfl
  simp only [A.fresh, A.heard, A.version, hr, hs, Bool.false_eq_true, if_false, Bool.not_true, Bool.true_or, ne_eq,
    not_true_eq_false]
  unfold State.inSession
  simp only [heard_slotOf, A.handle, heard_session, A.session, A.bound, ne_eq, not_true_eq_false, if_false, A.live,
    Bool.false_eq_true, heard_mustWait, A.turn, hf]
  unfold State.inOrder
  simp only [A.inOrder, if_true]
  have hb : (((s.heard h).2.accept slot x).phase == Phase.bootRom && !rom) = false := by
    have : ((s.heard h).2.accept slot x).phase = .ready := by simp [State.accept, A.ready]
    rw [this]; rfl
  rw [hb]
  rfl

/-- An admitted command: its body's answer ends it. -/
theorem done_admitted {s : State} {h : Hdr} {slot : Nat} {x : Session} (A : Admits s h slot x) (op : Nat) (self : Instr)
    (rom : Bool) (body : Body) :
    done (s.cmd h op self rom body) = .next ((body slot (s.taken h slot x)).2.ends slot h op (body slot (s.taken h slot x)).1) := by
  rw [cmd_admitted A]
  rfl

/-- An admitted command whose body answers at once. -/
theorem done_reply {s : State} {h : Hdr} {slot : Nat} {x : Session} (A : Admits s h slot x) {op : Nat} {self : Instr}
    {rom : Bool} {body : Body} {c : Nat} {p : List Byte} {v : State} (hb : body slot (s.taken h slot x) = (.reply c p, v)) :
    done (s.cmd h op self rom body) = .next (v.replies slot h op c p) := by
  rw [done_admitted A, hb]
  rfl

/-- An admitted command whose reply waits. -/
theorem done_waits {s : State} {h : Hdr} {slot : Nat} {x : Session} (A : Admits s h slot x) {op : Nat} {self : Instr}
    {rom : Bool} {body : Body} {k : WaitKind} {v : State} (hb : body slot (s.taken h slot x) = (.waits k, v)) :
    done (s.cmd h op self rom body) = .next (v.waitsFor slot h op k) := by
  rw [done_admitted A, hb]
  rfl

/-- The end of an admitted command in a state without reports and shadows: nothing is left to act on. -/
theorem replies_calm {v : State} {slot : Nat} {h : Hdr} {op c : Nat} {p : List Byte} (hr : v.reports = []) :
    v.replies slot h op c p
      = ((v.replyTo slot (BitVec.ofNat 16 op) h.seq h.target c p).withResuming false).sweepShadows :=
  settle_calm (s := (v.replyTo slot (BitVec.ofNat 16 op) h.seq h.target c p).withResuming false) (by simpa using hr)

/-! ### The engine, for every command of a session -/

/-- Every command of a session but HELLO and one of a reserved opcode is one call of the engine, with its opcode and a body; the
boot ROM serves it if it is of the session group or of the tack-store and firmware group (R126). -/
theorem exec_cmd (c : Instr) (h : Hdr) (s : State) (hc : hdrOf c = some h) (ho : opcodeOf c ≠ 1)
    (hd : ∀ g w, c ≠ .dcpFrameDrop g w) :
    ∃ body, exec c s = done (s.cmd h (opcodeOf c) c
      (decide (opcodeOf c ≤ 7 ∨ (0x90 ≤ opcodeOf c ∧ opcodeOf c ≤ 0x95))) body) := by
  cases c <;> first
    | (simp only [hdrOf, Option.some.injEq] at hc; subst hc)
    | exact absurd rfl (hd _ _)
    | (simp [hdrOf] at hc)
  all_goals first
    | exact ⟨_, rfl⟩
    | exact absurd rfl ho

/-- A command of a reserved opcode is one call of the engine, whose body answers BAD_OPCODE (R116, R124). -/
theorem exec_reservedOpcode (h : Hdr) (op : BitVec 16) (s : State) :
    exec (.dcpFrameDrop h (.reservedOpcode op)) s
      = done (s.cmd h op.toNat (.dcpFrameDrop h (.reservedOpcode op)) true (fun _ t => refuse stBadOpcode t)) := by rfl

/-- A state that resumes no held command already is one that does not. -/
theorem withResuming_self {t : State} (h : t.resuming = false) : t.withResuming false = t := by
  cases t; simp_all [State.withResuming]

@[simp] theorem arrived_slotOf (s : State) (h : Hdr) (n : BitVec 16) : (s.arrived h).slotOf n = s.slotOf n := by
  obtain ⟨r, e⟩ := heard_eq s h
  simp [State.arrived, e]; rfl
@[simp] theorem arrived_session (s : State) (h : Hdr) (n : Nat) : (s.arrived h).session n = s.session n := by
  obtain ⟨r, e⟩ := heard_eq s h
  simp [State.arrived, e]; rfl
@[simp] theorem arrived_resuming (s : State) (h : Hdr) : (s.arrived h).resuming = s.resuming := by
  simp [State.arrived]
@[simp] theorem arrived_phase (s : State) (h : Hdr) : (s.arrived h).phase = s.phase := by
  simp [State.arrived]
theorem arrived_mustWait (s : State) (h : Hdr) : (s.arrived h).mustWait h = s.mustWait h := by
  obtain ⟨r, e⟩ := heard_eq s h
  simp [State.arrived, e]; rfl

/-- A command that passes checks 1 and 2 goes on to its session. -/
theorem cmd_arrives {s : State} {h : Hdr} (A : Arrives s h) (op : Nat) (self : Instr) (rom : Bool) (body : Body) :
    s.cmd h op self rom body = ((s.arrived h).inSession h op self rom body).withResuming false := by
  unfold State.cmd
  simp only [A.fresh, Bool.false_eq_true, if_false, A.heard, A.version]
  have hp : ((s.heard h).2.ready || (s.heard h).2.phase == .bootRom) = true := by
    simpa [State.ready] using A.serves
  have hs : ((s.heard h).2.phase == Phase.strapStop && h.bind == Binding.mgmt) = false := by
    obtain hr | hr := A.serves <;> simp [hr]
  simp only [hp, hs, State.arrived]
  rfl

end Sys2Proof.Machine
end

