-- ==== Sys2Proof/Laws/Mem.lean ====
section
/-! SUPPORT. The laws of DRAM: every memory operation keeps the canonical form of the memory and of the maps beside it, and
what a byte and a word read after a write. -/

namespace Sys2Proof.Machine

open Sys2Proof

/-! ### The canonical form -/

/-- The canonical form of everything that DRAM consists of: its bytes, its poisoned words, its errors and its initialised
regions. -/
def State.memWf (s : State) : Prop :=
  Memory.wf s.mem = true ∧ mwf (fun _ => 0) s.psn = true ∧ mwf (fun _ => Cells.asStored) s.err = true
    ∧ mwf (fun _ => false) s.inited = true

/-- The memory of the reset state is canonical. -/
theorem reset_memWf : State.reset.memWf := ⟨rfl, rfl, rfl, rfl⟩

/-- Storing bytes keeps the canonical form. -/
theorem putBytes_wf : ∀ (l : List Byte) (m : List Host.Cell) (a : Nat), Memory.wf m = true → Memory.wf (putBytes m a l) = true
  | [], _, _, h => h
  | b :: t, m, a, h => putBytes_wf t _ _ (mwf_mset _ m a b h)

/-- A byte outside a stored range reads as before. -/
theorem putBytes_frame : ∀ (l : List Byte) (m : List Host.Cell) (a k : Nat), k < a ∨ a + l.length ≤ k →
    mget (fun _ => (0 : Byte)) (putBytes m a l) k = mget (fun _ => (0 : Byte)) m k
  | [], _, _, _, _ => rfl
  | b :: t, m, a, k, h => by
    simp only [List.length_cons] at h
    rw [putBytes, putBytes_frame t _ (a + 1) k (by omega), mget_mset_ne _ _ _ (by omega)]

/-- A stored byte is read back. -/
theorem putBytes_read : ∀ (l : List Byte) (m : List Host.Cell) (a i : Nat), Memory.wf m = true → (hi : i < l.length) →
    mget (fun _ => (0 : Byte)) (putBytes m a l) (a + i) = l[i]
  | [], _, _, _, _, hi => absurd hi (by simp)
  | b :: t, m, a, 0, hm, _ => by
    rw [putBytes, putBytes_frame t _ (a + 1) (a + 0) (by omega)]
    exact mget_mset_same _ m 0 a b hm
  | b :: t, m, a, i + 1, hm, hi => by
    rw [putBytes, show a + (i + 1) = a + 1 + i by omega]
    exact putBytes_read t _ (a + 1) i (mwf_mset _ m a b hm) (by simpa using hi)

variable {s : State}

/-- Storing a word keeps the canonical form. -/
@[simp] theorem putWord_memWf (h : s.memWf) (a : Nat) (v : BitVec 64) (p : Bool) : (s.putWord a v p).memWf := by
  obtain ⟨h1, h2, h3, h4⟩ := h
  simp only [State.putWord, State.memWf, State.withMem, State.withPsn, State.withErr]
  exact ⟨putBytes_wf _ _ _ h1, mwf_mset _ _ _ _ h2, mwf_mset _ _ _ _ h3, h4⟩

/-- Marking what a word's cells hold keeps the canonical form. -/
@[simp] theorem setErr_memWf (h : s.memWf) (a : Nat) (c : Cells) : (s.setErr a c).memWf :=
  ⟨h.1, h.2.1, mwf_mset _ _ _ _ h.2.2.1, h.2.2.2⟩

/-- Initialising a region keeps the canonical form. -/
@[simp] theorem setInit_memWf (h : s.memWf) (r : Nat) : (s.setInit r).memWf := ⟨h.1, h.2.1, h.2.2.1, mwf_mset _ _ _ _ h.2.2.2⟩

/-! ### What leaves DRAM alone -/

section Frames
variable (s : State)

@[simp] theorem setRg_memWf (r : R) (v i j : Nat) : (s.setRg r v i j).memWf = s.memWf := by rfl
@[simp] theorem setFl_memWf (f : FRef) (v i j : Nat) : (s.setFl f v i j).memWf = s.memWf := by rfl
@[simp] theorem setFlag_memWf (f : FRef) (b : Bool) (i j : Nat) : (s.setFlag f b i j).memWf = s.memWf := by rfl
@[simp] theorem bump_memWf (f : FRef) (n i j : Nat) : (s.bump f n i j).memWf = s.memWf := by rfl
@[simp] theorem raise_memWf (n d : Nat) (b : Bool) (t : Option Nat) : (s.raise n d b t).memWf = s.memWf := by rfl
@[simp] theorem useInjection_memWf : s.useInjection.memWf = s.memWf := by rfl
@[simp] theorem event_memWf (to_ : Option Nat) (c t : Nat) (p : List Byte) : (s.event to_ c t p).memWf = s.memWf := by
  simp [State.memWf]

@[simp] theorem setRankTimes_memWf (m r : Nat) (t : RankTimes) : (s.setRankTimes m r t).memWf = s.memWf := by rfl

/-- Writing the tack store changes nothing else. -/
theorem setTack_eq (l : List Byte) : ∀ (s : State) (a : Nat), ∃ t, s.setTack a l = s.withTack t := by
  induction l with
  | nil => intro s a; exact ⟨s.tack, rfl⟩
  | cons b t ih => intro s a; exact ih (s.withTack (mset (fun _ => 0) s.tack a b)) (a + 1)

@[simp] theorem setTack_memWf (l : List Byte) (a : Nat) : (s.setTack a l).memWf = s.memWf := by
  obtain ⟨t, h⟩ := setTack_eq l s a
  rw [h]
  rfl
@[simp] theorem saveMap_memWf (m a b c : Nat) : (s.saveMap m a b c).memWf = s.memWf := setTack_memWf s _ _

/-- A rank that leaves power-down leaves DRAM's contents alone. -/
@[simp] theorem wake_memWf (p : Place) : (s.wake p).memWf = s.memWf := by
  unfold State.wake
  simp only
  split <;> simp

/-- The start of a migration leaves DRAM's contents alone. -/
@[simp] theorem startMig_memWf (m x : Nat) : (s.startMig m x).memWf = s.memWf := by
  have hm (u : State) (g : Option Mig) : (u.withMig g).memWf = u.memWf := by rfl
  unfold State.startMig
  simp only
  rw [event_memWf, hm]
  simp

/-- A retirement candidate leaves DRAM's contents alone. -/
@[simp] theorem candidate_memWf (m x : Nat) : (s.candidate m x).memWf = s.memWf := by
  have hm (u : State) (g : SMap (Option Nat)) : (u.withMigWait g).memWf = u.memWf := by rfl
  unfold State.candidate
  simp only
  repeat' split
  all_goals simp [hm]

/-- An uncorrectable word leaves DRAM's contents alone. -/
@[simp] theorem uncorrectable_memWf (a : Nat) (p : Place) (i r : Bool) : (s.uncorrectable a p i r).memWf = s.memWf := by
  unfold State.uncorrectable
  simp only
  repeat' split
  all_goals simp

/-- Marking a write leaves DRAM's contents alone. -/
@[simp] theorem markWrite_memWf (w : Writer) (a : Nat) : (s.markWrite w a).memWf = s.memWf := by rfl

/-- A stored word's read leaves DRAM's contents alone. -/
@[simp] theorem storedWord_memWf (a : Nat) : (s.storedWord a).2.memWf = s.memWf := by
  unfold State.storedWord
  simp only
  repeat' split
  all_goals rfl

end Frames

/-! ### Reads and writes keep the canonical form -/

/-- A read of a word keeps the canonical form. -/
@[simp] theorem readWord_memWf (h : s.memWf) (a : Nat) (c : Cells) : (s.readWord a c).2.memWf := by
  unfold State.readWord
  simp only
  repeat' split
  all_goals simp [h]

/-- A read of words keeps the canonical form. -/
theorem readWords_memWf : ∀ (n : Nat) {s : State} (a : Nat), s.memWf → (s.readWords a n).2.memWf
  | 0, _, _, h => h
  | n + 1, _, a, h => readWords_memWf n (a + 8) (readWord_memWf h a .asStored)

/-- The read of a partial write keeps the canonical form. -/
@[simp] theorem rmwWord_memWf (h : s.memWf) (a : Nat) : (s.rmwWord a).memWf := by
  unfold State.rmwWord
  simp only
  repeat' split
  all_goals simp [h]

/-- Writes of words keep the canonical form. -/
theorem writeEach_memWf (by_ : Writer) : ∀ (l : List RWord) {s : State} (a : Nat), s.memWf → (s.writeEach by_ a l).memWf
  | [], _, _, h => h
  | w :: t, s, a, h => by
    rw [State.writeEach]
    simp only
    apply writeEach_memWf by_ t
    split <;> simp [h]

/-- Writes of words with the read-modify-write of the lines at their ends keep the canonical form. -/
theorem writeWords_memWf (h : s.memWf) (by_ : Writer) (a : Nat) (l : List RWord) : (s.writeWords by_ a l).memWf := by
  unfold State.writeWords
  simp only
  apply writeEach_memWf
  generalize List.filter _ _ = k
  induction k generalizing s with
  | nil => exact h
  | cons x t ih => exact ih (rmwWord_memWf h x)

/-- FILL_MEM's stores keep the canonical form. -/
theorem fillWords_memWf (by_ : Writer) :
    ∀ (n : Nat) {s : State} (a : Nat) (v : BitVec 64), s.memWf → (s.fillWords by_ a v n).memWf
  | 0, _, _, _, h => h
  | n + 1, _, a, v, h => fillWords_memWf by_ n (a + 8) v (writeEach_memWf by_ _ a h)

/-- COPY_MEM's copying keeps the canonical form. -/
theorem copyWords_memWf (by_ : Writer) : ∀ (n : Nat) {s : State} (a b : Nat), s.memWf → (s.copyWords by_ a b n).2.memWf
  | 0, _, _, _, h => h
  | n + 1, _, a, b, h => copyWords_memWf by_ n (a + 8) (b + 8) (writeEach_memWf by_ _ b (readWord_memWf h a .asStored))

end Sys2Proof.Machine
end

