-- ==== Sys2Proof/Laws/CanonOps.lean ====
section
/-! SUPPORT. The shared operations keep the canonical form of the state: one lemma per operation, of its resulting state. -/

namespace Sys2Proof.Machine

open Sys2Proof

/-! ### Regs -/

theorem canon_wr {s : State} {a : Nat} {v : Word} (hs : s.Canon) : (State.wr s a v).Canon := by
  unfold State.wr
  repeat' first
    | with_reducible assumption | with_reducible apply State.Canon.withRegs | with_reducible apply mwf_mset
    | with_reducible apply mwf_mclear | with_reducible apply mwf_filter | with_reducible apply mwf_nil
    | with_reducible apply State.Canon.regs | split | dsimp only

theorem canon_setRg {s : State} {r : R} {v : Nat} {i : optParam Nat 0} {j : optParam Nat 0} (hs : s.Canon) :
    (State.setRg s r v i j).Canon := by
  unfold State.setRg
  repeat' first | with_reducible assumption | with_reducible apply canon_wr | split | dsimp only

theorem canon_setFl {s : State} {f : FRef} {v : Nat} {i : optParam Nat 0} {j : optParam Nat 0} (hs : s.Canon) :
    (State.setFl s f v i j).Canon := by
  unfold State.setFl
  repeat' first | with_reducible assumption | with_reducible apply canon_setRg | split | dsimp only

theorem canon_bump {s : State} {f : FRef} {n : Nat} {i : optParam Nat 0} {j : optParam Nat 0} (hs : s.Canon) :
    (State.bump s f n i j).Canon := by
  unfold State.bump
  repeat' first | with_reducible assumption | with_reducible apply canon_setFl | split | dsimp only

theorem canon_setFlag {s : State} {f : FRef} {b : Bool} {i : optParam Nat 0} {j : optParam Nat 0} (hs : s.Canon) :
    (State.setFlag s f b i j).Canon := by
  unfold State.setFlag
  repeat' first | with_reducible assumption | with_reducible apply canon_setFl | split | dsimp only

theorem canon_setRg64 {s : State} {lo : R} {hi : R} {v : Nat} {i : optParam Nat 0} (hs : s.Canon) :
    (State.setRg64 s lo hi v i).Canon := by
  unfold State.setRg64
  repeat' first | with_reducible assumption | with_reducible apply canon_setRg | split | dsimp only

theorem canon_clearRegs {s : State} {lo : Nat} {hi : Nat} (hs : s.Canon) : (State.clearRegs s lo hi).Canon := by
  unfold State.clearRegs
  repeat' first
    | with_reducible assumption | with_reducible apply State.Canon.withLatch
    | with_reducible apply State.Canon.withRegs | with_reducible apply mwf_mset
    | with_reducible apply mwf_mclear | with_reducible apply mwf_filter | with_reducible apply mwf_nil
    | with_reducible apply State.Canon.latch | with_reducible apply State.Canon.regs | split | dsimp only

theorem canon_setLatch {s : State} {r : R} {v : Nat} {i : optParam Nat 0} {j : optParam Nat 0} (hs : s.Canon) :
    (State.setLatch s r v i j).Canon := by
  unfold State.setLatch
  repeat' first
    | with_reducible assumption | with_reducible apply State.Canon.withLatch | with_reducible apply mwf_mset
    | with_reducible apply mwf_mclear | with_reducible apply mwf_filter | with_reducible apply mwf_nil
    | with_reducible apply State.Canon.latch | split | dsimp only

theorem canon_dropLatch {s : State} {r : R} {i : optParam Nat 0} {j : optParam Nat 0} (hs : s.Canon) :
    (State.dropLatch s r i j).Canon := by
  unfold State.dropLatch
  repeat' first
    | with_reducible assumption | with_reducible apply State.Canon.withLatch | with_reducible apply mwf_mset
    | with_reducible apply mwf_mclear | with_reducible apply mwf_filter | with_reducible apply mwf_nil
    | with_reducible apply State.Canon.latch | split | dsimp only

theorem canon_setStall {x : State} {s : Nat} {v : Stall} (hx : x.Canon) : (State.setStall x s v).Canon := by
  unfold State.setStall
  repeat' first
    | with_reducible assumption | with_reducible apply State.Canon.withStalls | with_reducible apply mwf_mset
    | with_reducible apply mwf_mclear | with_reducible apply mwf_filter | with_reducible apply mwf_nil
    | with_reducible apply State.Canon.stalls | split | dsimp only

theorem canon_setChan {x : State} {c : Nat} {v : Chan} (hx : x.Canon) : (State.setChan x c v).Canon := by
  unfold State.setChan
  repeat' first
    | with_reducible assumption | with_reducible apply State.Canon.withChans | with_reducible apply mwf_mset
    | with_reducible apply mwf_mclear | with_reducible apply mwf_filter | with_reducible apply mwf_nil
    | with_reducible apply State.Canon.chans | split | dsimp only

theorem canon_setFramer {x : State} {k : Nat} {v : Framer} (hx : x.Canon) : (State.setFramer x k v).Canon := by
  unfold State.setFramer
  repeat' first
    | with_reducible assumption | with_reducible apply State.Canon.withFramers | with_reducible apply mwf_mset
    | with_reducible apply mwf_mclear | with_reducible apply mwf_filter | with_reducible apply mwf_nil
    | with_reducible apply State.Canon.framers | split | dsimp only

theorem canon_setQueue {x : State} {q : Nat} {v : QState} (hx : x.Canon) : (State.setQueue x q v).Canon := by
  unfold State.setQueue
  repeat' first
    | with_reducible assumption | with_reducible apply State.Canon.withQueues | with_reducible apply mwf_mset
    | with_reducible apply mwf_mclear | with_reducible apply mwf_filter | with_reducible apply mwf_nil
    | with_reducible apply State.Canon.queues | split | dsimp only

theorem canon_setStream {x : State} {q : Nat} {v : Option Stream} (hx : x.Canon) : (State.setStream x q v).Canon :=
    by
  unfold State.setStream
  repeat' first
    | with_reducible assumption | with_reducible apply State.Canon.withStreams | with_reducible apply mwf_mset
    | with_reducible apply mwf_mclear | with_reducible apply mwf_filter | with_reducible apply mwf_nil
    | with_reducible apply State.Canon.streams | split | dsimp only

theorem canon_setLane {x : State} {k : Nat} {v : Lane} (hx : x.Canon) : (State.setLane x k v).Canon := by
  unfold State.setLane
  repeat' first
    | with_reducible assumption | with_reducible apply State.Canon.withLanes | with_reducible apply mwf_mset
    | with_reducible apply mwf_mclear | with_reducible apply mwf_filter | with_reducible apply mwf_nil
    | with_reducible apply State.Canon.lanes | split | dsimp only

theorem canon_setSession {x : State} {n : Nat} {v : Option Session} (hx : x.Canon) :
    (State.setSession x n v).Canon := by
  unfold State.setSession
  repeat' first
    | with_reducible assumption | with_reducible apply State.Canon.withSess | with_reducible apply mwf_mset
    | with_reducible apply mwf_mclear | with_reducible apply mwf_filter | with_reducible apply mwf_nil
    | with_reducible apply State.Canon.sess | split | dsimp only

theorem canon_setOwner {x : State} {r : Nat} {v : Option Nat} (hx : x.Canon) : (State.setOwner x r v).Canon := by
  unfold State.setOwner
  repeat' first
    | with_reducible assumption | with_reducible apply State.Canon.withOwner | with_reducible apply mwf_mset
    | with_reducible apply mwf_mclear | with_reducible apply mwf_filter | with_reducible apply mwf_nil
    | with_reducible apply State.Canon.owner | split | dsimp only

theorem canon_setElection {x : State} {r : Nat} {v : Option Election} (hx : x.Canon) :
    (State.setElection x r v).Canon := by
  unfold State.setElection
  repeat' first
    | with_reducible assumption | with_reducible apply State.Canon.withElect | with_reducible apply mwf_mset
    | with_reducible apply mwf_mclear | with_reducible apply mwf_filter | with_reducible apply mwf_nil
    | with_reducible apply State.Canon.elect | split | dsimp only

theorem canon_setOp {x : State} {n : Nat} {v : Option OpRec} (hx : x.Canon) : (State.setOp x n v).Canon := by
  unfold State.setOp
  repeat' first
    | with_reducible assumption | with_reducible apply State.Canon.withOps | with_reducible apply mwf_mset
    | with_reducible apply mwf_mclear | with_reducible apply mwf_filter | with_reducible apply mwf_nil
    | with_reducible apply State.Canon.ops | split | dsimp only

theorem canon_setTim {x : State} {u : Nat} {v : Tim} (hx : x.Canon) : (State.setTim x u v).Canon := by
  unfold State.setTim
  repeat' first
    | with_reducible assumption | with_reducible apply State.Canon.withTims | with_reducible apply mwf_mset
    | with_reducible apply mwf_mclear | with_reducible apply mwf_filter | with_reducible apply mwf_nil
    | with_reducible apply State.Canon.tims | split | dsimp only

theorem canon_setFlt {x : State} {c : Nat} {v : Flt} (hx : x.Canon) : (State.setFlt x c v).Canon := by
  unfold State.setFlt
  repeat' first
    | with_reducible assumption | with_reducible apply State.Canon.withFlts | with_reducible apply mwf_mset
    | with_reducible apply mwf_mclear | with_reducible apply mwf_filter | with_reducible apply mwf_nil
    | with_reducible apply State.Canon.flts | split | dsimp only

theorem canon_setCore {x : State} {c : Nat} {v : Machine.Core} (hx : x.Canon) : (State.setCore x c v).Canon := by
  unfold State.setCore
  repeat' first
    | with_reducible assumption | with_reducible apply State.Canon.withCores | with_reducible apply mwf_mset
    | with_reducible apply mwf_mclear | with_reducible apply mwf_filter | with_reducible apply mwf_nil
    | with_reducible apply State.Canon.cores | split | dsimp only

theorem canon_setFlow {x : State} {f : Nat} {v : Flow} (hx : x.Canon) : (State.setFlow x f v).Canon := by
  unfold State.setFlow
  repeat' first
    | with_reducible assumption | with_reducible apply State.Canon.withFlows | with_reducible apply mwf_mset
    | with_reducible apply mwf_mclear | with_reducible apply mwf_filter | with_reducible apply mwf_nil
    | with_reducible apply State.Canon.flows | split | dsimp only

theorem canon_setPesm {x : State} {j : Nat} {v : Pes} (hx : x.Canon) : (State.setPesm x j v).Canon := by
  unfold State.setPesm
  repeat' first
    | with_reducible assumption | with_reducible apply State.Canon.withPes | with_reducible apply mwf_mset
    | with_reducible apply mwf_mclear | with_reducible apply mwf_filter | with_reducible apply mwf_nil
    | with_reducible apply State.Canon.pes | split | dsimp only

theorem canon_setBuf {x : State} {n : Nat} {v : List Rec} (hx : x.Canon) : (State.setBuf x n v).Canon := by
  unfold State.setBuf
  repeat' first
    | with_reducible assumption | with_reducible apply State.Canon.withSrcBuf | with_reducible apply mwf_mset
    | with_reducible apply mwf_mclear | with_reducible apply mwf_filter | with_reducible apply mwf_nil
    | with_reducible apply State.Canon.srcBuf | split | dsimp only

theorem canon_setAlarm {x : State} {a : Nat} {v : Option Alarm} (hx : x.Canon) : (State.setAlarm x a v).Canon := by
  unfold State.setAlarm
  repeat' first
    | with_reducible assumption | with_reducible apply State.Canon.withAlarms | with_reducible apply mwf_mset
    | with_reducible apply mwf_mclear | with_reducible apply mwf_filter | with_reducible apply mwf_nil
    | with_reducible apply State.Canon.alarms | split | dsimp only

theorem canon_setTack {x : State} {a : Nat} {a2 : List Byte} (hx : x.Canon) : (State.setTack x a a2).Canon := by
  induction a2 generalizing x a with
  | nil =>
      unfold State.setTack
      repeat' first
        | with_reducible assumption | with_reducible apply State.Canon.withTack | with_reducible apply mwf_mset
        | with_reducible apply mwf_mclear | with_reducible apply mwf_filter | with_reducible apply mwf_nil
        | with_reducible apply State.Canon.tack | split | dsimp only
  | cons y t ih =>
      unfold State.setTack
      repeat' first
        | with_reducible apply ih
        | with_reducible assumption | with_reducible apply State.Canon.withTack | with_reducible apply mwf_mset
        | with_reducible apply mwf_mclear | with_reducible apply mwf_filter | with_reducible apply mwf_nil
        | with_reducible apply State.Canon.tack | split | dsimp only

/-! ### Ops -/

theorem canon_mkrTo {s : State} {t : Nat} (hs : s.Canon) : (State.mkrTo s t).Canon := by
  unfold State.mkrTo
  repeat' first
    | with_reducible assumption | with_reducible apply State.Canon.withMkrLog
    | with_reducible apply State.Canon.withMkrEdges | with_reducible apply State.Canon.withMkr
    | (with_reducible refine foldl_snd_keeps (fun _ _ _ => ?_) _ ?_) | split | dsimp only

theorem canon_advTo {s : State} {t : Nat} (hs : s.Canon) : (State.advTo s t).Canon := by
  unfold State.advTo
  repeat' first
    | with_reducible assumption | with_reducible apply canon_mkrTo | with_reducible apply State.Canon.withCnt
    | with_reducible apply State.Canon.withNow | split | dsimp only

theorem canon_advToU {s : State} {u : Nat} (hs : s.Canon) : (State.advToU s u).Canon := by
  unfold State.advToU
  repeat' first | with_reducible assumption | with_reducible apply canon_advTo | split | dsimp only

theorem canon_draw {s : State} {w : Nat} (hs : s.Canon) : (State.draw s w).2.Canon := by
  unfold State.draw
  repeat' first | with_reducible assumption | with_reducible apply State.Canon.withFreeCtr | split | dsimp only

theorem canon_raise {s : State} {src : Nat} {detail : Nat} {inj : optParam Bool false}
    {stall : optParam (Option Nat) none} (hs : s.Canon) : (State.raise s src detail inj stall).Canon := by
  unfold State.raise
  repeat' first | with_reducible assumption | with_reducible apply State.Canon.withReports | split | dsimp only

theorem canon_setCond {s : State} {src : Nat} {on : Bool} (hs : s.Canon) : (State.setCond s src on).Canon := by
  unfold State.setCond
  repeat' first
    | with_reducible assumption | with_reducible apply State.Canon.withCondOn | with_reducible apply mwf_mset
    | with_reducible apply mwf_mclear | with_reducible apply mwf_filter | with_reducible apply mwf_nil
    | with_reducible apply State.Canon.condOn | split | dsimp only

theorem canon_offer {s : State} {k : Nat} {f : Sent} (hs : s.Canon) : (State.offer s k f).Canon := by
  unfold State.offer
  repeat' first
    | with_reducible assumption | with_reducible apply canon_bump | with_reducible apply State.Canon.withOut
    | split | dsimp only

theorem canon_sendDcp {s : State} {b : Binding} {m : Msg} (hs : s.Canon) : (State.sendDcp s b m).Canon := by
  unfold State.sendDcp
  repeat' first
    | with_reducible assumption | with_reducible apply canon_offer | with_reducible apply State.Canon.withMgt
    | split | dsimp only

theorem canon_event {s : State} {to_ : Option Nat} {code : Nat} {target : Nat} {params : List Byte} (hs : s.Canon) :
    (State.event s to_ code target params).Canon := by
  unfold State.event
  repeat' first
    | with_reducible assumption | with_reducible apply canon_bump | with_reducible apply canon_sendDcp
    | with_reducible apply canon_setSession | split | dsimp only

theorem canon_replyTo {s : State} {slot : Nat} {opcode : BitVec 16} {seq : BitVec 32} {target : BitVec 8}
    {status : Nat} {params : List Byte} (hs : s.Canon) :
    (State.replyTo s slot opcode seq target status params).Canon := by
  unfold State.replyTo
  repeat' first
    | with_reducible assumption | with_reducible apply canon_sendDcp | with_reducible apply canon_setSession
    | split | dsimp only

theorem canon_answer {s : State} {slot : Nat} {k : WaitKind} {status : Nat} {params : List Byte} (hs : s.Canon) :
    (State.answer s slot k status params).Canon := by
  unfold State.answer
  repeat' first
    | with_reducible assumption | with_reducible apply canon_replyTo | with_reducible apply canon_setSession
    | split | dsimp only

theorem canon_answerAll {s : State} {k : WaitKind} {status : Nat} {params : List Byte} (hs : s.Canon) :
    (State.answerAll s k status params).Canon := by
  unfold State.answerAll
  repeat' first
    | with_reducible assumption | with_reducible apply canon_answer
    | (with_reducible refine foldl_keeps (fun _ _ _ => ?_) _ ?_)
    | (with_reducible refine foldl_snd_keeps (fun _ _ _ => ?_) _ ?_) | split | dsimp only

theorem canon_expireWait {s : State} {slot : Nat} (hs : s.Canon) : (State.expireWait s slot).Canon := by
  unfold State.expireWait
  repeat' first | with_reducible assumption | with_reducible apply canon_answer | split | dsimp only

theorem canon_expireWaits {s : State} (hs : s.Canon) : (State.expireWaits s).Canon := by
  unfold State.expireWaits
  repeat' first
    | with_reducible assumption | with_reducible apply canon_expireWait
    | (with_reducible refine foldl_keeps (fun _ _ _ => ?_) _ ?_)
    | (with_reducible refine foldl_snd_keeps (fun _ _ _ => ?_) _ ?_) | split | dsimp only

theorem canon_startOp {s : State} {n : Nat} {slot : Nat} {opcode : BitVec 16} {k : OpKind} (hs : s.Canon) :
    (State.startOp s n slot opcode k).Canon := by
  unfold State.startOp
  repeat' first | with_reducible assumption | with_reducible apply canon_setOp | split | dsimp only

theorem canon_endOp {s : State} {n : Nat} {status : Nat} {result : BitVec 64} (hs : s.Canon) :
    (State.endOp s n status result).Canon := by
  unfold State.endOp
  repeat' first
    | with_reducible assumption | with_reducible apply canon_setOp | with_reducible apply canon_event | split

theorem canon_freeOps {s : State} {slot : Nat} {gen : Nat} (hs : s.Canon) : (State.freeOps s slot gen).Canon := by
  unfold State.freeOps
  repeat' first
    | with_reducible assumption | with_reducible apply canon_setOp
    | (with_reducible refine foldl_keeps (fun _ _ _ => ?_) _ ?_)
    | (with_reducible refine foldl_snd_keeps (fun _ _ _ => ?_) _ ?_) | split | dsimp only

/-! ### Mem -/

theorem canon_saveDramCfg {s : State} (hs : s.Canon) : (State.saveDramCfg s).Canon := by
  unfold State.saveDramCfg
  repeat' first | with_reducible assumption | with_reducible apply canon_setTack | split | dsimp only

theorem canon_saveMap {s : State} {m : Nat} {state : Nat} {rank : Nat} {spare : Nat} (hs : s.Canon) :
    (State.saveMap s m state rank spare).Canon := by
  unfold State.saveMap
  repeat' first | with_reducible assumption | with_reducible apply canon_setTack | split | dsimp only

theorem canon_setRankTimes {s : State} {m : Nat} {r : Nat} {t : RankTimes} (hs : s.Canon) :
    (State.setRankTimes s m r t).Canon := by
  unfold State.setRankTimes
  repeat' first
    | with_reducible assumption | with_reducible apply State.Canon.withRankT | with_reducible apply mwf_mset
    | with_reducible apply mwf_mclear | with_reducible apply mwf_filter | with_reducible apply mwf_nil
    | with_reducible apply State.Canon.rankT | split | dsimp only

theorem canon_wake {s : State} {p : Place} (hs : s.Canon) : (State.wake s p).Canon := by
  unfold State.wake
  repeat' first
    | with_reducible assumption | with_reducible apply canon_setRankTimes | with_reducible apply canon_setRg
    | split | dsimp only

theorem canon_startMig {s : State} {m : Nat} {x : Nat} (hs : s.Canon) : (State.startMig s m x).Canon := by
  unfold State.startMig
  repeat' first
    | with_reducible assumption | with_reducible apply canon_setFlag | with_reducible apply canon_saveMap
    | with_reducible apply canon_setFl | with_reducible apply State.Canon.withMig
    | with_reducible apply canon_event | split | dsimp only

theorem canon_candidate {s : State} {m : Nat} {x : Nat} (hs : s.Canon) : (State.candidate s m x).Canon := by
  unfold State.candidate
  repeat' first
    | with_reducible assumption | with_reducible apply canon_raise | with_reducible apply canon_startMig
    | with_reducible apply State.Canon.withMigWait | with_reducible apply mwf_mset
    | with_reducible apply mwf_mclear | with_reducible apply mwf_filter | with_reducible apply mwf_nil
    | with_reducible apply State.Canon.migWait | split | dsimp only

theorem canon_markWrite {s : State} {w : Writer} {a : Nat} (hs : s.Canon) : (State.markWrite s w a).Canon := by
  unfold State.markWrite
  repeat' first
    | with_reducible assumption | with_reducible apply State.Canon.withWrote | with_reducible apply mwf_mset
    | with_reducible apply mwf_mclear | with_reducible apply mwf_filter | with_reducible apply mwf_nil
    | with_reducible apply State.Canon.wrote | split | dsimp only

theorem canon_putWord {s : State} {a : Nat} {v : BitVec 64} {poison : Bool} (hs : s.Canon) :
    (State.putWord s a v poison).Canon := by
  unfold State.putWord
  exact ((hs.withMem (putBytes_wf _ _ _ hs.mem)).withPsn (mwf_mset _ _ _ _ hs.psn)).withErr (mwf_mset _ _ _ _ hs.err)

theorem canon_setErr {s : State} {a : Nat} {c : Cells} (hs : s.Canon) : (State.setErr s a c).Canon := by
  unfold State.setErr
  repeat' first
    | with_reducible assumption | with_reducible apply State.Canon.withErr | with_reducible apply mwf_mset
    | with_reducible apply mwf_mclear | with_reducible apply mwf_filter | with_reducible apply mwf_nil
    | with_reducible apply State.Canon.err | split | dsimp only

theorem canon_setInit {s : State} {r : Nat} (hs : s.Canon) : (State.setInit s r).Canon := by
  unfold State.setInit
  repeat' first
    | with_reducible assumption | with_reducible apply State.Canon.withInited | with_reducible apply mwf_mset
    | with_reducible apply mwf_mclear | with_reducible apply mwf_filter | with_reducible apply mwf_nil
    | with_reducible apply State.Canon.inited | split | dsimp only

theorem canon_useInjection {s : State} (hs : s.Canon) : (State.useInjection s).Canon := by
  unfold State.useInjection
  repeat' first | with_reducible assumption | with_reducible apply canon_setRg | split | dsimp only

theorem canon_checkFlit {s : State} {detail : Nat} {stall : Option Nat} {bad : Bool} (hs : s.Canon) :
    (State.checkFlit s detail stall bad).2.Canon := by
  unfold State.checkFlit
  repeat' first
    | with_reducible assumption | with_reducible apply canon_raise | with_reducible apply canon_useInjection
    | split | dsimp only

theorem canon_controlFlit {s : State} {direction : Nat} (hs : s.Canon) : (State.controlFlit s direction).Canon := by
  unfold State.controlFlit
  repeat' first | with_reducible assumption | with_reducible apply canon_checkFlit | split | dsimp only

theorem canon_checkTack {s : State} {off : Nat} (hs : s.Canon) : (State.checkTack s off).Canon := by
  unfold State.checkTack
  repeat' first
    | with_reducible assumption | with_reducible apply canon_raise | with_reducible apply canon_useInjection
    | split | dsimp only

theorem canon_uncorrectable {s : State} {a : Nat} {p : Place} {inj : Bool} {retire : Bool} (hs : s.Canon) :
    (State.uncorrectable s a p inj retire).Canon := by
  unfold State.uncorrectable
  repeat' first
    | with_reducible assumption | with_reducible apply canon_bump | with_reducible apply canon_setRg
    | with_reducible apply canon_raise | with_reducible apply canon_candidate | split | dsimp only

theorem canon_storedWord {s : State} {a : Nat} (hs : s.Canon) : (State.storedWord s a).2.Canon := by
  unfold State.storedWord
  repeat' first | with_reducible assumption | with_reducible apply canon_draw | split | dsimp only

theorem canon_readWord {s : State} {a : Nat} {c : optParam Cells Cells.asStored} (hs : s.Canon) :
    (State.readWord s a c).2.Canon := by
  unfold State.readWord
  repeat' first
    | with_reducible assumption | with_reducible apply canon_wake | with_reducible apply canon_setErr
    | with_reducible apply canon_uncorrectable | with_reducible apply canon_useInjection
    | with_reducible apply canon_bump | with_reducible apply canon_storedWord | split | dsimp only

theorem canon_readWords {s : State} {a : Nat} {a2 : Nat} (hs : s.Canon) : (State.readWords s a a2).2.Canon := by
  induction a2 generalizing s a with
  | zero =>
      unfold State.readWords
      repeat' first | with_reducible assumption | with_reducible apply canon_readWord | split | dsimp only
  | succ n ih =>
      unfold State.readWords
      repeat' first | with_reducible apply ih | with_reducible assumption | with_reducible apply canon_readWord | split | dsimp only

theorem canon_rmwWord {s : State} {a : Nat} (hs : s.Canon) : (State.rmwWord s a).Canon := by
  unfold State.rmwWord
  repeat' first
    | with_reducible assumption | with_reducible apply canon_putWord
    | with_reducible apply canon_uncorrectable | with_reducible apply canon_useInjection
    | with_reducible apply canon_bump | with_reducible apply canon_setErr | split | dsimp only

theorem canon_writeEach {s : State} {by_ : Writer} {a : Nat} {a3 : List RWord} (hs : s.Canon) :
    (State.writeEach s by_ a a3).Canon := by
  induction a3 generalizing s by_ a with
  | nil =>
      unfold State.writeEach
      repeat' first
        | with_reducible assumption | with_reducible apply canon_setInit | with_reducible apply canon_markWrite
        | with_reducible apply canon_putWord | with_reducible apply canon_wake | split | dsimp only
  | cons y t ih =>
      unfold State.writeEach
      repeat' first
        | with_reducible apply ih
        | with_reducible assumption | with_reducible apply canon_setInit | with_reducible apply canon_markWrite
        | with_reducible apply canon_putWord | with_reducible apply canon_wake | split | dsimp only

theorem canon_writeWords {s : State} {by_ : Writer} {a : Nat} {ws : List RWord} (hs : s.Canon) :
    (State.writeWords s by_ a ws).Canon := by
  unfold State.writeWords
  repeat' first
    | with_reducible assumption | with_reducible apply canon_writeEach | with_reducible apply canon_rmwWord
    | (with_reducible refine foldl_keeps (fun _ _ _ => ?_) _ ?_)
    | (with_reducible refine foldl_snd_keeps (fun _ _ _ => ?_) _ ?_) | split | dsimp only

theorem canon_fillWords {s : State} {by_ : Writer} {a : Nat} {v : BitVec 64} {a4 : Nat} (hs : s.Canon) :
    (State.fillWords s by_ a v a4).Canon := by
  induction a4 generalizing s by_ a v with
  | zero =>
      unfold State.fillWords
      repeat' first | with_reducible assumption | with_reducible apply canon_writeEach | split | dsimp only
  | succ n ih =>
      unfold State.fillWords
      repeat' first | with_reducible apply ih | with_reducible assumption | with_reducible apply canon_writeEach | split | dsimp only

theorem canon_copyWords {s : State} {by_ : Writer} {src : Nat} {dst : Nat} {a4 : Nat} (hs : s.Canon) :
    (State.copyWords s by_ src dst a4).2.Canon := by
  induction a4 generalizing s by_ src dst with
  | zero =>
      unfold State.copyWords
      repeat' first
        | with_reducible assumption | with_reducible apply canon_readWord | with_reducible apply canon_writeEach
        | split | dsimp only
  | succ n ih =>
      unfold State.copyWords
      repeat' first
        | with_reducible apply ih
        | with_reducible assumption | with_reducible apply canon_readWord | with_reducible apply canon_writeEach
        | split | dsimp only

theorem canon_readLine {s : State} {line : Nat} (hs : s.Canon) : (State.readLine s line).2.2.Canon := by
  unfold State.readLine
  repeat' first | with_reducible assumption | with_reducible apply canon_readWords | split | dsimp only

theorem canon_readEntry {s : State} {a : Nat} (hs : s.Canon) : (State.readEntry s a).2.2.Canon := by
  unfold State.readEntry
  repeat' first | with_reducible assumption | with_reducible apply canon_readWords | split | dsimp only

/-! ### Queue -/

theorem canon_judgeLow {s : State} {q : Nat} (hs : s.Canon) : (State.judgeLow s q).Canon := by
  unfold State.judgeLow
  repeat' first
    | with_reducible assumption | with_reducible apply canon_setQueue | with_reducible apply canon_raise
    | with_reducible apply canon_setFlag | (with_reducible refine foldl_keeps (fun _ _ _ => ?_) _ ?_)
    | (with_reducible refine foldl_snd_keeps (fun _ _ _ => ?_) _ ?_) | split | dsimp only

theorem canon_watchDepth {s : State} {q : Nat} (hs : s.Canon) : (State.watchDepth s q).Canon := by
  unfold State.watchDepth
  repeat' first
    | with_reducible assumption | with_reducible apply canon_setFl
    | (with_reducible refine foldl_keeps (fun _ _ _ => ?_) _ ?_)
    | (with_reducible refine foldl_snd_keeps (fun _ _ _ => ?_) _ ?_) | split | dsimp only

theorem canon_rewatch {s : State} {k : Nat} (hs : s.Canon) : (State.rewatch s k).Canon := by
  unfold State.rewatch
  repeat' first | with_reducible assumption | with_reducible apply canon_watchDepth | split | dsimp only

theorem canon_notice {s : State} {q : Nat} (hs : s.Canon) : (State.notice s q).Canon := by
  unfold State.notice
  repeat' first
    | with_reducible assumption | with_reducible apply State.Canon.withDue
    | with_reducible apply State.Canon.withTrigPend | with_reducible apply mwf_mset
    | with_reducible apply mwf_mclear | with_reducible apply mwf_filter | with_reducible apply mwf_nil
    | with_reducible apply State.Canon.trigPend | split | dsimp only

theorem canon_noteTables {s : State} {a : Nat} {n : Nat} (hs : s.Canon) : (State.noteTables s a n).Canon := by
  unfold State.noteTables
  repeat' first
    | with_reducible assumption | with_reducible apply canon_setStall
    | (with_reducible refine foldl_keeps (fun _ _ _ => ?_) _ ?_)
    | (with_reducible refine foldl_snd_keeps (fun _ _ _ => ?_) _ ?_) | split | dsimp only

theorem canon_noteWrite {s : State} {a : Nat} {n : Nat} (hs : s.Canon) : (State.noteWrite s a n).Canon := by
  unfold State.noteWrite
  repeat' first
    | with_reducible assumption | with_reducible apply canon_noteTables | with_reducible apply canon_setQueue
    | (with_reducible refine foldl_keeps (fun _ _ _ => ?_) _ ?_)
    | (with_reducible refine foldl_snd_keeps (fun _ _ _ => ?_) _ ?_) | split | dsimp only

theorem canon_payDebts {s : State} (hs : s.Canon) : (State.payDebts s).Canon := by
  unfold State.payDebts
  repeat' first
    | with_reducible assumption | with_reducible apply canon_setRg
    | (with_reducible refine foldl_keeps (fun _ _ _ => ?_) _ ?_)
    | (with_reducible refine foldl_snd_keeps (fun _ _ _ => ?_) _ ?_) | split | dsimp only

theorem canon_judgeBuf {s : State} {st : Nat} (hs : s.Canon) : (State.judgeBuf s st).Canon := by
  unfold State.judgeBuf
  repeat' first
    | with_reducible assumption | with_reducible apply canon_payDebts
    | with_reducible apply State.Canon.withBufPanic | with_reducible apply mwf_mset
    | with_reducible apply mwf_mclear | with_reducible apply mwf_filter | with_reducible apply mwf_nil
    | with_reducible apply State.Canon.bufPanic | split | dsimp only

theorem canon_wbufPut {s : State} {st : Nat} {a : Nat} {b : List Byte} {ring : Bool} (hs : s.Canon) :
    (State.wbufPut s st a b ring).Canon := by
  unfold State.wbufPut
  repeat' first
    | with_reducible assumption | with_reducible apply canon_judgeBuf
    | with_reducible apply State.Canon.withWbuf | with_reducible apply mwf_mset
    | with_reducible apply mwf_mclear | with_reducible apply mwf_filter | with_reducible apply mwf_nil
    | with_reducible apply State.Canon.wbuf | split | dsimp only

theorem canon_wbufDrain {s : State} {st : Nat} (hs : s.Canon) : (State.wbufDrain s st).Canon := by
  unfold State.wbufDrain
  repeat' first
    | with_reducible assumption | with_reducible apply canon_writeWords
    | with_reducible apply State.Canon.withWbuf | with_reducible apply canon_judgeBuf
    | with_reducible apply canon_noteWrite | with_reducible apply canon_noteTables
    | with_reducible apply mwf_mset | with_reducible apply mwf_mclear | with_reducible apply mwf_filter
    | with_reducible apply mwf_nil | with_reducible apply State.Canon.wbuf | split | dsimp only

theorem canon_wbufFlush {s : State} {st : Nat} (hs : s.Canon) : (State.wbufFlush s st).Canon := by
  unfold State.wbufFlush
  repeat' first
    | with_reducible assumption | with_reducible apply canon_wbufDrain
    | (with_reducible refine foldl_keeps (fun _ _ _ => ?_) _ ?_)
    | (with_reducible refine foldl_snd_keeps (fun _ _ _ => ?_) _ ?_) | split | dsimp only

theorem canon_spillWord {s : State} {q : Nat} {cells : Cells} {last : Bool} (hs : s.Canon) :
    (State.spillWord s q cells last).2.Canon := by
  unfold State.spillWord
  repeat' first
    | with_reducible assumption | with_reducible apply canon_draw | with_reducible apply canon_readWord
    | split | dsimp only

theorem canon_readback {s : State} {q : Nat} {cells : Cells} (hs : s.Canon) : (State.readback s q cells).Canon := by
  unfold State.readback
  repeat' first
    | with_reducible assumption | with_reducible apply canon_wbufFlush | with_reducible apply canon_spillWord
    | with_reducible apply canon_setQueue | split | dsimp only

theorem canon_spillWrite {s : State} {q : Nat} {w : QWord} (hs : s.Canon) : (State.spillWrite s q w).Canon := by
  unfold State.spillWrite
  repeat' first
    | with_reducible assumption | with_reducible apply canon_readback | with_reducible apply canon_setQueue
    | with_reducible apply canon_wbufPut | with_reducible apply canon_noteTables
    | with_reducible apply canon_writeWords | split | dsimp only

theorem canon_pushWord {s : State} {q : Nat} {w : QWord} (hs : s.Canon) : (State.pushWord s q w).Canon := by
  unfold State.pushWord
  repeat' first
    | with_reducible assumption | with_reducible apply canon_setQueue | with_reducible apply canon_spillWrite
    | with_reducible apply canon_notice | split | dsimp only

theorem canon_pushAll {s : State} {q : Nat} {ws : List QWord} (hs : s.Canon) : (State.pushAll s q ws).Canon := by
  unfold State.pushAll
  repeat' first
    | with_reducible assumption | with_reducible apply canon_judgeLow | with_reducible apply canon_watchDepth
    | with_reducible apply canon_pushWord | (with_reducible refine foldl_keeps (fun _ _ _ => ?_) _ ?_)
    | (with_reducible refine foldl_snd_keeps (fun _ _ _ => ?_) _ ?_) | split | dsimp only

theorem canon_refusePush {s : State} {q : Nat} (hs : s.Canon) : (State.refusePush s q).Canon := by
  unfold State.refusePush
  repeat' first
    | with_reducible assumption | with_reducible apply canon_bump | with_reducible apply canon_setFlag | split
    | dsimp only

theorem canon_push {s : State} {q : Nat} {ws : List QWord} (hs : s.Canon) : (State.push s q ws).2.Canon := by
  unfold State.push
  repeat' first
    | with_reducible assumption | with_reducible apply canon_pushAll | with_reducible apply canon_refusePush
    | split | dsimp only

theorem canon_pop {s : State} {q : Nat} {parityBad : optParam Bool false} (hs : s.Canon) :
    (State.pop s q parityBad).2.Canon := by
  unfold State.pop
  repeat' first
    | with_reducible assumption | with_reducible apply canon_setFlag | with_reducible apply canon_setQueue
    | with_reducible apply canon_judgeLow | with_reducible apply canon_useInjection
    | with_reducible apply canon_raise | split | dsimp only

theorem canon_popN {s : State} {q : Nat} {a2 : Nat} (hs : s.Canon) : (State.popN s q a2).2.Canon := by
  induction a2 generalizing s q with
  | zero =>
      unfold State.popN
      repeat' first
        | with_reducible assumption | with_reducible apply canon_pop
        | (with_reducible refine canon_of_eq (by assumption) ?_) | split | (intro _ _ _) | dsimp only
  | succ n ih =>
      unfold State.popN
      repeat' first
        | with_reducible apply ih
        | with_reducible assumption | with_reducible apply canon_pop
        | (with_reducible refine canon_of_eq (by assumption) ?_) | split | (intro _ _ _) | dsimp only

theorem canon_flushQ {s : State} {q : Nat} (hs : s.Canon) : (State.flushQ s q).Canon := by
  unfold State.flushQ
  repeat' first
    | with_reducible assumption | with_reducible apply canon_bump | with_reducible apply canon_judgeLow
    | with_reducible apply canon_setQueue | split | dsimp only

theorem canon_popStream {s : State} {q : Nat} {parityBad : Bool} (hs : s.Canon) :
    (State.popStream s q parityBad).Canon := by
  unfold State.popStream
  repeat' first
    | with_reducible assumption | with_reducible apply canon_pop | with_reducible apply canon_setStream
    | (with_reducible refine canon_of_eq (by assumption) ?_) | split | (intro _ _ _) | dsimp only

theorem canon_fillFrame {s : State} {q : Nat} {a2 : Nat} (hs : s.Canon) : (State.fillFrame s q a2).Canon := by
  induction a2 generalizing s q with
  | zero =>
      unfold State.fillFrame
      repeat' first | with_reducible assumption | with_reducible apply canon_popStream | split | dsimp only
  | succ n ih =>
      unfold State.fillFrame
      repeat' first | with_reducible apply ih | with_reducible assumption | with_reducible apply canon_popStream | split | dsimp only

theorem canon_sendStream {s : State} {q : Nat} {t : Stream} {retry : Bool} {seq : BitVec 32} {payload : List Byte}
    (hs : s.Canon) : (State.sendStream s q t retry seq payload).Canon := by
  unfold State.sendStream
  repeat' first | with_reducible assumption | with_reducible apply canon_sendDcp | split | dsimp only

theorem canon_sendFrame {s : State} {q : Nat} (hs : s.Canon) : (State.sendFrame s q).Canon := by
  unfold State.sendFrame
  repeat' first
    | with_reducible assumption | with_reducible apply canon_sendStream | with_reducible apply canon_setStream
    | split | dsimp only

theorem canon_raiseFloor {s : State} {q : Nat} {f : BitVec 32} (hs : s.Canon) : (State.raiseFloor s q f).Canon := by
  unfold State.raiseFloor
  repeat' first
    | with_reducible assumption | with_reducible apply canon_judgeLow | with_reducible apply canon_setQueue
    | with_reducible apply canon_setStream | (with_reducible refine foldl_keeps (fun _ _ _ => ?_) _ ?_)
    | (with_reducible refine foldl_snd_keeps (fun _ _ _ => ?_) _ ?_) | split | dsimp only

theorem canon_reclaim {s : State} {q : Nat} {need : Nat} {a3 : Nat} (hs : s.Canon) :
    (State.reclaim s q need a3).Canon := by
  induction a3 generalizing s q need with
  | zero =>
      unfold State.reclaim
      repeat' first | with_reducible assumption | with_reducible apply canon_raiseFloor | split | dsimp only
  | succ n ih =>
      unfold State.reclaim
      repeat' first | with_reducible apply ih | with_reducible assumption | with_reducible apply canon_raiseFloor | split | dsimp only

theorem canon_wholeRecord {s : State} {q : Nat} (hs : s.Canon) : (State.wholeRecord s q).Canon := by
  unfold State.wholeRecord
  repeat' first | with_reducible assumption | with_reducible apply canon_popStream | split | dsimp only

theorem canon_closeStream {s : State} {q : Nat} (hs : s.Canon) : (State.closeStream s q).Canon := by
  unfold State.closeStream
  repeat' first
    | with_reducible assumption | with_reducible apply canon_sendFrame
    | with_reducible apply canon_wholeRecord | with_reducible apply canon_judgeLow
    | with_reducible apply canon_setQueue | with_reducible apply canon_setStream | split | dsimp only

theorem canon_closeStreams {s : State} {slot : Nat} (hs : s.Canon) : (State.closeStreams s slot).Canon := by
  unfold State.closeStreams
  repeat' first
    | with_reducible assumption | with_reducible apply canon_closeStream
    | (with_reducible refine foldl_keeps (fun _ _ _ => ?_) _ ?_)
    | (with_reducible refine foldl_snd_keeps (fun _ _ _ => ?_) _ ?_) | split | dsimp only

theorem canon_resetQueues {s : State} (hs : s.Canon) : (State.resetQueues s).Canon := by
  unfold State.resetQueues
  repeat' first
    | with_reducible assumption | with_reducible apply State.Canon.withStreams
    | with_reducible apply State.Canon.withQueues | with_reducible apply canon_clearRegs
    | with_reducible apply mwf_mset | with_reducible apply mwf_mclear | with_reducible apply mwf_filter
    | with_reducible apply mwf_nil | with_reducible apply State.Canon.streams
    | with_reducible apply State.Canon.queues | split | dsimp only

/-! ### Acq -/

theorem canon_setLoss {s : State} {st : Nat} {dest : Nat} {v : Option LossRun} (hs : s.Canon) :
    (State.setLoss s st dest v).Canon := by
  unfold State.setLoss
  repeat' first
    | with_reducible assumption | with_reducible apply State.Canon.withLoss | with_reducible apply mwf_mset
    | with_reducible apply mwf_mclear | with_reducible apply mwf_filter | with_reducible apply mwf_nil
    | with_reducible apply State.Canon.loss | split | dsimp only

theorem canon_setLossOf {s : State} {st : Nat} {dest : Nat} {v : Option LossRun} (hs : s.Canon) :
    (State.setLossOf s st dest v).Canon := by
  unfold State.setLossOf
  repeat' first
    | with_reducible assumption | with_reducible apply State.Canon.withLossOld | with_reducible apply mwf_mset
    | with_reducible apply mwf_mclear | with_reducible apply mwf_filter | with_reducible apply mwf_nil
    | with_reducible apply State.Canon.lossOld | split | dsimp only

theorem canon_markGone {s : State} {st : Nat} (hs : s.Canon) : (State.markGone s st).Canon := by
  unfold State.markGone
  repeat' first | with_reducible assumption | with_reducible apply canon_setStall | split | dsimp only

theorem canon_lose {s : State} {dest : Nat} {cause : Nat} {r : Rec} (hs : s.Canon) :
    (State.lose s dest cause r).Canon := by
  unfold State.lose
  repeat' first
    | with_reducible assumption | with_reducible apply canon_setLoss | with_reducible apply canon_markGone
    | split | dsimp only

theorem canon_noteDest {s : State} {st : Nat} {q : Nat} (hs : s.Canon) : (State.noteDest s st q).Canon := by
  unfold State.noteDest
  repeat' first | with_reducible assumption | with_reducible apply canon_setStall | split | dsimp only

theorem canon_trigPulse {s : State} {st : Nat} {ev : Nat} (hs : s.Canon) : (State.trigPulse s st ev).Canon := by
  unfold State.trigPulse
  repeat' first
    | with_reducible assumption | with_reducible apply State.Canon.withTrigOut | with_reducible apply mwf_mset
    | with_reducible apply mwf_mclear | with_reducible apply mwf_filter | with_reducible apply mwf_nil
    | with_reducible apply State.Canon.trigOut | (with_reducible refine foldl_keeps (fun _ _ _ => ?_) _ ?_)
    | (with_reducible refine foldl_snd_keeps (fun _ _ _ => ?_) _ ?_) | split | dsimp only

theorem canon_enterFill {s : State} {st : Nat} (hs : s.Canon) : (State.enterFill s st).Canon := by
  unfold State.enterFill
  repeat' first
    | with_reducible assumption | with_reducible apply canon_setFl | with_reducible apply canon_setStall
    | split | dsimp only

theorem canon_closeWindow {s : State} {st : Nat} {cut : Bool} (hs : s.Canon) : (State.closeWindow s st cut).Canon :=
    by
  unfold State.closeWindow
  repeat' first
    | with_reducible assumption | with_reducible apply canon_setRg | with_reducible apply canon_setRg64
    | with_reducible apply canon_setFlag | with_reducible apply canon_bump | with_reducible apply canon_push
    | with_reducible apply canon_trigPulse | with_reducible apply canon_setFl
    | with_reducible apply canon_setStall | split | dsimp only

theorem canon_ringPut {s : State} {r : Rec} (hs : s.Canon) : (State.ringPut s r).Canon := by
  unfold State.ringPut
  repeat' first
    | with_reducible assumption | with_reducible apply canon_setRg64 | with_reducible apply canon_wbufPut
    | with_reducible apply canon_setStall | with_reducible apply canon_closeWindow | split | dsimp only

theorem canon_pushTwo {s : State} {q : Nat} {a : List QWord} {b : List QWord} (hs : s.Canon) :
    (State.pushTwo s q a b).2.Canon := by
  unfold State.pushTwo
  repeat' first
    | with_reducible assumption | with_reducible apply canon_reclaim | with_reducible apply canon_pushAll
    | split | dsimp only

theorem canon_writeGap {s : State} {st : Nat} {dest : Nat} {x : LossRun} (hs : s.Canon) :
    (State.writeGap s st dest x).2.Canon := by
  unfold State.writeGap
  repeat' first
    | with_reducible assumption | with_reducible apply canon_ringPut | with_reducible apply canon_pushTwo
    | split | dsimp only

theorem canon_closeOld {s : State} {st : Nat} {dest : Nat} (hs : s.Canon) : (State.closeOld s st dest).Canon := by
  unfold State.closeOld
  repeat' first
    | with_reducible assumption | with_reducible apply canon_writeGap | with_reducible apply canon_setLossOf
    | split | dsimp only

theorem canon_closeNew {s : State} {st : Nat} {dest : Nat} (hs : s.Canon) : (State.closeNew s st dest).Canon := by
  unfold State.closeNew
  repeat' first
    | with_reducible assumption | with_reducible apply canon_writeGap | with_reducible apply canon_bump
    | with_reducible apply canon_setLoss | split | dsimp only

theorem canon_drainTime {s : State} {q : Nat} {a2 : Nat} (hs : s.Canon) : (State.drainTime s q a2).Canon := by
  induction a2 generalizing s q with
  | zero =>
      unfold State.drainTime
      repeat' first
        | with_reducible assumption | with_reducible apply canon_pushTwo
        | with_reducible apply State.Canon.withTimePend | with_reducible apply mwf_mset
        | with_reducible apply mwf_mclear | with_reducible apply mwf_filter | with_reducible apply mwf_nil
        | with_reducible apply State.Canon.timePend | split | dsimp only
  | succ n ih =>
      unfold State.drainTime
      repeat' first
        | with_reducible apply ih
        | with_reducible assumption | with_reducible apply canon_pushTwo
        | with_reducible apply State.Canon.withTimePend | with_reducible apply mwf_mset
        | with_reducible apply mwf_mclear | with_reducible apply mwf_filter | with_reducible apply mwf_nil
        | with_reducible apply State.Canon.timePend | split | dsimp only

theorem canon_closeLoss {s : State} {st : Nat} {dest : Nat} (hs : s.Canon) : (State.closeLoss s st dest).Canon := by
  unfold State.closeLoss
  repeat' first
    | with_reducible assumption | with_reducible apply canon_closeOld | with_reducible apply canon_closeNew
    | with_reducible apply canon_drainTime | split | dsimp only

theorem canon_deliver {s : State} {dest : Nat} {r : Rec} (hs : s.Canon) : (State.deliver s dest r).Canon := by
  unfold State.deliver
  repeat' first
    | with_reducible assumption | with_reducible apply canon_lose | with_reducible apply canon_bump
    | with_reducible apply canon_closeLoss | with_reducible apply canon_ringPut
    | with_reducible apply canon_refusePush | with_reducible apply canon_reclaim
    | with_reducible apply canon_pushAll | with_reducible apply canon_noteDest | split | dsimp only

theorem canon_timePair {s : State} {st : Nat} {tag : Nat} (hs : s.Canon) : (State.timePair s st tag).Canon := by
  unfold State.timePair
  repeat' first
    | with_reducible assumption | with_reducible apply canon_closeLoss | with_reducible apply canon_ringPut
    | with_reducible apply canon_pushTwo | with_reducible apply State.Canon.withTimePend
    | with_reducible apply mwf_mset | with_reducible apply mwf_mclear | with_reducible apply mwf_filter
    | with_reducible apply mwf_nil | with_reducible apply State.Canon.timePend
    | (with_reducible refine foldl_keeps (fun _ _ _ => ?_) _ ?_)
    | (with_reducible refine foldl_snd_keeps (fun _ _ _ => ?_) _ ?_) | split | dsimp only

theorem canon_shape {s : State} {st : Nat} {key : Nat} (hs : s.Canon) : (State.shape s st key).2.Canon := by
  unfold State.shape
  repeat' first
    | with_reducible assumption | with_reducible apply canon_bump | with_reducible apply canon_setStall
    | split | dsimp only

theorem canon_enterBuf {s : State} {src : Nat} {r : Rec} (hs : s.Canon) : (State.enterBuf s src r).Canon := by
  unfold State.enterBuf
  repeat' first
    | with_reducible assumption | with_reducible apply canon_bump | with_reducible apply canon_lose
    | with_reducible apply canon_setBuf | split | dsimp only

theorem canon_form {s : State} {src : Nat} {r : Rec} (hs : s.Canon) : (State.form s src r).Canon := by
  unfold State.form
  repeat' first
    | with_reducible assumption | with_reducible apply canon_shape | with_reducible apply canon_enterBuf
    | split | dsimp only

theorem canon_mergeMark {s : State} {st : Nat} {r : Rec} (hs : s.Canon) : (State.mergeMark s st r).Canon := by
  unfold State.mergeMark
  repeat' first
    | with_reducible assumption | with_reducible apply canon_setStall | with_reducible apply canon_setBuf
    | split | dsimp only

theorem canon_trigger {s : State} {st : Nat} {code : Nat} {index : Nat} {tag : Nat} {chan : optParam Nat 255}
    (hs : s.Canon) : (State.trigger s st code index tag chan).Canon := by
  unfold State.trigger
  repeat' first
    | with_reducible assumption | with_reducible apply canon_mergeMark | with_reducible apply canon_setStall
    | with_reducible apply canon_shape | with_reducible apply canon_trigPulse
    | with_reducible apply canon_setFl | with_reducible apply canon_enterBuf | with_reducible apply canon_bump
    | split | dsimp only

theorem canon_trigEvent {s : State} {st : Nat} {code : Nat} {index : Nat} {tag : Nat} {chan : optParam Nat 255}
    (hs : s.Canon) : (State.trigEvent s st code index tag chan).Canon := by
  unfold State.trigEvent
  repeat' first | with_reducible assumption | with_reducible apply canon_trigger | split | dsimp only

theorem canon_failLog {s : State} {r : Rec} (hs : s.Canon) : (State.failLog s r).Canon := by
  unfold State.failLog
  repeat' first
    | with_reducible assumption | with_reducible apply canon_setFlag | with_reducible apply canon_push
    | with_reducible apply canon_bump | split | dsimp only

/-! ### Seq -/

theorem canon_entry {s : State} {st : Nat} {i : Nat} (hs : s.Canon) : (State.entry s st i).2.2.Canon := by
  unfold State.entry
  repeat' first
    | with_reducible assumption | with_reducible apply canon_draw | with_reducible apply canon_readEntry
    | split | dsimp only

theorem canon_keepEntry {s : State} {st : Nat} {path : List Bool} {i : Nat} (hs : s.Canon) :
    (State.keepEntry s st path i).2.2.Canon := by
  unfold State.keepEntry
  repeat' first
    | with_reducible assumption | with_reducible apply canon_entry | with_reducible apply canon_setStall
    | split | dsimp only

theorem canon_takeEntry {s : State} {st : Nat} {i : Nat} (hs : s.Canon) : (State.takeEntry s st i).2.2.Canon := by
  unfold State.takeEntry
  repeat' first
    | with_reducible assumption | with_reducible apply canon_setStall | with_reducible apply canon_entry
    | split | dsimp only

theorem canon_resolve {s : State} {st : Nat} {path : List Bool} {a3 : Nat} {a4 : Nat} {a5 : List Frame} {a6 : Nat}
    (hs : s.Canon) : (State.resolve s st path a3 a4 a5 a6).2.Canon := by
  induction a3 generalizing s a4 a5 a6 with
  | zero => exact hs
  | succ n ih =>
    unfold State.resolve
    dsimp only
    have hk := canon_keepEntry (st := st) (path := path) (i := a4) hs
    repeat' first | exact hs | exact hk | exact ih hk | split

theorem canon_judgeLeat {s : State} {st : Nat} (hs : s.Canon) : (State.judgeLeat s st).Canon := by
  unfold State.judgeLeat
  repeat' first
    | with_reducible assumption | with_reducible apply canon_setFl | with_reducible apply canon_payDebts
    | with_reducible apply canon_setStall | with_reducible apply canon_bump | split | dsimp only

theorem canon_successor {s : State} {st : Nat} {pre : List Bool} {b : Bool} {i : Nat} {e : SeqEnt} {k : List Frame}
    (hs : s.Canon) : (State.successor s st pre b i e k).2.Canon := by
  unfold State.successor
  repeat' first
    | with_reducible assumption | with_reducible apply canon_setStall | with_reducible apply canon_resolve
    | split | dsimp only

theorem canon_stageBoth {s : State} {st : Nat} {pre : List Bool} {i : Nat} {e : SeqEnt} {k : List Frame}
    (hs : s.Canon) : (State.stageBoth s st pre i e k).2.Canon := by
  unfold State.stageBoth
  repeat' first
    | with_reducible assumption | with_reducible apply canon_successor | with_reducible apply canon_setStall
    | split | dsimp only

theorem canon_stageDeep {s : State} {st : Nat} {b : Bool} {r : Option (Nat × SeqEnt × List Frame)} (hs : s.Canon) :
    (State.stageDeep s st b r).Canon := by
  unfold State.stageDeep
  repeat' first | with_reducible assumption | with_reducible apply canon_stageBoth | split | dsimp only

theorem canon_stageAll {s : State} {st : Nat} {i : Nat} {e : SeqEnt} {k : List Frame} (hs : s.Canon) :
    (State.stageAll s st i e k).Canon := by
  unfold State.stageAll
  repeat' first
    | with_reducible assumption | with_reducible apply canon_stageBoth | with_reducible apply canon_stageDeep
    | split | dsimp only

theorem canon_walkBody {s : State} {st : Nat} {depth : Nat} {a3 : Nat} {a4 : Nat} {a5 : List Frame} {a6 : Nat}
    {a7 : List (Nat × Nat)} (hs : s.Canon) : (State.walkBody s st depth a3 a4 a5 a6 a7).2.Canon := by
  induction a3 generalizing s a4 a5 a6 a7 with
  | zero => exact hs
  | succ n ih =>
    unfold State.walkBody
    dsimp only
    have hk := canon_keepEntry (st := st) (path := []) (i := a4) hs
    repeat' first | exact hs | exact hk | exact ih hk | split

theorem canon_residentOk {s : State} {st : Nat} {i : Nat} {e : SeqEnt} {k : List Frame} {run : Nat} (hs : s.Canon) :
    (State.residentOk s st i e k run).2.Canon := by
  unfold State.residentOk
  repeat' first
    | with_reducible assumption | with_reducible apply canon_walkBody
    | (with_reducible refine foldl_keeps (fun _ _ _ => ?_) _ ?_)
    | (with_reducible refine foldl_snd_keeps (fun _ _ _ => ?_) _ ?_) | split | dsimp only

theorem canon_lookSegment {s : State} {st : Nat} {e : SeqEnt} (hs : s.Canon) : (State.lookSegment s st e).Canon :=
    by
  unfold State.lookSegment
  repeat' first
    | with_reducible assumption | with_reducible apply canon_setStall | with_reducible apply canon_stageAll
    | split | dsimp only

theorem canon_lookPasses {s : State} {st : Nat} {r : ResWalk} (hs : s.Canon) : (State.lookPasses s st r).Canon := by
  unfold State.lookPasses
  repeat' first | with_reducible assumption | with_reducible apply canon_setStall | split | dsimp only

theorem canon_lookStep {s : State} {st : Nat} (hs : s.Canon) : (State.lookStep s st).Canon := by
  unfold State.lookStep
  repeat' first
    | with_reducible assumption | with_reducible apply canon_setStall | with_reducible apply canon_takeEntry
    | with_reducible apply canon_lookSegment | with_reducible apply canon_lookPasses
    | with_reducible apply canon_residentOk | split | dsimp only

theorem canon_lookOn {s : State} {st : Nat} {a2 : Nat} (hs : s.Canon) : (State.lookOn s st a2).Canon := by
  induction a2 generalizing s st with
  | zero =>
      unfold State.lookOn
      repeat' first | with_reducible assumption | with_reducible apply canon_lookStep | split | dsimp only
  | succ n ih =>
      unfold State.lookOn
      repeat' first | with_reducible apply ih | with_reducible assumption | with_reducible apply canon_lookStep | split | dsimp only

theorem canon_goOn {s : State} {st : Nat} {b : Bool} {i : Nat} {waitc : Nat} {k : List Frame} (hs : s.Canon) :
    (State.goOn s st b i waitc k).Canon := by
  unfold State.goOn
  repeat' first
    | with_reducible assumption | with_reducible apply canon_setStall | with_reducible apply canon_lookOn
    | split | dsimp only

theorem canon_endPath {s : State} {st : Nat} (hs : s.Canon) : (State.endPath s st).Canon := by
  unfold State.endPath
  repeat' first | with_reducible assumption | with_reducible apply canon_setStall | split | dsimp only

theorem canon_starve {s : State} {st : Nat} {vec : Nat} {line : Nat} (hs : s.Canon) :
    (State.starve s st vec line).Canon := by
  unfold State.starve
  repeat' first
    | with_reducible assumption | with_reducible apply canon_setStall | with_reducible apply canon_setRg64
    | split | dsimp only

/-! ### CalOps -/

theorem canon_setCalElem {s : State} {item : Nat} {idx : Nat} {e : CalElem} (hs : s.Canon) :
    (State.setCalElem s item idx e).Canon := by
  unfold State.setCalElem
  repeat' first
    | with_reducible assumption | with_reducible apply State.Canon.withCal | with_reducible apply mwf_mset
    | with_reducible apply mwf_mclear | with_reducible apply mwf_filter | with_reducible apply mwf_nil
    | with_reducible apply State.Canon.cal | split | dsimp only

theorem canon_loadElem {s : State} {a : Nat} {item : Nat} {idx : Nat} (hs : s.Canon) :
    (State.loadElem s a item idx).Canon := by
  unfold State.loadElem
  repeat' first
    | with_reducible assumption | with_reducible apply canon_draw | with_reducible apply canon_setCalElem
    | split | dsimp only

theorem canon_drawCodes {s : State} {a1 : Nat} (hs : s.Canon) : (State.drawCodes s a1).2.Canon := by
  induction a1 generalizing s with
  | zero =>
      unfold State.drawCodes
      repeat' first | with_reducible assumption | with_reducible apply canon_draw | split | dsimp only
  | succ n ih =>
      unfold State.drawCodes
      repeat' first | with_reducible apply ih | with_reducible assumption | with_reducible apply canon_draw | split | dsimp only

theorem canon_factory {s : State} {item : Nat} {idx : Nat} (hs : s.Canon) : (State.factory s item idx).Canon := by
  unfold State.factory
  repeat' first
    | with_reducible assumption | with_reducible apply canon_draw | with_reducible apply canon_drawCodes
    | with_reducible apply canon_setCalElem | split | dsimp only

theorem canon_clearWft {s : State} {ch : Nat} (hs : s.Canon) : (State.clearWft s ch).Canon := by
  unfold State.clearWft
  repeat' first | with_reducible assumption | with_reducible apply canon_clearRegs | split | dsimp only

theorem canon_loadWft {s : State} {ch : Nat} (hs : s.Canon) : (State.loadWft s ch).Canon := by
  unfold State.loadWft
  repeat' first
    | with_reducible assumption | with_reducible apply canon_setChan | with_reducible apply canon_clearWft
    | with_reducible apply canon_setRg | (with_reducible refine foldl_keeps (fun _ _ _ => ?_) _ ?_)
    | (with_reducible refine foldl_snd_keeps (fun _ _ _ => ?_) _ ?_) | split | dsimp only

theorem canon_loadSettings {s : State} {ch : Nat} (hs : s.Canon) : (State.loadSettings s ch).Canon := by
  unfold State.loadSettings
  repeat' first
    | with_reducible assumption | with_reducible apply canon_loadWft | with_reducible apply canon_setRg
    | with_reducible apply canon_setFl | split | dsimp only

theorem canon_loadChan {s : State} {ch : Nat} (hs : s.Canon) : (State.loadChan s ch).Canon := by
  unfold State.loadChan
  repeat' first
    | with_reducible assumption | with_reducible apply canon_loadSettings | with_reducible apply canon_factory
    | with_reducible apply canon_loadElem | split | dsimp only

theorem canon_loadDev {s : State} (hs : s.Canon) : (State.loadDev s).Canon := by
  unfold State.loadDev
  repeat' first
    | with_reducible assumption | with_reducible apply canon_factory | with_reducible apply canon_loadElem
    | (with_reducible refine foldl_keeps (fun _ _ _ => ?_) _ ?_)
    | (with_reducible refine foldl_snd_keeps (fun _ _ _ => ?_) _ ?_) | split | dsimp only

theorem canon_loadRecords {s : State} (hs : s.Canon) : (State.loadRecords s).Canon := by
  unfold State.loadRecords
  repeat' first
    | with_reducible assumption | with_reducible apply canon_loadDev | with_reducible apply canon_loadChan
    | with_reducible apply canon_checkTack | (with_reducible refine foldl_keeps (fun _ _ _ => ?_) _ ?_)
    | (with_reducible refine foldl_snd_keeps (fun _ _ _ => ?_) _ ?_) | split | dsimp only

theorem canon_commitElem {s : State} {item : Nat} {idx : Nat} (hs : s.Canon) :
    (State.commitElem s item idx).2.Canon := by
  unfold State.commitElem
  repeat' first
    | with_reducible assumption | with_reducible apply canon_drawCodes | with_reducible apply canon_setCalElem
    | split | dsimp only

theorem canon_putRec {s : State} {a : Nat} {b : Nat} {len : Nat} {idx : Nat} {content : List Byte} (hs : s.Canon) :
    (State.putRec s a b len idx content).Canon := by
  unfold State.putRec
  repeat' first | with_reducible assumption | with_reducible apply canon_setTack | split | dsimp only

theorem canon_commitChan {s : State} {ch : Nat} (hs : s.Canon) : (State.commitChan s ch).Canon := by
  unfold State.commitChan
  repeat' first
    | with_reducible assumption | with_reducible apply canon_commitElem | with_reducible apply canon_putRec
    | split | dsimp only

theorem canon_commitElems {s : State} {a1 : List (Nat × Nat)} (hs : s.Canon) : (State.commitElems s a1).2.Canon :=
    by
  induction a1 generalizing s with
  | nil =>
      unfold State.commitElems
      repeat' first | with_reducible assumption | with_reducible apply canon_commitElem | split | dsimp only
  | cons y t ih =>
      unfold State.commitElems
      repeat' first | with_reducible apply ih | with_reducible assumption | with_reducible apply canon_commitElem | split | dsimp only

theorem canon_commitDev {s : State} (hs : s.Canon) : (State.commitDev s).Canon := by
  unfold State.commitDev
  repeat' first
    | with_reducible assumption | with_reducible apply canon_commitElems | with_reducible apply canon_putRec
    | split | dsimp only

/-! ### Fmt -/

theorem canon_driveEdge {s : State} {ch : Nat} {e : DrvEdge} (hs : s.Canon) : (State.driveEdge s ch e).Canon := by
  unfold State.driveEdge
  repeat' first
    | with_reducible assumption | with_reducible apply canon_setChan | with_reducible apply canon_draw | split
    | dsimp only

theorem canon_driveAll {s : State} {ch : Nat} {upto : Nat} {a3 : List DrvEdge} (hs : s.Canon) :
    (State.driveAll s ch upto a3).Canon := by
  induction a3 generalizing s ch upto with
  | nil =>
      unfold State.driveAll
      repeat' first
        | with_reducible assumption | with_reducible apply canon_driveEdge | with_reducible apply canon_setChan
        | split | dsimp only
  | cons y t ih =>
      unfold State.driveAll
      repeat' first
        | with_reducible apply ih
        | with_reducible assumption | with_reducible apply canon_driveEdge | with_reducible apply canon_setChan
        | split | dsimp only

theorem canon_driveTo {s : State} {ch : Nat} {upto : Nat} (hs : s.Canon) : (State.driveTo s ch upto).Canon := by
  unfold State.driveTo
  repeat' first | with_reducible assumption | with_reducible apply canon_driveAll | split | dsimp only

theorem canon_placeEdge {s : State} {ch : Nat} {bound : Nat} {a : Option Bool × Option Bool} (hs : s.Canon) :
    (State.placeEdge s ch bound a).Canon := by
  unfold State.placeEdge
  repeat' first | with_reducible assumption | with_reducible apply canon_setChan | split | dsimp only

theorem canon_placeDrive {s : State} {k : VecCtx} {ch : Nat} {w : Nat} {b : Bool} (hs : s.Canon) :
    (State.placeDrive s k ch w b).Canon := by
  unfold State.placeDrive
  repeat' first
    | with_reducible assumption | with_reducible apply canon_setFlag | with_reducible apply canon_placeEdge
    | split | dsimp only

theorem canon_placeCmp {s : State} {k : VecCtx} {ch : Nat} {w : Nat} {word : Nat} {flags : Nat} {b : Bool}
    (hs : s.Canon) : (State.placeCmp s k ch w word flags b).Canon := by
  unfold State.placeCmp
  repeat' first
    | with_reducible assumption | with_reducible apply canon_setFlag | with_reducible apply canon_setChan
    | with_reducible apply canon_setStall | split | dsimp only

theorem canon_undefVector {s : State} {ch : Nat} {vec : Nat} (hs : s.Canon) : (State.undefVector s ch vec).Canon :=
    by
  unfold State.undefVector
  repeat' first
    | with_reducible assumption | with_reducible apply canon_draw | with_reducible apply canon_setChan | split

theorem canon_beginVector {s : State} {k : VecCtx} {ch : Nat} {dirty : Bool} (hs : s.Canon) :
    (State.beginVector s k ch dirty).Canon := by
  unfold State.beginVector
  repeat' first
    | with_reducible assumption | with_reducible apply canon_undefVector | with_reducible apply canon_driveTo
    | with_reducible apply canon_setChan | split | dsimp only

theorem canon_formatChannel {s : State} {k : VecCtx} {ch : Nat} {char : Nat} {b : Bool} (hs : s.Canon) :
    (State.formatChannel s k ch char b).Canon := by
  unfold State.formatChannel
  repeat' first
    | with_reducible assumption | with_reducible apply canon_beginVector | with_reducible apply canon_setChan
    | with_reducible apply canon_setFlag | with_reducible apply canon_placeDrive
    | with_reducible apply canon_placeCmp | split | dsimp only

theorem canon_phaseReset {s : State} {ch : Nat} {t : Nat} (hs : s.Canon) : (State.phaseReset s ch t).Canon := by
  unfold State.phaseReset
  repeat' first
    | with_reducible assumption | with_reducible apply canon_setChan | with_reducible apply canon_placeEdge
    | split | dsimp only

theorem canon_placeClock {s : State} {ch : Nat} {upto : Nat} {a3 : Nat} (hs : s.Canon) :
    (State.placeClock s ch upto a3).Canon := by
  induction a3 generalizing s ch upto with
  | zero =>
      unfold State.placeClock
      repeat' first
        | with_reducible assumption | with_reducible apply canon_placeEdge | with_reducible apply canon_setChan
        | split | dsimp only
  | succ n ih =>
      unfold State.placeClock
      repeat' first
        | with_reducible apply ih
        | with_reducible assumption | with_reducible apply canon_placeEdge | with_reducible apply canon_setChan
        | split | dsimp only

theorem canon_setInc {s : State} {ch : Nat} {inc : Nat} (hs : s.Canon) : (State.setInc s ch inc).Canon := by
  unfold State.setInc
  repeat' first
    | with_reducible assumption | with_reducible apply canon_setFlag | with_reducible apply canon_setRg
    | split | dsimp only

theorem canon_encodeChar {s : State} {st : Nat} {o : Nat} {r : Nat} {n : Nat} {plays : List Play} {v : Nat}
    (hs : s.Canon) : (State.encodeChar s st o r n plays v).Canon := by
  unfold State.encodeChar
  repeat' first
    | with_reducible assumption | with_reducible apply canon_draw | with_reducible apply canon_setFlag
    | with_reducible apply canon_setFramer | (with_reducible refine foldl_keeps (fun _ _ _ => ?_) _ ?_)
    | (with_reducible refine foldl_snd_keeps (fun _ _ _ => ?_) _ ?_) | split | dsimp only

theorem canon_encodeAll {s : State} {st : Nat} {vec : Nat} {plays : List Play} {v : Nat} (hs : s.Canon) :
    (State.encodeAll s st vec plays v).Canon := by
  unfold State.encodeAll
  repeat' first
    | with_reducible assumption | with_reducible apply canon_encodeChar
    | (with_reducible refine foldl_keeps (fun _ _ _ => ?_) _ ?_)
    | (with_reducible refine foldl_snd_keeps (fun _ _ _ => ?_) _ ?_) | split | dsimp only

theorem canon_formatVector {s : State} {k : VecCtx} {p : Play} {v : Nat} {span : Nat} (hs : s.Canon) :
    (State.formatVector s k p v span).Canon := by
  unfold State.formatVector
  repeat' first
    | with_reducible assumption | with_reducible apply canon_formatChannel
    | with_reducible apply canon_placeClock | with_reducible apply canon_driveTo
    | (with_reducible refine foldl_keeps (fun _ _ _ => ?_) _ ?_)
    | (with_reducible refine foldl_snd_keeps (fun _ _ _ => ?_) _ ?_) | split | dsimp only

theorem canon_takeHalt {s : State} {ch : Nat} {code : Nat} {at_ : Nat} (hs : s.Canon) :
    (State.takeHalt s ch code at_).Canon := by
  unfold State.takeHalt
  repeat' first
    | with_reducible assumption | with_reducible apply canon_draw | with_reducible apply canon_setChan | split
    | dsimp only

theorem canon_stopChannel {s : State} {st : Nat} {ch : Nat} {bound : Nat} (hs : s.Canon) :
    (State.stopChannel s st ch bound).Canon := by
  unfold State.stopChannel
  repeat' first
    | with_reducible assumption | with_reducible apply canon_setChan | with_reducible apply canon_driveTo
    | with_reducible apply canon_takeHalt | split | dsimp only

/-! ### Judge -/

theorem canon_noteSample {s : State} {ch : Nat} {st : Nat} (hs : s.Canon) : (State.noteSample s ch st).Canon := by
  unfold State.noteSample
  repeat' first | with_reducible assumption | with_reducible apply canon_setFlag | split | dsimp only

theorem canon_firstFail {s : State} {st : Nat} {vec : Nat} {ch : Nat} (hs : s.Canon) :
    (State.firstFail s st vec ch).Canon := by
  unfold State.firstFail
  repeat' first
    | with_reducible assumption | with_reducible apply canon_setRg | with_reducible apply canon_setRg64
    | split | dsimp only

theorem canon_failResult {s : State} {st : Nat} {ch : Nat} {vec : Nat} (hs : s.Canon) :
    (State.failResult s st ch vec).Canon := by
  unfold State.failResult
  repeat' first
    | with_reducible assumption | with_reducible apply canon_bump | with_reducible apply canon_setStall
    | with_reducible apply canon_firstFail | split | dsimp only

theorem canon_completeVec {s : State} {st : Nat} {ch : Nat} {vec : Nat} (hs : s.Canon) :
    (State.completeVec s st ch vec).Canon := by
  unfold State.completeVec
  repeat' first
    | with_reducible assumption | with_reducible apply canon_draw | with_reducible apply canon_setChan
    | with_reducible apply canon_failResult | split | dsimp only

theorem canon_settleVecs {s : State} {st : Nat} {ch : Nat} (hs : s.Canon) : (State.settleVecs s st ch).Canon := by
  unfold State.settleVecs
  repeat' first
    | with_reducible assumption | with_reducible apply canon_completeVec
    | (with_reducible refine foldl_keeps (fun _ _ _ => ?_) _ ?_)
    | (with_reducible refine foldl_snd_keeps (fun _ _ _ => ?_) _ ?_) | split | dsimp only

theorem canon_settleUndef {s : State} {st : Nat} (hs : s.Canon) : (State.settleUndef s st).Canon := by
  unfold State.settleUndef
  repeat' first
    | with_reducible assumption | with_reducible apply canon_settleVecs
    | (with_reducible refine foldl_keeps (fun _ _ _ => ?_) _ ?_)
    | (with_reducible refine foldl_snd_keeps (fun _ _ _ => ?_) _ ?_) | split | dsimp only

theorem canon_takeCands {s : State} {st : Nat} {at_ : Nat} {a3 : Nat} (hs : s.Canon) :
    (State.takeCands s st at_ a3).Canon := by
  induction a3 generalizing s st at_ with
  | zero =>
      unfold State.takeCands
      repeat' first
        | with_reducible assumption | with_reducible apply canon_setStall | with_reducible apply canon_trigEvent
        | split | dsimp only
  | succ n ih =>
      unfold State.takeCands
      repeat' first
        | with_reducible apply ih
        | with_reducible assumption | with_reducible apply canon_setStall | with_reducible apply canon_trigEvent
        | split | dsimp only

theorem canon_judge {s : State} {st : Nat} {ch : Nat} {e : CmpEvt} {src : Nat} {pass : Bool} {state : Nat}
    {at_ : Nat} (hs : s.Canon) : (State.judge s st ch e src pass state at_).Canon := by
  unfold State.judge
  repeat' first
    | with_reducible assumption | with_reducible apply canon_setStall | with_reducible apply canon_takeCands
    | with_reducible apply canon_setChan | with_reducible apply canon_trigEvent
    | with_reducible apply canon_form | with_reducible apply canon_failLog
    | with_reducible apply canon_completeVec | split | dsimp only

theorem canon_judgeFree {s : State} {st : Nat} {ch : Nat} {e : CmpEvt} {src : Nat} {at_ : Nat} (hs : s.Canon) :
    (State.judgeFree s st ch e src at_).Canon := by
  unfold State.judgeFree
  repeat' first
    | with_reducible assumption | with_reducible apply canon_draw | with_reducible apply canon_judge | split

theorem canon_closeWin {s : State} {st : Nat} {ch : Nat} {bound : Nat} {at_ : Nat} {w : OpenWin} {undef : Bool}
    {next : Option OpenWin} (hs : s.Canon) : (State.closeWin s st ch bound at_ w undef next).Canon := by
  unfold State.closeWin
  repeat' first
    | with_reducible assumption | with_reducible apply canon_setChan | with_reducible apply canon_judge
    | with_reducible apply canon_setFlag | with_reducible apply canon_judgeFree | split | dsimp only

theorem canon_cutWin {s : State} {st : Nat} {ch : Nat} (hs : s.Canon) : (State.cutWin s st ch).Canon := by
  unfold State.cutWin
  repeat' first
    | with_reducible assumption | with_reducible apply canon_completeVec | with_reducible apply canon_setFlag
    | with_reducible apply canon_setChan | split | dsimp only

theorem canon_keepStrobe {s : State} {st : Nat} {ch : Nat} {vec : Nat} {h : Bool} (hs : s.Canon) :
    (State.keepStrobe s st ch vec h).Canon := by
  unfold State.keepStrobe
  repeat' first
    | with_reducible assumption | with_reducible apply canon_setFramer
    | with_reducible apply State.Canon.withFltBits | with_reducible apply mwf_mset
    | with_reducible apply mwf_mclear | with_reducible apply mwf_filter | with_reducible apply mwf_nil
    | with_reducible apply State.Canon.fltBits | split | dsimp only

theorem canon_compareEvent {s : State} {st : Nat} {ch : Nat} {e : CmpEvt} {h : Bool} {l : Bool} (hs : s.Canon) :
    (State.compareEvent s st ch e h l).Canon := by
  unfold State.compareEvent
  repeat' first
    | with_reducible assumption | with_reducible apply canon_keepStrobe
    | with_reducible apply canon_noteSample | with_reducible apply canon_judgeFree
    | with_reducible apply canon_judge | with_reducible apply canon_closeWin
    | with_reducible apply canon_setFlag | with_reducible apply canon_setChan | split | dsimp only

theorem canon_frameRecord {s : State} {st : Nat} {o : Nat} (hs : s.Canon) : (State.frameRecord s st o).Canon := by
  unfold State.frameRecord
  repeat' first
    | with_reducible assumption | with_reducible apply canon_form | with_reducible apply canon_setFramer
    | (with_reducible refine foldl_keeps (fun _ _ _ => ?_) _ ?_)
    | (with_reducible refine foldl_snd_keeps (fun _ _ _ => ?_) _ ?_) | split | dsimp only

theorem canon_frameChar {s : State} {st : Nat} {o : Nat} {c : Nat × Nat} (hs : s.Canon) :
    (State.frameChar s st o c).Canon := by
  unfold State.frameChar
  repeat' first
    | with_reducible assumption | with_reducible apply canon_setFramer
    | with_reducible apply canon_frameRecord | split | dsimp only

theorem canon_unhold {s : State} {st : Nat} {o : Nat} (hs : s.Canon) : (State.unhold s st o).Canon := by
  unfold State.unhold
  repeat' first
    | with_reducible assumption | with_reducible apply canon_frameChar | with_reducible apply canon_setFramer
    | split | dsimp only

theorem canon_validChar {s : State} {st : Nat} {o : Nat} {n : Nat} {idx : Nat} {c : Nat} (hs : s.Canon) :
    (State.validChar s st o n idx c).Canon := by
  unfold State.validChar
  repeat' first
    | with_reducible assumption | with_reducible apply canon_setFramer | with_reducible apply canon_setFlag
    | with_reducible apply canon_unhold | with_reducible apply canon_frameChar | split | dsimp only

theorem canon_framerFail {s : State} {st : Nat} {o : Nat} {src : Nat} {n : Nat} {g : Nat} (hs : s.Canon) :
    (State.framerFail s st o src n g).Canon := by
  unfold State.framerFail
  repeat' first
    | with_reducible assumption | with_reducible apply canon_form | with_reducible apply canon_failLog | split

theorem canon_setAlign {s : State} {o : Nat} {p : Nat} {a : Option Nat} (hs : s.Canon) :
    (State.setAlign s o p a).Canon := by
  unfold State.setAlign
  repeat' first
    | with_reducible assumption | with_reducible apply canon_setFlag | with_reducible apply canon_setFramer
    | split | dsimp only

theorem canon_framerError {s : State} {st : Nat} {o : Nat} {p : Nat} {g : Nat} {src : Nat} {cnt : FRef}
    (hs : s.Canon) : (State.framerError s st o p g src cnt).Canon := by
  unfold State.framerError
  repeat' first
    | with_reducible assumption | with_reducible apply canon_frameRecord | with_reducible apply canon_unhold
    | with_reducible apply canon_framerFail | with_reducible apply canon_bump
    | with_reducible apply canon_setStall | with_reducible apply canon_setFlag
    | with_reducible apply canon_setFramer | with_reducible apply canon_setAlign | split | dsimp only

theorem canon_framerGroup {s : State} {st : Nat} {o : Nat} {p : Nat} {g : Nat} (hs : s.Canon) :
    (State.framerGroup s st o p g).Canon := by
  unfold State.framerGroup
  repeat' first
    | with_reducible assumption | with_reducible apply canon_bump | with_reducible apply canon_setFlag
    | with_reducible apply canon_setFramer | with_reducible apply canon_validChar
    | with_reducible apply canon_framerError | with_reducible apply canon_setAlign | split | dsimp only

theorem canon_framerBit {s : State} {st : Nat} {o : Nat} (hs : s.Canon) : (State.framerBit s st o).Canon := by
  unfold State.framerBit
  repeat' first
    | with_reducible assumption | with_reducible apply canon_setFlag | with_reducible apply canon_setFramer
    | with_reducible apply canon_framerGroup | (with_reducible refine foldl_keeps (fun _ _ _ => ?_) _ ?_)
    | (with_reducible refine foldl_snd_keeps (fun _ _ _ => ?_) _ ?_) | split | dsimp only

theorem canon_framerBits {s : State} {st : Nat} {o : Nat} {a3 : Nat} (hs : s.Canon) :
    (State.framerBits s st o a3).Canon := by
  induction a3 generalizing s st o with
  | zero =>
      unfold State.framerBits
      repeat' first | with_reducible assumption | with_reducible apply canon_framerBit | split | dsimp only
  | succ n ih =>
      unfold State.framerBits
      repeat' first | with_reducible apply ih | with_reducible assumption | with_reducible apply canon_framerBit | split | dsimp only

theorem canon_drainFramers {s : State} {st : Nat} (hs : s.Canon) : (State.drainFramers s st).Canon := by
  unfold State.drainFramers
  repeat' first
    | with_reducible assumption | with_reducible apply canon_framerBits
    | (with_reducible refine foldl_keeps (fun _ _ _ => ?_) _ ?_)
    | (with_reducible refine foldl_snd_keeps (fun _ _ _ => ?_) _ ?_) | split | dsimp only

theorem canon_framerT0 {s : State} {st : Nat} {vec : Nat} {t0 : Nat} (hs : s.Canon) :
    (State.framerT0 s st vec t0).Canon := by
  unfold State.framerT0
  repeat' first
    | with_reducible assumption | with_reducible apply canon_setFramer
    | (with_reducible refine foldl_keeps (fun _ _ _ => ?_) _ ?_)
    | (with_reducible refine foldl_snd_keeps (fun _ _ _ => ?_) _ ?_) | split | dsimp only

/-! ### TimOps -/

theorem canon_setTimState {s : State} {u : Nat} {v : Nat} (hs : s.Canon) : (State.setTimState s u v).Canon := by
  unfold State.setTimState
  repeat' first | with_reducible assumption | with_reducible apply canon_setFl | split | dsimp only

theorem canon_openGate {s : State} {u : Nat} {at_ : Nat} (hs : s.Canon) : (State.openGate s u at_).Canon := by
  unfold State.openGate
  repeat' first
    | with_reducible assumption | with_reducible apply canon_setFlag | with_reducible apply canon_setTimState
    | with_reducible apply canon_setTim | with_reducible apply canon_bump | split | dsimp only

theorem canon_closeGate {s : State} {u : Nat} (hs : s.Canon) : (State.closeGate s u).Canon := by
  unfold State.closeGate
  repeat' first
    | with_reducible assumption | with_reducible apply canon_setTim | with_reducible apply canon_bump
    | with_reducible apply canon_setTimState | split | dsimp only

theorem canon_markGates {s : State} {st : Nat} {n : Nat} {at_ : Nat} {up : Bool} (hs : s.Canon) :
    (State.markGates s st n at_ up).Canon := by
  unfold State.markGates
  repeat' first
    | with_reducible assumption | with_reducible apply canon_openGate | with_reducible apply canon_closeGate
    | (with_reducible refine foldl_keeps (fun _ _ _ => ?_) _ ?_)
    | (with_reducible refine foldl_snd_keeps (fun _ _ _ => ?_) _ ?_) | split | dsimp only

theorem canon_abandon {s : State} {u : Nat} (hs : s.Canon) : (State.abandon s u).Canon := by
  unfold State.abandon
  repeat' first
    | with_reducible assumption | with_reducible apply canon_setFlag | with_reducible apply canon_setTimState
    | split | dsimp only

theorem canon_followEn {s : State} {u : Nat} (hs : s.Canon) : (State.followEn s u).Canon := by
  unfold State.followEn
  repeat' first | with_reducible assumption | with_reducible apply canon_setTimState | split | dsimp only

/-! ### StallOps -/

theorem canon_syncChain {s : State} {c : Nat} {vec : Nat} (hs : s.Canon) : (State.syncChain s c vec).Canon := by
  unfold State.syncChain
  repeat' first | with_reducible assumption | with_reducible apply canon_setFlt | split | dsimp only

theorem canon_setMarkers {s : State} {st : Nat} {new : Nat} {t : Nat} {vec : Nat} (hs : s.Canon) :
    (State.setMarkers s st new t vec).Canon := by
  unfold State.setMarkers
  repeat' first
    | with_reducible assumption | with_reducible apply canon_setStall
    | with_reducible apply State.Canon.withMkrEdges | with_reducible apply canon_markGates
    | with_reducible apply canon_trigEvent | with_reducible apply canon_syncChain
    | (with_reducible refine foldl_keeps (fun _ _ _ => ?_) _ ?_)
    | (with_reducible refine foldl_snd_keeps (fun _ _ _ => ?_) _ ?_) | split | dsimp only

theorem canon_clearLatches {s : State} {st : Nat} {code : Nat} {t0 : Nat} (hs : s.Canon) :
    (State.clearLatches s st code t0).Canon := by
  unfold State.clearLatches
  repeat' first | with_reducible assumption | with_reducible apply canon_setStall | split | dsimp only

theorem canon_decide_ {s : State} {st : Nat} {p : Play} {t0 : Nat} (hs : s.Canon) :
    (State.decide_ s st p t0).Canon := by
  unfold State.decide_
  repeat' first
    | with_reducible assumption | with_reducible apply canon_drainFramers
    | with_reducible apply canon_clearLatches | with_reducible apply canon_goOn
    | with_reducible apply canon_setFlag | with_reducible apply canon_endPath | split | dsimp only

theorem canon_cutTims {s : State} {st : Nat} (hs : s.Canon) : (State.cutTims s st).Canon := by
  unfold State.cutTims
  repeat' first
    | with_reducible assumption | with_reducible apply canon_setTim | with_reducible apply canon_setFlag
    | with_reducible apply canon_setFl | (with_reducible refine foldl_keeps (fun _ _ _ => ?_) _ ?_)
    | (with_reducible refine foldl_snd_keeps (fun _ _ _ => ?_) _ ?_) | split | dsimp only

theorem canon_followTrained {s : State} {ch : Nat} (hs : s.Canon) : (State.followTrained s ch).Canon := by
  unfold State.followTrained
  repeat' first | with_reducible assumption | with_reducible apply canon_setFl | split | dsimp only

theorem canon_stopEq {s : State} {ch : Nat} (hs : s.Canon) : (State.stopEq s ch).Canon := by
  unfold State.stopEq
  repeat' first
    | with_reducible assumption | with_reducible apply canon_setFl | with_reducible apply canon_setFlag
    | with_reducible apply canon_followTrained | split | dsimp only

theorem canon_epochOverrun {s : State} {st : Nat} (hs : s.Canon) : (State.epochOverrun s st).Canon := by
  unfold State.epochOverrun
  repeat' first
    | with_reducible assumption | with_reducible apply canon_setQueue | with_reducible apply canon_raise
    | with_reducible apply canon_setFlag | (with_reducible refine foldl_keeps (fun _ _ _ => ?_) _ ?_)
    | (with_reducible refine foldl_snd_keeps (fun _ _ _ => ?_) _ ?_) | split | dsimp only

theorem canon_startEvent {s : State} {st : Nat} {edge : Nat} (hs : s.Canon) : (State.startEvent s st edge).Canon :=
    by
  unfold State.startEvent
  repeat' first
    | with_reducible assumption | with_reducible apply canon_setStall | with_reducible apply canon_enterFill
    | with_reducible apply canon_setFl | with_reducible apply canon_timePair
    | with_reducible apply canon_epochOverrun | with_reducible apply canon_advTo
    | with_reducible apply canon_raise | with_reducible apply canon_setRg | with_reducible apply canon_cutTims
    | with_reducible apply canon_stopEq | with_reducible apply canon_answerAll
    | with_reducible apply canon_event | (with_reducible refine foldl_keeps (fun _ _ _ => ?_) _ ?_)
    | (with_reducible refine foldl_snd_keeps (fun _ _ _ => ?_) _ ?_) | split | dsimp only

theorem canon_startSegment {s : State} {st : Nat} {n : NextVec} (hs : s.Canon) :
    (State.startSegment s st n).Canon := by
  unfold State.startSegment
  repeat' first
    | with_reducible assumption | with_reducible apply canon_setRg | with_reducible apply canon_setStall
    | with_reducible apply canon_setInc | with_reducible apply canon_phaseReset
    | (with_reducible refine foldl_keeps (fun _ _ _ => ?_) _ ?_)
    | (with_reducible refine foldl_snd_keeps (fun _ _ _ => ?_) _ ?_) | split | dsimp only

theorem canon_beginRun {s : State} {st : Nat} {n : NextVec} (hs : s.Canon) : (State.beginRun s st n).Canon := by
  unfold State.beginRun
  repeat' first
    | with_reducible assumption | with_reducible apply canon_setFl | with_reducible apply canon_setChan
    | with_reducible apply canon_phaseReset | with_reducible apply canon_setFlt
    | with_reducible apply canon_epochOverrun | with_reducible apply canon_answerAll
    | (with_reducible refine foldl_keeps (fun _ _ _ => ?_) _ ?_)
    | (with_reducible refine foldl_snd_keeps (fun _ _ _ => ?_) _ ?_) | split | dsimp only

theorem canon_checkReadOut {s : State} {st : Nat} {n : NextVec} (hs : s.Canon) :
    (State.checkReadOut s st n).2.Canon := by
  unfold State.checkReadOut
  have ho : ∀ (o : Option Nat), (o.elim s (fun k => s.useInjection.raise (112 + k) 0 true)).Canon := by
    intro o
    cases o with
    | none => exact hs
    | some k => exact canon_raise (canon_useInjection hs)
  dsimp only
  split
  · exact canon_setStall (canon_raise (canon_useInjection (ho _)))
  · exact ho _

theorem canon_hopperFails {s : State} {st : Nat} (hs : s.Canon) : (State.hopperFails s st).Canon := by
  unfold State.hopperFails
  repeat' first | with_reducible assumption | with_reducible apply canon_setStall | split | dsimp only

theorem canon_playVector {s : State} {st : Nat} {n : NextVec} (hs : s.Canon) : (State.playVector s st n).Canon := by
  unfold State.playVector
  repeat' first
    | with_reducible assumption | with_reducible apply canon_advToU | with_reducible apply canon_checkReadOut
    | with_reducible apply canon_beginRun | with_reducible apply canon_startSegment
    | with_reducible apply canon_setStall | with_reducible apply canon_setMarkers
    | with_reducible apply canon_encodeAll | with_reducible apply canon_settleUndef
    | with_reducible apply canon_framerT0 | with_reducible apply canon_formatVector
    | with_reducible apply canon_mkrTo | with_reducible apply canon_decide_
    | with_reducible apply canon_judgeLeat | split | dsimp only

theorem canon_stopWindow {s : State} {st : Nat} (hs : s.Canon) : (State.stopWindow s st).Canon := by
  unfold State.stopWindow
  repeat' first
    | with_reducible assumption | with_reducible apply canon_closeWindow | with_reducible apply canon_setFl
    | split | dsimp only

theorem canon_stopAt {s : State} {st : Nat} {c : Nat} (hs : s.Canon) : (State.stopAt s st c).Canon := by
  unfold State.stopAt
  repeat' first
    | with_reducible assumption | with_reducible apply canon_advToU | with_reducible apply canon_setFl
    | with_reducible apply canon_frameRecord | with_reducible apply canon_unhold
    | with_reducible apply canon_drainFramers | with_reducible apply canon_settleVecs
    | with_reducible apply canon_cutWin | with_reducible apply canon_stopEq
    | with_reducible apply canon_stopChannel | with_reducible apply canon_mkrTo
    | with_reducible apply canon_setMarkers | with_reducible apply canon_cutTims
    | with_reducible apply canon_stopWindow | with_reducible apply canon_setStall
    | with_reducible apply canon_payDebts | with_reducible apply canon_raise
    | with_reducible apply canon_answerAll | with_reducible apply canon_event
    | (with_reducible refine foldl_keeps (fun _ _ _ => ?_) _ ?_)
    | (with_reducible refine foldl_snd_keeps (fun _ _ _ => ?_) _ ?_) | split | dsimp only

theorem canon_disarm {s : State} {st : Nat} (hs : s.Canon) : (State.disarm s st).Canon := by
  unfold State.disarm
  repeat' first
    | with_reducible assumption | with_reducible apply canon_setStall | with_reducible apply canon_payDebts
    | with_reducible apply canon_setFl | split | dsimp only

theorem canon_stopSoon {s : State} {st : Nat} {c : Nat} (hs : s.Canon) : (State.stopSoon s st c).Canon := by
  unfold State.stopSoon
  repeat' first | with_reducible assumption | with_reducible apply canon_setStall | split | dsimp only

theorem canon_resetStallChannels {s : State} {st : Nat} (hs : s.Canon) : (State.resetStallChannels s st).Canon := by
  unfold State.resetStallChannels
  repeat' first
    | with_reducible assumption | with_reducible apply canon_setRg | with_reducible apply canon_setChan
    | with_reducible apply canon_takeHalt | with_reducible apply canon_followTrained
    | (with_reducible refine foldl_keeps (fun _ _ _ => ?_) _ ?_)
    | (with_reducible refine foldl_snd_keeps (fun _ _ _ => ?_) _ ?_) | split | dsimp only

theorem canon_stallResetNow {s : State} {st : Nat} (hs : s.Canon) : (State.stallResetNow s st).Canon := by
  unfold State.stallResetNow
  repeat' first
    | with_reducible assumption | with_reducible apply canon_clearRegs | with_reducible apply canon_setRg
    | with_reducible apply canon_setFlag | with_reducible apply canon_setFl
    | with_reducible apply canon_setStall | with_reducible apply canon_resetStallChannels | split | dsimp only

theorem canon_stallResetDone {s : State} {st : Nat} (hs : s.Canon) : (State.stallResetDone s st).Canon := by
  unfold State.stallResetDone
  repeat' first
    | with_reducible assumption | with_reducible apply canon_answerAll
    | with_reducible apply canon_stallResetNow | split | dsimp only

theorem canon_stallResetBegin {s : State} {st : Nat} {early : Nat} (hs : s.Canon) :
    (State.stallResetBegin s st early).Canon := by
  unfold State.stallResetBegin
  repeat' first
    | with_reducible assumption | with_reducible apply canon_stopSoon | with_reducible apply canon_answerAll
    | with_reducible apply canon_stallResetDone | split | dsimp only

/-! ### Faults -/

theorem canon_setSrcBit {s : State} {r : R} {n : Nat} {b : Bool} (hs : s.Canon) : (State.setSrcBit s r n b).Canon :=
    by
  unfold State.setSrcBit
  repeat' first | with_reducible assumption | with_reducible apply canon_setRg | split | dsimp only

theorem canon_judgeAlarm {s : State} (hs : s.Canon) : (State.judgeAlarm s).Canon := by
  unfold State.judgeAlarm
  repeat' first | with_reducible assumption | with_reducible apply canon_setFlag | split | dsimp only

theorem canon_faultClear {s : State} {mask : Nat → Bool} {first : Bool} (hs : s.Canon) :
    (State.faultClear s mask first).Canon := by
  unfold State.faultClear
  repeat' first
    | with_reducible assumption | with_reducible apply canon_setSrcBit | with_reducible apply canon_setFlag
    | with_reducible apply canon_judgeAlarm | (with_reducible refine foldl_keeps (fun _ _ _ => ?_) _ ?_)
    | (with_reducible refine foldl_snd_keeps (fun _ _ _ => ?_) _ ?_) | split | dsimp only

theorem canon_releaseAll {s : State} {slot : Nat} (hs : s.Canon) : (State.releaseAll s slot).Canon := by
  unfold State.releaseAll
  repeat' first
    | with_reducible assumption | with_reducible apply canon_setOwner
    | (with_reducible refine foldl_keeps (fun _ _ _ => ?_) _ ?_)
    | (with_reducible refine foldl_snd_keeps (fun _ _ _ => ?_) _ ?_) | split | dsimp only

theorem canon_dropClaims {s : State} {slot : Nat} (hs : s.Canon) : (State.dropClaims s slot).Canon := by
  unfold State.dropClaims
  repeat' first
    | with_reducible assumption | with_reducible apply canon_setElection
    | (with_reducible refine foldl_keeps (fun _ _ _ => ?_) _ ?_)
    | (with_reducible refine foldl_snd_keeps (fun _ _ _ => ?_) _ ?_) | split | dsimp only

theorem canon_closeSession {s : State} {slot : Nat} (hs : s.Canon) : (State.closeSession s slot).Canon := by
  unfold State.closeSession
  repeat' first
    | with_reducible assumption | with_reducible apply canon_setSession | with_reducible apply canon_freeOps
    | with_reducible apply canon_closeStreams | with_reducible apply canon_dropClaims
    | with_reducible apply canon_releaseAll | split | dsimp only

theorem canon_laneDefaults {s : State} {k : Nat} (hs : s.Canon) : (State.laneDefaults s k).Canon := by
  unfold State.laneDefaults
  repeat' first
    | with_reducible assumption | with_reducible apply canon_setFl | with_reducible apply canon_setRg | split

theorem canon_laneTo {s : State} {k : Nat} {state : Nat} {own : Bool} (hs : s.Canon) :
    (State.laneTo s k state own).Canon := by
  unfold State.laneTo
  repeat' first
    | with_reducible assumption | with_reducible apply canon_setFl | with_reducible apply canon_bump
    | with_reducible apply canon_raise | with_reducible apply canon_setCond | split | dsimp only

theorem canon_laneCounts {s : State} {k : Nat} (hs : s.Canon) : (State.laneCounts s k).Canon := by
  unfold State.laneCounts
  repeat' first
    | with_reducible assumption | with_reducible apply canon_draw | with_reducible apply canon_bump | split
    | dsimp only

theorem canon_laneAdapt {s : State} {k : Nat} (hs : s.Canon) : (State.laneAdapt s k).Canon := by
  unfold State.laneAdapt
  repeat' first
    | with_reducible assumption | with_reducible apply canon_draw | with_reducible apply canon_setFlag
    | with_reducible apply canon_setRg | split | dsimp only

theorem canon_takeSettings {s : State} {k : Nat} (hs : s.Canon) : (State.takeSettings s k).Canon := by
  unfold State.takeSettings
  repeat' first | with_reducible assumption | with_reducible apply canon_setLane | split | dsimp only

theorem canon_laneStart {s : State} {k : Nat} {own : Bool} (hs : s.Canon) : (State.laneStart s k own).Canon := by
  unfold State.laneStart
  repeat' first
    | with_reducible assumption | with_reducible apply canon_laneCounts | with_reducible apply canon_setLane
    | with_reducible apply canon_setRg | with_reducible apply canon_setFl
    | with_reducible apply State.Canon.withDrive | with_reducible apply canon_laneTo | split | dsimp only

theorem canon_closeLane {s : State} {k : Nat} (hs : s.Canon) : (State.closeLane s k).Canon := by
  unfold State.closeLane
  repeat' first
    | with_reducible assumption | with_reducible apply canon_closeSession
    | (with_reducible refine foldl_keeps (fun _ _ _ => ?_) _ ?_)
    | (with_reducible refine foldl_snd_keeps (fun _ _ _ => ?_) _ ?_) | split | dsimp only

theorem canon_resetLane {s : State} {k : Nat} (hs : s.Canon) : (State.resetLane s k).Canon := by
  unfold State.resetLane
  repeat' first
    | with_reducible assumption | with_reducible apply canon_closeLane | with_reducible apply canon_laneTo
    | with_reducible apply canon_laneDefaults | with_reducible apply canon_clearRegs
    | with_reducible apply canon_laneStart | with_reducible apply canon_takeSettings
    | with_reducible apply canon_setLane | split | dsimp only

theorem canon_loseQueue {s : State} {st : Nat} {q : Nat} (hs : s.Canon) : (State.loseQueue s st q).Canon := by
  unfold State.loseQueue
  repeat' first
    | with_reducible assumption | with_reducible apply canon_lose
    | (with_reducible refine foldl_keeps (fun _ _ _ => ?_) _ ?_)
    | (with_reducible refine foldl_snd_keeps (fun _ _ _ => ?_) _ ?_) | split | dsimp only

theorem canon_resetQm {s : State} (hs : s.Canon) : (State.resetQm s).Canon := by
  unfold State.resetQm
  repeat' first
    | with_reducible assumption | with_reducible apply canon_wbufFlush | with_reducible apply canon_loseQueue
    | with_reducible apply canon_setStall | with_reducible apply canon_resetQueues
    | (with_reducible refine foldl_keeps (fun _ _ _ => ?_) _ ?_)
    | (with_reducible refine foldl_snd_keeps (fun _ _ _ => ?_) _ ?_) | split | dsimp only

theorem canon_resetAcq {s : State} (hs : s.Canon) : (State.resetAcq s).Canon := by
  unfold State.resetAcq
  repeat' first
    | with_reducible assumption | with_reducible apply canon_lose | with_reducible apply canon_wbufFlush
    | with_reducible apply canon_clearRegs | with_reducible apply State.Canon.withTrigOut
    | with_reducible apply State.Canon.withSrcBuf | with_reducible apply canon_setStall
    | with_reducible apply mwf_mset | with_reducible apply mwf_mclear | with_reducible apply mwf_filter
    | with_reducible apply mwf_nil | with_reducible apply State.Canon.trigOut
    | with_reducible apply State.Canon.srcBuf | (with_reducible refine foldl_keeps (fun _ _ _ => ?_) _ ?_)
    | (with_reducible refine foldl_snd_keeps (fun _ _ _ => ?_) _ ?_) | split | dsimp only

theorem canon_resetYard {s : State} (hs : s.Canon) : (State.resetYard s).Canon := by
  unfold State.resetYard
  repeat' first
    | with_reducible assumption | with_reducible apply canon_clearRegs
    | with_reducible apply State.Canon.withCores | with_reducible apply State.Canon.withYstate
    | with_reducible apply State.Canon.withFlows | with_reducible apply State.Canon.withInsts
    | with_reducible apply State.Canon.withDue | with_reducible apply State.Canon.withTrigPend
    | with_reducible apply State.Canon.withMods | with_reducible apply State.Canon.withTmpl
    | with_reducible apply canon_endOp | with_reducible apply mwf_mset | with_reducible apply mwf_mclear
    | with_reducible apply mwf_filter | with_reducible apply mwf_nil | with_reducible apply State.Canon.cores
    | with_reducible apply State.Canon.ystate | with_reducible apply State.Canon.flows
    | with_reducible apply State.Canon.trigPend | with_reducible apply State.Canon.mods
    | with_reducible apply State.Canon.tmpl | (with_reducible refine foldl_keeps (fun _ _ _ => ?_) _ ?_)
    | (with_reducible refine foldl_snd_keeps (fun _ _ _ => ?_) _ ?_) | split | dsimp only

theorem canon_resetCal {s : State} (hs : s.Canon) : (State.resetCal s).Canon := by
  unfold State.resetCal
  repeat' first
    | with_reducible assumption | with_reducible apply canon_draw | with_reducible apply canon_endOp
    | with_reducible apply canon_loadRecords | with_reducible apply State.Canon.withCalOp | split | dsimp only

theorem canon_resetMcRegs {s : State} {m : Nat} (hs : s.Canon) : (State.resetMcRegs s m).Canon := by
  unfold State.resetMcRegs
  repeat' first
    | with_reducible assumption | with_reducible apply canon_clearRegs | with_reducible apply canon_setRg
    | split | dsimp only

theorem canon_loseWrites {s : State} {m : Nat} {st : Nat} (hs : s.Canon) : (State.loseWrites s m st).Canon := by
  unfold State.loseWrites
  repeat' first
    | with_reducible assumption | with_reducible apply canon_judgeBuf
    | with_reducible apply State.Canon.withWbuf | with_reducible apply canon_lose
    | with_reducible apply canon_writeEach | with_reducible apply mwf_mset | with_reducible apply mwf_mclear
    | with_reducible apply mwf_filter | with_reducible apply mwf_nil | with_reducible apply State.Canon.wbuf
    | (with_reducible refine foldl_keeps (fun _ _ _ => ?_) _ ?_)
    | (with_reducible refine foldl_snd_keeps (fun _ _ _ => ?_) _ ?_) | split | dsimp only

theorem canon_dropWait {s : State} {m : Nat} {slot : Nat} (hs : s.Canon) : (State.dropWait s m slot).Canon := by
  unfold State.dropWait
  repeat' first | with_reducible assumption | with_reducible apply canon_answer | split | dsimp only

theorem canon_resetMc {s : State} {m : Nat} (hs : s.Canon) : (State.resetMc s m).Canon := by
  unfold State.resetMc
  repeat' first
    | with_reducible assumption | with_reducible apply canon_loseWrites | with_reducible apply canon_dropWait
    | with_reducible apply canon_setStall | with_reducible apply State.Canon.withMig
    | with_reducible apply canon_resetMcRegs | with_reducible apply canon_setFl
    | (with_reducible refine foldl_keeps (fun _ _ _ => ?_) _ ?_)
    | (with_reducible refine foldl_snd_keeps (fun _ _ _ => ?_) _ ?_) | split | dsimp only

theorem canon_resetEffect {s : State} {b : Blk} (hs : s.Canon) : (State.resetEffect s b).Canon := by
  unfold State.resetEffect
  repeat' first
    | with_reducible assumption | with_reducible apply canon_resetLane | with_reducible apply canon_resetMc
    | with_reducible apply canon_resetQm | with_reducible apply canon_resetYard
    | with_reducible apply canon_resetAcq | with_reducible apply State.Canon.withFlts
    | with_reducible apply canon_clearRegs | with_reducible apply State.Canon.withTims
    | with_reducible apply State.Canon.withFramers | with_reducible apply canon_resetCal
    | with_reducible apply canon_stallResetBegin | with_reducible apply mwf_mset
    | with_reducible apply mwf_mclear | with_reducible apply mwf_filter | with_reducible apply mwf_nil
    | with_reducible apply State.Canon.flts | with_reducible apply State.Canon.tims
    | with_reducible apply State.Canon.framers | split | dsimp only

theorem canon_openShadow {s : State} {b : Blk} (hs : s.Canon) : (State.openShadow s b).Canon := by
  unfold State.openShadow
  repeat' first | with_reducible assumption | with_reducible apply State.Canon.withShadows | split | dsimp only

theorem canon_closeShadow {s : State} {b : Blk} (hs : s.Canon) : (State.closeShadow s b).Canon := by
  unfold State.closeShadow
  repeat' first | with_reducible assumption | with_reducible apply State.Canon.withShadows | split | dsimp only

theorem canon_beginBlock {s : State} {b : Blk} (hs : s.Canon) : (State.beginBlock s b).Canon := by
  unfold State.beginBlock
  repeat' first
    | with_reducible assumption | with_reducible apply canon_openShadow
    | with_reducible apply State.Canon.withRst | with_reducible apply canon_setRg
    | with_reducible apply canon_resetEffect | split | dsimp only

theorem canon_endBlock {s : State} {b : Blk} (hs : s.Canon) : (State.endBlock s b).Canon := by
  unfold State.endBlock
  repeat' first
    | with_reducible assumption | with_reducible apply State.Canon.withRst | with_reducible apply canon_setRg
    | with_reducible apply canon_closeShadow | with_reducible apply canon_setFl
    | with_reducible apply canon_event | with_reducible apply State.Canon.withMig
    | with_reducible apply canon_closeLoss | (with_reducible refine foldl_keeps (fun _ _ _ => ?_) _ ?_)
    | (with_reducible refine foldl_snd_keeps (fun _ _ _ => ?_) _ ?_) | split | dsimp only

theorem canon_faultStall {s : State} {st : Nat} (hs : s.Canon) : (State.faultStall s st).Canon := by
  unfold State.faultStall
  repeat' first
    | with_reducible assumption | with_reducible apply canon_stopSoon | with_reducible apply canon_answerAll
    | with_reducible apply canon_disarm | with_reducible apply canon_setFlag | split | dsimp only

theorem canon_faultEvents {s : State} {src : Nat} {code : Nat} {aff : List Nat} {tag : BitVec 64} (hs : s.Canon) :
    (State.faultEvents s src code aff tag).Canon := by
  unfold State.faultEvents
  repeat' first
    | with_reducible assumption | with_reducible apply canon_bump
    | with_reducible apply State.Canon.withLastEvt | with_reducible apply canon_event
    | with_reducible apply mwf_mset | with_reducible apply mwf_mclear | with_reducible apply mwf_filter
    | with_reducible apply mwf_nil | with_reducible apply State.Canon.lastEvt
    | (with_reducible refine foldl_keeps (fun _ _ _ => ?_) _ ?_)
    | (with_reducible refine foldl_snd_keeps (fun _ _ _ => ?_) _ ?_) | split | dsimp only

theorem canon_react {s : State} {r : Report} {code : Nat} (hs : s.Canon) : (State.react s r code).Canon := by
  unfold State.react
  repeat' first
    | with_reducible assumption | with_reducible apply canon_faultEvents | with_reducible apply canon_setFlag
    | with_reducible apply canon_faultStall | with_reducible apply canon_setStall
    | with_reducible apply canon_beginBlock | with_reducible apply State.Canon.withResetAt
    | (with_reducible refine foldl_keeps (fun _ _ _ => ?_) _ ?_)
    | (with_reducible refine foldl_snd_keeps (fun _ _ _ => ?_) _ ?_) | split | dsimp only

theorem canon_faultEntry {s : State} {r : Report} {code : Nat} {first : Bool} {secondary : Bool} (hs : s.Canon) :
    (State.faultEntry s r code first secondary).Canon := by
  unfold State.faultEntry
  repeat' first
    | with_reducible assumption | with_reducible apply canon_push | with_reducible apply canon_setFlag | split
    | dsimp only

theorem canon_activate {s : State} {r : Report} (hs : s.Canon) : (State.activate s r).Canon := by
  unfold State.activate
  repeat' first
    | with_reducible assumption | with_reducible apply canon_faultEntry | with_reducible apply canon_bump
    | with_reducible apply canon_setSrcBit | with_reducible apply canon_setRg
    | with_reducible apply canon_setFlag | with_reducible apply canon_react | split | dsimp only

theorem canon_markLive {s : State} {r : Report} (hs : s.Canon) : (State.markLive s r).Canon := by
  unfold State.markLive
  repeat' first
    | with_reducible assumption | with_reducible apply canon_setSrcBit
    | with_reducible apply State.Canon.withSeenAt | with_reducible apply mwf_mset
    | with_reducible apply mwf_mclear | with_reducible apply mwf_filter | with_reducible apply mwf_nil
    | with_reducible apply State.Canon.seenAt | split | dsimp only

theorem canon_collect {s : State} {r : Report} (hs : s.Canon) : (State.collect s r).Canon := by
  unfold State.collect
  repeat' first
    | with_reducible assumption | with_reducible apply canon_markLive | with_reducible apply canon_activate
    | split | dsimp only

theorem canon_endCond {s : State} {n : Nat} (hs : s.Canon) : (State.endCond s n).Canon := by
  unfold State.endCond
  repeat' first
    | with_reducible assumption | with_reducible apply canon_setCond | with_reducible apply canon_setSrcBit
    | split | dsimp only

theorem canon_sweepShadows {s : State} (hs : s.Canon) : (State.sweepShadows s).Canon := by
  unfold State.sweepShadows
  repeat' first
    | with_reducible assumption | with_reducible apply canon_closeShadow
    | (with_reducible refine foldl_keeps (fun _ _ _ => ?_) _ ?_)
    | (with_reducible refine foldl_snd_keeps (fun _ _ _ => ?_) _ ?_) | split | dsimp only

theorem canon_settleN {s : State} {a1 : Nat} (hs : s.Canon) : (State.settleN s a1).Canon := by
  induction a1 generalizing s with
  | zero => exact hs
  | succ n ih =>
    unfold State.settleN
    split
    · exact hs
    · split
      · exact ih (foldl_keeps (fun _ _ h => canon_collect h) _ (hs.withReports []))
      · exact hs.withReports _

theorem canon_settle {s : State} (hs : s.Canon) : (State.settle s).Canon := by
  unfold State.settle
  repeat' first
    | with_reducible assumption | with_reducible apply canon_sweepShadows | with_reducible apply canon_settleN
    | split | dsimp only

theorem canon_done {s : State} (hs : s.Canon) : Keeps State.Canon (done s) := by
  exact canon_settle hs

/-! ### AcqEvents -/

theorem canon_execRecordAccept {source : Fin 176} {flitParityBad : Bool} {s : State} (hs : s.Canon) :
    Keeps State.Canon (execRecordAccept source flitParityBad s) := by
  unfold execRecordAccept
  repeat' first
    | with_reducible assumption | with_reducible apply canon_done | with_reducible apply canon_advTo
    | with_reducible apply canon_setBuf | with_reducible apply canon_checkFlit
    | with_reducible apply canon_bump | with_reducible apply canon_lose | with_reducible apply canon_deliver
    | split | dsimp only

theorem canon_execGapPairWrite {st : StallIx} {dest : Fin 32769} {s : State} (hs : s.Canon) :
    Keeps State.Canon (execGapPairWrite st dest s) := by
  unfold execGapPairWrite
  repeat' first
    | with_reducible assumption | with_reducible apply canon_done | with_reducible apply canon_closeLoss
    | split | dsimp only

theorem canon_execTimePairPeriodic {st : StallIx} {s : State} (hs : s.Canon) :
    Keeps State.Canon (execTimePairPeriodic st s) := by
  unfold execTimePairPeriodic
  repeat' first
    | with_reducible assumption | with_reducible apply canon_done | with_reducible apply canon_advToU
    | with_reducible apply canon_setStall | with_reducible apply canon_timePair | split | dsimp only

theorem canon_execAutoTrigger {st : StallIx} {s : State} (hs : s.Canon) :
    Keeps State.Canon (execAutoTrigger st s) := by
  unfold execAutoTrigger
  repeat' first
    | with_reducible assumption | with_reducible apply canon_advTo | with_reducible apply canon_done
    | with_reducible apply canon_trigger | split | dsimp only

theorem canon_execWindowRearm {st : StallIx} {s : State} (hs : s.Canon) :
    Keeps State.Canon (execWindowRearm st s) := by
  unfold execWindowRearm
  repeat' first
    | with_reducible assumption | with_reducible apply canon_done | with_reducible apply canon_enterFill
    | with_reducible apply canon_advTo | split | dsimp only

theorem canon_execTrigOutPulse {n : Fin 4} {s : State} (hs : s.Canon) : Keeps State.Canon (execTrigOutPulse n s) :=
    by
  unfold execTrigOutPulse
  repeat' first
    | with_reducible assumption | with_reducible apply canon_done
    | with_reducible apply State.Canon.withTrigOut | with_reducible apply canon_advTo
    | with_reducible apply mwf_mset | with_reducible apply mwf_mclear | with_reducible apply mwf_filter
    | with_reducible apply mwf_nil | with_reducible apply State.Canon.trigOut | split | dsimp only

/-! ### Idle -/

theorem canon_takeHeld {s : State} {c : Instr} (hs : s.Canon) : (State.takeHeld s c).Canon := by
  unfold State.takeHeld
  repeat' first
    | with_reducible assumption | with_reducible apply State.Canon.withResuming
    | with_reducible apply State.Canon.withHeld | split | dsimp only

theorem canon_tick {s : State} (hs : s.Canon) : (State.tick s).Canon := by
  unfold State.tick
  repeat' first
    | with_reducible assumption | with_reducible apply canon_expireWaits | with_reducible apply canon_advTo
    | split | dsimp only

/-! ### Flt -/

theorem canon_satMark {s : State} {c : Nat} {f : FRef} {b : Bool} (hs : s.Canon) : (State.satMark s c f b).Canon :=
    by
  unfold State.satMark
  repeat' first
    | with_reducible assumption | with_reducible apply canon_setFlt | with_reducible apply canon_setFlag
    | split | dsimp only

theorem canon_fltOut {s : State} {c : Nat} {st : Nat} {t0 : Nat} {x : Int} (hs : s.Canon) :
    (State.fltOut s c st t0 x).Canon := by
  unfold State.fltOut
  repeat' first
    | with_reducible assumption | with_reducible apply canon_setFlt | with_reducible apply canon_satMark
    | with_reducible apply canon_form | with_reducible apply canon_bump | split | dsimp only

theorem canon_fltFir {s : State} {c : Nat} {st : Nat} {t0 : Nat} {x : Int} (hs : s.Canon) :
    (State.fltFir s c st t0 x).Canon := by
  unfold State.fltFir
  repeat' first
    | with_reducible assumption | with_reducible apply canon_setFlt | with_reducible apply canon_fltOut
    | with_reducible apply canon_satMark | split | dsimp only

theorem canon_fltHb {s : State} {c : Nat} {st : Nat} {t0 : Nat} {x : Int} (hs : s.Canon) :
    (State.fltHb s c st t0 x).Canon := by
  unfold State.fltHb
  repeat' first
    | with_reducible assumption | with_reducible apply canon_setFlt | with_reducible apply canon_satMark
    | with_reducible apply canon_fltFir | split | dsimp only

theorem canon_fltSample {s : State} {c : Nat} {st : Nat} {t0 : Nat} {x : Int} (hs : s.Canon) :
    (State.fltSample s c st t0 x).Canon := by
  unfold State.fltSample
  repeat' first
    | with_reducible assumption | with_reducible apply canon_setFlt | with_reducible apply canon_satMark
    | with_reducible apply canon_fltHb | split | dsimp only

theorem canon_dropBits {s : State} {st : Nat} {ch : Nat} (hs : s.Canon) : (State.dropBits s st ch).Canon := by
  unfold State.dropBits
  repeat' first
    | with_reducible assumption | with_reducible apply State.Canon.withFltBits | with_reducible apply mwf_mset
    | with_reducible apply mwf_mclear | with_reducible apply mwf_filter | with_reducible apply mwf_nil
    | with_reducible apply State.Canon.fltBits | split | dsimp only

theorem canon_execFltInputSample {c : Fin 16} {s : State} (hs : s.Canon) :
    Keeps State.Canon (execFltInputSample c s) := by
  unfold execFltInputSample
  repeat' first
    | with_reducible assumption | with_reducible apply canon_controlFlit | with_reducible apply canon_setFlt
    | with_reducible apply canon_setFlag | with_reducible apply canon_fltSample
    | with_reducible apply canon_done | with_reducible apply canon_dropBits
    | (with_reducible refine foldl_keeps (fun _ _ _ => ?_) _ ?_)
    | (with_reducible refine foldl_snd_keeps (fun _ _ _ => ?_) _ ?_) | split | dsimp only

/-! ### RegRead -/

theorem canon_beforeRead {s : State} {r : R} {i : Nat} (hs : s.Canon) : (State.beforeRead s r i).Canon := by
  unfold State.beforeRead
  repeat' first
    | with_reducible assumption | with_reducible apply canon_laneCounts | with_reducible apply canon_laneAdapt
    | with_reducible apply canon_noteSample | with_reducible apply canon_draw
    | with_reducible apply canon_setFlag | split | dsimp only

theorem canon_regRead {s : State} {a : Nat} (hs : s.Canon) : (State.regRead s a).2.Canon := by
  unfold State.regRead
  repeat' first
    | with_reducible assumption | with_reducible apply canon_beforeRead
    | with_reducible apply canon_controlFlit | with_reducible apply canon_setLatch
    | with_reducible apply canon_setRg | with_reducible apply canon_rewatch
    | with_reducible apply canon_checkTack | with_reducible apply State.Canon.withFreeCtr
    | (with_reducible refine foldl_keeps (fun _ _ _ => ?_) _ ?_)
    | (with_reducible refine foldl_snd_keeps (fun _ _ _ => ?_) _ ?_) | split | dsimp only

theorem canon_regReads {s : State} {a1 : List Nat} (hs : s.Canon) : (State.regReads s a1).2.Canon := by
  induction a1 generalizing s with
  | nil =>
      unfold State.regReads
      repeat' first | with_reducible assumption | with_reducible apply canon_regRead | split | dsimp only
  | cons y t ih =>
      unfold State.regReads
      repeat' first | with_reducible apply ih | with_reducible assumption | with_reducible apply canon_regRead | split | dsimp only

/-! ### Refresh -/

theorem canon_setDebt {s : State} {m : Nat} {r : Nat} {d : Nat} (hs : s.Canon) : (State.setDebt s m r d).Canon := by
  unfold State.setDebt
  repeat' first | with_reducible assumption | with_reducible apply canon_setRg | split | dsimp only

theorem canon_setRate {s : State} {m : Nat} {r : Nat} {v : Nat} (hs : s.Canon) : (State.setRate s m r v).Canon := by
  unfold State.setRate
  repeat' first | with_reducible assumption | with_reducible apply canon_setRg | split | dsimp only

theorem canon_setHot {s : State} {m : Nat} {r : Nat} {b : Bool} (hs : s.Canon) : (State.setHot s m r b).Canon := by
  unfold State.setHot
  repeat' first | with_reducible assumption | with_reducible apply canon_setRg | split | dsimp only

theorem canon_restartRef {s : State} {m : Nat} {r : Nat} (hs : s.Canon) : (State.restartRef s m r).Canon := by
  unfold State.restartRef
  repeat' first | with_reducible assumption | with_reducible apply canon_setRankTimes | split | dsimp only

theorem canon_followRate {s : State} {m : Nat} {r : Nat} (hs : s.Canon) : (State.followRate s m r).Canon := by
  unfold State.followRate
  repeat' first
    | with_reducible assumption | with_reducible apply canon_restartRef | with_reducible apply canon_setRate
    | with_reducible apply canon_setDebt | with_reducible apply canon_bump | split | dsimp only

theorem canon_setMcTimes {s : State} {m : Nat} {t : McTimes} (hs : s.Canon) : (State.setMcTimes s m t).Canon := by
  unfold State.setMcTimes
  repeat' first
    | with_reducible assumption | with_reducible apply State.Canon.withMcT | with_reducible apply mwf_mset
    | with_reducible apply mwf_mclear | with_reducible apply mwf_filter | with_reducible apply mwf_nil
    | with_reducible apply State.Canon.mcT | split | dsimp only

theorem canon_startTimers {s : State} {m : Nat} (hs : s.Canon) : (State.startTimers s m).Canon := by
  unfold State.startTimers
  repeat' first
    | with_reducible assumption | with_reducible apply canon_setRankTimes
    | with_reducible apply canon_setMcTimes | (with_reducible refine foldl_keeps (fun _ _ _ => ?_) _ ?_)
    | (with_reducible refine foldl_snd_keeps (fun _ _ _ => ?_) _ ?_) | split | dsimp only

theorem canon_followRates {s : State} (hs : s.Canon) : (State.followRates s).Canon := by
  unfold State.followRates
  repeat' first
    | with_reducible assumption | with_reducible apply canon_followRate
    | (with_reducible refine foldl_keeps (fun _ _ _ => ?_) _ ?_)
    | (with_reducible refine foldl_snd_keeps (fun _ _ _ => ?_) _ ?_) | split | dsimp only

end Sys2Proof.Machine
end

