-- ==== Sys2Proof/Laws/CanonCmds.lean ====
section
/-! SUPPORT. Every command keeps the canonical form of the state: one lemma per command and per operation that its family adds. -/

namespace Sys2Proof.Machine

open Sys2Proof

/-! ### RegWrite -/

theorem canon_storeOnly {s : State} {a : Nat} {v : Nat} (hs : s.Canon) : (State.storeOnly s a v).Canon := by
  unfold State.storeOnly
  repeat' first | with_reducible assumption | with_reducible apply canon_setRg | split | dsimp only

theorem canon_writePart {s : State} {i : Nat} {v : Nat} (hs : s.Canon) : (State.writePart s i v).Canon := by
  unfold State.writePart
  repeat' first
    | with_reducible assumption | with_reducible apply canon_setRg | with_reducible apply canon_takeHalt
    | with_reducible apply canon_setFl | with_reducible apply State.Canon.withMkrEdges
    | with_reducible apply State.Canon.withMkr | (with_reducible refine foldl_keeps (fun _ _ _ => ?_) _ ?_)
    | (with_reducible refine foldl_snd_keeps (fun _ _ _ => ?_) _ ?_) | split | dsimp only

theorem canon_toVmain {s : State} (hs : s.Canon) : (State.toVmain s).Canon := by
  unfold State.toVmain
  repeat' first
    | with_reducible assumption | with_reducible apply canon_bump | with_reducible apply canon_setFlag | split

theorem canon_resetSoon {s : State} {k : ResetKind} (hs : s.Canon) : (State.resetSoon s k).Canon := by
  unfold State.resetSoon
  repeat' first | with_reducible assumption | with_reducible apply State.Canon.withResetAt | split | dsimp only

theorem canon_laneSoon {s : State} {k : Nat} (hs : s.Canon) : (State.laneSoon s k).Canon := by
  unfold State.laneSoon
  repeat' first | with_reducible assumption | with_reducible apply canon_setLane | split | dsimp only

theorem canon_writePort {s : State} {k : Nat} {v : Nat} (hs : s.Canon) : (State.writePort s k v).Canon := by
  unfold State.writePort
  repeat' first
    | with_reducible assumption | with_reducible apply canon_setRg | with_reducible apply canon_setFlag
    | with_reducible apply canon_setLane | with_reducible apply canon_laneSoon | split | dsimp only

theorem canon_writeRef {s : State} {k : Nat} {v : Nat} (hs : s.Canon) : (State.writeRef s k v).Canon := by
  unfold State.writeRef
  repeat' first
    | with_reducible assumption | with_reducible apply canon_setRg | with_reducible apply canon_laneSoon
    | split | dsimp only

theorem canon_startAgain {s : State} {k : Nat} {own : Bool} (hs : s.Canon) : (State.startAgain s k own).Canon := by
  unfold State.startAgain
  repeat' first
    | with_reducible assumption | with_reducible apply canon_laneStart | with_reducible apply canon_laneTo
    | split | dsimp only

theorem canon_writeTest {s : State} {k : Nat} {v : Nat} (hs : s.Canon) : (State.writeTest s k v).Canon := by
  unfold State.writeTest
  repeat' first
    | with_reducible assumption | with_reducible apply canon_setRg | with_reducible apply canon_laneCounts
    | with_reducible apply canon_setLane | with_reducible apply canon_startAgain
    | with_reducible apply canon_laneTo | split | dsimp only

theorem canon_emitSync {s : State} (hs : s.Canon) : (State.emitSync s).Canon := by
  unfold State.emitSync
  repeat' first | with_reducible assumption | with_reducible apply State.Canon.withSyncDue | split | dsimp only

theorem canon_syncLow {s : State} (hs : s.Canon) : (State.syncLow s).Canon := by
  unfold State.syncLow
  repeat' first
    | with_reducible assumption | with_reducible apply State.Canon.withSyncDue
    | with_reducible apply State.Canon.withSyncOut | with_reducible apply State.Canon.withSyncFell | split

theorem canon_writeSync {s : State} {v : Nat} (hs : s.Canon) : (State.writeSync s v).Canon := by
  unfold State.writeSync
  repeat' first
    | with_reducible assumption | with_reducible apply canon_setRg | with_reducible apply canon_syncLow
    | with_reducible apply State.Canon.withSyncLast | with_reducible apply State.Canon.withSyncFrom
    | with_reducible apply canon_setFl | with_reducible apply canon_setTimState
    | with_reducible apply canon_emitSync | split | dsimp only

theorem canon_setTimeRate {s : State} {o : Int} {r : Int} (hs : s.Canon) : (State.setTimeRate s o r).Canon := by
  unfold State.setTimeRate
  repeat' first
    | with_reducible assumption | with_reducible apply State.Canon.withRateLo
    | with_reducible apply State.Canon.withRate | with_reducible apply State.Canon.withOfs | split

theorem canon_writeRate {s : State} {v : Nat} (hs : s.Canon) : (State.writeRate s v).Canon := by
  unfold State.writeRate
  repeat' first
    | with_reducible assumption | with_reducible apply canon_dropLatch
    | with_reducible apply canon_setTimeRate | split | dsimp only

theorem canon_writePtp {s : State} {k : Nat} {v : Nat} (hs : s.Canon) : (State.writePtp s k v).Canon := by
  unfold State.writePtp
  repeat' first
    | with_reducible assumption | with_reducible apply canon_setRg | with_reducible apply State.Canon.withPtp
    | with_reducible apply canon_setFlag | with_reducible apply canon_setFl | with_reducible apply mwf_mset
    | with_reducible apply mwf_mclear | with_reducible apply mwf_filter | with_reducible apply mwf_nil
    | with_reducible apply State.Canon.ptp | split | dsimp only

theorem canon_writeXfer {s : State} {j : Nat} {i : Nat} {v : Nat} (hs : s.Canon) :
    (State.writeXfer s j i v).Canon := by
  unfold State.writeXfer
  repeat' first
    | with_reducible assumption | with_reducible apply canon_setRg | with_reducible apply canon_setPesm
    | split | dsimp only

theorem canon_writeHalt {s : State} {st : Nat} {w : Nat} {v : Nat} (hs : s.Canon) :
    (State.writeHalt s st w v).Canon := by
  unfold State.writeHalt
  repeat' first
    | with_reducible assumption | with_reducible apply canon_setRg | with_reducible apply canon_takeHalt
    | (with_reducible refine foldl_keeps (fun _ _ _ => ?_) _ ?_)
    | (with_reducible refine foldl_snd_keeps (fun _ _ _ => ?_) _ ?_) | split | dsimp only

theorem canon_writeTim {s : State} {r : R} {u : Nat} {v : Nat} (hs : s.Canon) : (State.writeTim s r u v).Canon := by
  unfold State.writeTim
  repeat' first
    | with_reducible assumption | with_reducible apply canon_setRg | with_reducible apply canon_setTim
    | with_reducible apply canon_abandon | with_reducible apply canon_followEn | split | dsimp only

theorem canon_writeQm {s : State} {q : Nat} {v : Nat} (hs : s.Canon) : (State.writeQm s q v).Canon := by
  unfold State.writeQm
  repeat' first
    | with_reducible assumption | with_reducible apply canon_setRg | with_reducible apply canon_flushQ
    | with_reducible apply canon_judgeLow | split | dsimp only

theorem canon_applyReg {s : State} {r : R} {i : Nat} {j : Nat} {v : Nat} (hs : s.Canon) :
    (State.applyReg s r i j v).Canon := by
  unfold State.applyReg
  repeat' first
    | with_reducible assumption | with_reducible apply canon_setRg | with_reducible apply canon_writePart
    | with_reducible apply canon_toVmain | with_reducible apply canon_resetSoon
    | with_reducible apply canon_beginBlock | with_reducible apply canon_writePort
    | with_reducible apply canon_writeRef | with_reducible apply canon_writeTest
    | with_reducible apply State.Canon.withOwnAt | with_reducible apply canon_writeHalt
    | with_reducible apply canon_followTrained | with_reducible apply canon_setChan
    | with_reducible apply canon_trigger | with_reducible apply canon_writeTim
    | with_reducible apply canon_openGate | with_reducible apply canon_writeQm
    | with_reducible apply canon_rewatch | with_reducible apply State.Canon.withTrigOut
    | with_reducible apply canon_judgeLeat | with_reducible apply canon_saveDramCfg
    | with_reducible apply canon_followRates | with_reducible apply canon_writeSync
    | with_reducible apply canon_setFl | with_reducible apply canon_dropLatch
    | with_reducible apply State.Canon.withRateLo | with_reducible apply canon_writeRate
    | with_reducible apply canon_writePtp | with_reducible apply canon_faultClear
    | with_reducible apply canon_writeXfer | with_reducible apply mwf_mset | with_reducible apply mwf_mclear
    | with_reducible apply mwf_filter | with_reducible apply mwf_nil
    | with_reducible apply State.Canon.trigOut | (with_reducible refine foldl_keeps (fun _ _ _ => ?_) _ ?_)
    | (with_reducible refine foldl_snd_keeps (fun _ _ _ => ?_) _ ?_) | split | dsimp only

theorem canon_applyWrite {s : State} {a : Nat} {v : Nat} (hs : s.Canon) : (State.applyWrite s a v).Canon := by
  unfold State.applyWrite
  repeat' first
    | with_reducible assumption | with_reducible apply canon_controlFlit | with_reducible apply canon_applyReg
    | split | dsimp only

theorem canon_applyWrites {s : State} {l : List (Nat × Nat)} (hs : s.Canon) : (State.applyWrites s l).Canon := by
  unfold State.applyWrites
  repeat' first
    | with_reducible assumption | with_reducible apply canon_applyWrite
    | (with_reducible refine foldl_keeps (fun _ _ _ => ?_) _ ?_)
    | (with_reducible refine foldl_snd_keeps (fun _ _ _ => ?_) _ ?_) | split | dsimp only

theorem canon_writeRegs {s : State} {slot : Nat} {items : List (Nat × Nat)} (hs : s.Canon) :
    (State.writeRegs s slot items).2.Canon := by
  unfold State.writeRegs
  repeat' first | with_reducible assumption | with_reducible apply canon_applyWrites | split | dsimp only

/-! ### Dcp -/

theorem canon_refuse {status : Nat} {s : State} (hs : s.Canon) : (refuse status s).2.Canon := by
  unfold refuse
  repeat' first | with_reducible assumption | split | dsimp only

theorem canon_okay {params : List Byte} {s : State} (hs : s.Canon) : (okay params s).2.Canon := by
  unfold okay
  repeat' first | with_reducible assumption | split | dsimp only

theorem canon_heard {s : State} {h : Hdr} (hs : s.Canon) : (State.heard s h).2.Canon := by
  unfold State.heard
  repeat' first | with_reducible assumption | with_reducible apply canon_bump | split | dsimp only

theorem canon_relay {s : State} {k : LaneIx} {frame : Instr} (hs : s.Canon) : (State.relay s k frame).Canon := by
  unfold State.relay
  repeat' first | with_reducible assumption | with_reducible apply State.Canon.withOut | split | dsimp only

theorem canon_unheard {s : State} {b : Binding} {frame : Instr} (hs : s.Canon) : (State.unheard s b frame).Canon :=
    by
  unfold State.unheard
  repeat' first | with_reducible assumption | with_reducible apply canon_relay | split | dsimp only

theorem canon_bounce {s : State} {h : Hdr} {opcode : Nat} {status : Nat} {params : optParam (List Byte) []}
    (hs : s.Canon) : (State.bounce s h opcode status params).Canon := by
  unfold State.bounce
  repeat' first | with_reducible assumption | with_reducible apply canon_sendDcp | split | dsimp only

theorem canon_resendCached {s : State} {x : Session} {seq : BitVec 32} (hs : s.Canon) :
    (State.resendCached s x seq).Canon := by
  unfold State.resendCached
  repeat' first | with_reducible assumption | with_reducible apply canon_sendDcp | split | dsimp only

theorem canon_finish {s : State} {slot : Nat} {h : Hdr} {opcode : Nat} {a : Ans} (hs : s.Canon) :
    (State.finish s slot h opcode a).Canon := by
  unfold State.finish
  repeat' first
    | with_reducible assumption | with_reducible apply canon_replyTo | with_reducible apply canon_setSession
    | with_reducible apply canon_closeSession | split | dsimp only

theorem canon_accept {s : State} {slot : Nat} {x : Session} (hs : s.Canon) : (State.accept s slot x).Canon := by
  unfold State.accept
  repeat' first | with_reducible assumption | with_reducible apply canon_setSession | split | dsimp only

theorem canon_inOrder {s : State} {h : Hdr} {opcode : Nat} {rom : Bool} {body : Body} {slot : Nat} {x : Session}
    (hs : s.Canon) (hbody : ∀ (n : Nat) (u : State), u.Canon → (body n u).2.Canon) :
    (State.inOrder s h opcode rom body slot x).Canon := by
  unfold State.inOrder
  repeat' first
    | with_reducible assumption | with_reducible apply canon_accept | with_reducible apply canon_finish
    | with_reducible apply canon_resendCached | with_reducible apply canon_bounce | with_reducible apply hbody
    | split | dsimp only

theorem canon_inSession {s : State} {h : Hdr} {opcode : Nat} {self : Instr} {rom : Bool} {body : Body}
    (hs : s.Canon) (hbody : ∀ (n : Nat) (u : State), u.Canon → (body n u).2.Canon) :
    (State.inSession s h opcode self rom body).Canon := by
  unfold State.inSession
  repeat' first
    | with_reducible assumption | with_reducible apply canon_bounce | with_reducible apply canon_closeSession
    | with_reducible apply State.Canon.withHeld | with_reducible apply canon_inOrder
    | with_reducible apply State.Canon.withResuming | with_reducible apply hbody | split | dsimp only

theorem canon_strapError {s : State} {h : Hdr} {opcode : Nat} (hs : s.Canon) :
    (State.strapError s h opcode).Canon := by
  unfold State.strapError
  repeat' first
    | with_reducible assumption | with_reducible apply canon_draw | with_reducible apply canon_bounce | split

theorem canon_cmd {s : State} {h : Hdr} {opcode : Nat} {self : Instr} {rom : Bool} {body : Body} (hs : s.Canon)
    (hbody : ∀ (n : Nat) (u : State), u.Canon → (body n u).2.Canon) : (State.cmd s h opcode self rom body).Canon :=
    by
  unfold State.cmd
  repeat' first
    | with_reducible assumption | with_reducible apply canon_heard | with_reducible apply canon_unheard
    | with_reducible apply canon_bounce | with_reducible apply canon_strapError
    | with_reducible apply canon_inSession | with_reducible apply State.Canon.withResuming
    | with_reducible apply hbody | split | dsimp only

/-! ### StartOps -/

theorem canon_scanLoad {s : State} {a : Nat} {entries : Nat} {i : Nat} {a4 : Nat} (hs : s.Canon) :
    (State.scanLoad s a entries i a4).2.Canon := by
  induction a4 generalizing s a entries i with
  | zero =>
      unfold State.scanLoad
      repeat' first | with_reducible assumption | with_reducible apply canon_readEntry | split | dsimp only
  | succ n ih =>
      unfold State.scanLoad
      repeat' first | with_reducible apply ih | with_reducible assumption | with_reducible apply canon_readEntry | split | dsimp only

theorem canon_loadErr {s : State} {st : Nat} {entry : Nat} {reason : Nat} (hs : s.Canon) :
    (State.loadErr s st entry reason).Canon := by
  unfold State.loadErr
  repeat' first | with_reducible assumption | with_reducible apply canon_setRg | split | dsimp only

theorem canon_loadTable {s : State} {st : Nat} {table : Nat} {entries : Nat} (hs : s.Canon) :
    (State.loadTable s st table entries).Canon := by
  unfold State.loadTable
  repeat' first
    | with_reducible assumption | with_reducible apply canon_setRg | with_reducible apply canon_setRg64
    | with_reducible apply canon_setFl | with_reducible apply canon_setFlag
    | with_reducible apply canon_setStall | split | dsimp only

theorem canon_tableEntries {s : State} {st : Nat} {i : Nat} {a3 : Nat} (hs : s.Canon) :
    (State.tableEntries s st i a3).2.Canon := by
  induction a3 generalizing s st i with
  | zero =>
      unfold State.tableEntries
      repeat' first | with_reducible assumption | with_reducible apply canon_entry | split | dsimp only
  | succ n ih =>
      unfold State.tableEntries
      repeat' first | with_reducible apply ih | with_reducible assumption | with_reducible apply canon_entry | split | dsimp only

theorem canon_showRate {s : State} {r : R} {v : Nat} {st : Nat} (hs : s.Canon) : (State.showRate s r v st).Canon :=
    by
  unfold State.showRate
  repeat' first
    | with_reducible assumption | with_reducible apply canon_setRg | with_reducible apply canon_draw | split

theorem canon_flagChains {s : State} {mode : Nat} {octs : List Nat} {t : Option Nat} {l : List Nat} (hs : s.Canon) :
    (State.flagChains s mode octs t l).Canon := by
  unfold State.flagChains
  repeat' first
    | with_reducible assumption | with_reducible apply canon_setFlag
    | (with_reducible refine foldl_keeps (fun _ _ _ => ?_) _ ?_)
    | (with_reducible refine foldl_snd_keeps (fun _ _ _ => ?_) _ ?_) | split | dsimp only

theorem canon_runCheck {s : State} {st : Nat} {mode : Nat} {first : Nat} {window : Bool} {reserved : Bool}
    (hs : s.Canon) : (State.runCheck s st mode first window reserved).2.Canon := by
  unfold State.runCheck
  repeat' first
    | with_reducible assumption | with_reducible apply canon_tableEntries | with_reducible apply canon_loadErr
    | with_reducible apply canon_setFl | with_reducible apply canon_showRate
    | with_reducible apply canon_flagChains | (with_reducible refine foldl_keeps (fun _ _ _ => ?_) _ ?_)
    | (with_reducible refine foldl_snd_keeps (fun _ _ _ => ?_) _ ?_) | split | dsimp only

theorem canon_startChan {s : State} {ch : Nat} (hs : s.Canon) : (State.startChan s ch).Canon := by
  unfold State.startChan
  repeat' first
    | with_reducible assumption | with_reducible apply canon_setFlag
    | with_reducible apply State.Canon.withFltBits | with_reducible apply canon_setChan
    | with_reducible apply canon_followTrained | with_reducible apply canon_setRg
    | with_reducible apply mwf_mset | with_reducible apply mwf_mclear | with_reducible apply mwf_filter
    | with_reducible apply mwf_nil | with_reducible apply State.Canon.fltBits | split | dsimp only

theorem canon_startFramer {s : State} {o : Nat} (hs : s.Canon) : (State.startFramer s o).Canon := by
  unfold State.startFramer
  repeat' first
    | with_reducible assumption | with_reducible apply canon_setFramer | with_reducible apply canon_setRg
    | split | dsimp only

theorem canon_ageLoss {s : State} {st : Nat} (hs : s.Canon) : (State.ageLoss s st).Canon := by
  unfold State.ageLoss
  dsimp only
  refine foldl_keeps (fun t e ht => ?_) _ hs
  split
  · exact canon_setLoss (canon_setLossOf ht)
  · exact ht

theorem canon_acceptRun {s : State} {st : Nat} {mode : Nat} {window : Bool} {reserved : Bool} {src : StartSrc}
    {first : Nat} (hs : s.Canon) : (State.acceptRun s st mode window reserved src first).Canon := by
  unfold State.acceptRun
  repeat' first
    | with_reducible assumption | with_reducible apply canon_setStall | with_reducible apply canon_setFlag
    | with_reducible apply canon_setFl | with_reducible apply State.Canon.withYflags
    | with_reducible apply canon_setRg | with_reducible apply canon_startFramer
    | with_reducible apply canon_startChan | with_reducible apply canon_setTim
    | with_reducible apply canon_ageLoss | with_reducible apply mwf_mset | with_reducible apply mwf_mclear
    | with_reducible apply mwf_filter | with_reducible apply mwf_nil | with_reducible apply State.Canon.yflags
    | (with_reducible refine foldl_keeps (fun _ _ _ => ?_) _ ?_)
    | (with_reducible refine foldl_snd_keeps (fun _ _ _ => ?_) _ ?_) | split | dsimp only

/-! ### MemCmds -/

theorem canon_readRegBody {h : Hdr} {addr : BitVec 32} {count : BitVec 16} {sl : Nat} {s : State} (hs : s.Canon) :
    (readRegBody h addr count sl s).2.Canon := by
  unfold readRegBody
  repeat' first
    | with_reducible assumption | with_reducible apply canon_refuse | with_reducible apply canon_regReads
    | with_reducible apply canon_okay | split | dsimp only

theorem canon_execReadReg {h : Hdr} {addr : BitVec 32} {count : BitVec 16} {s : State} (hs : s.Canon) :
    Keeps State.Canon (execReadReg h addr count s) := by
  unfold execReadReg
  repeat' first
    | with_reducible assumption | with_reducible apply canon_done | with_reducible apply canon_cmd
    | with_reducible apply canon_readRegBody | split | dsimp only

theorem canon_writeItems {items : List (Nat × Nat)} {sl : Nat} {s : State} (hs : s.Canon) :
    (writeItems items sl s).2.Canon := by
  unfold writeItems
  repeat' first | with_reducible assumption | with_reducible apply canon_writeRegs | split | dsimp only

theorem canon_writeRegBody {h : Hdr} {addr : BitVec 32} {count : BitVec 16} {values : List Word} {sl : Nat}
    {s : State} (hs : s.Canon) : (writeRegBody h addr count values sl s).2.Canon := by
  unfold writeRegBody
  repeat' first
    | with_reducible assumption | with_reducible apply canon_refuse | with_reducible apply canon_writeItems
    | split | dsimp only

theorem canon_execWriteReg {h : Hdr} {addr : BitVec 32} {count : BitVec 16} {values : List Word} {s : State}
    (hs : s.Canon) : Keeps State.Canon (execWriteReg h addr count values s) := by
  unfold execWriteReg
  repeat' first
    | with_reducible assumption | with_reducible apply canon_done | with_reducible apply canon_cmd
    | with_reducible apply canon_writeRegBody | split | dsimp only

theorem canon_modifyRegBody {h : Hdr} {addr : BitVec 32} {mask : BitVec 32} {value : BitVec 32} {sl : Nat}
    {s : State} (hs : s.Canon) : (modifyRegBody h addr mask value sl s).2.Canon := by
  unfold modifyRegBody
  repeat' first
    | with_reducible assumption | with_reducible apply canon_refuse | with_reducible apply canon_okay
    | with_reducible apply canon_writeRegs | split | dsimp only

theorem canon_execModifyReg {h : Hdr} {addr : BitVec 32} {mask : BitVec 32} {value : BitVec 32} {s : State}
    (hs : s.Canon) : Keeps State.Canon (execModifyReg h addr mask value s) := by
  unfold execModifyReg
  repeat' first
    | with_reducible assumption | with_reducible apply canon_done | with_reducible apply canon_cmd
    | with_reducible apply canon_modifyRegBody | split | dsimp only

theorem canon_readRegListBody {h : Hdr} {count : BitVec 16} {addrs : List (BitVec 32)} {sl : Nat} {s : State}
    (hs : s.Canon) : (readRegListBody h count addrs sl s).2.Canon := by
  unfold readRegListBody
  repeat' first
    | with_reducible assumption | with_reducible apply canon_refuse | with_reducible apply canon_regReads
    | with_reducible apply canon_okay | split | dsimp only

theorem canon_execReadRegList {h : Hdr} {count : BitVec 16} {addrs : List (BitVec 32)} {s : State} (hs : s.Canon) :
    Keeps State.Canon (execReadRegList h count addrs s) := by
  unfold execReadRegList
  repeat' first
    | with_reducible assumption | with_reducible apply canon_done | with_reducible apply canon_cmd
    | with_reducible apply canon_readRegListBody | split | dsimp only

theorem canon_memNow {s : State} {a1 : MemAcc} (hs : s.Canon) : (State.memNow s a1).2.Canon := by
  unfold State.memNow
  repeat' first
    | with_reducible assumption | with_reducible apply canon_okay | with_reducible apply canon_noteWrite
    | with_reducible apply canon_writeWords | with_reducible apply canon_readWords
    | with_reducible apply canon_scanLoad | with_reducible apply canon_refuse
    | with_reducible apply canon_loadErr | with_reducible apply canon_loadTable | split | dsimp only

theorem canon_memAccess {s : State} {acc : MemAcc} (hs : s.Canon) : (State.memAccess s acc).2.Canon := by
  unfold State.memAccess
  repeat' first
    | with_reducible assumption | with_reducible apply canon_refuse | with_reducible apply canon_memNow
    | split | dsimp only

theorem canon_serveWait {s : State} {slot : Nat} (hs : s.Canon) : (State.serveWait s slot).Canon := by
  unfold State.serveWait
  split
  · exact hs
  split
  · split
    · exact canon_answer hs
    split
    · exact hs
    · split
      · rename_i e
        exact canon_answer (canon_of_eq e (canon_memNow hs))
      · rename_i e
        exact canon_of_eq e (canon_memNow hs)
  · exact hs

theorem canon_writeMemBody {h : Hdr} {addr : BitVec 64} {len : BitVec 32} {data : List Byte} {sl : Nat} {s : State}
    (hs : s.Canon) : (writeMemBody h addr len data sl s).2.Canon := by
  unfold writeMemBody
  repeat' first
    | with_reducible assumption | with_reducible apply canon_refuse | with_reducible apply canon_memAccess
    | split | dsimp only

theorem canon_execWriteMem {h : Hdr} {addr : BitVec 64} {len : BitVec 32} {data : List Byte} {s : State}
    (hs : s.Canon) : Keeps State.Canon (execWriteMem h addr len data s) := by
  unfold execWriteMem
  repeat' first
    | with_reducible assumption | with_reducible apply canon_done | with_reducible apply canon_cmd
    | with_reducible apply canon_writeMemBody | split | dsimp only

theorem canon_readMemBody {h : Hdr} {addr : BitVec 64} {len : BitVec 32} {sl : Nat} {s : State} (hs : s.Canon) :
    (readMemBody h addr len sl s).2.Canon := by
  unfold readMemBody
  repeat' first
    | with_reducible assumption | with_reducible apply canon_refuse | with_reducible apply canon_memAccess
    | split | dsimp only

theorem canon_execReadMem {h : Hdr} {addr : BitVec 64} {len : BitVec 32} {s : State} (hs : s.Canon) :
    Keeps State.Canon (execReadMem h addr len s) := by
  unfold execReadMem
  repeat' first
    | with_reducible assumption | with_reducible apply canon_done | with_reducible apply canon_cmd
    | with_reducible apply canon_readMemBody | split | dsimp only

theorem canon_acceptOp {opcode : Nat} {k : OpKind} {sl : Nat} {s : State} (hs : s.Canon) :
    (acceptOp opcode k sl s).2.Canon := by
  unfold acceptOp
  repeat' first
    | with_reducible assumption | with_reducible apply canon_refuse | with_reducible apply canon_okay
    | with_reducible apply canon_startOp | split | dsimp only

theorem canon_fillMemBody {h : Hdr} {addr : BitVec 64} {len : BitVec 64} {pattern : BitVec 64} {sl : Nat}
    {s : State} (hs : s.Canon) : (fillMemBody h addr len pattern sl s).2.Canon := by
  unfold fillMemBody
  repeat' first
    | with_reducible assumption | with_reducible apply canon_refuse | with_reducible apply canon_acceptOp
    | split | dsimp only

theorem canon_execFillMem {h : Hdr} {addr : BitVec 64} {len : BitVec 64} {pattern : BitVec 64} {s : State}
    (hs : s.Canon) : Keeps State.Canon (execFillMem h addr len pattern s) := by
  unfold execFillMem
  repeat' first
    | with_reducible assumption | with_reducible apply canon_done | with_reducible apply canon_cmd
    | with_reducible apply canon_fillMemBody | split | dsimp only

theorem canon_copyMemBody {h : Hdr} {src : BitVec 64} {dst : BitVec 64} {len : BitVec 64} {sl : Nat} {s : State}
    (hs : s.Canon) : (copyMemBody h src dst len sl s).2.Canon := by
  unfold copyMemBody
  repeat' first
    | with_reducible assumption | with_reducible apply canon_refuse | with_reducible apply canon_acceptOp
    | split | dsimp only

theorem canon_execCopyMem {h : Hdr} {src : BitVec 64} {dst : BitVec 64} {len : BitVec 64} {s : State} (hs : s.Canon)
    : Keeps State.Canon (execCopyMem h src dst len s) := by
  unfold execCopyMem
  repeat' first
    | with_reducible assumption | with_reducible apply canon_done | with_reducible apply canon_cmd
    | with_reducible apply canon_copyMemBody | split | dsimp only

theorem canon_endOpFree {s : State} {n : Nat} {status : Nat} (hs : s.Canon) : (State.endOpFree s n status).Canon :=
    by
  unfold State.endOpFree
  repeat' first
    | with_reducible assumption | with_reducible apply canon_draw | with_reducible apply canon_endOp | split

theorem canon_opTimeout {s : State} {n : Nat} {o : OpRec} {reset : Bool} (hs : s.Canon) :
    (State.opTimeout s n o reset).Canon := by
  unfold State.opTimeout
  repeat' first
    | with_reducible assumption | with_reducible apply canon_endOpFree | with_reducible apply canon_advTo
    | split | dsimp only

theorem canon_execFillMemDone {op : BitVec 16} {s : State} (hs : s.Canon) :
    Keeps State.Canon (execFillMemDone op s) := by
  unfold execFillMemDone
  repeat' first
    | with_reducible assumption | with_reducible apply canon_done | with_reducible apply canon_opTimeout
    | with_reducible apply canon_endOpFree | with_reducible apply canon_noteWrite
    | with_reducible apply canon_fillWords | split | dsimp only

theorem canon_execCopyMemDone {op : BitVec 16} {s : State} (hs : s.Canon) :
    Keeps State.Canon (execCopyMemDone op s) := by
  unfold execCopyMemDone
  repeat' first
    | with_reducible assumption | with_reducible apply canon_done | with_reducible apply canon_opTimeout
    | with_reducible apply canon_copyWords | with_reducible apply canon_endOp
    | with_reducible apply canon_noteWrite | split | dsimp only

theorem canon_oneRegBody {h : Hdr} {a : Nat} {v : Nat} {sl : Nat} {s : State} (hs : s.Canon) :
    (oneRegBody h a v sl s).2.Canon := by
  unfold oneRegBody
  repeat' first
    | with_reducible assumption | with_reducible apply canon_refuse | with_reducible apply canon_writeItems
    | split | dsimp only

theorem canon_oneReg {s : State} {h : Hdr} {self : Instr} {a : Nat} {v : Nat} (hs : s.Canon) :
    (State.oneReg s h self a v).Canon := by
  unfold State.oneReg
  repeat' first
    | with_reducible assumption | with_reducible apply canon_cmd | with_reducible apply canon_oneRegBody
    | split | dsimp only

/-! ### CalCmds -/

theorem canon_acceptCal {opcode : Nat} {k : OpKind} {sl : Nat} {s : State} (hs : s.Canon) :
    (acceptCal opcode k sl s).2.Canon := by
  unfold acceptCal
  repeat' first
    | with_reducible assumption | with_reducible apply canon_refuse | with_reducible apply canon_okay
    | with_reducible apply State.Canon.withCalOp | with_reducible apply canon_startOp | split | dsimp only

theorem canon_calRunBody {h : Hdr} {items : BitVec 32} {count : BitVec 8} {channels : List (BitVec 8)} {sl : Nat}
    {s : State} (hs : s.Canon) : (calRunBody h items count channels sl s).2.Canon := by
  unfold calRunBody
  repeat' first
    | with_reducible assumption | with_reducible apply canon_refuse | with_reducible apply canon_acceptCal
    | split | dsimp only

theorem canon_execCalRun {h : Hdr} {items : BitVec 32} {count : BitVec 8} {channels : List (BitVec 8)} {s : State}
    (hs : s.Canon) : Keeps State.Canon (execCalRun h items count channels s) := by
  unfold execCalRun
  repeat' first
    | with_reducible assumption | with_reducible apply canon_done | with_reducible apply canon_cmd
    | with_reducible apply canon_calRunBody | split | dsimp only

theorem canon_measured {s : State} {meas : List CalMeas} {item : Nat} {idx : Nat} (hs : s.Canon) :
    (State.measured s meas item idx).Canon := by
  unfold State.measured
  repeat' first
    | with_reducible assumption | with_reducible apply canon_draw | with_reducible apply canon_setCalElem
    | split | dsimp only

theorem canon_execCalRunDone {op : BitVec 16} {meas : List CalMeas} {s : State} (hs : s.Canon) :
    Keeps State.Canon (execCalRunDone op meas s) := by
  unfold execCalRunDone
  repeat' first
    | with_reducible assumption | with_reducible apply canon_done | with_reducible apply canon_measured
    | with_reducible apply canon_endOpFree | with_reducible apply State.Canon.withCalOp
    | (with_reducible refine foldl_keeps (fun _ _ _ => ?_) _ ?_)
    | (with_reducible refine foldl_snd_keeps (fun _ _ _ => ?_) _ ?_) | split | dsimp only

theorem canon_calReadBody {h : Hdr} {channel : BitVec 8} {item : BitVec 8} {sl : Nat} {s : State} (hs : s.Canon) :
    (calReadBody h channel item sl s).2.Canon := by
  unfold calReadBody
  repeat' first
    | with_reducible assumption | with_reducible apply canon_refuse | with_reducible apply canon_okay | split

theorem canon_execCalRead {h : Hdr} {channel : BitVec 8} {item : BitVec 8} {s : State} (hs : s.Canon) :
    Keeps State.Canon (execCalRead h channel item s) := by
  unfold execCalRead
  repeat' first
    | with_reducible assumption | with_reducible apply canon_done | with_reducible apply canon_cmd
    | with_reducible apply canon_calReadBody | split | dsimp only

theorem canon_calCommitBody {h : Hdr} {sl : Nat} {s : State} (hs : s.Canon) : (calCommitBody h sl s).2.Canon := by
  unfold calCommitBody
  repeat' first
    | with_reducible assumption | with_reducible apply canon_refuse | with_reducible apply canon_acceptCal
    | split | dsimp only

theorem canon_execCalCommit {h : Hdr} {s : State} (hs : s.Canon) : Keeps State.Canon (execCalCommit h s) := by
  unfold execCalCommit
  repeat' first
    | with_reducible assumption | with_reducible apply canon_done | with_reducible apply canon_cmd
    | with_reducible apply canon_calCommitBody | split | dsimp only

theorem canon_execCalCommitDone {op : BitVec 16} {s : State} (hs : s.Canon) :
    Keeps State.Canon (execCalCommitDone op s) := by
  unfold execCalCommitDone
  repeat' first
    | with_reducible assumption | with_reducible apply canon_done | with_reducible apply canon_commitChan
    | with_reducible apply canon_commitDev | with_reducible apply canon_endOpFree
    | with_reducible apply State.Canon.withCalOp | (with_reducible refine foldl_keeps (fun _ _ _ => ?_) _ ?_)
    | (with_reducible refine foldl_snd_keeps (fun _ _ _ => ?_) _ ?_) | split | dsimp only

theorem canon_resetBay {s : State} {b : Nat} (hs : s.Canon) : (State.resetBay s b).Canon := by
  unfold State.resetBay
  repeat' first
    | with_reducible assumption | with_reducible apply canon_loadSettings
    | with_reducible apply canon_clearRegs | with_reducible apply canon_setFramer
    | with_reducible apply canon_setTim | (with_reducible refine foldl_keeps (fun _ _ _ => ?_) _ ?_)
    | (with_reducible refine foldl_snd_keeps (fun _ _ _ => ?_) _ ?_) | split | dsimp only

theorem canon_afterTests {s : State} {t : BitVec 8} {tests : Nat} (hs : s.Canon) :
    (State.afterTests s t tests).Canon := by
  unfold State.afterTests
  repeat' first
    | with_reducible assumption | with_reducible apply canon_loadWft | with_reducible apply canon_resetBay
    | with_reducible apply canon_clearRegs | with_reducible apply canon_resetYard
    | (with_reducible refine foldl_keeps (fun _ _ _ => ?_) _ ?_)
    | (with_reducible refine foldl_snd_keeps (fun _ _ _ => ?_) _ ?_) | split | dsimp only

theorem canon_loopStart {s : State} {t : BitVec 8} {tests : Nat} (hs : s.Canon) :
    (State.loopStart s t tests).2.Canon := by
  unfold State.loopStart
  repeat' first
    | with_reducible assumption | with_reducible apply canon_runCheck | with_reducible apply canon_acceptRun
    | with_reducible apply canon_afterTests | split | dsimp only

theorem canon_selftestRunBody {h : Hdr} {tests : BitVec 32} {sl : Nat} {s : State} (hs : s.Canon) :
    (selftestRunBody h tests sl s).2.Canon := by
  unfold selftestRunBody
  repeat' first
    | with_reducible assumption | with_reducible apply canon_refuse | with_reducible apply canon_loopStart
    | with_reducible apply canon_acceptCal | split | dsimp only

theorem canon_execSelftestRun {h : Hdr} {tests : BitVec 32} {s : State} (hs : s.Canon) :
    Keeps State.Canon (execSelftestRun h tests s) := by
  unfold execSelftestRun
  repeat' first
    | with_reducible assumption | with_reducible apply canon_done | with_reducible apply canon_cmd
    | with_reducible apply canon_selftestRunBody | split | dsimp only

theorem canon_execSelftestDone {op : BitVec 16} {found : TestFinding} {s : State} (hs : s.Canon) :
    Keeps State.Canon (execSelftestDone op found s) := by
  unfold execSelftestDone
  repeat' first
    | with_reducible assumption | with_reducible apply canon_done | with_reducible apply canon_afterTests
    | with_reducible apply State.Canon.withTests | with_reducible apply State.Canon.withCalOp
    | with_reducible apply canon_settle | with_reducible apply canon_raise
    | with_reducible apply canon_endOpFree | with_reducible apply mwf_mset | with_reducible apply mwf_mclear
    | with_reducible apply mwf_filter | with_reducible apply mwf_nil | with_reducible apply State.Canon.tests
    | (with_reducible refine foldl_keeps (fun _ _ _ => ?_) _ ?_)
    | (with_reducible refine foldl_snd_keeps (fun _ _ _ => ?_) _ ?_) | split | dsimp only

theorem canon_selftestReadBody {h : Hdr} {sl : Nat} {s : State} (hs : s.Canon) :
    (selftestReadBody h sl s).2.Canon := by
  unfold selftestReadBody
  repeat' first
    | with_reducible assumption | with_reducible apply canon_refuse | with_reducible apply canon_okay | split

theorem canon_execSelftestRead {h : Hdr} {s : State} (hs : s.Canon) : Keeps State.Canon (execSelftestRead h s) := by
  unfold execSelftestRead
  repeat' first
    | with_reducible assumption | with_reducible apply canon_done | with_reducible apply canon_cmd
    | with_reducible apply canon_selftestReadBody | split | dsimp only

/-! ### Dram -/

theorem canon_mcStatusBody {h : Hdr} {controller : BitVec 8} {sl : Nat} {s : State} (hs : s.Canon) :
    (mcStatusBody h controller sl s).2.Canon := by
  unfold mcStatusBody
  repeat' first
    | with_reducible assumption | with_reducible apply canon_refuse | with_reducible apply canon_okay | split

theorem canon_execMcStatus {h : Hdr} {controller : BitVec 8} {s : State} (hs : s.Canon) :
    Keeps State.Canon (execMcStatus h controller s) := by
  unfold execMcStatus
  repeat' first
    | with_reducible assumption | with_reducible apply canon_done | with_reducible apply canon_cmd
    | with_reducible apply canon_mcStatusBody | split | dsimp only

theorem canon_migStatusBody {h : Hdr} {sl : Nat} {s : State} (hs : s.Canon) : (migStatusBody h sl s).2.Canon := by
  unfold migStatusBody
  repeat' first
    | with_reducible assumption | with_reducible apply canon_refuse | with_reducible apply canon_okay
    | with_reducible apply canon_draw | split | dsimp only

theorem canon_execMigStatus {h : Hdr} {s : State} (hs : s.Canon) : Keeps State.Canon (execMigStatus h s) := by
  unfold execMigStatus
  repeat' first
    | with_reducible assumption | with_reducible apply canon_done | with_reducible apply canon_cmd
    | with_reducible apply canon_migStatusBody | split | dsimp only

theorem canon_rankRetireBody {h : Hdr} {controller : BitVec 8} {rank : BitVec 8} {sl : Nat} {s : State}
    (hs : s.Canon) : (rankRetireBody h controller rank sl s).2.Canon := by
  unfold rankRetireBody
  repeat' first
    | with_reducible assumption | with_reducible apply canon_refuse | with_reducible apply canon_candidate
    | with_reducible apply canon_startOp | with_reducible apply canon_okay | with_reducible apply canon_draw
    | with_reducible apply canon_endOpFree | split | dsimp only

theorem canon_execRankRetire {h : Hdr} {controller : BitVec 8} {rank : BitVec 8} {s : State} (hs : s.Canon) :
    Keeps State.Canon (execRankRetire h controller rank s) := by
  unfold execRankRetire
  repeat' first
    | with_reducible assumption | with_reducible apply canon_done | with_reducible apply canon_cmd
    | with_reducible apply canon_rankRetireBody | split | dsimp only

theorem canon_copyWord {s : State} {m : Nat} {a : Nat} {c : Cells} (hs : s.Canon) :
    (State.copyWord s m a c).Canon := by
  unfold State.copyWord
  repeat' first
    | with_reducible assumption | with_reducible apply canon_putWord
    | with_reducible apply canon_uncorrectable | with_reducible apply canon_useInjection
    | with_reducible apply canon_bump | with_reducible apply canon_setErr | split | dsimp only

theorem canon_copyUnit {s : State} {m : Nat} {a : Nat} {a3 : List Cells} (hs : s.Canon) :
    (State.copyUnit s m a a3).Canon := by
  induction a3 generalizing s m a with
  | nil =>
      unfold State.copyUnit
      repeat' first | with_reducible assumption | with_reducible apply canon_copyWord | split | dsimp only
  | cons y t ih =>
      unfold State.copyUnit
      repeat' first | with_reducible apply ih | with_reducible assumption | with_reducible apply canon_copyWord | split | dsimp only

theorem canon_execMigrationUnitCopy {cells : List Cells} {s : State} (hs : s.Canon) :
    Keeps State.Canon (execMigrationUnitCopy cells s) := by
  unfold execMigrationUnitCopy
  repeat' first
    | with_reducible assumption | with_reducible apply canon_done | with_reducible apply canon_copyUnit
    | with_reducible apply State.Canon.withMig | split | dsimp only

theorem canon_nextMig {s : State} (hs : s.Canon) : (State.nextMig s).Canon := by
  unfold State.nextMig
  repeat' first
    | with_reducible assumption | with_reducible apply canon_startMig
    | with_reducible apply State.Canon.withMigWait | with_reducible apply mwf_mset
    | with_reducible apply mwf_mclear | with_reducible apply mwf_filter | with_reducible apply mwf_nil
    | with_reducible apply State.Canon.migWait | split | dsimp only

theorem canon_execMigrationDone {s : State} (hs : s.Canon) : Keeps State.Canon (execMigrationDone s) := by
  unfold execMigrationDone
  repeat' first
    | with_reducible assumption | with_reducible apply canon_done | with_reducible apply canon_saveMap
    | with_reducible apply canon_setFl | with_reducible apply canon_setFlag | with_reducible apply canon_setRg
    | with_reducible apply State.Canon.withMigWait | with_reducible apply State.Canon.withMig
    | with_reducible apply canon_event | with_reducible apply canon_nextMig
    | with_reducible apply canon_endOpFree | with_reducible apply mwf_mset | with_reducible apply mwf_mclear
    | with_reducible apply mwf_filter | with_reducible apply mwf_nil
    | with_reducible apply State.Canon.migWait | (with_reducible refine foldl_keeps (fun _ _ _ => ?_) _ ?_)
    | (with_reducible refine foldl_snd_keeps (fun _ _ _ => ?_) _ ?_) | split | dsimp only

theorem canon_scrubBody {h : Hdr} {controller : BitVec 8} {sl : Nat} {s : State} (hs : s.Canon) :
    (scrubBody h controller sl s).2.Canon := by
  unfold scrubBody
  repeat' first
    | with_reducible assumption | with_reducible apply canon_refuse | with_reducible apply canon_okay
    | with_reducible apply State.Canon.withScrubOp | with_reducible apply canon_startOp | split | dsimp only

theorem canon_execScrub {h : Hdr} {controller : BitVec 8} {s : State} (hs : s.Canon) :
    Keeps State.Canon (execScrub h controller s) := by
  unfold execScrub
  repeat' first
    | with_reducible assumption | with_reducible apply canon_done | with_reducible apply canon_cmd
    | with_reducible apply canon_scrubBody | split | dsimp only

theorem canon_scrubCount {s : State} {ce : Nat} {ue : List Nat} (hs : s.Canon) : (State.scrubCount s ce ue).Canon :=
    by
  unfold State.scrubCount
  repeat' first
    | with_reducible assumption | with_reducible apply State.Canon.withScrubOp
    | (with_reducible refine foldl_keeps (fun _ _ _ => ?_) _ ?_)
    | (with_reducible refine foldl_snd_keeps (fun _ _ _ => ?_) _ ?_) | split | dsimp only

theorem canon_scrubWord {s : State} {a : Nat} {c : Cells} (hs : s.Canon) : (State.scrubWord s a c).Canon := by
  unfold State.scrubWord
  repeat' first
    | with_reducible assumption | with_reducible apply canon_wake | with_reducible apply canon_scrubCount
    | with_reducible apply canon_uncorrectable | with_reducible apply canon_useInjection
    | with_reducible apply canon_setErr | with_reducible apply canon_bump | split | dsimp only

theorem canon_execScrubDone {op : BitVec 16} {s : State} (hs : s.Canon) : Keeps State.Canon (execScrubDone op s) :=
    by
  unfold execScrubDone
  repeat' first
    | with_reducible assumption | with_reducible apply canon_done | with_reducible apply canon_scrubWord
    | with_reducible apply canon_endOp | with_reducible apply State.Canon.withScrubOp
    | (with_reducible refine foldl_keeps (fun _ _ _ => ?_) _ ?_)
    | (with_reducible refine foldl_snd_keeps (fun _ _ _ => ?_) _ ?_) | split | dsimp only

theorem canon_takeTokens {s : State} {m : Nat} {src : DramSrc} (hs : s.Canon) : (State.takeTokens s m src).Canon :=
    by
  unfold State.takeTokens
  repeat' first
    | with_reducible assumption | with_reducible apply State.Canon.withShares | with_reducible apply mwf_mset
    | with_reducible apply mwf_mclear | with_reducible apply mwf_filter | with_reducible apply mwf_nil
    | with_reducible apply State.Canon.shares | split | dsimp only

theorem canon_activateRow {s : State} {src : DramSrc} {p : Place} (hs : s.Canon) :
    (State.activateRow s src p).Canon := by
  unfold State.activateRow
  repeat' first
    | with_reducible assumption | with_reducible apply State.Canon.withTrack | with_reducible apply canon_bump
    | with_reducible apply State.Canon.withFreeCtr | with_reducible apply mwf_mset
    | with_reducible apply mwf_mclear | with_reducible apply mwf_filter | with_reducible apply mwf_nil
    | with_reducible apply State.Canon.track | split | dsimp only

theorem canon_serveRequest {s : State} {src : DramSrc} {a : Nat} {store : Option (BitVec 64)} {c : Cells}
    (hs : s.Canon) : (State.serveRequest s src a store c).Canon := by
  unfold State.serveRequest
  repeat' first
    | with_reducible assumption | with_reducible apply canon_wbufDrain | with_reducible apply canon_scrubWord
    | with_reducible apply canon_noteWrite | with_reducible apply canon_writeWords
    | with_reducible apply canon_readWord | split | dsimp only

theorem canon_execDramRequest {src : DramSrc} {addr : BitVec 64} {store : Option (BitVec 64)} {cells : Cells}
    {s : State} (hs : s.Canon) : Keeps State.Canon (execDramRequest src addr store cells s) := by
  unfold execDramRequest
  repeat' first
    | with_reducible assumption | with_reducible apply canon_done | with_reducible apply canon_serveRequest
    | with_reducible apply canon_takeTokens | with_reducible apply canon_activateRow
    | with_reducible apply canon_wake | split | dsimp only

theorem canon_execRegionFill {region : BitVec 20} {s : State} (hs : s.Canon) :
    Keeps State.Canon (execRegionFill region s) := by
  unfold execRegionFill
  repeat' first
    | with_reducible assumption | with_reducible apply canon_done | with_reducible apply canon_setInit | split
    | dsimp only

theorem canon_toInterval {s : State} {m : Nat} {r : Nat} (hs : s.Canon) : (State.toInterval s m r).Canon := by
  unfold State.toInterval
  repeat' first
    | with_reducible assumption | with_reducible apply canon_advTo | with_reducible apply canon_setRankTimes
    | split | dsimp only

theorem canon_execRefreshInterval {m : McIx} {r : Fin 4} {s : State} (hs : s.Canon) :
    Keeps State.Canon (execRefreshInterval m r s) := by
  unfold execRefreshInterval
  repeat' first
    | with_reducible assumption | with_reducible apply canon_done | with_reducible apply canon_toInterval
    | with_reducible apply canon_setDebt | with_reducible apply canon_bump | split | dsimp only

theorem canon_pollRank {s : State} {m : Nat} {r : Nat} {mult : Nat} {temp : Nat} (hs : s.Canon) :
    (State.pollRank s m r mult temp).Canon := by
  unfold State.pollRank
  repeat' first
    | with_reducible assumption | with_reducible apply State.Canon.withMr4
    | with_reducible apply canon_followRate | with_reducible apply canon_setHot
    | with_reducible apply mwf_mset | with_reducible apply mwf_mclear | with_reducible apply mwf_filter
    | with_reducible apply mwf_nil | with_reducible apply State.Canon.mr4 | split | dsimp only

theorem canon_toPoll {s : State} {m : Nat} (hs : s.Canon) : (State.toPoll s m).Canon := by
  unfold State.toPoll
  repeat' first
    | with_reducible assumption | with_reducible apply canon_advTo | with_reducible apply canon_setMcTimes
    | split | dsimp only

theorem canon_execMr4Poll {m : McIx} {rates : List (BitVec 2)} {temps : List (BitVec 7)} {s : State} (hs : s.Canon)
    : Keeps State.Canon (execMr4Poll m rates temps s) := by
  unfold execMr4Poll
  repeat' first
    | with_reducible assumption | with_reducible apply canon_done | with_reducible apply canon_pollRank
    | with_reducible apply canon_toPoll | (with_reducible refine foldl_keeps (fun _ _ _ => ?_) _ ?_)
    | (with_reducible refine foldl_snd_keeps (fun _ _ _ => ?_) _ ?_) | split | dsimp only

theorem canon_execPowerDownEntry {m : McIx} {r : Fin 4} {s : State} (hs : s.Canon) :
    Keeps State.Canon (execPowerDownEntry m r s) := by
  unfold execPowerDownEntry
  repeat' first
    | with_reducible assumption | with_reducible apply canon_advTo | with_reducible apply canon_done
    | with_reducible apply canon_setFl | split | dsimp only

theorem canon_execSelfRefreshEntry {m : McIx} {r : Fin 4} {s : State} (hs : s.Canon) :
    Keeps State.Canon (execSelfRefreshEntry m r s) := by
  unfold execSelfRefreshEntry
  repeat' first
    | with_reducible assumption | with_reducible apply canon_setDebt | with_reducible apply canon_advTo
    | with_reducible apply canon_done | with_reducible apply canon_setRg | split | dsimp only

theorem canon_toWindowEnd {s : State} {m : Nat} (hs : s.Canon) : (State.toWindowEnd s m).Canon := by
  unfold State.toWindowEnd
  repeat' first
    | with_reducible assumption | with_reducible apply canon_advTo | with_reducible apply canon_setMcTimes
    | split | dsimp only

theorem canon_execRowDisturbanceWindowEnd {m : McIx} {s : State} (hs : s.Canon) :
    Keeps State.Canon (execRowDisturbanceWindowEnd m s) := by
  unfold execRowDisturbanceWindowEnd
  repeat' first
    | with_reducible assumption | with_reducible apply canon_toWindowEnd | with_reducible apply canon_done
    | with_reducible apply State.Canon.withTrack | with_reducible apply mwf_mset
    | with_reducible apply mwf_mclear | with_reducible apply mwf_filter | with_reducible apply mwf_nil
    | with_reducible apply State.Canon.track | split | dsimp only

theorem canon_execWarmRetrain {m : McIx} {s : State} (hs : s.Canon) : Keeps State.Canon (execWarmRetrain m s) := by
  unfold execWarmRetrain
  repeat' first
    | with_reducible assumption | with_reducible apply canon_done
    | with_reducible apply State.Canon.withRetrain | with_reducible apply mwf_mset
    | with_reducible apply mwf_mclear | with_reducible apply mwf_filter | with_reducible apply mwf_nil
    | with_reducible apply State.Canon.retrain | split | dsimp only

theorem canon_execRetrainingComplete {m : McIx} {ok : Bool} {s : State} (hs : s.Canon) :
    Keeps State.Canon (execRetrainingComplete m ok s) := by
  unfold execRetrainingComplete
  repeat' first
    | with_reducible assumption | with_reducible apply State.Canon.withDead
    | with_reducible apply State.Canon.withRetrain | with_reducible apply canon_done
    | with_reducible apply canon_serveWait | with_reducible apply canon_setFlag
    | with_reducible apply mwf_mset | with_reducible apply mwf_mclear | with_reducible apply mwf_filter
    | with_reducible apply mwf_nil | with_reducible apply State.Canon.dead
    | with_reducible apply State.Canon.retrain | (with_reducible refine foldl_keeps (fun _ _ _ => ?_) _ ?_)
    | (with_reducible refine foldl_snd_keeps (fun _ _ _ => ?_) _ ?_) | split | dsimp only

/-! ### FaultCmds -/

theorem canon_faultReadBody {h : Hdr} {sl : Nat} {s : State} (hs : s.Canon) : (faultReadBody h sl s).2.Canon := by
  unfold faultReadBody
  repeat' first
    | with_reducible assumption | with_reducible apply canon_refuse | with_reducible apply canon_okay | split

theorem canon_execFaultRead {h : Hdr} {s : State} (hs : s.Canon) : Keeps State.Canon (execFaultRead h s) := by
  unfold execFaultRead
  repeat' first
    | with_reducible assumption | with_reducible apply canon_done | with_reducible apply canon_cmd
    | with_reducible apply canon_faultReadBody | split | dsimp only

theorem canon_faultClearBody {h : Hdr} {stickyMask : BitVec 256} {clearFirst : BitVec 8} {sl : Nat} {s : State}
    (hs : s.Canon) : (faultClearBody h stickyMask clearFirst sl s).2.Canon := by
  unfold faultClearBody
  repeat' first
    | with_reducible assumption | with_reducible apply canon_refuse | with_reducible apply canon_okay
    | with_reducible apply canon_faultClear | split | dsimp only

theorem canon_execFaultClear {h : Hdr} {stickyMask : BitVec 256} {clearFirst : BitVec 8} {s : State} (hs : s.Canon)
    : Keeps State.Canon (execFaultClear h stickyMask clearFirst s) := by
  unfold execFaultClear
  repeat' first
    | with_reducible assumption | with_reducible apply canon_done | with_reducible apply canon_cmd
    | with_reducible apply canon_faultClearBody | split | dsimp only

theorem canon_setReaction {s : State} {n : Nat} {code : Nat} (hs : s.Canon) : (State.setReaction s n code).Canon :=
    by
  unfold State.setReaction
  repeat' first | with_reducible assumption | with_reducible apply canon_setRg | split | dsimp only

theorem canon_faultReactionBody {h : Hdr} {source : BitVec 8} {reaction : BitVec 8} {sl : Nat} {s : State}
    (hs : s.Canon) : (faultReactionBody h source reaction sl s).2.Canon := by
  unfold faultReactionBody
  repeat' first
    | with_reducible assumption | with_reducible apply canon_refuse | with_reducible apply canon_okay
    | with_reducible apply canon_setReaction | split | dsimp only

theorem canon_execFaultReaction {h : Hdr} {source : BitVec 8} {reaction : BitVec 8} {s : State} (hs : s.Canon) :
    Keeps State.Canon (execFaultReaction h source reaction s) := by
  unfold execFaultReaction
  repeat' first
    | with_reducible assumption | with_reducible apply canon_done | with_reducible apply canon_cmd
    | with_reducible apply canon_faultReactionBody | split | dsimp only

theorem canon_faultInjectBody {h : Hdr} {source : BitVec 8} {sl : Nat} {s : State} (hs : s.Canon) :
    (faultInjectBody h source sl s).2.Canon := by
  unfold faultInjectBody
  repeat' first
    | with_reducible assumption | with_reducible apply canon_refuse | with_reducible apply canon_okay
    | with_reducible apply canon_setRg | with_reducible apply canon_raise | split | dsimp only

theorem canon_execFaultInject {h : Hdr} {source : BitVec 8} {s : State} (hs : s.Canon) :
    Keeps State.Canon (execFaultInject h source s) := by
  unfold execFaultInject
  repeat' first
    | with_reducible assumption | with_reducible apply canon_done | with_reducible apply canon_cmd
    | with_reducible apply canon_faultInjectBody | split | dsimp only

theorem canon_endHold {s : State} {st : Nat} (hs : s.Canon) : (State.endHold s st).Canon := by
  unfold State.endHold
  repeat' first
    | with_reducible assumption | with_reducible apply canon_setFlag | with_reducible apply canon_setStall
    | with_reducible apply canon_takeHalt | (with_reducible refine foldl_keeps (fun _ _ _ => ?_) _ ?_)
    | (with_reducible refine foldl_snd_keeps (fun _ _ _ => ?_) _ ?_) | split | dsimp only

theorem canon_faultReleaseBody {h : Hdr} {sl : Nat} {s : State} (hs : s.Canon) :
    (faultReleaseBody h sl s).2.Canon := by
  unfold faultReleaseBody
  repeat' first
    | with_reducible assumption | with_reducible apply canon_refuse | with_reducible apply canon_okay
    | with_reducible apply canon_endHold | split | dsimp only

theorem canon_execFaultRelease {h : Hdr} {s : State} (hs : s.Canon) : Keeps State.Canon (execFaultRelease h s) := by
  unfold execFaultRelease
  repeat' first
    | with_reducible assumption | with_reducible apply canon_done | with_reducible apply canon_cmd
    | with_reducible apply canon_faultReleaseBody | split | dsimp only

theorem canon_detected {s : State} {n : Nat} (hs : s.Canon) : (State.detected s n).Canon := by
  unfold State.detected
  repeat' first
    | with_reducible assumption | with_reducible apply canon_setRg | with_reducible apply canon_setFlag
    | with_reducible apply canon_hopperFails | split | dsimp only

theorem canon_execFaultActivation {source : BitVec 8} {detail : BitVec 16} {s : State} (hs : s.Canon) :
    Keeps State.Canon (execFaultActivation source detail s) := by
  unfold execFaultActivation
  repeat' first
    | with_reducible assumption | with_reducible apply canon_done | with_reducible apply canon_detected
    | with_reducible apply State.Canon.withCondDet | with_reducible apply canon_setCond
    | with_reducible apply canon_raise | with_reducible apply mwf_mset | with_reducible apply mwf_mclear
    | with_reducible apply mwf_filter | with_reducible apply mwf_nil
    | with_reducible apply State.Canon.condDet | split | dsimp only

theorem canon_execWatchdog {s : State} (hs : s.Canon) : Keeps State.Canon (execWatchdog s) := by
  unfold execWatchdog
  repeat' first
    | with_reducible assumption | with_reducible apply canon_done | with_reducible apply canon_raise | split

theorem canon_execCondSourceInactive {source : BitVec 8} {s : State} (hs : s.Canon) :
    Keeps State.Canon (execCondSourceInactive source s) := by
  unfold execCondSourceInactive
  repeat' first
    | with_reducible assumption | with_reducible apply canon_done | with_reducible apply canon_setRg
    | with_reducible apply canon_endCond | split | dsimp only

theorem canon_followWire {s : State} (hs : s.Canon) : (State.followWire s).Canon := by
  unfold State.followWire
  repeat' first
    | with_reducible assumption | with_reducible apply canon_raise | with_reducible apply canon_setCond
    | with_reducible apply canon_endCond | split | dsimp only

theorem canon_execFaultyPair {source : BitVec 8} {equal : Bool} {s : State} (hs : s.Canon) :
    Keeps State.Canon (execFaultyPair source equal s) := by
  unfold execFaultyPair
  repeat' first
    | with_reducible assumption | with_reducible apply canon_done | with_reducible apply canon_followWire
    | with_reducible apply canon_setSrcBit | with_reducible apply canon_raise
    | with_reducible apply canon_endCond | split | dsimp only

theorem canon_execShadowEnd {b : Blk} {s : State} (hs : s.Canon) : Keeps State.Canon (execShadowEnd b s) := by
  unfold execShadowEnd
  repeat' first
    | with_reducible assumption | with_reducible apply canon_done | with_reducible apply canon_advTo
    | with_reducible apply State.Canon.withShadows | with_reducible apply canon_activate
    | (with_reducible refine foldl_keeps (fun _ _ _ => ?_) _ ?_)
    | (with_reducible refine foldl_snd_keeps (fun _ _ _ => ?_) _ ?_) | split | dsimp only

theorem canon_execBlockResetComplete {b : Blk} {s : State} (hs : s.Canon) :
    Keeps State.Canon (execBlockResetComplete b s) := by
  unfold execBlockResetComplete
  repeat' first
    | with_reducible assumption | with_reducible apply canon_done | with_reducible apply canon_endBlock
    | split | dsimp only

/-! ### Lanes -/

theorem canon_execSignalDetected {k : LaneIx} {s : State} (hs : s.Canon) :
    Keeps State.Canon (execSignalDetected k s) := by
  unfold execSignalDetected
  repeat' first
    | with_reducible assumption | with_reducible apply canon_setFlag | with_reducible apply canon_setLane
    | with_reducible apply canon_done | with_reducible apply canon_laneTo | split | dsimp only

theorem canon_execBlockLock {k : LaneIx} {s : State} (hs : s.Canon) : Keeps State.Canon (execBlockLock k s) := by
  unfold execBlockLock
  repeat' first
    | with_reducible assumption | with_reducible apply canon_setLane | with_reducible apply canon_done
    | with_reducible apply canon_laneTo | with_reducible apply canon_setRg | split | dsimp only

theorem canon_execLinkUp {k : LaneIx} {s : State} (hs : s.Canon) : Keeps State.Canon (execLinkUp k s) := by
  unfold execLinkUp
  repeat' first
    | with_reducible assumption | with_reducible apply canon_done | with_reducible apply canon_setFl
    | with_reducible apply canon_advTo | with_reducible apply canon_endCond | with_reducible apply canon_bump
    | split | dsimp only

theorem canon_lossBits {s : State} {k : Nat} {why : LinkLoss} (hs : s.Canon) : (State.lossBits s k why).1.Canon :=
    by
  unfold State.lossBits
  repeat' first
    | with_reducible assumption | with_reducible apply canon_setRg | with_reducible apply canon_setFlag
    | split | dsimp only

theorem canon_lossEnds {s : State} {k : Nat} {why : LinkLoss} (hs : s.Canon) : (State.lossEnds s k why).Canon := by
  unfold State.lossEnds
  repeat' first | with_reducible assumption | with_reducible apply canon_setFlag | split | dsimp only

theorem canon_execLinkDown {k : LaneIx} {news : LinkNews} {s : State} (hs : s.Canon) :
    Keeps State.Canon (execLinkDown k news s) := by
  unfold execLinkDown
  repeat' first
    | with_reducible assumption | with_reducible apply canon_done | with_reducible apply canon_lossEnds
    | with_reducible apply canon_setLane | with_reducible apply canon_laneCounts
    | with_reducible apply canon_lossBits | with_reducible apply canon_laneTo | split | dsimp only

theorem canon_execSignalLoss {k : LaneIx} {lockOnly : Bool} {s : State} (hs : s.Canon) :
    Keeps State.Canon (execSignalLoss k lockOnly s) := by
  unfold execSignalLoss
  repeat' first
    | with_reducible assumption | with_reducible apply canon_done | with_reducible apply canon_laneCounts
    | with_reducible apply canon_setLane | with_reducible apply canon_setRg
    | with_reducible apply canon_laneTo | split | dsimp only

theorem canon_execLaneSettingsApply {k : LaneIx} {s : State} (hs : s.Canon) :
    Keeps State.Canon (execLaneSettingsApply k s) := by
  unfold execLaneSettingsApply
  repeat' first
    | with_reducible assumption | with_reducible apply canon_done | with_reducible apply canon_advTo
    | with_reducible apply canon_startAgain | with_reducible apply canon_takeSettings | split | dsimp only

theorem canon_execLoopTimeout {k : LaneIx} {s : State} (hs : s.Canon) : Keeps State.Canon (execLoopTimeout k s) :=
    by
  unfold execLoopTimeout
  repeat' first
    | with_reducible assumption | with_reducible apply canon_done | with_reducible apply canon_setFl
    | with_reducible apply canon_advTo | with_reducible apply canon_setLane
    | with_reducible apply canon_startAgain | split | dsimp only

theorem canon_execOwnChangeApply {s : State} (hs : s.Canon) : Keeps State.Canon (execOwnChangeApply s) := by
  unfold execOwnChangeApply
  repeat' first
    | with_reducible assumption | with_reducible apply canon_done | with_reducible apply canon_advTo
    | with_reducible apply State.Canon.withOwnAt | with_reducible apply State.Canon.withOwnEff | split

theorem canon_execPesTransferBegin {j : Fin 4} {s : State} (hs : s.Canon) :
    Keeps State.Canon (execPesTransferBegin j s) := by
  unfold execPesTransferBegin
  repeat' first
    | with_reducible assumption | with_reducible apply canon_setPesm | with_reducible apply canon_done
    | with_reducible apply canon_setFl | split | dsimp only

theorem canon_storeRx {s : State} {j : Nat} {i : Nat} {w : Nat} {a4 : Nat} {a5 : List Byte} (hs : s.Canon) :
    (State.storeRx s j i w a4 a5).Canon := by
  induction a4 generalizing s w a5 with
  | zero => exact hs
  | succ n ih =>
    unfold State.storeRx
    exact ih (canon_setRg hs)

theorem canon_execPesTransferEnd {j : Fin 4} {rx : List Byte} {s : State} (hs : s.Canon) :
    Keeps State.Canon (execPesTransferEnd j rx s) := by
  unfold execPesTransferEnd
  repeat' first
    | with_reducible assumption | with_reducible apply canon_done | with_reducible apply canon_storeRx
    | with_reducible apply canon_setPesm | with_reducible apply canon_setFlag
    | with_reducible apply canon_setFl | split | dsimp only

/-! ### StallCmds -/

theorem canon_loadSeqBody {h : Hdr} {table : BitVec 64} {entries : BitVec 32} {sl : Nat} {s : State} (hs : s.Canon)
    : (loadSeqBody h table entries sl s).2.Canon := by
  unfold loadSeqBody
  repeat' first
    | with_reducible assumption | with_reducible apply canon_refuse | with_reducible apply canon_memAccess
    | split | dsimp only

theorem canon_execLoadSeq {h : Hdr} {table : BitVec 64} {entries : BitVec 32} {s : State} (hs : s.Canon) :
    Keeps State.Canon (execLoadSeq h table entries s) := by
  unfold execLoadSeq
  repeat' first
    | with_reducible assumption | with_reducible apply canon_done | with_reducible apply canon_cmd
    | with_reducible apply canon_loadSeqBody | split | dsimp only

theorem canon_startBody {h : Hdr} {mode : BitVec 8} {acq : BitVec 8} {source : BitVec 8} {sourceIndex : BitVec 8}
    {firstEntry : BitVec 16} {sl : Nat} {s : State} (hs : s.Canon) :
    (startBody h mode acq source sourceIndex firstEntry sl s).2.Canon := by
  unfold startBody
  extract_lets st c reserved r
  have hr : r.2.Canon := canon_runCheck hs
  split
  · exact canon_refuse hs
  split
  · exact canon_refuse hs
  split
  · exact canon_refuse hs
  split
  · exact canon_refuse hs
  split
  · exact canon_refuse hs
  split
  · exact canon_refuse hs
  split
  · exact canon_refuse hs
  split
  · exact canon_refuse hs
  split
  · exact canon_refuse hs
  split
  · exact canon_refuse hr
  · exact canon_acceptRun hr

theorem canon_execStart {h : Hdr} {mode : BitVec 8} {acq : BitVec 8} {source : BitVec 8} {sourceIndex : BitVec 8}
    {firstEntry : BitVec 16} {s : State} (hs : s.Canon) :
    Keeps State.Canon (execStart h mode acq source sourceIndex firstEntry s) := by
  unfold execStart
  repeat' first
    | with_reducible assumption | with_reducible apply canon_done | with_reducible apply canon_cmd
    | with_reducible apply canon_startBody | split | dsimp only

theorem canon_stopBody {h : Hdr} {atWhen : BitVec 8} {sl : Nat} {s : State} (hs : s.Canon) :
    (stopBody h atWhen sl s).2.Canon := by
  unfold stopBody
  repeat' first
    | with_reducible assumption | with_reducible apply canon_refuse | with_reducible apply canon_okay
    | with_reducible apply canon_answerAll | with_reducible apply canon_disarm
    | with_reducible apply canon_setStall | split | dsimp only

theorem canon_execStop {h : Hdr} {atWhen : BitVec 8} {s : State} (hs : s.Canon) :
    Keeps State.Canon (execStop h atWhen s) := by
  unfold execStop
  repeat' first
    | with_reducible assumption | with_reducible apply canon_done | with_reducible apply canon_cmd
    | with_reducible apply canon_stopBody | split | dsimp only

theorem canon_armBody {h : Hdr} {sl : Nat} {s : State} (hs : s.Canon) : (armBody h sl s).2.Canon := by
  unfold armBody
  repeat' first
    | with_reducible assumption | with_reducible apply canon_refuse | with_reducible apply canon_okay
    | with_reducible apply canon_setStall | with_reducible apply canon_enterFill | split | dsimp only

theorem canon_execArm {h : Hdr} {s : State} (hs : s.Canon) : Keeps State.Canon (execArm h s) := by
  unfold execArm
  repeat' first
    | with_reducible assumption | with_reducible apply canon_done | with_reducible apply canon_cmd
    | with_reducible apply canon_armBody | split | dsimp only

theorem canon_statusBody {h : Hdr} {sl : Nat} {s : State} (hs : s.Canon) : (statusBody h sl s).2.Canon := by
  unfold statusBody
  repeat' first
    | with_reducible assumption | with_reducible apply canon_refuse | with_reducible apply canon_okay | split

theorem canon_execStatus {h : Hdr} {s : State} (hs : s.Canon) : Keeps State.Canon (execStatus h s) := by
  unfold execStatus
  repeat' first
    | with_reducible assumption | with_reducible apply canon_done | with_reducible apply canon_cmd
    | with_reducible apply canon_statusBody | split | dsimp only

theorem canon_setflagBody {h : Hdr} {mask : BitVec 8} {value : BitVec 8} {sl : Nat} {s : State} (hs : s.Canon) :
    (setflagBody h mask value sl s).2.Canon := by
  unfold setflagBody
  repeat' first
    | with_reducible assumption | with_reducible apply canon_refuse | with_reducible apply canon_okay
    | with_reducible apply canon_setFl | with_reducible apply canon_controlFlit | split | dsimp only

theorem canon_execSetflag {h : Hdr} {mask : BitVec 8} {value : BitVec 8} {s : State} (hs : s.Canon) :
    Keeps State.Canon (execSetflag h mask value s) := by
  unfold execSetflag
  repeat' first
    | with_reducible assumption | with_reducible apply canon_done | with_reducible apply canon_cmd
    | with_reducible apply canon_setflagBody | split | dsimp only

theorem canon_stallResetBody {h : Hdr} {sl : Nat} {s : State} (hs : s.Canon) : (stallResetBody h sl s).2.Canon := by
  unfold stallResetBody
  repeat' first
    | with_reducible assumption | with_reducible apply canon_refuse
    | with_reducible apply canon_stallResetBegin | with_reducible apply canon_okay | split | dsimp only

theorem canon_execStallReset {h : Hdr} {s : State} (hs : s.Canon) : Keeps State.Canon (execStallReset h s) := by
  unfold execStallReset
  repeat' first
    | with_reducible assumption | with_reducible apply canon_done | with_reducible apply canon_cmd
    | with_reducible apply canon_stallResetBody | split | dsimp only

/-! ### Streams -/

theorem canon_streamOpenBody {h : Hdr} {queue : BitVec 16} {maxPayload : BitVec 16} {limit : BitVec 32}
    {flushUs : BitVec 16} {sl : Nat} {s : State} (hs : s.Canon) :
    (streamOpenBody h queue maxPayload limit flushUs sl s).2.Canon := by
  unfold streamOpenBody
  repeat' first
    | with_reducible assumption | with_reducible apply canon_refuse | with_reducible apply canon_okay
    | with_reducible apply canon_setStream | split | dsimp only

theorem canon_execStreamOpen {h : Hdr} {queue : BitVec 16} {maxPayload : BitVec 16} {limit : BitVec 32}
    {flushUs : BitVec 16} {s : State} (hs : s.Canon) :
    Keeps State.Canon (execStreamOpen h queue maxPayload limit flushUs s) := by
  unfold execStreamOpen
  repeat' first
    | with_reducible assumption | with_reducible apply canon_done | with_reducible apply canon_cmd
    | with_reducible apply canon_streamOpenBody | split | dsimp only

theorem canon_takeCredit {s : State} {q : Nat} {t : Stream} {ack : BitVec 32} {limit : BitVec 32} (hs : s.Canon) :
    (State.takeCredit s q t ack limit).Canon := by
  unfold State.takeCredit
  repeat' first
    | with_reducible assumption | with_reducible apply canon_setStream | with_reducible apply canon_raiseFloor
    | split | dsimp only

theorem canon_creditBody {h : Hdr} {queue : BitVec 16} {ack : BitVec 32} {limit : BitVec 32} {sl : Nat} {s : State}
    (hs : s.Canon) : (creditBody h queue ack limit sl s).2.Canon := by
  unfold creditBody
  repeat' first
    | with_reducible assumption | with_reducible apply canon_refuse | with_reducible apply canon_okay
    | with_reducible apply canon_takeCredit | split | dsimp only

theorem canon_execCredit {h : Hdr} {queue : BitVec 16} {ack : BitVec 32} {limit : BitVec 32} {s : State}
    (hs : s.Canon) : Keeps State.Canon (execCredit h queue ack limit s) := by
  unfold execCredit
  repeat' first
    | with_reducible assumption | with_reducible apply canon_done | with_reducible apply canon_cmd
    | with_reducible apply canon_creditBody | split | dsimp only

theorem canon_creditFrame {s : State} {h : Hdr} {q : Nat} {ack : BitVec 32} {limit : BitVec 32} (hs : s.Canon) :
    (State.creditFrame s h q ack limit).Canon := by
  unfold State.creditFrame
  repeat' first | with_reducible assumption | with_reducible apply canon_takeCredit | split | dsimp only

theorem canon_execCreditFrame {h : Hdr} {queue : BitVec 16} {ack : BitVec 32} {limit : BitVec 32} {s : State}
    (hs : s.Canon) : Keeps State.Canon (execCreditFrame h queue ack limit s) := by
  unfold execCreditFrame
  repeat' first
    | with_reducible assumption | with_reducible apply canon_heard | with_reducible apply canon_done
    | with_reducible apply canon_unheard | with_reducible apply canon_creditFrame | split | dsimp only

theorem canon_streamCloseBody {h : Hdr} {queue : BitVec 16} {sl : Nat} {s : State} (hs : s.Canon) :
    (streamCloseBody h queue sl s).2.Canon := by
  unfold streamCloseBody
  repeat' first
    | with_reducible assumption | with_reducible apply canon_refuse | with_reducible apply canon_okay
    | with_reducible apply canon_closeStream | split | dsimp only

theorem canon_execStreamClose {h : Hdr} {queue : BitVec 16} {s : State} (hs : s.Canon) :
    Keeps State.Canon (execStreamClose h queue s) := by
  unfold execStreamClose
  repeat' first
    | with_reducible assumption | with_reducible apply canon_done | with_reducible apply canon_cmd
    | with_reducible apply canon_streamCloseBody | split | dsimp only

theorem canon_rewindBody {h : Hdr} {queue : BitVec 16} {fromSeq : BitVec 32} {sl : Nat} {s : State} (hs : s.Canon) :
    (rewindBody h queue fromSeq sl s).2.Canon := by
  unfold rewindBody
  repeat' first
    | with_reducible assumption | with_reducible apply canon_refuse | with_reducible apply canon_okay
    | with_reducible apply canon_setStream | split | dsimp only

theorem canon_execRewind {h : Hdr} {queue : BitVec 16} {fromSeq : BitVec 32} {s : State} (hs : s.Canon) :
    Keeps State.Canon (execRewind h queue fromSeq s) := by
  unfold execRewind
  repeat' first
    | with_reducible assumption | with_reducible apply canon_done | with_reducible apply canon_cmd
    | with_reducible apply canon_rewindBody | split | dsimp only

theorem canon_refusedBy {s : State} {p : Producer} {q : Nat} {ws : List (BitVec 64 × Bool)} (hs : s.Canon) :
    (State.refusedBy s p q ws).Canon := by
  unfold State.refusedBy
  repeat' first
    | with_reducible assumption | with_reducible apply canon_lose | with_reducible apply canon_bump
    | with_reducible apply canon_setFlag | with_reducible apply canon_setCore
    | with_reducible apply canon_setFl | split | dsimp only

theorem canon_consume {s : State} {q : Nat} {parityBad : Bool} (hs : s.Canon) :
    (State.consume s q parityBad).Canon := by
  unfold State.consume
  repeat' first
    | with_reducible assumption | with_reducible apply canon_popStream | with_reducible apply canon_pop
    | split | dsimp only

theorem canon_execQueuePush {q : QIx} {p : Producer} {words : List (BitVec 64 × Bool)} {popHere : Bool} {s : State}
    (hs : s.Canon) : Keeps State.Canon (execQueuePush q p words popHere s) := by
  unfold execQueuePush
  repeat' first
    | with_reducible assumption | with_reducible apply canon_done | with_reducible apply canon_reclaim
    | with_reducible apply canon_consume | with_reducible apply canon_noteDest
    | with_reducible apply canon_pushAll | with_reducible apply canon_refusedBy
    | with_reducible apply canon_refusePush | split | dsimp only

theorem canon_execQueuePop {q : QIx} {parityBad : Bool} {s : State} (hs : s.Canon) :
    Keeps State.Canon (execQueuePop q parityBad s) := by
  unfold execQueuePop
  repeat' first
    | with_reducible assumption | with_reducible apply canon_done | with_reducible apply canon_consume | split

theorem canon_execSpillReadback {q : QIx} {cells : Cells} {s : State} (hs : s.Canon) :
    Keeps State.Canon (execSpillReadback q cells s) := by
  unfold execSpillReadback
  repeat' first
    | with_reducible assumption | with_reducible apply canon_done | with_reducible apply canon_readback
    | split | dsimp only

theorem canon_resendNext {s : State} {q : Nat} {t : Stream} {r : BitVec 32} (hs : s.Canon) :
    (State.resendNext s q t r).Canon := by
  unfold State.resendNext
  repeat' first
    | with_reducible assumption | with_reducible apply canon_setStream | with_reducible apply canon_sendStream
    | split | dsimp only

theorem canon_execStreamFrameSend {q : QIx} {s : State} (hs : s.Canon) :
    Keeps State.Canon (execStreamFrameSend q s) := by
  unfold execStreamFrameSend
  repeat' first
    | with_reducible assumption | with_reducible apply canon_done | with_reducible apply canon_resendNext
    | with_reducible apply canon_fillFrame | with_reducible apply canon_pop
    | with_reducible apply canon_sendFrame | with_reducible apply canon_advTo | split | dsimp only

/-! ### TimeBase -/

theorem canon_startOn {s : State} {source : Nat} {index : Nat} (hs : s.Canon) :
    (State.startOn s source index).Canon := by
  unfold State.startOn
  repeat' first
    | with_reducible assumption | with_reducible apply canon_startEvent | with_reducible apply canon_setFlag
    | (with_reducible refine foldl_keeps (fun _ _ _ => ?_) _ ?_)
    | (with_reducible refine foldl_snd_keeps (fun _ _ _ => ?_) _ ?_) | split | dsimp only

theorem canon_triggerAll {s : State} {code : Nat} {index : Nat} (hs : s.Canon) :
    (State.triggerAll s code index).Canon := by
  unfold State.triggerAll
  repeat' first
    | with_reducible assumption | with_reducible apply canon_trigEvent
    | (with_reducible refine foldl_keeps (fun _ _ _ => ?_) _ ?_)
    | (with_reducible refine foldl_snd_keeps (fun _ _ _ => ?_) _ ?_) | split | dsimp only

theorem canon_ownDevice {body : Body} {sl : Nat} {s : State}
    (hbody : ∀ (n : Nat) (u : State), u.Canon → (body n u).2.Canon) (hs : s.Canon) :
    (ownDevice body sl s).2.Canon := by
  unfold ownDevice
  repeat' first
    | with_reducible assumption | with_reducible apply canon_refuse | with_reducible apply hbody | split

theorem canon_timeReadBody {h : Hdr} {sl : Nat} {s : State} (hs : s.Canon) : (timeReadBody h sl s).2.Canon := by
  unfold timeReadBody
  repeat' first
    | with_reducible assumption | with_reducible apply canon_refuse | with_reducible apply canon_okay | split

theorem canon_execTimeRead {h : Hdr} {s : State} (hs : s.Canon) : Keeps State.Canon (execTimeRead h s) := by
  unfold execTimeRead
  repeat' first
    | with_reducible assumption | with_reducible apply canon_done | with_reducible apply canon_cmd
    | with_reducible apply canon_timeReadBody | split | dsimp only

theorem canon_timeSetBody {h : Hdr} {sec : BitVec 64} {ns : BitVec 32} {subns : BitVec 16} {rate : BitVec 64}
    {sl : Nat} {s : State} (hs : s.Canon) : (timeSetBody h sec ns subns rate sl s).2.Canon := by
  unfold timeSetBody
  repeat' first
    | with_reducible assumption | with_reducible apply canon_refuse | with_reducible apply canon_ownDevice
    | with_reducible apply canon_okay | with_reducible apply canon_setFlag
    | with_reducible apply canon_setTimeRate | (with_reducible refine canon_of_eq (by assumption) ?_) | split
    | (intro _ _ _) | dsimp only

theorem canon_execTimeSet {h : Hdr} {sec : BitVec 64} {ns : BitVec 32} {subns : BitVec 16} {rate : BitVec 64}
    {s : State} (hs : s.Canon) : Keeps State.Canon (execTimeSet h sec ns subns rate s) := by
  unfold execTimeSet
  repeat' first
    | with_reducible assumption | with_reducible apply canon_done | with_reducible apply canon_cmd
    | with_reducible apply canon_timeSetBody | split | dsimp only

theorem canon_timeStepBody {h : Hdr} {deltaNs : BitVec 64} {sl : Nat} {s : State} (hs : s.Canon) :
    (timeStepBody h deltaNs sl s).2.Canon := by
  unfold timeStepBody
  repeat' first
    | with_reducible assumption | with_reducible apply canon_refuse | with_reducible apply canon_ownDevice
    | with_reducible apply canon_okay | with_reducible apply State.Canon.withOfs
    | (with_reducible refine canon_of_eq (by assumption) ?_) | split | (intro _ _ _) | dsimp only

theorem canon_execTimeStep {h : Hdr} {deltaNs : BitVec 64} {s : State} (hs : s.Canon) :
    Keeps State.Canon (execTimeStep h deltaNs s) := by
  unfold execTimeStep
  repeat' first
    | with_reducible assumption | with_reducible apply canon_done | with_reducible apply canon_cmd
    | with_reducible apply canon_timeStepBody | split | dsimp only

theorem canon_toutLow {s : State} {n : Nat} (hs : s.Canon) : (State.toutLow s n).Canon := by
  unfold State.toutLow
  repeat' first
    | with_reducible assumption | with_reducible apply State.Canon.withTout
    | with_reducible apply State.Canon.withToutLvl | with_reducible apply mwf_mset
    | with_reducible apply mwf_mclear | with_reducible apply mwf_filter | with_reducible apply mwf_nil
    | with_reducible apply State.Canon.tout | split | dsimp only

theorem canon_toutAction {s : State} {action : Nat} (hs : s.Canon) : (State.toutAction s action).Canon := by
  unfold State.toutAction
  repeat' first
    | with_reducible assumption | with_reducible apply State.Canon.withTout | with_reducible apply mwf_mset
    | with_reducible apply mwf_mclear | with_reducible apply mwf_filter | with_reducible apply mwf_nil
    | with_reducible apply State.Canon.tout | split | dsimp only

theorem canon_fireAlarm {s : State} {a : Nat} {x : Alarm} (hs : s.Canon) : (State.fireAlarm s a x).Canon := by
  unfold State.fireAlarm
  repeat' first
    | with_reducible assumption | with_reducible apply canon_advTo | with_reducible apply canon_setFlag
    | with_reducible apply canon_toutAction | with_reducible apply canon_setAlarm
    | with_reducible apply canon_bump | with_reducible apply canon_controlFlit
    | with_reducible apply canon_triggerAll | with_reducible apply canon_startOn | split | dsimp only

theorem canon_fireDue {s : State} {a : Nat} (hs : s.Canon) : (State.fireDue s a).Canon := by
  unfold State.fireDue
  repeat' first | with_reducible assumption | with_reducible apply canon_fireAlarm | split | dsimp only

theorem canon_disarmAlarm {s : State} {a : Nat} (hs : s.Canon) : (State.disarmAlarm s a).Canon := by
  unfold State.disarmAlarm
  repeat' first
    | with_reducible assumption | with_reducible apply canon_setFlag | with_reducible apply canon_setAlarm
    | with_reducible apply canon_toutLow | split | dsimp only

theorem canon_alarmSetBody {h : Hdr} {alarm : BitVec 8} {action : BitVec 8} {sec : BitVec 64} {ns : BitVec 32}
    {periodNs : BitVec 64} {sl : Nat} {s : State} (hs : s.Canon) :
    (alarmSetBody h alarm action sec ns periodNs sl s).2.Canon := by
  unfold alarmSetBody
  repeat' first
    | with_reducible assumption | with_reducible apply canon_refuse | with_reducible apply canon_ownDevice
    | with_reducible apply canon_disarmAlarm | with_reducible apply canon_fireDue
    | with_reducible apply canon_setAlarm | with_reducible apply canon_okay | with_reducible apply canon_setRg
    | (with_reducible refine canon_of_eq (by assumption) ?_) | split | (intro _ _ _) | dsimp only

theorem canon_execAlarmSet {h : Hdr} {alarm : BitVec 8} {action : BitVec 8} {sec : BitVec 64} {ns : BitVec 32}
    {periodNs : BitVec 64} {s : State} (hs : s.Canon) :
    Keeps State.Canon (execAlarmSet h alarm action sec ns periodNs s) := by
  unfold execAlarmSet
  repeat' first
    | with_reducible assumption | with_reducible apply canon_done | with_reducible apply canon_cmd
    | with_reducible apply canon_alarmSetBody | split | dsimp only

theorem canon_alarmCancelBody {h : Hdr} {alarm : BitVec 8} {sl : Nat} {s : State} (hs : s.Canon) :
    (alarmCancelBody h alarm sl s).2.Canon := by
  unfold alarmCancelBody
  repeat' first
    | with_reducible assumption | with_reducible apply canon_refuse | with_reducible apply canon_ownDevice
    | with_reducible apply canon_okay | with_reducible apply canon_disarmAlarm
    | with_reducible apply canon_fireDue | (with_reducible refine canon_of_eq (by assumption) ?_) | split
    | (intro _ _ _) | dsimp only

theorem canon_execAlarmCancel {h : Hdr} {alarm : BitVec 8} {s : State} (hs : s.Canon) :
    Keeps State.Canon (execAlarmCancel h alarm s) := by
  unfold execAlarmCancel
  repeat' first
    | with_reducible assumption | with_reducible apply canon_done | with_reducible apply canon_cmd
    | with_reducible apply canon_alarmCancelBody | split | dsimp only

theorem canon_execAlarmFire {a : Fin 16} {s : State} (hs : s.Canon) : Keeps State.Canon (execAlarmFire a s) := by
  unfold execAlarmFire
  repeat' first
    | with_reducible assumption | with_reducible apply canon_done | with_reducible apply canon_fireAlarm
    | split | dsimp only

theorem canon_execToutPulse {n : Fin 4} {s : State} (hs : s.Canon) : Keeps State.Canon (execToutPulse n s) := by
  unfold execToutPulse
  repeat' first
    | with_reducible assumption | with_reducible apply State.Canon.withTout | with_reducible apply canon_advTo
    | with_reducible apply canon_done | with_reducible apply State.Canon.withToutLvl
    | with_reducible apply mwf_mset | with_reducible apply mwf_mclear | with_reducible apply mwf_filter
    | with_reducible apply mwf_nil | with_reducible apply State.Canon.tout | split | dsimp only

theorem canon_stamp {s : State} {k : Nat} {type : Nat} {seqId : Nat} {c : BitVec 64} (hs : s.Canon) :
    (State.stamp s k type seqId c).Canon := by
  unfold State.stamp
  repeat' first
    | with_reducible assumption | with_reducible apply canon_push | with_reducible apply canon_setFl | split
    | dsimp only

theorem canon_popStamps {s : State} {q : Nat} {a2 : Nat} (hs : s.Canon) : (State.popStamps s q a2).2.Canon := by
  induction a2 generalizing s q with
  | zero =>
      unfold State.popStamps
      repeat' first
        | with_reducible assumption | with_reducible apply canon_pop
        | (with_reducible refine canon_of_eq (by assumption) ?_) | split | (intro _ _ _) | dsimp only
  | succ n ih =>
      unfold State.popStamps
      repeat' first
        | with_reducible apply ih
        | with_reducible assumption | with_reducible apply canon_pop
        | (with_reducible refine canon_of_eq (by assumption) ?_) | split | (intro _ _ _) | dsimp only

theorem canon_tsqReadBody {h : Hdr} {port : BitVec 8} {max : BitVec 8} {sl : Nat} {s : State} (hs : s.Canon) :
    (tsqReadBody h port max sl s).2.Canon := by
  unfold tsqReadBody
  repeat' first
    | with_reducible assumption | with_reducible apply canon_refuse | with_reducible apply canon_ownDevice
    | with_reducible apply canon_popStamps | with_reducible apply canon_okay
    | with_reducible apply canon_setFl | (with_reducible refine canon_of_eq (by assumption) ?_) | split
    | (intro _ _ _) | dsimp only

theorem canon_execTsqRead {h : Hdr} {port : BitVec 8} {max : BitVec 8} {s : State} (hs : s.Canon) :
    Keeps State.Canon (execTsqRead h port max s) := by
  unfold execTsqRead
  repeat' first
    | with_reducible assumption | with_reducible apply canon_done | with_reducible apply canon_cmd
    | with_reducible apply canon_tsqReadBody | split | dsimp only

theorem canon_execSyncOutPulse {s : State} (hs : s.Canon) : Keeps State.Canon (execSyncOutPulse s) := by
  unfold execSyncOutPulse
  repeat' first
    | with_reducible assumption | with_reducible apply canon_done
    | with_reducible apply State.Canon.withSyncOut | with_reducible apply State.Canon.withSyncDue
    | with_reducible apply State.Canon.withSyncFell | with_reducible apply canon_advTo | split | dsimp only

theorem canon_syncMean {s : State} {l : List Nat} (hs : s.Canon) : (State.syncMean s l).2.Canon := by
  unfold State.syncMean
  repeat' first
    | with_reducible assumption | with_reducible apply canon_draw
    | (with_reducible refine foldl_keeps (fun _ _ _ => ?_) _ ?_)
    | (with_reducible refine foldl_snd_keeps (fun _ _ _ => ?_) _ ?_) | split | dsimp only

theorem canon_syncMeasure {s : State} {n : Nat} (hs : s.Canon) : (State.syncMeasure s n).Canon := by
  unfold State.syncMeasure
  repeat' first
    | with_reducible assumption | with_reducible apply canon_syncMean | with_reducible apply canon_setFl
    | with_reducible apply State.Canon.withSyncMs | with_reducible apply canon_setRg
    | with_reducible apply canon_setRg64 | with_reducible apply canon_bump | split | dsimp only

theorem canon_execSyncEpochBoundary {short : Bool} {disagree : Bool} {edges : BitVec 16} {lead : BitVec 16}
    {s : State} (hs : s.Canon) : Keeps State.Canon (execSyncEpochBoundary short disagree edges lead s) := by
  unfold execSyncEpochBoundary
  repeat' first
    | with_reducible assumption | with_reducible apply canon_done | with_reducible apply canon_bump
    | with_reducible apply State.Canon.withSyncLast | with_reducible apply canon_advTo
    | with_reducible apply canon_setRg64 | with_reducible apply canon_setFlag
    | with_reducible apply canon_syncMeasure | with_reducible apply canon_startOn | split | dsimp only

theorem canon_execTrigInEdge {n : Fin 4} {rising : Bool} {s : State} (hs : s.Canon) :
    Keeps State.Canon (execTrigInEdge n rising s) := by
  unfold execTrigInEdge
  repeat' first
    | with_reducible assumption | with_reducible apply canon_done
    | with_reducible apply State.Canon.withTrigIn | with_reducible apply canon_setStall
    | with_reducible apply canon_triggerAll | with_reducible apply canon_startOn
    | (with_reducible refine foldl_keeps (fun _ _ _ => ?_) _ ?_)
    | (with_reducible refine foldl_snd_keeps (fun _ _ _ => ?_) _ ?_) | split | dsimp only

theorem canon_setPort {s : State} {k : Nat} {p : Ptp} (hs : s.Canon) : (State.setPort s k p).Canon := by
  unfold State.setPort
  repeat' first
    | with_reducible assumption | with_reducible apply State.Canon.withPtp | with_reducible apply mwf_mset
    | with_reducible apply mwf_mclear | with_reducible apply mwf_filter | with_reducible apply mwf_nil
    | with_reducible apply State.Canon.ptp | split | dsimp only

theorem canon_sendPtp {s : State} {k : Nat} {type : Nat} {seqId : Nat} {time : Nat} (hs : s.Canon) :
    (State.sendPtp s k type seqId time).Canon := by
  unfold State.sendPtp
  repeat' first | with_reducible assumption | with_reducible apply canon_offer | split | dsimp only

theorem canon_toNs {s : State} {x : Int} (hs : s.Canon) : (State.toNs s x).2.Canon := by
  unfold State.toNs
  repeat' first | with_reducible assumption | with_reducible apply canon_draw | split | dsimp only

theorem canon_servo {s : State} {k : Nat} {off : Int} (hs : s.Canon) : (State.servo s k off).Canon := by
  unfold State.servo
  repeat' first
    | with_reducible assumption | with_reducible apply State.Canon.withOfs | with_reducible apply canon_draw
    | with_reducible apply canon_setTimeRate | with_reducible apply canon_setPort
    | with_reducible apply canon_setFlag | split | dsimp only

theorem canon_exchange {s : State} {k : Nat} {t4 : Nat} (hs : s.Canon) : (State.exchange s k t4).Canon := by
  unfold State.exchange
  repeat' first
    | with_reducible assumption | with_reducible apply canon_setPort | with_reducible apply canon_servo
    | with_reducible apply canon_toNs | with_reducible apply canon_setRg | split | dsimp only

theorem canon_delayReq {s : State} {k : Nat} {t1 : Nat} (hs : s.Canon) : (State.delayReq s k t1).Canon := by
  unfold State.delayReq
  repeat' first
    | with_reducible assumption | with_reducible apply canon_setPort | with_reducible apply canon_stamp
    | with_reducible apply canon_sendPtp | split | dsimp only

theorem canon_ptpSlave {s : State} {k : Nat} {msg : PtpMsg} (hs : s.Canon) : (State.ptpSlave s k msg).Canon := by
  unfold State.ptpSlave
  repeat' first
    | with_reducible assumption | with_reducible apply canon_setPort | with_reducible apply canon_delayReq
    | with_reducible apply canon_exchange | split | dsimp only

theorem canon_ptpMaster {s : State} {k : Nat} {msg : PtpMsg} (hs : s.Canon) : (State.ptpMaster s k msg).Canon := by
  unfold State.ptpMaster
  repeat' first | with_reducible assumption | with_reducible apply canon_sendPtp | split | dsimp only

theorem canon_execPtpMessageRx {k : LaneIx} {frame : PtpFrame} {s : State} (hs : s.Canon) :
    Keeps State.Canon (execPtpMessageRx k frame s) := by
  unfold execPtpMessageRx
  repeat' first
    | with_reducible assumption | with_reducible apply canon_done | with_reducible apply canon_relay
    | with_reducible apply canon_bump | with_reducible apply canon_setPort
    | with_reducible apply canon_ptpMaster | with_reducible apply canon_ptpSlave | split | dsimp only

theorem canon_execPtpSyncInterval {k : LaneIx} {stamp : BitVec 64} {s : State} (hs : s.Canon) :
    Keeps State.Canon (execPtpSyncInterval k stamp s) := by
  unfold execPtpSyncInterval
  repeat' first
    | with_reducible assumption | with_reducible apply canon_setPort | with_reducible apply canon_sendPtp
    | with_reducible apply canon_stamp | with_reducible apply canon_done | split | dsimp only

theorem canon_execPtpHoldover {s : State} (hs : s.Canon) : Keeps State.Canon (execPtpHoldover s) := by
  unfold execPtpHoldover
  repeat' first
    | with_reducible assumption | with_reducible apply canon_done | with_reducible apply canon_setFlag
    | with_reducible apply canon_setPort | split | dsimp only

/-! ### Yard -/

theorem canon_createInst {s : State} {slot : Nat} {flow : Nat} {params : List Byte} (hs : s.Canon) :
    (State.createInst s slot flow params).Canon := by
  unfold State.createInst
  repeat' first
    | with_reducible assumption | with_reducible apply canon_setFlow
    | with_reducible apply State.Canon.withNextInst | with_reducible apply State.Canon.withInsts | split

theorem canon_setInst {s : State} {x : Inst} (hs : s.Canon) : (State.setInst s x).Canon := by
  unfold State.setInst
  repeat' first | with_reducible assumption | with_reducible apply State.Canon.withInsts | split | dsimp only

theorem canon_emitOut {s : State} {stall : Nat} {o : YOut} (hs : s.Canon) : (State.emitOut s stall o).2.Canon := by
  unfold State.emitOut
  repeat' first
    | with_reducible assumption | with_reducible apply canon_push | with_reducible apply canon_bump
    | with_reducible apply State.Canon.withYflags | with_reducible apply mwf_mset
    | with_reducible apply mwf_mclear | with_reducible apply mwf_filter | with_reducible apply mwf_nil
    | with_reducible apply State.Canon.yflags | split | dsimp only

theorem canon_emitOuts {s : State} {stall : Nat} {a2 : List YOut} (hs : s.Canon) :
    (State.emitOuts s stall a2).2.Canon := by
  induction a2 generalizing s stall with
  | nil =>
      unfold State.emitOuts
      repeat' first | with_reducible assumption | with_reducible apply canon_emitOut | split | dsimp only
  | cons y t ih =>
      unfold State.emitOuts
      repeat' first | with_reducible apply ih | with_reducible assumption | with_reducible apply canon_emitOut | split | dsimp only

theorem canon_popCore {s : State} {q : Nat} (hs : s.Canon) : (State.popCore s q).2.Canon := by
  unfold State.popCore
  repeat' first
    | with_reducible assumption | with_reducible apply canon_pop | with_reducible apply canon_readback | split

theorem canon_popPacket {s : State} {q : Nat} {a2 : Nat} (hs : s.Canon) : (State.popPacket s q a2).2.Canon := by
  induction a2 generalizing s q with
  | zero =>
      unfold State.popPacket
      repeat' first
        | with_reducible assumption | with_reducible apply canon_popCore
        | (with_reducible refine canon_of_eq (by assumption) ?_) | split | (intro _ _ _) | dsimp only
  | succ n ih =>
      unfold State.popPacket
      repeat' first
        | with_reducible apply ih
        | with_reducible assumption | with_reducible apply canon_popCore
        | (with_reducible refine canon_of_eq (by assumption) ?_) | split | (intro _ _ _) | dsimp only

theorem canon_popPackets {s : State} {q : Nat} {a2 : Nat} (hs : s.Canon) : (State.popPackets s q a2).2.Canon := by
  induction a2 generalizing s q with
  | zero =>
      unfold State.popPackets
      repeat' first | with_reducible assumption | with_reducible apply canon_popPacket | split | dsimp only
  | succ n ih =>
      unfold State.popPackets
      repeat' first | with_reducible apply ih | with_reducible assumption | with_reducible apply canon_popPacket | split | dsimp only

theorem canon_discardIn {s : State} {img : List Byte} {j : Nat} (hs : s.Canon) : (State.discardIn s img j).Canon :=
    by
  unfold State.discardIn
  repeat' first | with_reducible assumption | with_reducible apply canon_popPackets | split | dsimp only

theorem canon_releaseInst {s : State} {x : Inst} (hs : s.Canon) : (State.releaseInst s x).Canon := by
  unfold State.releaseInst
  repeat' first
    | with_reducible assumption | with_reducible apply State.Canon.withInsts
    | with_reducible apply canon_emitOuts | with_reducible apply canon_emitOut | split | dsimp only

theorem canon_releaseFlow {s : State} {f : Nat} {a2 : Nat} (hs : s.Canon) : (State.releaseFlow s f a2).Canon := by
  induction a2 generalizing s f with
  | zero =>
      unfold State.releaseFlow
      repeat' first
        | with_reducible assumption | with_reducible apply canon_releaseInst | with_reducible apply canon_setFlow
        | split | dsimp only
  | succ n ih =>
      unfold State.releaseFlow
      repeat' first
        | with_reducible apply ih
        | with_reducible assumption | with_reducible apply canon_releaseInst | with_reducible apply canon_setFlow
        | split | dsimp only

theorem canon_endInst {s : State} {num : BitVec 32} (hs : s.Canon) : (State.endInst s num).Canon := by
  unfold State.endInst
  repeat' first
    | with_reducible assumption | with_reducible apply State.Canon.withYended
    | with_reducible apply canon_setInst | with_reducible apply canon_releaseInst
    | with_reducible apply canon_releaseFlow | split | dsimp only

theorem canon_finishOp {s : State} {img : List Byte} {num : BitVec 32} {j : Nat} {status : Nat} (hs : s.Canon) :
    (State.finishOp s img num j status).Canon := by
  unfold State.finishOp
  repeat' first
    | with_reducible assumption | with_reducible apply canon_bump | with_reducible apply canon_setInst | split

theorem canon_skipOps {s : State} {img : List Byte} {num : BitVec 32} {a3 : Nat} (hs : s.Canon) :
    (State.skipOps s img num a3).Canon := by
  induction a3 generalizing s img num with
  | zero =>
      unfold State.skipOps
      repeat' first
        | with_reducible assumption | with_reducible apply canon_setInst | with_reducible apply canon_finishOp
        | with_reducible apply canon_discardIn | split | dsimp only
  | succ n ih =>
      unfold State.skipOps
      repeat' first
        | with_reducible apply ih
        | with_reducible assumption | with_reducible apply canon_setInst | with_reducible apply canon_finishOp
        | with_reducible apply canon_discardIn | split | dsimp only

theorem canon_endOperation {s : State} {num : BitVec 32} {j : Nat} {status : Nat} (hs : s.Canon) :
    (State.endOperation s num j status).Canon := by
  unfold State.endOperation
  repeat' first
    | with_reducible assumption | with_reducible apply canon_endInst | with_reducible apply canon_skipOps
    | with_reducible apply canon_finishOp | split | dsimp only

theorem canon_setSlot {s : State} {slot : Nat} {o : Nat} {a3 : List Byte} (hs : s.Canon) :
    (State.setSlot s slot o a3).Canon := by
  induction a3 generalizing s slot o with
  | nil =>
      unfold State.setSlot
      repeat' first
        | with_reducible assumption | with_reducible apply State.Canon.withYstate | with_reducible apply mwf_mset
        | with_reducible apply mwf_mclear | with_reducible apply mwf_filter | with_reducible apply mwf_nil
        | with_reducible apply State.Canon.ystate | split | dsimp only
  | cons y t ih =>
      unfold State.setSlot
      repeat' first
        | with_reducible apply ih
        | with_reducible assumption | with_reducible apply State.Canon.withYstate | with_reducible apply mwf_mset
        | with_reducible apply mwf_mclear | with_reducible apply mwf_filter | with_reducible apply mwf_nil
        | with_reducible apply State.Canon.ystate | split | dsimp only

theorem canon_zeroSlot {s : State} {slot : Nat} (hs : s.Canon) : (State.zeroSlot s slot).Canon := by
  unfold State.zeroSlot
  repeat' first
    | with_reducible assumption | with_reducible apply State.Canon.withYstate | with_reducible apply mwf_mset
    | with_reducible apply mwf_mclear | with_reducible apply mwf_filter | with_reducible apply mwf_nil
    | with_reducible apply State.Canon.ystate | split | dsimp only

/-! ### YardServ -/

theorem canon_pushes {q : Nat} {ps : List (List (BitVec 64))} {s : State} (hs : s.Canon) :
    (pushes q ps s).st.Canon := by
  unfold pushes
  repeat' first | with_reducible assumption | split | dsimp only

theorem canon_badInput {s : State} (hs : s.Canon) : (badInput s).st.Canon := by
  unfold badInput
  repeat' first | with_reducible assumption | split | dsimp only

theorem canon_datalog {q : Nat} {p : List Byte} {rs : List Rec} {s : State} (hs : s.Canon) :
    (datalog q p rs s).st.Canon := by
  unfold datalog
  repeat' first | with_reducible assumption | with_reducible apply canon_pushes | split | dsimp only

theorem canon_setMapBit {s : State} {by_ : Writer} {base : Nat} {n : Nat} (hs : s.Canon) :
    (State.setMapBit s by_ base n).2.Canon := by
  unfold State.setMapBit
  repeat' first
    | with_reducible assumption | with_reducible apply canon_readWord | with_reducible apply canon_noteWrite
    | with_reducible apply canon_writeEach | split | dsimp only

theorem canon_markBit {by_ : Writer} {base : Nat} {t : Bool × State} {n : Nat} (ht : t.2.Canon) :
    (markBit by_ base t n).2.Canon := by
  unfold markBit
  repeat' first | with_reducible assumption | with_reducible apply canon_setMapBit | split | dsimp only

theorem canon_failmap {by_ : Writer} {q : Nat} {p : List Byte} {rs : List Rec} {s : State} (hs : s.Canon) :
    (failmap by_ q p rs s).st.Canon := by
  unfold failmap
  repeat' first
    | with_reducible assumption | with_reducible apply canon_markBit | with_reducible apply canon_pushes
    | with_reducible apply canon_badInput | (with_reducible refine foldl_keeps (fun _ _ _ => ?_) _ ?_)
    | (with_reducible refine foldl_snd_keeps (fun _ _ _ => ?_) _ ?_) | split | dsimp only

theorem canon_binDecide {q : Nat} {p : List Byte} {ps : List (List QWord)} {s : State} (hs : s.Canon) :
    (binDecide q p ps s).st.Canon := by
  unfold binDecide
  repeat' first | with_reducible assumption | with_reducible apply canon_badInput | split | dsimp only

theorem canon_search {q : Nat} {p : List Byte} {slot : Nat} {rs : List Rec} {s : State} (hs : s.Canon) :
    (search q p slot rs s).st.Canon := by
  unfold search
  repeat' first
    | with_reducible assumption | with_reducible apply canon_badInput
    | with_reducible apply State.Canon.withFreeCtr | with_reducible apply canon_setSlot
    | with_reducible apply canon_zeroSlot | (with_reducible refine foldl_keeps (fun _ _ _ => ?_) _ ?_)
    | (with_reducible refine foldl_snd_keeps (fun _ _ _ => ?_) _ ?_) | split | dsimp only

theorem canon_spectrum {q : Nat} {p : List Byte} {rs : List Rec} {s : State} (hs : s.Canon) :
    (spectrum q p rs s).st.Canon := by
  unfold spectrum
  repeat' first
    | with_reducible assumption | with_reducible apply canon_badInput | with_reducible apply canon_pushes
    | split | dsimp only

theorem canon_histogram {q : Nat} {p : List Byte} {rs : List Rec} {s : State} (hs : s.Canon) :
    (histogram q p rs s).st.Canon := by
  unfold histogram
  repeat' first
    | with_reducible assumption | with_reducible apply canon_badInput | with_reducible apply canon_pushes
    | split | dsimp only

theorem canon_nearby {s : State} {floor : Int} {exact : Bool} (hs : s.Canon) :
    (State.nearby s floor exact).2.Canon := by
  unfold State.nearby
  repeat' first | with_reducible assumption | with_reducible apply canon_draw | split | dsimp only

theorem canon_intervalStats {q : Nat} {rs : List Rec} {s : State} (hs : s.Canon) :
    (intervalStats q rs s).st.Canon := by
  unfold intervalStats
  repeat' first
    | with_reducible assumption | with_reducible apply canon_draw | with_reducible apply canon_pushes
    | with_reducible apply canon_nearby | (with_reducible refine foldl_keeps (fun _ _ _ => ?_) _ ?_)
    | (with_reducible refine foldl_snd_keeps (fun _ _ _ => ?_) _ ?_) | split | dsimp only

theorem canon_coreByte {s : State} {a : Nat} (hs : s.Canon) : (State.coreByte s a).2.Canon := by
  unfold State.coreByte
  repeat' first | with_reducible assumption | with_reducible apply canon_readWord | split | dsimp only

theorem canon_compareChars {s : State} {base : Nat} {len : Nat} {pos : Nat} {miss : Nat} {first : Option Nat}
    {a6 : List Nat} (hs : s.Canon) : (State.compareChars s base len pos miss first a6).2.Canon := by
  induction a6 generalizing s base len pos miss first with
  | nil =>
      unfold State.compareChars
      repeat' first | with_reducible assumption | with_reducible apply canon_coreByte | split | dsimp only
  | cons y t ih =>
      unfold State.compareChars
      repeat' first | with_reducible apply ih | with_reducible assumption | with_reducible apply canon_coreByte | split | dsimp only

theorem canon_frameCheck {q : Nat} {p : List Byte} {slot : Nat} {rs : List Rec} {s : State} (hs : s.Canon) :
    (frameCheck q p slot rs s).st.Canon := by
  unfold frameCheck
  repeat' first
    | with_reducible assumption | with_reducible apply canon_badInput
    | with_reducible apply canon_compareChars | with_reducible apply canon_setSlot
    | with_reducible apply canon_pushes | split | dsimp only

theorem canon_vendor {by_ : Writer} {code : Nat} {q : Nat} {slot : Nat} {p : List Byte} {ws : List QWord}
    {short : Bool} {s : State} (hs : s.Canon) : (vendor by_ code q slot p ws short s).st.Canon := by
  unfold vendor
  repeat' first
    | with_reducible assumption | with_reducible apply canon_badInput | with_reducible apply canon_datalog
    | with_reducible apply canon_failmap | with_reducible apply canon_binDecide
    | with_reducible apply canon_search | with_reducible apply canon_spectrum
    | with_reducible apply canon_histogram | with_reducible apply canon_intervalStats
    | with_reducible apply canon_frameCheck | split | dsimp only

theorem canon_moduleAct {s : State} {by_ : Writer} {img : List Byte} {mod : List Byte} {p : List Byte} {j : Nat}
    {r : Bool × List YOut} {a : ModAct} (hs : s.Canon) : (State.moduleAct s by_ img mod p j r a).2.Canon := by
  unfold State.moduleAct
  repeat' first
    | with_reducible assumption | with_reducible apply canon_popCore | with_reducible apply canon_setSlot
    | with_reducible apply canon_noteWrite | with_reducible apply canon_writeWords
    | (with_reducible refine canon_of_eq (by assumption) ?_) | split | (intro _ _ _) | dsimp only

theorem canon_moduleActs {s : State} {by_ : Writer} {img : List Byte} {mod : List Byte} {p : List Byte} {j : Nat}
    {r : Bool × List YOut} {a7 : List ModAct} (hs : s.Canon) : (State.moduleActs s by_ img mod p j r a7).2.Canon :=
    by
  induction a7 generalizing s by_ img mod p j r with
  | nil =>
      unfold State.moduleActs
      repeat' first | with_reducible assumption | with_reducible apply canon_moduleAct | split | dsimp only
  | cons y t ih =>
      unfold State.moduleActs
      repeat' first | with_reducible apply ih | with_reducible assumption | with_reducible apply canon_moduleAct | split | dsimp only

theorem canon_userModule {by_ : Writer} {img : List Byte} {mod : List Byte} {p : List Byte} {j : Nat}
    {acts : List ModAct} {status : Nat} {short : Bool} {s : State} (hs : s.Canon) :
    (userModule by_ img mod p j acts status short s).st.Canon := by
  unfold userModule
  repeat' first | with_reducible assumption | with_reducible apply canon_moduleActs | split | dsimp only

theorem canon_outputs {s : State} {x : Inst} {result : Bool} {r : YRes} (hs : s.Canon) :
    (State.outputs s x result r).2.Canon := by
  unfold State.outputs
  repeat' first
    | with_reducible assumption | with_reducible apply canon_setInst | with_reducible apply canon_emitOuts
    | split | dsimp only

/-! ### YardCmds -/

theorem canon_yardLoadBody {h : Hdr} {kind : BitVec 8} {slot : BitVec 16} {image : BitVec 64} {imageLen : BitVec 32}
    {sl : Nat} {s : State} (hs : s.Canon) : (yardLoadBody h kind slot image imageLen sl s).2.Canon := by
  unfold yardLoadBody
  repeat' first
    | with_reducible assumption | with_reducible apply canon_refuse | with_reducible apply canon_acceptOp
    | split | dsimp only

theorem canon_execYardLoad {h : Hdr} {kind : BitVec 8} {slot : BitVec 16} {image : BitVec 64} {imageLen : BitVec 32}
    {s : State} (hs : s.Canon) : Keeps State.Canon (execYardLoad h kind slot image imageLen s) := by
  unfold execYardLoad
  repeat' first
    | with_reducible assumption | with_reducible apply canon_done | with_reducible apply canon_cmd
    | with_reducible apply canon_yardLoadBody | split | dsimp only

theorem canon_dramBytes {s : State} {a : Nat} {n : Nat} (hs : s.Canon) : (State.dramBytes s a n).2.Canon := by
  unfold State.dramBytes
  repeat' first | with_reducible assumption | with_reducible apply canon_readWords | split | dsimp only

theorem canon_putTemplate {s : State} {slot : Nat} {img : List Byte} (hs : s.Canon) :
    (State.putTemplate s slot img).Canon := by
  unfold State.putTemplate
  repeat' first
    | with_reducible assumption | with_reducible apply State.Canon.withTrigPend
    | with_reducible apply State.Canon.withTmpl | with_reducible apply canon_zeroSlot
    | with_reducible apply mwf_mset | with_reducible apply mwf_mclear | with_reducible apply mwf_filter
    | with_reducible apply mwf_nil | with_reducible apply State.Canon.trigPend
    | with_reducible apply State.Canon.tmpl | (with_reducible refine foldl_keeps (fun _ _ _ => ?_) _ ?_)
    | (with_reducible refine foldl_snd_keeps (fun _ _ _ => ?_) _ ?_) | split | dsimp only

theorem canon_execYardLoadDone {op : BitVec 16} {s : State} (hs : s.Canon) :
    Keeps State.Canon (execYardLoadDone op s) := by
  unfold execYardLoadDone
  repeat' first
    | with_reducible assumption | with_reducible apply canon_done | with_reducible apply canon_endOp
    | with_reducible apply canon_opTimeout | with_reducible apply canon_dramBytes
    | with_reducible apply canon_endOpFree | with_reducible apply canon_putTemplate
    | with_reducible apply State.Canon.withMods | with_reducible apply mwf_mset
    | with_reducible apply mwf_mclear | with_reducible apply mwf_filter | with_reducible apply mwf_nil
    | with_reducible apply State.Canon.mods | split | dsimp only

theorem canon_yardUnloadBody {h : Hdr} {kind : BitVec 8} {slot : BitVec 16} {sl : Nat} {s : State} (hs : s.Canon) :
    (yardUnloadBody h kind slot sl s).2.Canon := by
  unfold yardUnloadBody
  repeat' first
    | with_reducible assumption | with_reducible apply canon_refuse | with_reducible apply canon_okay
    | with_reducible apply State.Canon.withDue | with_reducible apply State.Canon.withTrigPend
    | with_reducible apply State.Canon.withTmpl | with_reducible apply State.Canon.withMods
    | with_reducible apply mwf_mset | with_reducible apply mwf_mclear | with_reducible apply mwf_filter
    | with_reducible apply mwf_nil | with_reducible apply State.Canon.trigPend
    | with_reducible apply State.Canon.tmpl | with_reducible apply State.Canon.mods | split | dsimp only

theorem canon_execYardUnload {h : Hdr} {kind : BitVec 8} {slot : BitVec 16} {s : State} (hs : s.Canon) :
    Keeps State.Canon (execYardUnload h kind slot s) := by
  unfold execYardUnload
  repeat' first
    | with_reducible assumption | with_reducible apply canon_done | with_reducible apply canon_cmd
    | with_reducible apply canon_yardUnloadBody | split | dsimp only

theorem canon_yardSubmitBody {h : Hdr} {template : BitVec 16} {flow : BitVec 16} {plen : BitVec 16}
    {data : List Byte} {sl : Nat} {s : State} (hs : s.Canon) :
    (yardSubmitBody h template flow plen data sl s).2.Canon := by
  unfold yardSubmitBody
  repeat' first
    | with_reducible assumption | with_reducible apply canon_refuse | with_reducible apply canon_okay
    | with_reducible apply canon_createInst | split | dsimp only

theorem canon_execYardSubmit {h : Hdr} {template : BitVec 16} {flow : BitVec 16} {plen : BitVec 16}
    {data : List Byte} {s : State} (hs : s.Canon) :
    Keeps State.Canon (execYardSubmit h template flow plen data s) := by
  unfold execYardSubmit
  repeat' first
    | with_reducible assumption | with_reducible apply canon_done | with_reducible apply canon_cmd
    | with_reducible apply canon_yardSubmitBody | split | dsimp only

theorem canon_execInstanceCreate {s : State} (hs : s.Canon) : Keeps State.Canon (execInstanceCreate s) := by
  unfold execInstanceCreate
  repeat' first
    | with_reducible assumption | with_reducible apply canon_done | with_reducible apply canon_createInst
    | with_reducible apply State.Canon.withDue | split | dsimp only

theorem canon_yardQuiesceBody {h : Hdr} {sl : Nat} {s : State} (hs : s.Canon) : (yardQuiesceBody h sl s).2.Canon :=
    by
  unfold yardQuiesceBody
  repeat' first
    | with_reducible assumption | with_reducible apply canon_refuse | with_reducible apply canon_okay
    | with_reducible apply canon_setFl | with_reducible apply canon_startOp | split | dsimp only

theorem canon_execYardQuiesce {h : Hdr} {s : State} (hs : s.Canon) : Keeps State.Canon (execYardQuiesce h s) := by
  unfold execYardQuiesce
  repeat' first
    | with_reducible assumption | with_reducible apply canon_done | with_reducible apply canon_cmd
    | with_reducible apply canon_yardQuiesceBody | split | dsimp only

theorem canon_execYardQuiesceDone {op : BitVec 16} {s : State} (hs : s.Canon) :
    Keeps State.Canon (execYardQuiesceDone op s) := by
  unfold execYardQuiesceDone
  repeat' first
    | with_reducible assumption | with_reducible apply canon_done | with_reducible apply canon_setFl
    | with_reducible apply canon_endOp | split | dsimp only

theorem canon_createDue {s : State} {a1 : Nat} (hs : s.Canon) : (State.createDue s a1).Canon := by
  induction a1 generalizing s with
  | zero =>
      unfold State.createDue
      repeat' first
        | with_reducible assumption | with_reducible apply canon_createInst
        | with_reducible apply State.Canon.withDue | split | dsimp only
  | succ n ih =>
      unfold State.createDue
      repeat' first
        | with_reducible apply ih
        | with_reducible assumption | with_reducible apply canon_createInst
        | with_reducible apply State.Canon.withDue | split | dsimp only

theorem canon_yardResumeBody {h : Hdr} {sl : Nat} {s : State} (hs : s.Canon) : (yardResumeBody h sl s).2.Canon := by
  unfold yardResumeBody
  repeat' first
    | with_reducible assumption | with_reducible apply canon_refuse | with_reducible apply canon_setFl
    | with_reducible apply canon_okay | with_reducible apply canon_createDue | split | dsimp only

theorem canon_execYardResume {h : Hdr} {s : State} (hs : s.Canon) : Keeps State.Canon (execYardResume h s) := by
  unfold execYardResume
  repeat' first
    | with_reducible assumption | with_reducible apply canon_done | with_reducible apply canon_cmd
    | with_reducible apply canon_yardResumeBody | split | dsimp only

theorem canon_yardStatusBody {h : Hdr} {sl : Nat} {s : State} (hs : s.Canon) : (yardStatusBody h sl s).2.Canon := by
  unfold yardStatusBody
  repeat' first
    | with_reducible assumption | with_reducible apply canon_refuse | with_reducible apply canon_okay | split

theorem canon_execYardStatus {h : Hdr} {s : State} (hs : s.Canon) : Keeps State.Canon (execYardStatus h s) := by
  unfold execYardStatus
  repeat' first
    | with_reducible assumption | with_reducible apply canon_done | with_reducible apply canon_cmd
    | with_reducible apply canon_yardStatusBody | split | dsimp only

theorem canon_countWait {s : State} {t : Nat} {j : Nat} {service : Nat} {wait : Nat} (hs : s.Canon) :
    (State.countWait s t j service wait).Canon := by
  unfold State.countWait
  repeat' first
    | with_reducible assumption | with_reducible apply canon_bump
    | (with_reducible refine foldl_keeps (fun _ _ _ => ?_) _ ?_)
    | (with_reducible refine foldl_snd_keeps (fun _ _ _ => ?_) _ ?_) | split | dsimp only

theorem canon_checkYardMem {s : State} {core : Nat} (hs : s.Canon) : (State.checkYardMem s core).Canon := by
  unfold State.checkYardMem
  repeat' first
    | with_reducible assumption | with_reducible apply canon_raise | with_reducible apply canon_useInjection
    | split | dsimp only

theorem canon_execWorkRequest {core : Fin 32} {s : State} (hs : s.Canon) :
    Keeps State.Canon (execWorkRequest core s) := by
  unfold execWorkRequest
  repeat' first
    | with_reducible assumption | with_reducible apply canon_done | with_reducible apply canon_setCore
    | with_reducible apply canon_countWait | with_reducible apply canon_setInst
    | with_reducible apply canon_checkYardMem | with_reducible apply canon_popPackets | split | dsimp only

theorem canon_freeCore {s : State} {c : Nat} (hs : s.Canon) : (State.freeCore s c).Canon := by
  unfold State.freeCore
  repeat' first | with_reducible assumption | with_reducible apply canon_setCore | split | dsimp only

theorem canon_execOperationComplete {core : Fin 32} {acts : List ModAct} {status : BitVec 3} {s : State}
    (hs : s.Canon) : Keeps State.Canon (execOperationComplete core acts status s) := by
  unfold execOperationComplete
  repeat' first
    | with_reducible assumption | with_reducible apply canon_done | with_reducible apply canon_freeCore
    | with_reducible apply canon_vendor | with_reducible apply canon_badInput
    | with_reducible apply canon_userModule | with_reducible apply canon_outputs
    | with_reducible apply canon_endOperation | split | dsimp only

theorem canon_execOperationTimeout {cut : CutOff} {s : State} (hs : s.Canon) :
    Keeps State.Canon (execOperationTimeout cut s) := by
  unfold execOperationTimeout
  repeat' first
    | with_reducible assumption | with_reducible apply canon_done | with_reducible apply canon_advTo
    | with_reducible apply canon_userModule | with_reducible apply canon_outputs
    | with_reducible apply canon_endOperation | with_reducible apply canon_raise
    | with_reducible apply canon_freeCore | split | dsimp only

theorem canon_execYardflagUpdate {st : StallIx} {s : State} (hs : s.Canon) :
    Keeps State.Canon (execYardflagUpdate st s) := by
  unfold execYardflagUpdate
  repeat' first
    | with_reducible assumption | with_reducible apply canon_done | with_reducible apply canon_advTo
    | with_reducible apply canon_setFl | with_reducible apply canon_controlFlit
    | with_reducible apply State.Canon.withYflags | with_reducible apply mwf_mset
    | with_reducible apply mwf_mclear | with_reducible apply mwf_filter | with_reducible apply mwf_nil
    | with_reducible apply State.Canon.yflags | split | dsimp only

/-! ### TackCmds -/

theorem canon_tackReadBody {h : Hdr} {offset : BitVec 32} {len : BitVec 16} {sl : Nat} {s : State} (hs : s.Canon) :
    (tackReadBody h offset len sl s).2.Canon := by
  unfold tackReadBody
  repeat' first
    | with_reducible assumption | with_reducible apply canon_refuse | with_reducible apply canon_okay
    | with_reducible apply canon_checkTack | split | dsimp only

theorem canon_execTackRead {h : Hdr} {offset : BitVec 32} {len : BitVec 16} {s : State} (hs : s.Canon) :
    Keeps State.Canon (execTackRead h offset len s) := by
  unfold execTackRead
  repeat' first
    | with_reducible assumption | with_reducible apply canon_done | with_reducible apply canon_cmd
    | with_reducible apply canon_tackReadBody | split | dsimp only

theorem canon_tackWriteBody {h : Hdr} {offset : BitVec 32} {len : BitVec 16} {data : List Byte} {sl : Nat}
    {s : State} (hs : s.Canon) : (tackWriteBody h offset len data sl s).2.Canon := by
  unfold tackWriteBody
  repeat' first
    | with_reducible assumption | with_reducible apply canon_refuse | with_reducible apply canon_okay
    | with_reducible apply canon_setTack | split | dsimp only

theorem canon_execTackWrite {h : Hdr} {offset : BitVec 32} {len : BitVec 16} {data : List Byte} {s : State}
    (hs : s.Canon) : Keeps State.Canon (execTackWrite h offset len data s) := by
  unfold execTackWrite
  repeat' first
    | with_reducible assumption | with_reducible apply canon_done | with_reducible apply canon_cmd
    | with_reducible apply canon_tackWriteBody | split | dsimp only

theorem canon_markSlot {s : State} {k : Nat} {on : Bool} (hs : s.Canon) : (State.markSlot s k on).Canon := by
  unfold State.markSlot
  repeat' first
    | with_reducible assumption | with_reducible apply State.Canon.withFwWritten | split | dsimp only

theorem canon_fwWriteBody {h : Hdr} {offset : BitVec 32} {len : BitVec 16} {data : List Byte} {sl : Nat} {s : State}
    (hs : s.Canon) : (fwWriteBody h offset len data sl s).2.Canon := by
  unfold fwWriteBody
  repeat' first
    | with_reducible assumption | with_reducible apply canon_refuse | with_reducible apply canon_okay
    | with_reducible apply canon_markSlot | with_reducible apply canon_setFlag
    | with_reducible apply canon_setTack | split | dsimp only

theorem canon_execFwWrite {h : Hdr} {offset : BitVec 32} {len : BitVec 16} {data : List Byte} {s : State}
    (hs : s.Canon) : Keeps State.Canon (execFwWrite h offset len data s) := by
  unfold execFwWrite
  repeat' first
    | with_reducible assumption | with_reducible apply canon_done | with_reducible apply canon_cmd
    | with_reducible apply canon_fwWriteBody | split | dsimp only

theorem canon_fwVerifyBody {h : Hdr} {sl : Nat} {s : State} (hs : s.Canon) : (fwVerifyBody h sl s).2.Canon := by
  unfold fwVerifyBody
  repeat' first
    | with_reducible assumption | with_reducible apply canon_refuse | with_reducible apply canon_acceptOp
    | with_reducible apply canon_markSlot | split | dsimp only

theorem canon_execFwVerify {h : Hdr} {s : State} (hs : s.Canon) : Keeps State.Canon (execFwVerify h s) := by
  unfold execFwVerify
  repeat' first
    | with_reducible assumption | with_reducible apply canon_done | with_reducible apply canon_cmd
    | with_reducible apply canon_fwVerifyBody | split | dsimp only

theorem canon_execFwVerifyDone {op : BitVec 16} {ok : Bool} {s : State} (hs : s.Canon) :
    Keeps State.Canon (execFwVerifyDone op ok s) := by
  unfold execFwVerifyDone
  repeat' first
    | with_reducible assumption | with_reducible apply canon_done | with_reducible apply canon_endOpFree
    | with_reducible apply canon_setFlag | split | dsimp only

theorem canon_writePointer {s : State} {slot : Nat} (hs : s.Canon) : (State.writePointer s slot).Canon := by
  unfold State.writePointer
  repeat' first | with_reducible assumption | with_reducible apply canon_setTack | split | dsimp only

theorem canon_fwActivateBody {h : Hdr} {sl : Nat} {s : State} (hs : s.Canon) : (fwActivateBody h sl s).2.Canon := by
  unfold fwActivateBody
  repeat' first
    | with_reducible assumption | with_reducible apply canon_refuse | with_reducible apply canon_okay
    | with_reducible apply canon_writePointer | split | dsimp only

theorem canon_execFwActivate {h : Hdr} {s : State} (hs : s.Canon) : Keeps State.Canon (execFwActivate h s) := by
  unfold execFwActivate
  repeat' first
    | with_reducible assumption | with_reducible apply canon_done | with_reducible apply canon_cmd
    | with_reducible apply canon_fwActivateBody | split | dsimp only

theorem canon_identBody {h : Hdr} {sl : Nat} {s : State} (hs : s.Canon) : (identBody h sl s).2.Canon := by
  unfold identBody
  repeat' first
    | with_reducible assumption | with_reducible apply canon_refuse | with_reducible apply canon_okay | split

theorem canon_execIdent {h : Hdr} {s : State} (hs : s.Canon) : Keeps State.Canon (execIdent h s) := by
  unfold execIdent
  repeat' first
    | with_reducible assumption | with_reducible apply canon_done | with_reducible apply canon_cmd
    | with_reducible apply canon_identBody | split | dsimp only

/-! ### Session -/

theorem canon_ownerChange {s : State} {to_ : Option Nat} {r : Nat} {old : BitVec 16} {new : BitVec 16}
    {reason : Nat} (hs : s.Canon) : (State.ownerChange s to_ r old new reason).Canon := by
  unfold State.ownerChange
  repeat' first | with_reducible assumption | with_reducible apply canon_event | split | dsimp only

theorem canon_newSession {s : State} {n : Nat} {h : Hdr} {client : BitVec 64} {leaseMs : Nat} (hs : s.Canon) :
    (State.newSession s n h client leaseMs).Canon := by
  unfold State.newSession
  repeat' first
    | with_reducible assumption | with_reducible apply canon_closeSession
    | with_reducible apply State.Canon.withSlotGen | with_reducible apply canon_setSession
    | with_reducible apply mwf_mset | with_reducible apply mwf_mclear | with_reducible apply mwf_filter
    | with_reducible apply mwf_nil | with_reducible apply State.Canon.slotGen | split | dsimp only

theorem canon_helloReply {s : State} {n : Nat} {h : Hdr} (hs : s.Canon) : (State.helloReply s n h).Canon := by
  unfold State.helloReply
  repeat' first
    | with_reducible assumption | with_reducible apply canon_sendDcp | with_reducible apply canon_setSession
    | split | dsimp only

theorem canon_takeOver {s : State} {old : Nat} {n : Nat} {h : Hdr} (hs : s.Canon) :
    (State.takeOver s old n h).Canon := by
  unfold State.takeOver
  repeat' first
    | with_reducible assumption | with_reducible apply canon_setOwner | with_reducible apply canon_helloReply
    | with_reducible apply canon_closeSession | with_reducible apply canon_ownerChange
    | (with_reducible refine foldl_keeps (fun _ _ _ => ?_) _ ?_)
    | (with_reducible refine foldl_snd_keeps (fun _ _ _ => ?_) _ ?_) | split | dsimp only

theorem canon_hello {s : State} {h : Hdr} {client : BitVec 64} {leaseMs : Nat} {flags : Nat} (hs : s.Canon) :
    (State.hello s h client leaseMs flags).Canon := by
  unfold State.hello
  repeat' first
    | with_reducible assumption | with_reducible apply canon_bounce | with_reducible apply canon_resendCached
    | with_reducible apply canon_newSession | with_reducible apply canon_helloReply
    | with_reducible apply canon_takeOver | split | dsimp only

theorem canon_execHello {h : Hdr} {client : BitVec 64} {leaseMs : BitVec 32} {flags : BitVec 8} {s : State}
    (hs : s.Canon) : Keeps State.Canon (execHello h client leaseMs flags s) := by
  unfold execHello
  repeat' first
    | with_reducible assumption | with_reducible apply canon_heard | with_reducible apply canon_done
    | with_reducible apply canon_unheard | with_reducible apply canon_bounce
    | with_reducible apply canon_strapError | with_reducible apply canon_hello | split | dsimp only

theorem canon_claimBody {h : Hdr} {prio : BitVec 8} {sl : Nat} {s : State} (hs : s.Canon) :
    (claimBody h prio sl s).2.Canon := by
  unfold claimBody
  repeat' first
    | with_reducible assumption | with_reducible apply canon_refuse | with_reducible apply canon_setElection
    | split | dsimp only

theorem canon_execClaim {h : Hdr} {prio : BitVec 8} {s : State} (hs : s.Canon) :
    Keeps State.Canon (execClaim h prio s) := by
  unfold execClaim
  repeat' first
    | with_reducible assumption | with_reducible apply canon_done | with_reducible apply canon_cmd
    | with_reducible apply canon_claimBody | split | dsimp only

theorem canon_releaseBody {h : Hdr} {sl : Nat} {s : State} (hs : s.Canon) : (releaseBody h sl s).2.Canon := by
  unfold releaseBody
  repeat' first
    | with_reducible assumption | with_reducible apply canon_refuse | with_reducible apply canon_okay
    | with_reducible apply canon_setOwner | split | dsimp only

theorem canon_execRelease {h : Hdr} {s : State} (hs : s.Canon) : Keeps State.Canon (execRelease h s) := by
  unfold execRelease
  repeat' first
    | with_reducible assumption | with_reducible apply canon_done | with_reducible apply canon_cmd
    | with_reducible apply canon_releaseBody | split | dsimp only

theorem canon_grantBody {h : Hdr} {toSession : BitVec 16} {sl : Nat} {s : State} (hs : s.Canon) :
    (grantBody h toSession sl s).2.Canon := by
  unfold grantBody
  repeat' first
    | with_reducible assumption | with_reducible apply canon_refuse | with_reducible apply canon_okay
    | with_reducible apply canon_ownerChange | with_reducible apply canon_setOwner | split | dsimp only

theorem canon_execGrant {h : Hdr} {toSession : BitVec 16} {s : State} (hs : s.Canon) :
    Keeps State.Canon (execGrant h toSession s) := by
  unfold execGrant
  repeat' first
    | with_reducible assumption | with_reducible apply canon_done | with_reducible apply canon_cmd
    | with_reducible apply canon_grantBody | split | dsimp only

theorem canon_renewBody {h : Hdr} {leaseMs : BitVec 32} {sl : Nat} {s : State} (hs : s.Canon) :
    (renewBody h leaseMs sl s).2.Canon := by
  unfold renewBody
  repeat' first
    | with_reducible assumption | with_reducible apply canon_refuse | with_reducible apply canon_okay
    | with_reducible apply canon_setSession | split | dsimp only

theorem canon_execRenew {h : Hdr} {leaseMs : BitVec 32} {s : State} (hs : s.Canon) :
    Keeps State.Canon (execRenew h leaseMs s) := by
  unfold execRenew
  repeat' first
    | with_reducible assumption | with_reducible apply canon_done | with_reducible apply canon_cmd
    | with_reducible apply canon_renewBody | split | dsimp only

theorem canon_byeBody {h : Hdr} {sl : Nat} {s : State} (hs : s.Canon) : (byeBody h sl s).2.Canon := by
  unfold byeBody
  repeat' first
    | with_reducible assumption | with_reducible apply canon_refuse | with_reducible apply canon_closeStreams
    | with_reducible apply canon_releaseAll | split | dsimp only

theorem canon_execBye {h : Hdr} {s : State} (hs : s.Canon) : Keeps State.Canon (execBye h s) := by
  unfold execBye
  repeat' first
    | with_reducible assumption | with_reducible apply canon_done | with_reducible apply canon_cmd
    | with_reducible apply canon_byeBody | split | dsimp only

theorem canon_opStatusBody {h : Hdr} {op : BitVec 16} {sl : Nat} {s : State} (hs : s.Canon) :
    (opStatusBody h op sl s).2.Canon := by
  unfold opStatusBody
  repeat' first
    | with_reducible assumption | with_reducible apply canon_refuse | with_reducible apply canon_okay
    | with_reducible apply canon_setOp | with_reducible apply canon_draw | split | dsimp only

theorem canon_execOpStatus {h : Hdr} {op : BitVec 16} {s : State} (hs : s.Canon) :
    Keeps State.Canon (execOpStatus h op s) := by
  unfold execOpStatus
  repeat' first
    | with_reducible assumption | with_reducible apply canon_done | with_reducible apply canon_cmd
    | with_reducible apply canon_opStatusBody | split | dsimp only

theorem canon_execLeaseExpiry {slot : Fin 32} {s : State} (hs : s.Canon) :
    Keeps State.Canon (execLeaseExpiry slot s) := by
  unfold execLeaseExpiry
  repeat' first
    | with_reducible assumption | with_reducible apply canon_done | with_reducible apply canon_advTo
    | with_reducible apply canon_closeStreams | with_reducible apply canon_releaseAll
    | with_reducible apply canon_setSession | with_reducible apply canon_ownerChange
    | (with_reducible refine foldl_keeps (fun _ _ _ => ?_) _ ?_)
    | (with_reducible refine foldl_snd_keeps (fun _ _ _ => ?_) _ ?_) | split | dsimp only

theorem canon_execExpiredSessionClose {slot : Fin 32} {s : State} (hs : s.Canon) :
    Keeps State.Canon (execExpiredSessionClose slot s) := by
  unfold execExpiredSessionClose
  repeat' first
    | with_reducible assumption | with_reducible apply canon_done | with_reducible apply canon_closeSession
    | with_reducible apply canon_advTo | split | dsimp only

theorem canon_execElectionClose {r : Fin 17} {s : State} (hs : s.Canon) :
    Keeps State.Canon (execElectionClose r s) := by
  unfold execElectionClose
  repeat' first
    | with_reducible assumption | with_reducible apply canon_done | with_reducible apply canon_setElection
    | with_reducible apply canon_advTo | with_reducible apply canon_setOwner
    | with_reducible apply canon_answer | (with_reducible refine foldl_keeps (fun _ _ _ => ?_) _ ?_)
    | (with_reducible refine foldl_snd_keeps (fun _ _ _ => ?_) _ ?_) | split | dsimp only

theorem canon_execOpRecordExpiry {op : BitVec 16} {s : State} (hs : s.Canon) :
    Keeps State.Canon (execOpRecordExpiry op s) := by
  unfold execOpRecordExpiry
  repeat' first
    | with_reducible assumption | with_reducible apply canon_done | with_reducible apply canon_setOp
    | with_reducible apply canon_advTo | split | dsimp only

theorem canon_execDcpFrameDrop {h : Hdr} {why : DcpDrop} {s : State} (hs : s.Canon) :
    Keeps State.Canon (execDcpFrameDrop h why s) := by
  have hd : (s.heard { h with plen := 0 }).2.Canon := canon_heard hs
  unfold execDcpFrameDrop
  split
  case h_5 => exact canon_done (canon_cmd hs (fun _ _ h => canon_refuse h))
  all_goals
    dsimp only
    split
    · exact canon_done (canon_bump hd)
    · exact canon_done (canon_unheard hd)

theorem canon_execRxFrameDrop {lane : LaneIx} {why : RxDrop} {s : State} (hs : s.Canon) :
    Keeps State.Canon (execRxFrameDrop lane why s) := by
  unfold execRxFrameDrop
  repeat' first
    | with_reducible assumption | with_reducible apply canon_done | with_reducible apply canon_relay
    | with_reducible apply canon_bump | split | dsimp only

theorem canon_execArpRequest {lane : LaneIx} {senderMac : BitVec 48} {targetIp : BitVec 32} {s : State}
    (hs : s.Canon) : Keeps State.Canon (execArpRequest lane senderMac targetIp s) := by
  unfold execArpRequest
  repeat' first
    | with_reducible assumption | with_reducible apply canon_done | with_reducible apply canon_relay
    | with_reducible apply canon_offer | with_reducible apply canon_bump | split | dsimp only

theorem canon_execIcmpEchoRequest {lane : LaneIx} {senderMac : BitVec 48} {destIp : BitVec 32} {payload : List Byte}
    {s : State} (hs : s.Canon) : Keeps State.Canon (execIcmpEchoRequest lane senderMac destIp payload s) := by
  unfold execIcmpEchoRequest
  repeat' first
    | with_reducible assumption | with_reducible apply canon_done | with_reducible apply canon_relay
    | with_reducible apply canon_offer | with_reducible apply canon_bump | split | dsimp only

/-! ### Mgmt -/

theorem canon_dcpEffect {i : Instr} {s : State} (hs : s.Canon) : Keeps State.Canon (dcpEffect i s) := by
  unfold dcpEffect
  repeat' first
    | with_reducible assumption | with_reducible apply canon_execHello | with_reducible apply canon_execClaim
    | with_reducible apply canon_execRelease | with_reducible apply canon_execGrant
    | with_reducible apply canon_execRenew | with_reducible apply canon_execBye
    | with_reducible apply canon_execOpStatus | with_reducible apply canon_execReadReg
    | with_reducible apply canon_execWriteReg | with_reducible apply canon_execModifyReg
    | with_reducible apply canon_execReadRegList | with_reducible apply canon_execWriteMem
    | with_reducible apply canon_execReadMem | with_reducible apply canon_execFillMem
    | with_reducible apply canon_execCopyMem | with_reducible apply canon_execLoadSeq
    | with_reducible apply canon_execStart | with_reducible apply canon_execStop
    | with_reducible apply canon_execArm | with_reducible apply canon_execStatus
    | with_reducible apply canon_execSetflag | with_reducible apply canon_execStallReset
    | with_reducible apply canon_execStreamOpen | with_reducible apply canon_execCredit
    | with_reducible apply canon_execStreamClose | with_reducible apply canon_execRewind
    | with_reducible apply canon_execCalRun | with_reducible apply canon_execCalRead
    | with_reducible apply canon_execCalCommit | with_reducible apply canon_execSelftestRun
    | with_reducible apply canon_execSelftestRead | with_reducible apply canon_execYardLoad
    | with_reducible apply canon_execYardUnload | with_reducible apply canon_execYardSubmit
    | with_reducible apply canon_execYardQuiesce | with_reducible apply canon_execYardResume
    | with_reducible apply canon_execYardStatus | with_reducible apply canon_execTimeRead
    | with_reducible apply canon_execTimeSet | with_reducible apply canon_execTimeStep
    | with_reducible apply canon_execAlarmSet | with_reducible apply canon_execAlarmCancel
    | with_reducible apply canon_execTsqRead | with_reducible apply canon_execFaultRead
    | with_reducible apply canon_execFaultClear | with_reducible apply canon_execFaultReaction
    | with_reducible apply canon_execFaultInject | with_reducible apply canon_execFaultRelease
    | with_reducible apply canon_execTackRead | with_reducible apply canon_execTackWrite
    | with_reducible apply canon_execFwWrite | with_reducible apply canon_execFwVerify
    | with_reducible apply canon_execFwActivate | with_reducible apply canon_execIdent
    | with_reducible apply canon_execMcStatus | with_reducible apply canon_execRankRetire
    | with_reducible apply canon_execMigStatus | with_reducible apply canon_execScrub
    | with_reducible apply canon_execCreditFrame | with_reducible apply canon_done | split | dsimp only

theorem canon_dropInbound {s : State} (hs : s.Canon) : (State.dropInbound s).Canon := by
  unfold State.dropInbound
  repeat' first
    | with_reducible assumption | with_reducible apply canon_bump | with_reducible apply State.Canon.withMgt
    | split | dsimp only

theorem canon_inbound {s : State} {l : List Byte} (hs : s.Canon) : Keeps State.Canon (State.inbound s l) := by
  unfold State.inbound
  repeat' first
    | with_reducible assumption | with_reducible apply canon_done | with_reducible apply canon_dropInbound
    | with_reducible apply canon_execDcpFrameDrop | with_reducible apply State.Canon.withMgt
    | with_reducible apply canon_dcpEffect | split | dsimp only

theorem canon_toBus {s : State} {a : BitVec 7} (hs : s.Canon) : (State.toBus s a).Canon := by
  unfold State.toBus
  repeat' first | with_reducible assumption | with_reducible apply State.Canon.withMgt | split | dsimp only

theorem canon_execBlockWrite {frag : BusWrite} {pecOk : Bool} {s : State} (hs : s.Canon) :
    Keeps State.Canon (execBlockWrite frag pecOk s) := by
  unfold execBlockWrite
  repeat' first
    | with_reducible assumption | with_reducible apply canon_toBus | with_reducible apply canon_done
    | with_reducible apply canon_dropInbound | with_reducible apply canon_inbound
    | with_reducible apply State.Canon.withMgt | split | dsimp only

theorem canon_execBlockRead {s : State} (hs : s.Canon) : Keeps State.Canon (execBlockRead s) := by
  unfold execBlockRead
  repeat' first
    | with_reducible assumption | with_reducible apply canon_done | with_reducible apply State.Canon.withMgt
    | split | dsimp only

theorem canon_execBlockReadRepeat {s : State} (hs : s.Canon) : Keeps State.Canon (execBlockReadRepeat s) := by
  unfold execBlockReadRepeat
  repeat' first
    | with_reducible assumption | with_reducible apply canon_done | with_reducible apply State.Canon.withMgt
    | split | dsimp only

theorem canon_execAlertResponse {s : State} (hs : s.Canon) : Keeps State.Canon (execAlertResponse s) := by
  unfold execAlertResponse
  repeat' first
    | with_reducible assumption | with_reducible apply canon_done | with_reducible apply State.Canon.withMgt
    | split | dsimp only

theorem canon_execSclLowTimeout {s : State} (hs : s.Canon) : Keeps State.Canon (execSclLowTimeout s) := by
  unfold execSclLowTimeout
  repeat' first
    | with_reducible assumption | with_reducible apply canon_done | with_reducible apply canon_dropInbound
    | split | dsimp only

/-! ### Power -/

theorem canon_keepRegs {s : State} {old : State} {l : List R} (hs : s.Canon) (hold : old.Canon) :
    (State.keepRegs s old l).Canon := by
  unfold State.keepRegs
  repeat' first
    | with_reducible assumption | with_reducible apply canon_setRg
    | (with_reducible refine foldl_keeps (fun _ _ _ => ?_) _ ?_)
    | (with_reducible refine foldl_snd_keeps (fun _ _ _ => ?_) _ ?_) | split | dsimp only

/-- The conditions a reset keeps stay canonical. -/
theorem canon_keepCond {s : State} {w : Bool} (hs : s.Canon) : mwf (fun _ => false) (keepCond s w) = true :=
  mwf_mclear _ _ _ hs.condOn

/-- The cold reset keeps the canonical form. -/
theorem canon_coldTo {s : State} {cause : Nat} (hs : s.Canon)
    : (State.coldTo s cause).Canon := by
  have ht : ({ State.reset with
      pending := s.pending, out := s.out, now := s.now, freeCtr := s.freeCtr, tack := s.tack, trigIn := s.trigIn
      tap := s.tap, wrstLow := s.wrstLow, fwWritten := s.fwWritten, reports := switchReports s.reports
      condOn := keepCond s false, condDet := s.condDet, vmainAt := s.vmainAt } : State).Canon :=
    { canon_resetState with tack := hs.tack, condOn := canon_keepCond hs, condDet := hs.condDet }
  exact canon_setRg (canon_setFl (canon_setFl (canon_keepRegs ht hs)))

theorem canon_lossRecord {s : State} (hs : s.Canon) : (State.lossRecord s).Canon := by
  unfold State.lossRecord
  repeat' first | with_reducible assumption | with_reducible apply canon_setTack | split | dsimp only

theorem canon_supplyLoss {s : State} (hs : s.Canon) : (State.supplyLoss s).Canon := by
  unfold State.supplyLoss
  repeat' first
    | with_reducible assumption | with_reducible apply canon_coldTo | with_reducible apply canon_lossRecord
    | split | dsimp only

theorem canon_sleepAll {s : State} (hs : s.Canon) : (State.sleepAll s).Canon := by
  unfold State.sleepAll
  repeat' first
    | with_reducible assumption | with_reducible apply canon_setFl
    | (with_reducible refine foldl_keeps (fun _ _ _ => ?_) _ ?_)
    | (with_reducible refine foldl_snd_keeps (fun _ _ _ => ?_) _ ?_) | split | dsimp only

theorem canon_warmTo {s : State} {c : WarmCause} (hs : s.Canon) : (State.warmTo s c).Canon := by
  have ht : ({ State.reset with
      pending := s.pending, out := s.out, now := s.now, cnt := s.cnt, freeCtr := s.freeCtr, phase := .warmHold
      startIn := s.startIn, everReady := s.everReady, clockStopped := s.clockStopped, tack := s.tack, trigIn := s.trigIn
      tap := s.tap, wrstLow := s.wrstLow, fwWritten := s.fwWritten, reports := switchReports s.reports
      condOn := keepCond s true, condDet := s.condDet, vmainAt := s.vmainAt
      mem := s.mem, psn := s.psn, err := s.err, inited := s.inited, wrote := s.wrote, dram := s.dram, dead := s.dead
      mig := s.mig.map (fun (g : Mig) => { g with paused := true, w := g.w / 2 ^ 20 * 2 ^ 20 })
      ofs := s.ofs, rate := s.rate, rateLo := s.rateLo, nextInst := s.nextInst, yended := s.yended } : State).Canon :=
    { canon_resetState with
      tack := hs.tack, condOn := canon_keepCond hs, condDet := hs.condDet, mem := hs.mem, psn := hs.psn
      err := hs.err, inited := hs.inited, wrote := hs.wrote, dead := hs.dead }
  exact canon_sleepAll (canon_setRg (canon_setFlag (canon_setFlag (foldl_keeps (fun _ _ h => canon_setRg h) _
    (canon_setRg (canon_keepRegs ht hs))))))

theorem canon_beginWarm {s : State} {c : WarmCause} (hs : s.Canon) : (State.beginWarm s c).Canon := by
  unfold State.beginWarm
  repeat' first
    | with_reducible assumption | with_reducible apply canon_warmTo | with_reducible apply canon_keepRegs
    | with_reducible apply canon_coldTo | split | dsimp only

theorem canon_pinFilter {s : State} {ns : Nat} (hs : s.Canon) : (State.pinFilter s ns).2.Canon := by
  unfold State.pinFilter
  repeat' first | with_reducible assumption | with_reducible apply canon_draw | split | dsimp only

theorem canon_execColdReset {cause : ColdCause} {s : State} (hs : s.Canon) :
    Keeps State.Canon (execColdReset cause s) := by
  unfold execColdReset
  repeat' first
    | with_reducible assumption | with_reducible apply canon_pinFilter | with_reducible apply canon_done
    | with_reducible apply canon_coldTo | with_reducible apply canon_advTo
    | with_reducible apply canon_supplyLoss | split | dsimp only

theorem canon_dueWarm {s : State} {c : WarmCause} (hs : s.Canon) : ∀ t, State.dueWarm s c = some t → t.Canon := by
  intro t ht
  unfold State.dueWarm at ht
  split at ht
  · split at ht
    · cases ht
      exact canon_advTo hs
    · cases ht
  · cases ht

theorem canon_execWarmReset {cause : WarmRequest} {s : State} (hs : s.Canon) :
    Keeps State.Canon (execWarmReset cause s) := by
  unfold execWarmReset
  split
  · rename_i low
    have hf := canon_pinFilter (ns := low.toNat) hs
    dsimp only
    split
    · exact canon_done (canon_beginWarm (hf.withWrstLow _))
    · exact canon_done hf
  · split
    · exact canon_done (canon_beginWarm hs)
    · exact canon_done hs
  all_goals
    split
    · rename_i t ht
      exact canon_done (canon_beginWarm (canon_dueWarm hs _ ht))
    · exact canon_done hs

theorem canon_execDeviceReset {s : State} (hs : s.Canon) : Keeps State.Canon (execDeviceReset s) := by
  unfold execDeviceReset
  split
  · rename_i t ht
    exact canon_done (canon_beginWarm (canon_dueWarm hs _ ht))
  · exact canon_done hs

theorem canon_arm {s : State} (hs : s.Canon) : (State.arm s).Canon := by
  unfold State.arm
  repeat' first
    | with_reducible assumption | with_reducible apply canon_raise
    | (with_reducible refine foldl_keeps (fun _ _ _ => ?_) _ ?_)
    | (with_reducible refine foldl_snd_keeps (fun _ _ _ => ?_) _ ?_) | split | dsimp only

theorem canon_driveDram {s : State} {l : List Nat} (hs : s.Canon) : (State.driveDram s l).Canon := by
  unfold State.driveDram
  repeat' first | with_reducible assumption | with_reducible apply State.Canon.withDrive | split | dsimp only

theorem canon_loadIdentity {s : State} (hs : s.Canon) : (State.loadIdentity s).Canon := by
  unfold State.loadIdentity
  repeat' first
    | with_reducible assumption | with_reducible apply canon_setRg64 | with_reducible apply canon_setRg
    | split | dsimp only

theorem canon_loadDramCfg {s : State} (hs : s.Canon) : (State.loadDramCfg s).Canon := by
  unfold State.loadDramCfg
  repeat' first
    | with_reducible assumption | with_reducible apply canon_setRg
    | (with_reducible refine foldl_keeps (fun _ _ _ => ?_) _ ?_)
    | (with_reducible refine foldl_snd_keeps (fun _ _ _ => ?_) _ ?_) | split | dsimp only

theorem canon_loadMap {s : State} {cold : Bool} {m : Nat} (hs : s.Canon) : (State.loadMap s cold m).Canon := by
  unfold State.loadMap
  repeat' first
    | with_reducible assumption | with_reducible apply canon_setFl | with_reducible apply canon_setFlag
    | with_reducible apply canon_saveMap | split | dsimp only

theorem canon_trainCold {s : State} {trained : BitVec 6} (hs : s.Canon) : (State.trainCold s trained).Canon := by
  unfold State.trainCold
  repeat' first
    | with_reducible assumption | with_reducible apply canon_driveDram
    | with_reducible apply State.Canon.withDram | with_reducible apply canon_raise
    | with_reducible apply canon_startTimers | with_reducible apply canon_setFl
    | (with_reducible refine foldl_keeps (fun _ _ _ => ?_) _ ?_)
    | (with_reducible refine foldl_snd_keeps (fun _ _ _ => ?_) _ ?_) | split | dsimp only

theorem canon_recheck {s : State} {trained : BitVec 6} (hs : s.Canon) : (State.recheck s trained).Canon := by
  unfold State.recheck
  repeat' first
    | with_reducible assumption | with_reducible apply canon_driveDram
    | with_reducible apply canon_startTimers | with_reducible apply canon_setFl
    | with_reducible apply canon_raise | with_reducible apply canon_setFlag
    | (with_reducible refine foldl_keeps (fun _ _ _ => ?_) _ ?_)
    | (with_reducible refine foldl_snd_keeps (fun _ _ _ => ?_) _ ?_) | split | dsimp only

theorem canon_timingStep {s : State} {inp : StartIn} (hs : s.Canon) : (State.timingStep s inp).Canon := by
  unfold State.timingStep
  repeat' first
    | with_reducible assumption | with_reducible apply canon_setFlag | with_reducible apply canon_setFl
    | with_reducible apply State.Canon.withDrive | with_reducible apply canon_loadRecords
    | with_reducible apply canon_setCond | with_reducible apply canon_raise
    | with_reducible apply State.Canon.withCondDet | with_reducible apply mwf_mset
    | with_reducible apply mwf_mclear | with_reducible apply mwf_filter | with_reducible apply mwf_nil
    | with_reducible apply State.Canon.condDet | split | dsimp only

theorem canon_lanesStep {s : State} (hs : s.Canon) : (State.lanesStep s).Canon := by
  unfold State.lanesStep
  repeat' first
    | with_reducible assumption | with_reducible apply canon_laneStart
    | with_reducible apply canon_takeSettings | with_reducible apply canon_laneDefaults
    | (with_reducible refine foldl_keeps (fun _ _ _ => ?_) _ ?_)
    | (with_reducible refine foldl_snd_keeps (fun _ _ _ => ?_) _ ?_) | split | dsimp only

theorem canon_resumeMig {s : State} (hs : s.Canon) : (State.resumeMig s).Canon := by
  unfold State.resumeMig
  repeat' first
    | with_reducible assumption | with_reducible apply State.Canon.withMig | with_reducible apply canon_event
    | with_reducible apply canon_setFlag | split | dsimp only

theorem canon_stayInRom {s : State} (hs : s.Canon) : (State.stayInRom s).Canon := by
  unfold State.stayInRom
  repeat' first
    | with_reducible assumption | with_reducible apply canon_laneStart
    | with_reducible apply canon_takeSettings | with_reducible apply canon_laneDefaults
    | with_reducible apply State.Canon.withPhase | split | dsimp only

theorem canon_startService {s : State} {inp : StartIn} {cold : Bool} (hs : s.Canon) :
    (State.startService s inp cold).Canon := by
  unfold State.startService
  repeat' first
    | with_reducible assumption | with_reducible apply canon_loadDramCfg
    | with_reducible apply canon_loadIdentity | with_reducible apply canon_loadMap
    | with_reducible apply canon_trainCold | with_reducible apply canon_recheck
    | with_reducible apply canon_resumeMig | with_reducible apply canon_lanesStep
    | with_reducible apply canon_timingStep | (with_reducible refine foldl_keeps (fun _ _ _ => ?_) _ ?_)
    | (with_reducible refine foldl_snd_keeps (fun _ _ _ => ?_) _ ?_) | split | dsimp only

theorem canon_bootStep {s : State} {inp : StartIn} {cold : Bool} (hs : s.Canon) :
    (State.bootStep s inp cold).Canon := by
  unfold State.bootStep
  repeat' first
    | with_reducible assumption | with_reducible apply canon_setFlag | with_reducible apply canon_stayInRom
    | with_reducible apply canon_setFl | with_reducible apply canon_startService | split | dsimp only

theorem canon_startCore {s : State} {inp : StartIn} {cold : Bool} (hs : s.Canon) :
    (State.startCore s inp cold).Canon := by
  unfold State.startCore
  repeat' first
    | with_reducible assumption | with_reducible apply State.Canon.withPhase
    | with_reducible apply State.Canon.withDrive | with_reducible apply canon_arm
    | with_reducible apply canon_bootStep | split | dsimp only

theorem canon_execColdStart {inp : StartIn} {s : State} (hs : s.Canon) : Keeps State.Canon (execColdStart inp s) :=
    by
  unfold execColdStart
  repeat' first
    | with_reducible assumption | with_reducible apply canon_setRg | with_reducible apply canon_setFlag
    | with_reducible apply canon_setFl | with_reducible apply canon_done
    | with_reducible apply State.Canon.withStartIn | with_reducible apply State.Canon.withPhase | split
    | dsimp only

theorem canon_execRootPllLock {s : State} (hs : s.Canon) : Keeps State.Canon (execRootPllLock s) := by
  unfold execRootPllLock
  repeat' first
    | with_reducible assumption | with_reducible apply canon_setFlag | with_reducible apply canon_setCond
    | with_reducible apply canon_done | with_reducible apply canon_startCore
    | with_reducible apply State.Canon.withCnt | with_reducible apply State.Canon.withClockStopped | split

theorem canon_execHostReady {s : State} (hs : s.Canon) : Keeps State.Canon (execHostReady s) := by
  unfold execHostReady
  repeat' first
    | with_reducible assumption | with_reducible apply canon_done
    | with_reducible apply State.Canon.withEverReady | with_reducible apply State.Canon.withPhase | split

theorem canon_execWarmStart {inp : StartIn} {s : State} (hs : s.Canon) : Keeps State.Canon (execWarmStart inp s) :=
    by
  unfold execWarmStart
  repeat' first
    | with_reducible assumption | with_reducible apply State.Canon.withWrstLow
    | with_reducible apply canon_done | with_reducible apply canon_startCore | split | dsimp only

theorem canon_execInputLeavesRange {i : Input} {loss : InputLoss} {s : State} (hs : s.Canon) :
    Keeps State.Canon (execInputLeavesRange i loss s) := by
  unfold execInputLeavesRange
  repeat' first
    | with_reducible assumption | with_reducible apply canon_done | with_reducible apply canon_setFl
    | with_reducible apply canon_setFlag | with_reducible apply canon_supplyLoss
    | with_reducible apply canon_bump | with_reducible apply canon_raise | with_reducible apply canon_setCond
    | split | dsimp only

theorem canon_execInputEntersRange {i : Input} {volts : BitVec 8} {s : State} (hs : s.Canon) :
    Keeps State.Canon (execInputEntersRange i volts s) := by
  unfold execInputEntersRange
  repeat' first
    | with_reducible assumption | with_reducible apply canon_setFl | with_reducible apply canon_done
    | with_reducible apply canon_setFlag | with_reducible apply State.Canon.withVmainAt
    | with_reducible apply canon_endCond | split | dsimp only

theorem canon_execReturnToVmain {s : State} (hs : s.Canon) : Keeps State.Canon (execReturnToVmain s) := by
  unfold execReturnToVmain
  repeat' first
    | with_reducible assumption | with_reducible apply canon_done | with_reducible apply canon_toVmain
    | with_reducible apply canon_advTo | split | dsimp only

theorem canon_clockLoss {s : State} {src : Nat} (hs : s.Canon) : (State.clockLoss s src).Canon := by
  unfold State.clockLoss
  repeat' first
    | with_reducible assumption | with_reducible apply canon_raise | with_reducible apply canon_setFlag
    | with_reducible apply canon_setCond | with_reducible apply canon_beginWarm
    | with_reducible apply State.Canon.withClockStopped | with_reducible apply canon_settle | split

theorem canon_execRefclkLoss {s : State} (hs : s.Canon) : Keeps State.Canon (execRefclkLoss s) := by
  unfold execRefclkLoss
  repeat' first
    | with_reducible assumption | with_reducible apply canon_done | with_reducible apply canon_setFlag
    | with_reducible apply canon_clockLoss | split | dsimp only

theorem canon_execPllUnlock {s : State} (hs : s.Canon) : Keeps State.Canon (execPllUnlock s) := by
  unfold execPllUnlock
  repeat' first
    | with_reducible assumption | with_reducible apply canon_done | with_reducible apply canon_clockLoss
    | with_reducible apply canon_setFlag | split | dsimp only

theorem canon_clockBack {s : State} {src : Nat} {inp : StartIn} (hs : s.Canon) :
    (State.clockBack s src inp).Canon := by
  unfold State.clockBack
  repeat' first
    | with_reducible assumption | with_reducible apply canon_endCond
    | with_reducible apply State.Canon.withClockStopped | with_reducible apply canon_startCore | split
    | dsimp only

theorem canon_execRefclkReturn {inp : StartIn} {s : State} (hs : s.Canon) :
    Keeps State.Canon (execRefclkReturn inp s) := by
  unfold execRefclkReturn
  repeat' first
    | with_reducible assumption | with_reducible apply canon_done | with_reducible apply canon_clockBack
    | with_reducible apply canon_setFlag | split | dsimp only

theorem canon_execPllRelock {inp : StartIn} {s : State} (hs : s.Canon) : Keeps State.Canon (execPllRelock inp s) :=
    by
  unfold execPllRelock
  repeat' first
    | with_reducible assumption | with_reducible apply canon_done | with_reducible apply canon_clockBack
    | with_reducible apply canon_setFlag | split | dsimp only

theorem canon_execJtagTrst {low : Bool} {s : State} (hs : s.Canon) : Keeps State.Canon (execJtagTrst low s) := by
  unfold execJtagTrst
  repeat' first
    | with_reducible assumption | with_reducible apply canon_done | with_reducible apply State.Canon.withTap
    | split | dsimp only

/-! ### RegCmds -/

theorem canon_execPcrResetCtlWarm {h : Hdr} {value : Word} {s : State} (hs : s.Canon) :
    Keeps State.Canon (execPcrResetCtlWarm h value s) := by
  unfold execPcrResetCtlWarm
  repeat' first
    | with_reducible assumption | with_reducible apply canon_done | with_reducible apply canon_oneReg | split

theorem canon_execPcrResetCtlCold {h : Hdr} {value : Word} {s : State} (hs : s.Canon) :
    Keeps State.Canon (execPcrResetCtlCold h value s) := by
  unfold execPcrResetCtlCold
  repeat' first
    | with_reducible assumption | with_reducible apply canon_done | with_reducible apply canon_oneReg | split

theorem canon_execBlockRstHl {h : Hdr} {k : LaneIx} {s : State} (hs : s.Canon) :
    Keeps State.Canon (execBlockRstHl h k s) := by
  unfold execBlockRstHl
  repeat' first
    | with_reducible assumption | with_reducible apply canon_done | with_reducible apply canon_oneReg | split

theorem canon_execBlockRstMc {h : Hdr} {m : McIx} {s : State} (hs : s.Canon) :
    Keeps State.Canon (execBlockRstMc h m s) := by
  unfold execBlockRstMc
  repeat' first
    | with_reducible assumption | with_reducible apply canon_done | with_reducible apply canon_oneReg | split

theorem canon_execBlockRstQm {h : Hdr} {s : State} (hs : s.Canon) : Keeps State.Canon (execBlockRstQm h s) := by
  unfold execBlockRstQm
  repeat' first
    | with_reducible assumption | with_reducible apply canon_done | with_reducible apply canon_oneReg | split

theorem canon_execBlockRstYrd {h : Hdr} {s : State} (hs : s.Canon) : Keeps State.Canon (execBlockRstYrd h s) := by
  unfold execBlockRstYrd
  repeat' first
    | with_reducible assumption | with_reducible apply canon_done | with_reducible apply canon_oneReg | split

theorem canon_execBlockRstAcq {h : Hdr} {s : State} (hs : s.Canon) : Keeps State.Canon (execBlockRstAcq h s) := by
  unfold execBlockRstAcq
  repeat' first
    | with_reducible assumption | with_reducible apply canon_done | with_reducible apply canon_oneReg | split

theorem canon_execBlockRstFlt {h : Hdr} {s : State} (hs : s.Canon) : Keeps State.Canon (execBlockRstFlt h s) := by
  unfold execBlockRstFlt
  repeat' first
    | with_reducible assumption | with_reducible apply canon_done | with_reducible apply canon_oneReg | split

theorem canon_execBlockRstTim {h : Hdr} {s : State} (hs : s.Canon) : Keeps State.Canon (execBlockRstTim h s) := by
  unfold execBlockRstTim
  repeat' first
    | with_reducible assumption | with_reducible apply canon_done | with_reducible apply canon_oneReg | split

theorem canon_execBlockRstFrm {h : Hdr} {s : State} (hs : s.Canon) : Keeps State.Canon (execBlockRstFrm h s) := by
  unfold execBlockRstFrm
  repeat' first
    | with_reducible assumption | with_reducible apply canon_done | with_reducible apply canon_oneReg | split

theorem canon_execBlockRstCal {h : Hdr} {s : State} (hs : s.Canon) : Keeps State.Canon (execBlockRstCal h s) := by
  unfold execBlockRstCal
  repeat' first
    | with_reducible assumption | with_reducible apply canon_done | with_reducible apply canon_oneReg | split

theorem canon_execForceReturn {h : Hdr} {value : Word} {s : State} (hs : s.Canon) :
    Keeps State.Canon (execForceReturn h value s) := by
  unfold execForceReturn
  repeat' first
    | with_reducible assumption | with_reducible apply canon_done | with_reducible apply canon_oneReg | split

theorem canon_execHpPortCtlWrite {h : Hdr} {k : LaneIx} {value : Word} {s : State} (hs : s.Canon) :
    Keeps State.Canon (execHpPortCtlWrite h k value s) := by
  unfold execHpPortCtlWrite
  repeat' first
    | with_reducible assumption | with_reducible apply canon_done | with_reducible apply canon_oneReg | split

theorem canon_execRestart {h : Hdr} {k : LaneIx} {value : Word} {s : State} (hs : s.Canon) :
    Keeps State.Canon (execRestart h k value s) := by
  unfold execRestart
  repeat' first
    | with_reducible assumption | with_reducible apply canon_done | with_reducible apply canon_oneReg | split

theorem canon_execHpRefCtlWrite {h : Hdr} {k : LaneIx} {value : Word} {s : State} (hs : s.Canon) :
    Keeps State.Canon (execHpRefCtlWrite h k value s) := by
  unfold execHpRefCtlWrite
  repeat' first
    | with_reducible assumption | with_reducible apply canon_done | with_reducible apply canon_oneReg | split

theorem canon_execTestLoopSet {h : Hdr} {k : LaneIx} {value : Word} {s : State} (hs : s.Canon) :
    Keeps State.Canon (execTestLoopSet h k value s) := by
  unfold execTestLoopSet
  repeat' first
    | with_reducible assumption | with_reducible apply canon_done | with_reducible apply canon_oneReg | split

theorem canon_execPrbsGen {h : Hdr} {k : LaneIx} {value : Word} {s : State} (hs : s.Canon) :
    Keeps State.Canon (execPrbsGen h k value s) := by
  unfold execPrbsGen
  repeat' first
    | with_reducible assumption | with_reducible apply canon_done | with_reducible apply canon_oneReg | split

theorem canon_execPrbsChk {h : Hdr} {k : LaneIx} {value : Word} {s : State} (hs : s.Canon) :
    Keeps State.Canon (execPrbsChk h k value s) := by
  unfold execPrbsChk
  repeat' first
    | with_reducible assumption | with_reducible apply canon_done | with_reducible apply canon_oneReg | split

theorem canon_execOwnCtlWrite {h : Hdr} {value : Word} {s : State} (hs : s.Canon) :
    Keeps State.Canon (execOwnCtlWrite h value s) := by
  unfold execOwnCtlWrite
  repeat' first
    | with_reducible assumption | with_reducible apply canon_done | with_reducible apply canon_oneReg | split

theorem canon_execOwnUdpWrite {h : Hdr} {value : Word} {s : State} (hs : s.Canon) :
    Keeps State.Canon (execOwnUdpWrite h value s) := by
  unfold execOwnUdpWrite
  repeat' first
    | with_reducible assumption | with_reducible apply canon_done | with_reducible apply canon_oneReg | split

theorem canon_execDevPartWrite {h : Hdr} {st : StallIx} {value : Word} {s : State} (hs : s.Canon) :
    Keeps State.Canon (execDevPartWrite h st value s) := by
  unfold execDevPartWrite
  repeat' first
    | with_reducible assumption | with_reducible apply canon_done | with_reducible apply canon_oneReg | split

theorem canon_execStlFlagsWrite {h : Hdr} {st : StallIx} {value : Word} {s : State} (hs : s.Canon) :
    Keeps State.Canon (execStlFlagsWrite h st value s) := by
  unfold execStlFlagsWrite
  repeat' first
    | with_reducible assumption | with_reducible apply canon_done | with_reducible apply canon_oneReg | split

theorem canon_execEmit {h : Hdr} {value : Word} {s : State} (hs : s.Canon) :
    Keeps State.Canon (execEmit h value s) := by
  unfold execEmit
  repeat' first
    | with_reducible assumption | with_reducible apply canon_done | with_reducible apply canon_oneReg | split

theorem canon_execMeasEnWrite {h : Hdr} {value : Word} {s : State} (hs : s.Canon) :
    Keeps State.Canon (execMeasEnWrite h value s) := by
  unfold execMeasEnWrite
  repeat' first
    | with_reducible assumption | with_reducible apply canon_done | with_reducible apply canon_oneReg | split

theorem canon_execTbSyncTrimWrite {h : Hdr} {value : Word} {s : State} (hs : s.Canon) :
    Keeps State.Canon (execTbSyncTrimWrite h value s) := by
  unfold execTbSyncTrimWrite
  repeat' first
    | with_reducible assumption | with_reducible apply canon_done | with_reducible apply canon_oneReg | split

theorem canon_execTbRateHiWrite {h : Hdr} {value : Word} {s : State} (hs : s.Canon) :
    Keeps State.Canon (execTbRateHiWrite h value s) := by
  unfold execTbRateHiWrite
  repeat' first
    | with_reducible assumption | with_reducible apply canon_done | with_reducible apply canon_oneReg | split

theorem canon_execPtpRoleWrite {h : Hdr} {k : LaneIx} {value : Word} {s : State} (hs : s.Canon) :
    Keeps State.Canon (execPtpRoleWrite h k value s) := by
  unfold execPtpRoleWrite
  repeat' first
    | with_reducible assumption | with_reducible apply canon_done | with_reducible apply canon_oneReg | split

theorem canon_execAcqSoftTrig {h : Hdr} {st : StallIx} {s : State} (hs : s.Canon) :
    Keeps State.Canon (execAcqSoftTrig h st s) := by
  unfold execAcqSoftTrig
  repeat' first
    | with_reducible assumption | with_reducible apply canon_done | with_reducible apply canon_oneReg | split

theorem canon_execTimArmWrite {h : Hdr} {u : Fin 16} {s : State} (hs : s.Canon) :
    Keeps State.Canon (execTimArmWrite h u s) := by
  unfold execTimArmWrite
  repeat' first
    | with_reducible assumption | with_reducible apply canon_done | with_reducible apply canon_oneReg | split

theorem canon_execTimCtlEnWrite {h : Hdr} {u : Fin 16} {value : Word} {s : State} (hs : s.Canon) :
    Keeps State.Canon (execTimCtlEnWrite h u value s) := by
  unfold execTimCtlEnWrite
  repeat' first
    | with_reducible assumption | with_reducible apply canon_done | with_reducible apply canon_oneReg | split

theorem canon_execQmCfgWrite {h : Hdr} {q : QIx} {value : Word} {s : State} (hs : s.Canon) :
    Keeps State.Canon (execQmCfgWrite h q value s) := by
  unfold execQmCfgWrite
  repeat' first
    | with_reducible assumption | with_reducible apply canon_done | with_reducible apply canon_oneReg | split

theorem canon_execFlush {h : Hdr} {q : QIx} {s : State} (hs : s.Canon) : Keeps State.Canon (execFlush h q s) := by
  unfold execFlush
  repeat' first
    | with_reducible assumption | with_reducible apply canon_done | with_reducible apply canon_oneReg | split

theorem canon_execFlcFirstValidWrite {h : Hdr} {s : State} (hs : s.Canon) :
    Keeps State.Canon (execFlcFirstValidWrite h s) := by
  unfold execFlcFirstValidWrite
  repeat' first
    | with_reducible assumption | with_reducible apply canon_done | with_reducible apply canon_oneReg | split

theorem canon_execFlcStickyWrite {h : Hdr} {i : Fin 8} {value : Word} {s : State} (hs : s.Canon) :
    Keeps State.Canon (execFlcStickyWrite h i value s) := by
  unfold execFlcStickyWrite
  repeat' first
    | with_reducible assumption | with_reducible apply canon_done | with_reducible apply canon_oneReg | split

theorem canon_execPesXferStart {h : Hdr} {j : Fin 4} {i : Fin 8} {value : Word} {s : State} (hs : s.Canon) :
    Keeps State.Canon (execPesXferStart h j i value s) := by
  unfold execPesXferStart
  repeat' first
    | with_reducible assumption | with_reducible apply canon_done | with_reducible apply canon_oneReg | split

theorem canon_execPesCfgWrite {h : Hdr} {j : Fin 4} {value : Word} {s : State} (hs : s.Canon) :
    Keeps State.Canon (execPesCfgWrite h j value s) := by
  unfold execPesCfgWrite
  repeat' first
    | with_reducible assumption | with_reducible apply canon_done | with_reducible apply canon_oneReg | split

theorem canon_execMcCfgWrite {h : Hdr} {m : McIx} {value : Word} {s : State} (hs : s.Canon) :
    Keeps State.Canon (execMcCfgWrite h m value s) := by
  unfold execMcCfgWrite
  repeat' first
    | with_reducible assumption | with_reducible apply canon_done | with_reducible apply canon_oneReg | split

theorem canon_execMcSysCfgWrite {h : Hdr} {value : Word} {s : State} (hs : s.Canon) :
    Keeps State.Canon (execMcSysCfgWrite h value s) := by
  unfold execMcSysCfgWrite
  repeat' first
    | with_reducible assumption | with_reducible apply canon_done | with_reducible apply canon_oneReg | split

theorem canon_execPolicyWrite {h : Hdr} {value : Word} {s : State} (hs : s.Canon) :
    Keeps State.Canon (execPolicyWrite h value s) := by
  unfold execPolicyWrite
  repeat' first
    | with_reducible assumption | with_reducible apply canon_done | with_reducible apply canon_oneReg | split

/-! ### StallEvents -/

theorem canon_execSeqEntryRead {st : StallIx} {s : State} (hs : s.Canon) :
    Keeps State.Canon (execSeqEntryRead st s) := by
  unfold execSeqEntryRead
  repeat' first
    | with_reducible assumption | with_reducible apply canon_done | with_reducible apply canon_judgeLeat
    | with_reducible apply canon_lookStep | split | dsimp only

theorem canon_execLineRequest {st : StallIx} {s : State} (hs : s.Canon) :
    Keeps State.Canon (execLineRequest st s) := by
  unfold execLineRequest
  repeat' first
    | with_reducible assumption | with_reducible apply canon_done | with_reducible apply canon_setStall
    | split | dsimp only

theorem canon_checkStarve {s : State} {st : Nat} (hs : s.Canon) : (State.checkStarve s st).Canon := by
  unfold State.checkStarve
  repeat' first | with_reducible assumption | with_reducible apply canon_starve | split | dsimp only

theorem canon_arrive {s : State} {st : Nat} {bad : Bool} (hs : s.Canon) : (State.arrive s st bad).Canon := by
  unfold State.arrive
  repeat' first
    | with_reducible assumption | with_reducible apply canon_setStall | with_reducible apply canon_checkFlit
    | with_reducible apply canon_readLine | with_reducible apply canon_judgeLeat | split | dsimp only

theorem canon_execLineArrival {st : StallIx} {flitParityBad : Bool} {s : State} (hs : s.Canon) :
    Keeps State.Canon (execLineArrival st flitParityBad s) := by
  unfold execLineArrival
  repeat' first
    | with_reducible assumption | with_reducible apply canon_done | with_reducible apply canon_arrive
    | with_reducible apply canon_checkStarve | split | dsimp only

theorem canon_execPrefillComplete {st : StallIx} {s : State} (hs : s.Canon) :
    Keeps State.Canon (execPrefillComplete st s) := by
  unfold execPrefillComplete
  repeat' first
    | with_reducible assumption | with_reducible apply canon_setStall | with_reducible apply canon_done
    | with_reducible apply canon_startEvent | with_reducible apply canon_advTo
    | with_reducible apply canon_answerAll | split | dsimp only

theorem canon_execStarvation {st : StallIx} {s : State} (hs : s.Canon) : Keeps State.Canon (execStarvation st s) :=
    by
  unfold execStarvation
  repeat' first
    | with_reducible assumption | with_reducible apply canon_done | with_reducible apply canon_starve
    | with_reducible apply canon_advToU | split | dsimp only

theorem canon_execVectorT0 {st : StallIx} {s : State} (hs : s.Canon) : Keeps State.Canon (execVectorT0 st s) := by
  unfold execVectorT0
  repeat' first
    | with_reducible assumption | with_reducible apply canon_done | with_reducible apply canon_playVector
    | split | dsimp only

theorem canon_execStopBoundary {st : StallIx} {s : State} (hs : s.Canon) :
    Keeps State.Canon (execStopBoundary st s) := by
  unfold execStopBoundary
  repeat' first
    | with_reducible assumption | with_reducible apply canon_done | with_reducible apply canon_stopAt
    | (with_reducible refine foldl_keeps (fun _ _ _ => ?_) _ ?_)
    | (with_reducible refine foldl_snd_keeps (fun _ _ _ => ?_) _ ?_) | split | dsimp only

theorem canon_execStallResetComplete {st : StallIx} {s : State} (hs : s.Canon) :
    Keeps State.Canon (execStallResetComplete st s) := by
  unfold execStallResetComplete
  repeat' first
    | with_reducible assumption | with_reducible apply canon_done | with_reducible apply canon_stallResetDone
    | split | dsimp only

theorem canon_execSetfPhaseReset {ch : ChIx} {s : State} (hs : s.Canon) :
    Keeps State.Canon (execSetfPhaseReset ch s) := by
  unfold execSetfPhaseReset
  repeat' first
    | with_reducible assumption | with_reducible apply canon_done | with_reducible apply canon_advToU
    | with_reducible apply canon_setInc | with_reducible apply canon_setStall
    | with_reducible apply canon_phaseReset | (with_reducible refine foldl_keeps (fun _ _ _ => ?_) _ ?_)
    | (with_reducible refine foldl_snd_keeps (fun _ _ _ => ?_) _ ?_) | split | dsimp only

theorem canon_execCompareEvent {ch : ChIx} {h : Bool} {l : Bool} {s : State} (hs : s.Canon) :
    Keeps State.Canon (execCompareEvent ch h l s) := by
  unfold execCompareEvent
  repeat' first
    | with_reducible assumption | with_reducible apply canon_compareEvent | with_reducible apply canon_setChan
    | with_reducible apply canon_advToU | with_reducible apply canon_done | with_reducible apply canon_cutWin
    | split | dsimp only

theorem canon_lastGrid {s : State} {ch : Nat} (hs : s.Canon) : (State.lastGrid s ch).2.Canon := by
  unfold State.lastGrid
  repeat' first | with_reducible assumption | with_reducible apply canon_draw | split | dsimp only

theorem canon_firstSample {s : State} {ch : Nat} {code : Nat} (hs : s.Canon) :
    (State.firstSample s ch code).Canon := by
  unfold State.firstSample
  repeat' first
    | with_reducible assumption | with_reducible apply canon_noteSample | with_reducible apply canon_setChan
    | split | dsimp only

theorem canon_gridEdge {s : State} {st : Nat} {ch : Nat} {k : Nat} {v : Nat} {code : Nat} (hs : s.Canon) :
    (State.gridEdge s st ch k v code).Canon := by
  unfold State.gridEdge
  repeat' first
    | with_reducible assumption | with_reducible apply canon_lastGrid | with_reducible apply canon_advToU
    | with_reducible apply canon_setChan | with_reducible apply canon_noteSample
    | with_reducible apply canon_form | split | dsimp only

theorem canon_execEdgeCapture {ch : ChIx} {k : Option Nat} {h : Bool} {l : Bool} {s : State} (hs : s.Canon) :
    Keeps State.Canon (execEdgeCapture ch k h l s) := by
  unfold execEdgeCapture
  repeat' first
    | with_reducible assumption | with_reducible apply canon_done | with_reducible apply canon_firstSample
    | with_reducible apply canon_gridEdge | split | dsimp only

theorem canon_eqReceiver {s : State} {ch : Nat} {code : FRef} {trained : FRef} {frozen : FRef} {bound : FRef}
    {trans : Nat} {step : Nat} {still : Bool} (hs : s.Canon) :
    (State.eqReceiver s ch code trained frozen bound trans step still).Canon := by
  unfold State.eqReceiver
  repeat' first
    | with_reducible assumption | with_reducible apply canon_setFlag | with_reducible apply canon_setFl
    | split | dsimp only

theorem canon_execEqWindowEnd {ch : ChIx} {transH : BitVec 13} {transL : BitVec 13} {stepH : Fin 3} {stepL : Fin 3}
    {s : State} (hs : s.Canon) : Keeps State.Canon (execEqWindowEnd ch transH transL stepH stepL s) := by
  unfold execEqWindowEnd
  repeat' first
    | with_reducible assumption | with_reducible apply canon_done | with_reducible apply canon_advToU
    | with_reducible apply canon_setChan | with_reducible apply canon_setRg
    | with_reducible apply canon_eqReceiver | with_reducible apply canon_setFramer | split | dsimp only

theorem canon_execFramerCharacter {o : OctIx} {tx : Bool} {s : State} (hs : s.Canon) :
    Keeps State.Canon (execFramerCharacter o tx s) := by
  unfold execFramerCharacter
  repeat' first
    | with_reducible assumption | with_reducible apply canon_done | with_reducible apply canon_framerBits
    | split | dsimp only

/-! ### TimEvents -/

theorem canon_execTimGateOpen {u : Fin 16} {s : State} (hs : s.Canon) : Keeps State.Canon (execTimGateOpen u s) :=
    by
  unfold execTimGateOpen
  repeat' first
    | with_reducible assumption | with_reducible apply canon_done | with_reducible apply canon_openGate
    | split | dsimp only

theorem canon_execTimGateClose {u : Fin 16} {s : State} (hs : s.Canon) : Keeps State.Canon (execTimGateClose u s) :=
    by
  unfold execTimGateClose
  repeat' first
    | with_reducible assumption | with_reducible apply canon_done | with_reducible apply canon_closeGate
    | split | dsimp only

theorem canon_intervalRecord {s : State} {u : Nat} {n : Int} {timeout : Bool} (hs : s.Canon) :
    (State.intervalRecord s u n timeout).Canon := by
  unfold State.intervalRecord
  repeat' first
    | with_reducible assumption | with_reducible apply canon_setFlag | with_reducible apply canon_form | split

theorem canon_timResult {s : State} {u : Nat} {cs : Nat} {fs : Nat} {cp : Nat} {fp : Nat} {n : Int} (hs : s.Canon) :
    (State.timResult s u cs fs cp fp n).Canon := by
  unfold State.timResult
  repeat' first
    | with_reducible assumption | with_reducible apply canon_setRg | with_reducible apply canon_setRg64
    | with_reducible apply canon_bump | split | dsimp only

theorem canon_deliverTim {s : State} {u : Nat} {cp : Nat} {fp : Nat} {n : Int} {timeout : Bool} {from_ : Nat}
    (hs : s.Canon) : (State.deliverTim s u cp fp n timeout from_).Canon := by
  unfold State.deliverTim
  repeat' first
    | with_reducible assumption | with_reducible apply canon_timResult | with_reducible apply canon_setFlag
    | with_reducible apply canon_setTim | with_reducible apply canon_setTimState
    | with_reducible apply canon_intervalRecord | split | dsimp only

theorem canon_execTimStartEdge {u : Fin 16} {c : BitVec 48} {f : BitVec 12} {s : State} (hs : s.Canon) :
    Keeps State.Canon (execTimStartEdge u c f s) := by
  unfold execTimStartEdge
  repeat' first
    | with_reducible assumption | with_reducible apply canon_advTo | with_reducible apply canon_done
    | with_reducible apply canon_setTimState | with_reducible apply canon_setTim | split | dsimp only

theorem canon_takeStop {s : State} {u : Nat} {t : Nat} {cp : Nat} {fp : Nat} {n : Int} (hs : s.Canon) :
    (State.takeStop s u t cp fp n).Canon := by
  unfold State.takeStop
  repeat' first
    | with_reducible assumption | with_reducible apply canon_setTim | with_reducible apply canon_deliverTim
    | split | dsimp only

theorem canon_execTimStopEdge {u : Fin 16} {c : BitVec 48} {f : BitVec 12} {s : State} (hs : s.Canon) :
    Keeps State.Canon (execTimStopEdge u c f s) := by
  unfold execTimStopEdge
  repeat' first
    | with_reducible assumption | with_reducible apply canon_advTo | with_reducible apply canon_draw
    | with_reducible apply canon_done | with_reducible apply canon_takeStop | split | dsimp only

theorem canon_execTimTimeout {u : Fin 16} {s : State} (hs : s.Canon) : Keeps State.Canon (execTimTimeout u s) := by
  unfold execTimTimeout
  repeat' first
    | with_reducible assumption | with_reducible apply canon_done | with_reducible apply canon_deliverTim
    | with_reducible apply canon_advTo | split | dsimp only

theorem canon_execTimDeadEnd {u : Fin 16} {s : State} (hs : s.Canon) : Keeps State.Canon (execTimDeadEnd u s) := by
  unfold execTimDeadEnd
  repeat' first
    | with_reducible assumption | with_reducible apply canon_advTo | with_reducible apply canon_done
    | with_reducible apply canon_setTimState | with_reducible apply canon_setFlag | split | dsimp only

end Sys2Proof.Machine
end

