-- ==== Sys2Proof/Laws/RegMap.lean ====
section
/-! SUPPORT. The register map: where an address leads. Two register kinds whose addresses a decidable check finds apart never
share one, so that the address of a register leads back to it. -/

namespace Sys2Proof.Machine

/-- The instances of a kind do not overlap each other: the second index stays below the stride of the first. -/
def RegRow.tidy (r : RegRow) : Bool :=
  (r.n1 == 1 || (decide (0 < r.s1) && decide ((r.n2 - 1) * r.s2 < r.s1))) && (r.n2 == 1 || decide (0 < r.s2))

/-- The last address of a kind. -/
def RegRow.last (r : RegRow) : Nat := r.base + (r.n1 - 1) * r.s1 + (r.n2 - 1) * r.s2

/-- The addresses of two kinds are apart: their ranges are, or they repeat with one stride and are apart within it. -/
def RegRow.apart (r t : RegRow) : Bool :=
  decide (r.last < t.base) || decide (t.last < r.base)
    || (r.s1 == t.s1 && decide (0 < r.s1)
      && decide (r.base % r.s1 + (r.n2 - 1) * r.s2 < r.s1) && decide (t.base % t.s1 + (t.n2 - 1) * t.s2 < t.s1)
      && (decide (r.base % r.s1 + (r.n2 - 1) * r.s2 < t.base % t.s1) || decide (t.base % t.s1 + (t.n2 - 1) * t.s2 < r.base % r.s1)))

/-- What `rowAt` finds lies at the address. -/
theorem rowAt_sound {row : RegRow} {a i j : Nat} (h : rowAt row a = some (i, j)) :
    i < row.n1 ∧ j < row.n2 ∧ a = row.base + i * row.s1 + j * row.s2 := by
  unfold rowAt at h
  split at h
  · cases h
  · rename_i hb
    dsimp only at h
    have hle : (if row.n1 = 1 then 0 else (a - row.base) / row.s1) * row.s1 ≤ a - row.base := by
      split
      · simp
      · exact Nat.div_mul_le_self _ _
    generalize (if row.n1 = 1 then 0 else (a - row.base) / row.s1) = i0 at h hle
    generalize (if row.n2 = 1 then 0 else (a - row.base - i0 * row.s1) / row.s2) = j0 at h
    split at h
    · rename_i hc
      cases h
      exact ⟨hc.1, hc.2.1, by omega⟩
    · cases h

/-- The address of an instance leads back to it within its kind. -/
theorem rowAt_self {row : RegRow} (ht : row.tidy = true) {i j : Nat} (hi : i < row.n1) (hj : j < row.n2) :
    rowAt row (row.base + i * row.s1 + j * row.s2) = some (i, j) := by
  simp only [RegRow.tidy, Bool.and_eq_true, Bool.or_eq_true, beq_iff_eq, decide_eq_true_eq] at ht
  have hd : row.base + i * row.s1 + j * row.s2 - row.base = i * row.s1 + j * row.s2 := by omega
  have hI : (if row.n1 = 1 then 0 else (i * row.s1 + j * row.s2) / row.s1) = i := by
    split
    · omega
    · rename_i h1
      obtain ⟨h1', h2⟩ := ht.1.resolve_left h1
      have hjs : j * row.s2 < row.s1 := lt_of_le_of_lt (Nat.mul_le_mul_right _ (by omega)) h2
      rw [Nat.mul_comm i, Nat.mul_add_div h1', Nat.div_eq_of_lt hjs, Nat.add_zero]
  unfold rowAt
  rw [if_neg (by omega)]
  dsimp only
  rw [hd, hI]
  have he : i * row.s1 + j * row.s2 - i * row.s1 = j * row.s2 := by omega
  have hJ : (if row.n2 = 1 then 0 else j * row.s2 / row.s2) = j := by
    split
    · omega
    · rename_i h2
      rw [Nat.mul_div_cancel _ (ht.2.resolve_left h2)]
  rw [he, hJ, if_pos ⟨hi, hj, rfl⟩]

/-- An address within a stride, as a remainder. -/
theorem mod_stride {b s o : Nat} (i : Nat) (h : b % s + o < s) : (b + i * s + o) % s = b % s + o := by
  rw [show b + i * s + o = (b % s + o) + s * (b / s + i) by rw [Nat.mul_add, Nat.mul_comm s i]; have := Nat.mod_add_div b s; omega,
    Nat.add_mul_mod_self_left, Nat.mod_eq_of_lt h]

/-- A kind that is apart from another does not contain the other's addresses. -/
theorem rowAt_apart {r t : RegRow} (h : r.apart t = true) {i j : Nat} (hi : i < t.n1) (hj : j < t.n2) :
    rowAt r (t.base + i * t.s1 + j * t.s2) = none := by
  cases he : rowAt r (t.base + i * t.s1 + j * t.s2) with
  | none => rfl
  | some p =>
    obtain ⟨k, l⟩ := p
    obtain ⟨h1, h2, h3⟩ := rowAt_sound he
    have a1 : k * r.s1 ≤ (r.n1 - 1) * r.s1 := Nat.mul_le_mul_right _ (by omega)
    have a2 : l * r.s2 ≤ (r.n2 - 1) * r.s2 := Nat.mul_le_mul_right _ (by omega)
    have b1 : i * t.s1 ≤ (t.n1 - 1) * t.s1 := Nat.mul_le_mul_right _ (by omega)
    have b2 : j * t.s2 ≤ (t.n2 - 1) * t.s2 := Nat.mul_le_mul_right _ (by omega)
    simp only [RegRow.apart, RegRow.last, Bool.or_eq_true, Bool.and_eq_true, beq_iff_eq, decide_eq_true_eq] at h
    rcases h with (h | h) | ⟨⟨⟨⟨hs, hp⟩, hr⟩, ht⟩, h⟩
    · have := of_decide_eq_true h; omega
    · have := of_decide_eq_true h; omega
    · have m1 := mod_stride (b := t.base) (s := t.s1) (o := j * t.s2) i (by omega)
      have m2 := mod_stride (b := r.base) (s := r.s1) (o := l * r.s2) k (by omega)
      rw [h3, ← hs, m2] at m1
      rw [← hs] at h
      omega

/-- The addresses of a kind lead to it, past every kind that is listed before it. -/
theorem regAtIn_addr {r : R} (ht : r.row.tidy = true) {i j : Nat} (hi : i < r.row.n1) (hj : j < r.row.n2) :
    ∀ l : List R, l.all (fun t => t == r || t.row.apart r.row) = true → r ∈ l → regAtIn l (r.addr i j) = some (r, i, j)
  | t :: l, h, hm => by
    simp only [List.all_cons, Bool.and_eq_true, Bool.or_eq_true, beq_iff_eq] at h
    unfold regAtIn
    by_cases e : t = r
    · subst e
      rw [show t.addr i j = t.row.base + i * t.row.s1 + j * t.row.s2 from rfl, rowAt_self ht hi hj]
    · rw [show r.addr i j = r.row.base + i * r.row.s1 + j * r.row.s2 from rfl, rowAt_apart (h.1.resolve_left e) hi hj]
      exact regAtIn_addr ht hi hj l h.2 ((List.mem_cons.mp hm).resolve_left (fun x => e x.symm))

/-- A kind's addresses are its own: it is tidy, listed, and apart from every other kind. -/
def R.own (r : R) : Bool := r.row.tidy && regKinds.contains r && regKinds.all (fun t => t == r || t.row.apart r.row)

/-- The address of a register of such a kind leads back to it. -/
theorem regAt_addr {r : R} (h : r.own = true) {i j : Nat} (hi : i < r.row.n1) (hj : j < r.row.n2) :
    regAt (r.addr i j) = some (r, i, j) := by
  simp only [R.own, Bool.and_eq_true] at h
  exact regAtIn_addr h.1.1 hi hj _ h.2 (by simpa using h.1.2)

end Sys2Proof.Machine
end

