-- ==== Sys2Proof/Tests/Slice0.lean ====
section
/-! SUPPORT. Tests. First small states; then, for every statement that has hypotheses, a witness: a theorem that applies the
statement to a concrete state and operands, so that each of its hypotheses is met there (`ok` decides one), clause by
clause; then the terms that are not well formed, each refused; then one-step tests of commands with results taken from the
spec. -/

namespace Sys2Proof.Tests

open Sys2Proof Sys2Proof.Machine

set_option Elab.async false

/-- A decidable hypothesis, decided by evaluation. -/
theorem ok {p : Prop} [Decidable p] (c : decide p = true := by decide +kernel) : p := of_decide_eq_true c

/-- Checks 1 to 5 as one decidable question. -/
def admitsB (s : State) (h : Hdr) (slot : Nat) (x : Session) : Bool :=
  ! s.resuming && s.phase == .ready && (s.heard h).1 && h.version == 2 && s.slotOf h.session == some slot
    && s.session slot == some x && x.bind == h.bind && ! x.expired && ! s.mustWait h && h.seq == x.nextSeq

theorem adm {s : State} {h : Hdr} {slot : Nat} {x : Session} (c : admitsB s h slot x = true := by decide +kernel) :
    Admits s h slot x := by
  simp [admitsB] at c
  obtain ⟨⟨⟨⟨⟨⟨⟨⟨⟨a, b⟩, c⟩, d⟩, e⟩, f⟩, g⟩, i⟩, j⟩, k⟩ := c
  exact ⟨a, b, c, d, e, f, g, i, j, k⟩

/-- Checks 1 and 2 as one decidable question. -/
def arrivesB (s : State) (h : Hdr) : Bool :=
  ! s.resuming && (s.heard h).1 && h.version == 2 && (s.phase == .ready || s.phase == .bootRom)

theorem arr {s : State} {h : Hdr} (c : arrivesB s h = true := by decide +kernel) : Arrives s h := by
  simp [arrivesB] at c
  obtain ⟨⟨⟨a, b⟩, c⟩, d⟩ := c
  exact ⟨a, b, c, d⟩

/-! ### Small states -/

/-- A frame of session 0 with the expected sequence number 5, over the management target. -/
def hd (target : BitVec 8) (plen : Nat) : Hdr := { bind := .mgmt, session := 0, seq := 5, target, plen }

/-- A session bound to the management target that expects number 5. -/
def x0 : Session := ⟨0, false, 7, .mgmt, 2000, 2000 * msCyc, 0, 5, 0, false, [], 0, none⟩

/-- In service, six controllers with four ranks each in use, octets 0 and 1 in stall 0; session 0 owns the device and stall
0. -/
def s0 : State :=
  let a := ((((State.reset.withPhase .ready).withEverReady true).withClockStopped false).setFlag
    F.PCR_SERVICE.timing_die_ok true).setFlag F.PCR_SUPPLY_STAT.vmain_ok true
  let b := (a.setFl F.DEV_PART.octets 3 0).withDram ⟨List.replicate 6 0x113, 2, [0, 1, 2, 3, 4, 5]⟩
  ((b.setSession 0 (some x0)).setOwner 16 (some 0)).setOwner 0 (some 0)


/-! ### The command engine -/

theorem canon0 : s0.Canon := by constructor <;> decide +kernel

def lost : Hdr := { hd 0xff 0 with session := 32 }

/-- A session that waits for the close of an election, and one that has expired. -/
def xWait : Session := { x0 with wait := some ⟨.claim 16, 2, 4, 16⟩ }
def xOld : Session := { x0 with expired := true }
def m4 : Msg := ⟨.reply, false, 0, 4, 0xff, 0x95, 0, []⟩
def sWait : State := s0.setSession 0 (some xWait)
def sHeld : State := s0.withHeld [.ident (hd 0xff 0)]
def sOld : State := s0.setSession 0 (some xOld)
def sRom : State := s0.withPhase .bootRom
def sTwo : State := (s0.setSession 1 (some { x0 with bind := .eth 2 9, client := 8 })).setFl F.HP_LINK_STAT.state 4 2
def sSeen : State := s0.setSession 0 (some { x0 with cache := [m4] })

theorem wit_StepOnEmptyQueue_1 (O : Obligations.StepOnEmptyQueue) : step sHeld = exec (.ident (hd 0xff 0))
    ((sHeld.withHeld (sHeld.held.erase (.ident (hd 0xff 0)))).withResuming true) :=
  (O sHeld ok).1 _ ok

theorem wit_StepOnEmptyQueue_2 (O : Obligations.StepOnEmptyQueue) : ∃ t, step s0 = .next t ∧ t.now = 1 :=
  ((O s0 ok).2 ok).elim fun t e => ⟨t, e.1, e.2.1⟩

theorem wit_EveryStepKeepsCanonicalForm_1 (O : Obligations.EveryStepKeepsCanonicalForm) : ∃ t, step s0 = .next t ∧
    t.Canon :=
  ⟨_, rfl, O s0 _ canon0 rfl⟩

theorem wit_EveryStepKeepsStallShadows_1 (O : Obligations.EveryStepKeepsStallShadows) : ∃ t, step s0 = .next t ∧
    t.shadowsInv :=
  ⟨_, rfl, O s0 _ (by simp [State.shadowsInv, show s0.shadows = [] from ok]) rfl⟩

theorem wit_VersionAndServiceAreCheckedFirst_1 (O : Obligations.VersionAndServiceAreCheckedFirst) : ∃ t, exec (.ident
    { hd 0xff 0 with version := 1 }) s0 = .next t :=
  ⟨_, (O (.ident { hd 0xff 0 with version := 1 }) _ s0 rfl ok ok).1 ok⟩

theorem wit_VersionAndServiceAreCheckedFirst_2 (O : Obligations.VersionAndServiceAreCheckedFirst) : ∃ t, exec (.hello
    { hd 0xff 13 with version := 15 } 7 0 0) s0 = .next t :=
  ⟨_, (O (.hello { hd 0xff 13 with version := 15 } 7 0 0) _ s0 rfl ok ok).1 ok⟩

theorem wit_VersionAndServiceAreCheckedFirst_3 (O : Obligations.VersionAndServiceAreCheckedFirst) : ∃ t, exec (.ident
    (hd 0xff 0)) (s0.withPhase .coldUp) = .next t :=
  ⟨_, (O (.ident (hd 0xff 0)) _ (s0.withPhase .coldUp) rfl ok ok).2.1 ok ok ok ok⟩

theorem wit_VersionAndServiceAreCheckedFirst_4 (O : Obligations.VersionAndServiceAreCheckedFirst) : ∃ t, exec (.ident
    (hd 0xff 0)) (s0.withPhase .strapStop) = .next t :=
  ⟨_, (O (.ident (hd 0xff 0)) _ (s0.withPhase .strapStop) rfl ok ok).2.2 ok ok ok⟩

theorem wit_WrongSessionGetsBadSession_1 (O : Obligations.WrongSessionGetsBadSession) : ∃ t, exec (.ident lost) s0 =
    .next t :=
  ⟨_, (O (.ident lost) _ s0 rfl ok arr).1 ok⟩

theorem wit_WrongSessionGetsBadSession_2 (O : Obligations.WrongSessionGetsBadSession) : ∃ t, exec (.ident (hd 0xff 0))
    (s0.setSession 0 (some { x0 with bind := .eth 2 9 })) = .next t :=
  ⟨_, (O (.ident (hd 0xff 0)) _ (s0.setSession 0 (some { x0 with bind := .eth 2 9 })) rfl ok arr).2.1 0 _ ok rfl ok⟩

theorem wit_WrongSessionGetsBadSession_3 (O : Obligations.WrongSessionGetsBadSession) : ∃ t, exec (.ident (hd 0xff 0))
    sOld = .next t :=
  ⟨_, (O (.ident (hd 0xff 0)) _ sOld rfl ok arr).2.2 0 xOld ok ok ok ok⟩

theorem wit_SequenceOfASession_1 (O : Obligations.SequenceOfASession) : ∃ t, exec (.ident (hd 0xff 0)) sWait = .next t
    :=
  ⟨_, (O (.ident (hd 0xff 0)) _ sWait 0 xWait rfl ok arr ok ok ok ok).1 ok⟩

theorem wit_SequenceOfASession_2 (O : Obligations.SequenceOfASession) : ∃ t, exec (.ident { hd 0xff 0 with seq := 4 })
    sSeen = .next t :=
  ⟨_, ((O (.ident { hd 0xff 0 with seq := 4 }) _ sSeen 0 _ rfl ok arr ok rfl ok ok).2 ok).1 m4 ok ok⟩

theorem wit_SequenceOfASession_3 (O : Obligations.SequenceOfASession) : ∃ t, exec (.ident { hd 0xff 0 with seq := 3 })
    sSeen = .next t :=
  ⟨_, ((O (.ident { hd 0xff 0 with seq := 3 }) _ sSeen 0 _ rfl ok arr ok rfl ok ok).2 ok).2.1 ok ok⟩

theorem wit_SequenceOfASession_4 (O : Obligations.SequenceOfASession) : ∃ t, exec (.ident { hd 0xff 0 with seq :=
    0xfffffff5 }) sSeen = .next t :=
  ⟨_, ((O (.ident { hd 0xff 0 with seq := 0xfffffff5 }) _ sSeen 0 _ rfl ok arr ok rfl ok ok).2 ok).2.1 ok ok⟩

theorem wit_SequenceOfASession_5 (O : Obligations.SequenceOfASession) : ∃ t, exec (.ident { hd 0xff 0 with seq := 6 })
    sSeen = .next t :=
  ⟨_, ((O (.ident { hd 0xff 0 with seq := 6 }) _ sSeen 0 _ rfl ok arr ok rfl ok ok).2 ok).2.2 ok⟩

theorem wit_SequenceOfASession_6 (O : Obligations.SequenceOfASession) : ∃ t, exec (.ident { hd 0xff 0 with seq :=
    0xfffffff4 }) sSeen = .next t :=
  ⟨_, ((O (.ident { hd 0xff 0 with seq := 0xfffffff4 }) _ sSeen 0 _ rfl ok arr ok rfl ok ok).2 ok).2.2 ok⟩

theorem wit_BootRomServesTwoGroups_1 (O : Obligations.BootRomServesTwoGroups) : ∃ t, exec (.readReg (hd 0xff 6) 0 1)
    sRom = .next t :=
  ⟨_, O (.readReg (hd 0xff 6) 0 1) _ sRom 0 x0 rfl ok ok arr ok ok ok ok ok ok ok⟩

theorem wit_BootRomServesTwoGroups_2 (O : Obligations.BootRomServesTwoGroups) : ∃ t, exec (.mcStatus (hd 0xff 1) 0)
    sRom = .next t :=
  ⟨_, O (.mcStatus (hd 0xff 1) 0) _ sRom 0 x0 rfl ok ok arr ok ok ok ok ok ok ok⟩

/-! ### Sessions and ownership -/

def hello0 (client : BitVec 64) (seq : BitVec 32) : Hdr := { bind := .mgmt, session := 0xffff, seq, target := 0xff, plen := 13 }
def xHello : Session := { x0 with helloOnly := true, nextSeq := 1, helloSeq := 0, cache := [⟨.reply, false, 0xffff, 0, 0xff, 1, 0, []⟩] }
def sHello : State := s0.setSession 0 (some xHello)
def sFull : State := (List.range 32).foldl (fun s n => s.setSession n (some x0)) s0
def sElect : State := (s0.setOwner 16 none).setElection 16 (some ⟨msCyc, [(0, 3), (1, 3)]⟩)
def sFree : State := s0.setOwner 16 none
def sRun : State := s0.startOp 7 0 0x22 (.fill 0x1000 64 9)
def sDone : State := s0.setOp 7 (some ⟨0, 0, 0x22, .fill 0x1000 64 9, true, 0, 0, 0, 0⟩)
def sUp : State := (s0.setFl F.HP_LINK_STAT.state 4 2).setRg .HP_IPV4 0x0a000001 2

theorem wit_AnswerFrame_1 (O : Obligations.AnswerFrame) : ((s0.taken (hd 0xff 0) 0 x0).replies 0 (hd 0xff 0) 0x95 0
    []).owner = s0.owner :=
  (O s0 (hd 0xff 0) 0 x0 0x95 0 [] adm ok).2.2.2.1

theorem wit_HelloCreatesSession_1 (O : Obligations.HelloCreatesSession) : ∃ t, exec (.hello (hello0 7 0) 7 0 0) sHello
    = .next t :=
  ⟨_, (O sHello (hello0 7 0) 7 0 0 arr ok ok ok ok ok).1 xHello ok⟩

theorem wit_HelloCreatesSession_2 (O : Obligations.HelloCreatesSession) : ∃ t, exec (.hello (hello0 7 0) 8 100 0) s0 =
    .next t :=
  ⟨_, ((O s0 (hello0 7 0) 8 100 0 arr ok ok ok ok ok).2.1 1 ok ok).1 ok⟩

theorem wit_HelloCreatesSession_3 (O : Obligations.HelloCreatesSession) : ∃ t, exec (.hello (hello0 7 0) 7 60000 1) s0
    = .next t :=
  ⟨_, ((O s0 (hello0 7 0) 7 60000 1 arr ok ok ok ok ok).2.1 1 ok ok).2.1 0 ok ok ok⟩

theorem wit_HelloCreatesSession_4 (O : Obligations.HelloCreatesSession) : ∃ t, exec (.hello (hello0 7 0) 8 0 0) sFull
    = .next t :=
  ⟨_, (O sFull (hello0 7 0) 8 0 0 arr ok ok ok ok ok).2.2 ok ok⟩

theorem wit_OwnershipCommandsComplete_1 (O : Obligations.OwnershipCommandsComplete) : ∃ t, exec (.claim (hd 0 1) 3) s0
    = .next t :=
  ⟨_, ((O s0 (hd 0 1) 0 x0 0 adm ok).1 3 rfl).1 0 ok⟩

theorem wit_OwnershipCommandsComplete_2 (O : Obligations.OwnershipCommandsComplete) : ∃ t, exec (.claim (hd 0xff 1) 3)
    sElect = .next t :=
  ⟨_, ((O sElect (hd 0xff 1) 0 x0 16 adm ok).1 3 rfl).2.1 _ ok rfl⟩

theorem wit_OwnershipCommandsComplete_3 (O : Obligations.OwnershipCommandsComplete) : ∃ t, exec (.claim (hd 15 1) 255)
    s0 = .next t :=
  ⟨_, ((O s0 (hd 15 1) 0 x0 15 adm ok).1 255 rfl).2.2 ok ok⟩

theorem wit_OwnershipCommandsComplete_4 (O : Obligations.OwnershipCommandsComplete) : ∃ t, exec (.release (hd 0xff 0))
    s0 = .next t :=
  ⟨_, (O s0 (hd 0xff 0) 0 x0 16 adm ok).2.1 rfl ok⟩

theorem wit_OwnershipCommandsComplete_5 (O : Obligations.OwnershipCommandsComplete) : ∃ t, exec (.release (hd 1 0)) s0
    = .next t :=
  ⟨_, (O s0 (hd 1 0) 0 x0 1 adm ok).2.2.1 rfl ok⟩

theorem wit_OwnershipCommandsComplete_6 (O : Obligations.OwnershipCommandsComplete) : ∃ t, exec (.grant (hd 0 2) 1)
    sTwo = .next t :=
  ⟨_, ((O sTwo (hd 0 2) 0 x0 0 adm ok).2.2.2 1 1 rfl ok ok).1 ok ok⟩

theorem wit_OwnershipCommandsComplete_7 (O : Obligations.OwnershipCommandsComplete) : ∃ t, exec (.grant (hd 0 2) 0)
    sTwo = .next t :=
  ⟨_, ((O sTwo (hd 0 2) 0 x0 0 adm ok).2.2.2 0 0 rfl ok ok).2.1 ok ok⟩

theorem wit_OwnershipCommandsComplete_8 (O : Obligations.OwnershipCommandsComplete) : ∃ t, exec (.grant (hd 1 2) 1)
    sTwo = .next t :=
  ⟨_, ((O sTwo (hd 1 2) 0 x0 1 adm ok).2.2.2 1 1 rfl ok ok).2.2 ok⟩

theorem wit_ElectionPicksHighestPriority_1 (O : Obligations.ElectionPicksHighestPriority) : winner [(4, 3), (2, 3),
    (9, 1)] = winner [(9, 1), (2, 3), (4, 3)] :=
  O.2.2.1 _ _ ok

theorem wit_ElectionPicksHighestPriority_2 (O : Obligations.ElectionPicksHighestPriority) : ∃ t, exec (.electionClose
    16) sElect = .next t :=
  ⟨_, (O.2.2.2 sElect 16 _ 0 rfl ok).1⟩

theorem wit_SessionsAreKeptAndEnd_1 (O : Obligations.SessionsAreKeptAndEnd) : ∃ t, exec (.renew (hd 0xff 4) 100) s0 =
    .next t :=
  ⟨_, (O.1 s0 (hd 0xff 4) 0 x0 adm ok).1 100 _ rfl ok rfl⟩

theorem wit_SessionsAreKeptAndEnd_2 (O : Obligations.SessionsAreKeptAndEnd) : ∃ t, exec (.renew (hd 0xff 4) 0) s0 =
    .next t :=
  ⟨_, (O.1 s0 (hd 0xff 4) 0 x0 adm ok).1 0 _ rfl ok rfl⟩

theorem wit_SessionsAreKeptAndEnd_3 (O : Obligations.SessionsAreKeptAndEnd) : ∃ t, exec (.bye (hd 0xff 0)) s0 = .next
    t :=
  ⟨_, (O.1 s0 (hd 0xff 0) 0 x0 adm ok).2.1 rfl⟩

theorem wit_SessionsAreKeptAndEnd_4 (O : Obligations.SessionsAreKeptAndEnd) : ∃ t, exec (.opStatus (hd 0xff 2) 7) s0 =
    .next t :=
  ⟨_, ((O.1 s0 (hd 0xff 2) 0 x0 adm ok).2.2 7 rfl).1 ok⟩

theorem wit_SessionsAreKeptAndEnd_5 (O : Obligations.SessionsAreKeptAndEnd) : ∃ t, exec (.opStatus (hd 0xff 2) 7)
    sDone = .next t :=
  ⟨_, ((O.1 sDone (hd 0xff 2) 0 x0 adm ok).2.2 7 rfl).2.1 _ rfl ok⟩

theorem wit_SessionsAreKeptAndEnd_6 (O : Obligations.SessionsAreKeptAndEnd) : ∃ t, exec (.opStatus (hd 0xff 2) 7) sRun
    = .next t :=
  (((O.1 sRun (hd 0xff 2) 0 x0 adm ok).2.2 7 rfl).2.2 _ rfl ok).elim fun _ e => ⟨_, e.2⟩

theorem wit_SessionsAreKeptAndEnd_7 (O : Obligations.SessionsAreKeptAndEnd) : ∃ t, exec (.leaseExpiry 0) s0 = .next t
    :=
  ⟨_, O.2.1 s0 0 x0 ok ok _ rfl⟩

theorem wit_SessionsAreKeptAndEnd_8 (O : Obligations.SessionsAreKeptAndEnd) : ∃ t, exec (.expiredSessionClose 0) sOld
    = .next t :=
  ⟨_, O.2.2.1 sOld 0 xOld ok ok⟩

theorem wit_SessionsAreKeptAndEnd_9 (O : Obligations.SessionsAreKeptAndEnd) : ∃ t, exec (.opRecordExpiry 7) sDone =
    .next t :=
  ⟨_, O.2.2.2 sDone 7 _ rfl ok⟩

theorem wit_FramesWithoutCommand_1 (O : Obligations.FramesWithoutCommand) : ∃ t, exec (.dcpFrameDrop (hd 0xff 0)
    .shortFrame) s0 = .next t :=
  ⟨_, O.1 s0 (hd 0xff 0) .shortFrame ok ok⟩

theorem wit_FramesWithoutCommand_2 (O : Obligations.FramesWithoutCommand) : ∃ t, exec (.dcpFrameDrop (hd 0xff 0)
    (.reservedOpcode 8)) s0 = .next t :=
  ⟨_, O.2.1 s0 (hd 0xff 0) 0 x0 8 adm⟩

theorem wit_FramesWithoutCommand_3 (O : Obligations.FramesWithoutCommand) : ∃ t, exec (.rxFrameDrop 2 .badFcs) sUp =
    .next t :=
  ⟨_, (O.2.2.1 sUp 2 .badFcs ok).1 ok⟩

theorem wit_FramesWithoutCommand_4 (O : Obligations.FramesWithoutCommand) : ∃ t, exec (.rxFrameDrop 2 .notForPart) sUp
    = .next t :=
  ⟨_, (O.2.2.1 sUp 2 .notForPart ok).2 ok⟩

theorem wit_FramesWithoutCommand_5 (O : Obligations.FramesWithoutCommand) : ∃ t, exec (.arpRequest 2 5 0x0a000001) sUp
    = .next t :=
  ⟨_, ((O.2.2.2 sUp 2 5 0x0a000001 [] ok).1 ok).1⟩

theorem wit_FramesWithoutCommand_6 (O : Obligations.FramesWithoutCommand) : ∃ t, exec (.icmpEchoRequest 2 5 0x0a000001
    [1]) sUp = .next t :=
  ⟨_, ((O.2.2.2 sUp 2 5 0x0a000001 [1] ok).1 ok).2⟩

theorem wit_FramesWithoutCommand_7 (O : Obligations.FramesWithoutCommand) : ∃ t, exec (.arpRequest 2 5 0x0a000002) sUp
    = .next t :=
  ⟨_, ((O.2.2.2 sUp 2 5 0x0a000002 [] ok).2 ok).1⟩

theorem wit_FramesWithoutCommand_8 (O : Obligations.FramesWithoutCommand) : ∃ t, exec (.icmpEchoRequest 2 5 0x0a000002
    [1]) sUp = .next t :=
  ⟨_, ((O.2.2.2 sUp 2 5 0x0a000002 [1] ok).2 ok).2⟩

/-! ### Registers -/

def sTim : State := s0.setRg .TIM_ASSIGN 0x10 0
theorem wok (u : State) (slot : Nat) (r : R) (i j v res : Nat)
    (c : (writable r i j && u.regRes r i j == some res && u.owns slot res && ! u.badCode [(r.addr i j, v)] r i j v
      && ! (u.level == 3 && timingDie (r.addr i j)) && ! u.addrInReset (r.addr i j) && ! u.runningDrop r i j v
      && u.otherDrop [(r.addr i j, v)] r i j v == 0) = true := by decide +kernel) : WriteOk u slot r i j v := by
  simp at c
  obtain ⟨⟨⟨⟨⟨⟨⟨a, b⟩, c⟩, d⟩, e⟩, f⟩, g⟩, i⟩ := c
  exact ⟨a, ⟨res, b, c⟩, d, fun h => e.elim (fun n => n h.1) (fun n => by simp [h.2] at n), f, g, i⟩

theorem wit_RegisterWriteRowsComplete_1 (O : Obligations.RegisterWriteRowsComplete) : ∃ t, exec (.pcrResetCtlWarm (hd
    0xff 10) 0x57520001) s0 = .next t :=
  ⟨_, O (.pcrResetCtlWarm (hd 0xff 10) 0x57520001) s0 (hd 0xff 10) 0 x0 _ _ _ _ rfl rfl adm rfl rfl (wok _ 0 _ _ _ _
    16)⟩

theorem wit_RegisterWriteRowsComplete_2 (O : Obligations.RegisterWriteRowsComplete) : ∃ t, exec (.pcrResetCtlCold (hd
    0xff 10) 0x43520002) s0 = .next t :=
  ⟨_, O (.pcrResetCtlCold (hd 0xff 10) 0x43520002) s0 (hd 0xff 10) 0 x0 _ _ _ _ rfl rfl adm rfl rfl (wok _ 0 _ _ _ _
    16)⟩

theorem wit_RegisterWriteRowsComplete_3 (O : Obligations.RegisterWriteRowsComplete) : ∃ t, exec (.blockRstHl (hd 0xff
    10) 3) s0 = .next t :=
  ⟨_, O (.blockRstHl (hd 0xff 10) 3) s0 (hd 0xff 10) 0 x0 _ _ _ _ rfl rfl adm rfl rfl (wok _ 0 _ _ _ _ 16)⟩

theorem wit_RegisterWriteRowsComplete_4 (O : Obligations.RegisterWriteRowsComplete) : ∃ t, exec (.blockRstMc (hd 0xff
    10) 5) s0 = .next t :=
  ⟨_, O (.blockRstMc (hd 0xff 10) 5) s0 (hd 0xff 10) 0 x0 _ _ _ _ rfl rfl adm rfl rfl (wok _ 0 _ _ _ _ 16)⟩

theorem wit_RegisterWriteRowsComplete_5 (O : Obligations.RegisterWriteRowsComplete) : ∃ t, exec (.blockRstQm (hd 0xff
    10)) s0 = .next t :=
  ⟨_, O (.blockRstQm (hd 0xff 10)) s0 (hd 0xff 10) 0 x0 _ _ _ _ rfl rfl adm rfl rfl (wok _ 0 _ _ _ _ 16)⟩

theorem wit_RegisterWriteRowsComplete_6 (O : Obligations.RegisterWriteRowsComplete) : ∃ t, exec (.blockRstYrd (hd 0xff
    10)) s0 = .next t :=
  ⟨_, O (.blockRstYrd (hd 0xff 10)) s0 (hd 0xff 10) 0 x0 _ _ _ _ rfl rfl adm rfl rfl (wok _ 0 _ _ _ _ 16)⟩

theorem wit_RegisterWriteRowsComplete_7 (O : Obligations.RegisterWriteRowsComplete) : ∃ t, exec (.blockRstAcq (hd 0xff
    10)) s0 = .next t :=
  ⟨_, O (.blockRstAcq (hd 0xff 10)) s0 (hd 0xff 10) 0 x0 _ _ _ _ rfl rfl adm rfl rfl (wok _ 0 _ _ _ _ 16)⟩

theorem wit_RegisterWriteRowsComplete_8 (O : Obligations.RegisterWriteRowsComplete) : ∃ t, exec (.blockRstFlt (hd 0xff
    10)) s0 = .next t :=
  ⟨_, O (.blockRstFlt (hd 0xff 10)) s0 (hd 0xff 10) 0 x0 _ _ _ _ rfl rfl adm rfl rfl (wok _ 0 _ _ _ _ 16)⟩

theorem wit_RegisterWriteRowsComplete_9 (O : Obligations.RegisterWriteRowsComplete) : ∃ t, exec (.blockRstTim (hd 0xff
    10)) s0 = .next t :=
  ⟨_, O (.blockRstTim (hd 0xff 10)) s0 (hd 0xff 10) 0 x0 _ _ _ _ rfl rfl adm rfl rfl (wok _ 0 _ _ _ _ 16)⟩

theorem wit_RegisterWriteRowsComplete_10 (O : Obligations.RegisterWriteRowsComplete) : ∃ t, exec (.blockRstFrm (hd
    0xff 10)) s0 = .next t :=
  ⟨_, O (.blockRstFrm (hd 0xff 10)) s0 (hd 0xff 10) 0 x0 _ _ _ _ rfl rfl adm rfl rfl (wok _ 0 _ _ _ _ 16)⟩

theorem wit_RegisterWriteRowsComplete_11 (O : Obligations.RegisterWriteRowsComplete) : ∃ t, exec (.blockRstCal (hd
    0xff 10)) s0 = .next t :=
  ⟨_, O (.blockRstCal (hd 0xff 10)) s0 (hd 0xff 10) 0 x0 _ _ _ _ rfl rfl adm rfl rfl (wok _ 0 _ _ _ _ 16)⟩

theorem wit_RegisterWriteRowsComplete_12 (O : Obligations.RegisterWriteRowsComplete) : ∃ t, exec (.forceReturn (hd
    0xff 10) 1) s0 = .next t :=
  ⟨_, O (.forceReturn (hd 0xff 10) 1) s0 (hd 0xff 10) 0 x0 _ _ _ _ rfl rfl adm rfl rfl (wok _ 0 _ _ _ _ 16)⟩

theorem wit_RegisterWriteRowsComplete_13 (O : Obligations.RegisterWriteRowsComplete) : ∃ t, exec (.hpPortCtlWrite (hd
    0xff 10) 7 1) s0 = .next t :=
  ⟨_, O (.hpPortCtlWrite (hd 0xff 10) 7 1) s0 (hd 0xff 10) 0 x0 _ _ _ _ rfl rfl adm rfl rfl (wok _ 0 _ _ _ _ 16)⟩

theorem wit_RegisterWriteRowsComplete_14 (O : Obligations.RegisterWriteRowsComplete) : ∃ t, exec (.restart (hd 0xff
    10) 0 0x101) s0 = .next t :=
  ⟨_, O (.restart (hd 0xff 10) 0 0x101) s0 (hd 0xff 10) 0 x0 _ _ _ _ rfl rfl adm rfl rfl (wok _ 0 _ _ _ _ 16)⟩

theorem wit_RegisterWriteRowsComplete_15 (O : Obligations.RegisterWriteRowsComplete) : ∃ t, exec (.hpRefCtlWrite (hd
    0xff 10) 1 0x3a0) s0 = .next t :=
  ⟨_, O (.hpRefCtlWrite (hd 0xff 10) 1 0x3a0) s0 (hd 0xff 10) 0 x0 _ _ _ _ rfl rfl adm rfl rfl (wok _ 0 _ _ _ _ 16)⟩

theorem wit_RegisterWriteRowsComplete_16 (O : Obligations.RegisterWriteRowsComplete) : ∃ t, exec (.testLoopSet (hd
    0xff 10) 1 1) s0 = .next t :=
  ⟨_, O (.testLoopSet (hd 0xff 10) 1 1) s0 (hd 0xff 10) 0 x0 _ _ _ _ rfl rfl adm rfl rfl (wok _ 0 _ _ _ _ 16)⟩

theorem wit_RegisterWriteRowsComplete_17 (O : Obligations.RegisterWriteRowsComplete) : ∃ t, exec (.prbsGen (hd 0xff
    10) 1 0x10) s0 = .next t :=
  ⟨_, O (.prbsGen (hd 0xff 10) 1 0x10) s0 (hd 0xff 10) 0 x0 _ _ _ _ rfl rfl adm rfl rfl (wok _ 0 _ _ _ _ 16)⟩

theorem wit_RegisterWriteRowsComplete_18 (O : Obligations.RegisterWriteRowsComplete) : ∃ t, exec (.prbsChk (hd 0xff
    10) 1 0x100) s0 = .next t :=
  ⟨_, O (.prbsChk (hd 0xff 10) 1 0x100) s0 (hd 0xff 10) 0 x0 _ _ _ _ rfl rfl adm rfl rfl (wok _ 0 _ _ _ _ 16)⟩

theorem wit_RegisterWriteRowsComplete_19 (O : Obligations.RegisterWriteRowsComplete) : ∃ t, exec (.ownCtlWrite (hd
    0xff 10) 0x88b5) s0 = .next t :=
  ⟨_, O (.ownCtlWrite (hd 0xff 10) 0x88b5) s0 (hd 0xff 10) 0 x0 _ _ _ _ rfl rfl adm rfl rfl (wok _ 0 _ _ _ _ 16)⟩

theorem wit_RegisterWriteRowsComplete_20 (O : Obligations.RegisterWriteRowsComplete) : ∃ t, exec (.ownUdpWrite (hd
    0xff 10) 5000) s0 = .next t :=
  ⟨_, O (.ownUdpWrite (hd 0xff 10) 5000) s0 (hd 0xff 10) 0 x0 _ _ _ _ rfl rfl adm rfl rfl (wok _ 0 _ _ _ _ 16)⟩

theorem wit_RegisterWriteRowsComplete_21 (O : Obligations.RegisterWriteRowsComplete) : ∃ t, exec (.devPartWrite (hd
    0xff 10) 1 4) s0 = .next t :=
  ⟨_, O (.devPartWrite (hd 0xff 10) 1 4) s0 (hd 0xff 10) 0 x0 _ _ _ _ rfl rfl adm rfl rfl (wok _ 0 _ _ _ _ 16)⟩

theorem wit_RegisterWriteRowsComplete_22 (O : Obligations.RegisterWriteRowsComplete) : ∃ t, exec (.stlFlagsWrite (hd
    0xff 10) 0 0x55) s0 = .next t :=
  ⟨_, O (.stlFlagsWrite (hd 0xff 10) 0 0x55) s0 (hd 0xff 10) 0 x0 _ _ _ _ rfl rfl adm rfl rfl (wok _ 0 _ _ _ _ 0)⟩

theorem wit_RegisterWriteRowsComplete_23 (O : Obligations.RegisterWriteRowsComplete) : ∃ t, exec (.emit (hd 0xff 10)
    1) s0 = .next t :=
  ⟨_, O (.emit (hd 0xff 10) 1) s0 (hd 0xff 10) 0 x0 _ _ _ _ rfl rfl adm rfl rfl (wok _ 0 _ _ _ _ 16)⟩

theorem wit_RegisterWriteRowsComplete_24 (O : Obligations.RegisterWriteRowsComplete) : ∃ t, exec (.measEnWrite (hd
    0xff 10) 0) s0 = .next t :=
  ⟨_, O (.measEnWrite (hd 0xff 10) 0) s0 (hd 0xff 10) 0 x0 _ _ _ _ rfl rfl adm rfl rfl (wok _ 0 _ _ _ _ 16)⟩

theorem wit_RegisterWriteRowsComplete_25 (O : Obligations.RegisterWriteRowsComplete) : ∃ t, exec (.tbSyncTrimWrite (hd
    0xff 10) 100) s0 = .next t :=
  ⟨_, O (.tbSyncTrimWrite (hd 0xff 10) 100) s0 (hd 0xff 10) 0 x0 _ _ _ _ rfl rfl adm rfl rfl (wok _ 0 _ _ _ _ 16)⟩

theorem wit_RegisterWriteRowsComplete_26 (O : Obligations.RegisterWriteRowsComplete) : ∃ t, exec (.tbRateHiWrite (hd
    0xff 10) 0) s0 = .next t :=
  ⟨_, O (.tbRateHiWrite (hd 0xff 10) 0) s0 (hd 0xff 10) 0 x0 _ _ _ _ rfl rfl adm rfl rfl (wok _ 0 _ _ _ _ 16)⟩

theorem wit_RegisterWriteRowsComplete_27 (O : Obligations.RegisterWriteRowsComplete) : ∃ t, exec (.ptpRoleWrite (hd
    0xff 10) 1 2) s0 = .next t :=
  ⟨_, O (.ptpRoleWrite (hd 0xff 10) 1 2) s0 (hd 0xff 10) 0 x0 _ _ _ _ rfl rfl adm rfl rfl (wok _ 0 _ _ _ _ 16)⟩

theorem wit_RegisterWriteRowsComplete_28 (O : Obligations.RegisterWriteRowsComplete) : ∃ t, exec (.acqSoftTrig (hd
    0xff 10) 0) s0 = .next t :=
  ⟨_, O (.acqSoftTrig (hd 0xff 10) 0) s0 (hd 0xff 10) 0 x0 _ _ _ _ rfl rfl adm rfl rfl (wok _ 0 _ _ _ _ 0)⟩

theorem wit_RegisterWriteRowsComplete_29 (O : Obligations.RegisterWriteRowsComplete) : ∃ t, exec (.timArmWrite (hd
    0xff 10) 0) sTim = .next t :=
  ⟨_, O (.timArmWrite (hd 0xff 10) 0) sTim (hd 0xff 10) 0 x0 _ _ _ _ rfl rfl adm rfl rfl (wok _ 0 _ _ _ _ 0)⟩

theorem wit_RegisterWriteRowsComplete_30 (O : Obligations.RegisterWriteRowsComplete) : ∃ t, exec (.timCtlEnWrite (hd
    0xff 10) 0 0x181) sTim = .next t :=
  ⟨_, O (.timCtlEnWrite (hd 0xff 10) 0 0x181) sTim (hd 0xff 10) 0 x0 _ _ _ _ rfl rfl adm rfl rfl (wok _ 0 _ _ _ _ 0)⟩

theorem wit_RegisterWriteRowsComplete_31 (O : Obligations.RegisterWriteRowsComplete) : ∃ t, exec (.qmCfgWrite (hd 0xff
    10) 1024 0x18d) s0 = .next t :=
  ⟨_, O (.qmCfgWrite (hd 0xff 10) 1024 0x18d) s0 (hd 0xff 10) 0 x0 _ _ _ _ rfl rfl adm rfl rfl (wok _ 0 _ _ _ _ 16)⟩

theorem wit_RegisterWriteRowsComplete_32 (O : Obligations.RegisterWriteRowsComplete) : ∃ t, exec (.flush (hd 0xff 10)
    1024) s0 = .next t :=
  ⟨_, O (.flush (hd 0xff 10) 1024) s0 (hd 0xff 10) 0 x0 _ _ _ _ rfl rfl adm rfl rfl (wok _ 0 _ _ _ _ 16)⟩

theorem wit_RegisterWriteRowsComplete_33 (O : Obligations.RegisterWriteRowsComplete) : ∃ t, exec (.flcFirstValidWrite
    (hd 0xff 10)) s0 = .next t :=
  ⟨_, O (.flcFirstValidWrite (hd 0xff 10)) s0 (hd 0xff 10) 0 x0 _ _ _ _ rfl rfl adm rfl rfl (wok _ 0 _ _ _ _ 16)⟩

theorem wit_RegisterWriteRowsComplete_34 (O : Obligations.RegisterWriteRowsComplete) : ∃ t, exec (.flcStickyWrite (hd
    0xff 10) 2 1) s0 = .next t :=
  ⟨_, O (.flcStickyWrite (hd 0xff 10) 2 1) s0 (hd 0xff 10) 0 x0 _ _ _ _ rfl rfl adm rfl rfl (wok _ 0 _ _ _ _ 16)⟩

theorem wit_RegisterWriteRowsComplete_35 (O : Obligations.RegisterWriteRowsComplete) : ∃ t, exec (.pesXferStart (hd
    0xff 10) 0 1 1) s0 = .next t :=
  ⟨_, O (.pesXferStart (hd 0xff 10) 0 1 1) s0 (hd 0xff 10) 0 x0 _ _ _ _ rfl rfl adm rfl rfl (wok _ 0 _ _ _ _ 16)⟩

theorem wit_RegisterWriteRowsComplete_36 (O : Obligations.RegisterWriteRowsComplete) : ∃ t, exec (.pesCfgWrite (hd
    0xff 10) 0 0x41) s0 = .next t :=
  ⟨_, O (.pesCfgWrite (hd 0xff 10) 0 0x41) s0 (hd 0xff 10) 0 x0 _ _ _ _ rfl rfl adm rfl rfl (wok _ 0 _ _ _ _ 16)⟩

theorem wit_RegisterWriteRowsComplete_37 (O : Obligations.RegisterWriteRowsComplete) : ∃ t, exec (.mcCfgWrite (hd 0xff
    10) 5 0x113) s0 = .next t :=
  ⟨_, O (.mcCfgWrite (hd 0xff 10) 5 0x113) s0 (hd 0xff 10) 0 x0 _ _ _ _ rfl rfl adm rfl rfl (wok _ 0 _ _ _ _ 16)⟩

theorem wit_RegisterWriteRowsComplete_38 (O : Obligations.RegisterWriteRowsComplete) : ∃ t, exec (.mcSysCfgWrite (hd
    0xff 10) 2) s0 = .next t :=
  ⟨_, O (.mcSysCfgWrite (hd 0xff 10) 2) s0 (hd 0xff 10) 0 x0 _ _ _ _ rfl rfl adm rfl rfl (wok _ 0 _ _ _ _ 16)⟩

theorem wit_RegisterWriteRowsComplete_39 (O : Obligations.RegisterWriteRowsComplete) : ∃ t, exec (.policyWrite (hd
    0xff 10) 0x4aa) s0 = .next t :=
  ⟨_, O (.policyWrite (hd 0xff 10) 0x4aa) s0 (hd 0xff 10) 0 x0 _ _ _ _ rfl rfl adm rfl rfl (wok _ 0 _ _ _ _ 16)⟩

def sRunning : State := s0.setFl F.STL_SEQ_STAT.state 3 0

theorem wit_RegisterWriteChecksInOrder_1 (O : Obligations.RegisterWriteChecksInOrder) : ∃ t, exec (.qmCfgWrite (hd
    0xff 10) 1024 0) s0 = .next t :=
  ⟨_, (O (.qmCfgWrite (hd 0xff 10) 1024 0) s0 (hd 0xff 10) 0 x0 _ _ _ _ 16 rfl rfl adm rfl rfl ok).1 ok⟩

theorem wit_RegisterWriteChecksInOrder_2 (O : Obligations.RegisterWriteChecksInOrder) : ∃ t, exec (.stlFlagsWrite (hd
    0xff 10) 0 1) (s0.setFlag F.PCR_SERVICE.timing_die_ok false) = .next t :=
  ⟨_, ((O (.stlFlagsWrite (hd 0xff 10) 0 1) (s0.setFlag F.PCR_SERVICE.timing_die_ok false) (hd 0xff 10) 0 x0 _ _ _ _ 0
    rfl rfl adm rfl rfl ok).2 ok).1 ok⟩

theorem wit_RegisterWriteChecksInOrder_3 (O : Obligations.RegisterWriteChecksInOrder) : ∃ t, exec (.devPartWrite (hd
    0xff 10) 1 4) (s0.setOwner 16 none) = .next t :=
  ⟨_, (((O (.devPartWrite (hd 0xff 10) 1 4) (s0.setOwner 16 none) (hd 0xff 10) 0 x0 _ _ _ _ 16 rfl rfl adm rfl rfl
    ok).2 ok).2 ok).1 ok⟩

theorem wit_RegisterWriteChecksInOrder_4 (O : Obligations.RegisterWriteChecksInOrder) : ∃ t, exec (.qmCfgWrite (hd
    0xff 10) 1024 0x18d) (s0.withRst [.qm]) = .next t :=
  ⟨_, ((((O (.qmCfgWrite (hd 0xff 10) 1024 0x18d) (s0.withRst [.qm]) (hd 0xff 10) 0 x0 _ _ _ _ 16 rfl rfl adm rfl rfl
    ok).2 ok).2 ok).2 ok).1 ok⟩

theorem wit_RegisterWriteChecksInOrder_5 (O : Obligations.RegisterWriteChecksInOrder) : ∃ t, exec (.devPartWrite (hd
    0xff 10) 0 1) sRunning = .next t :=
  ⟨_, (((((O (.devPartWrite (hd 0xff 10) 0 1) sRunning (hd 0xff 10) 0 x0 _ _ _ _ 16 rfl rfl adm rfl rfl ok).2 ok).2
    ok).2 ok).2 ok).1 ok⟩

theorem wit_RegisterWriteChecksInOrder_6 (O : Obligations.RegisterWriteChecksInOrder) : ∃ t, exec (.devPartWrite (hd
    0xff 10) 1 1) s0 = .next t :=
  ⟨_, (((((O (.devPartWrite (hd 0xff 10) 1 1) s0 (hd 0xff 10) 0 x0 _ _ _ _ 16 rfl rfl adm rfl rfl ok).2 ok).2 ok).2
    ok).2 ok).2 ok ok⟩

theorem wit_RegisterCommandsComplete_1 (O : Obligations.RegisterCommandsComplete) : ∃ t, exec (.readReg (hd 0xff 6) 0
    256) s0 = .next t :=
  ⟨_, (O s0 (hd 0xff 6) 0 x0 adm ok).1 0 256 rfl ok ok⟩

theorem wit_RegisterCommandsComplete_2 (O : Obligations.RegisterCommandsComplete) : ∃ t, exec (.readReg (hd 0xff 6)
    0x1fffffc 1) s0 = .next t :=
  ⟨_, (O s0 (hd 0xff 6) 0 x0 adm ok).1 0x1fffffc 1 rfl ok ok⟩

theorem wit_RegisterCommandsComplete_3 (O : Obligations.RegisterCommandsComplete) : ∃ t, exec (.readRegList (hd 0xff
    10) 2 [0, 8]) s0 = .next t :=
  ⟨_, (O s0 (hd 0xff 10) 0 x0 adm ok).2.1 2 [0, 8] rfl rfl ok ok⟩

theorem wit_RegisterCommandsComplete_4 (O : Obligations.RegisterCommandsComplete) : ∃ t, exec (.writeReg (hd 0xff 10)
    0x10000 1 [0]) s0 = .next t :=
  ⟨_, ((O s0 (hd 0xff 10) 0 x0 adm ok).2.2.1 0x10000 1 [0] rfl rfl ok ok).1 ok⟩

theorem wit_RegisterCommandsComplete_5 (O : Obligations.RegisterCommandsComplete) : ∃ t, exec (.writeReg (hd 0xff 10)
    0x20004 1 [0]) s0 = .next t :=
  ⟨_, ((O s0 (hd 0xff 10) 0 x0 adm ok).2.2.1 0x20004 1 [0] rfl rfl ok ok).2 ok⟩

theorem wit_RegisterCommandsComplete_6 (O : Obligations.RegisterCommandsComplete) : ∃ t, exec (.modifyReg (hd 0xff 12)
    0x1fffffc 1 1) s0 = .next t :=
  ⟨_, ((O s0 (hd 0xff 12) 0 x0 adm ok).2.2.2 0x1fffffc 1 1 rfl ok).1 ok⟩

theorem wit_RegisterCommandsComplete_7 (O : Obligations.RegisterCommandsComplete) : ∃ t, exec (.modifyReg (hd 0xff 12)
    0x20004 0xf0 0x50) s0 = .next t :=
  ⟨_, ((O s0 (hd 0xff 12) 0 x0 adm ok).2.2.2 0x20004 0xf0 0x50 rfl ok).2 .HP_REF_CTL 0 0 ok ok ok⟩

theorem wit_PlainRegisterWriteFrame_1 (O : Obligations.PlainRegisterWriteFrame) : (s0.applyReg .STL_HOP_CTL 0 0 64).rg
    .STL_HOP_CTL 0 0 = 64 :=
  (O s0 .STL_HOP_CTL 0 0 64 canon0 ok).2.1.trans ok

theorem wit_ResetBeginsOneMillisecondAfterReply_1 (O : Obligations.ResetBeginsOneMillisecondAfterReply) : ∃ t, exec
    (.pcrResetCtlWarm (hd 0xff 10) 0x57520001) s0 = .next t :=
  ⟨_, ((O s0 (hd 0xff 10) 0 x0 0x57520001 adm ok ok ok ok ok ok).1 ok ok).1⟩

theorem wit_ResetBeginsOneMillisecondAfterReply_2 (O : Obligations.ResetBeginsOneMillisecondAfterReply) : ∃ t, exec
    (.pcrResetCtlCold (hd 0xff 10) 0x43520002) s0 = .next t :=
  ⟨_, ((O s0 (hd 0xff 10) 0 x0 0x43520002 adm ok ok ok ok ok ok).2 ok ok).1⟩

/-! ### Memory -/

def sPoison : State := (s0.withPsn (mset (fun _ => 0) s0.psn 0x200 0xff)).withInited (mset (fun _ => false) s0.inited 0 true)
def sCopying : State := s0.startOp 7 0 0x23 (.copy 0x1000 0x2000 64)
def sRunHeld : State := ((List.range 6).foldl (fun s m => s.setFlag F.MC_STAT.retraining true m) s0).startOp 7 0 0x22 (.fill 0x1000 64 9)
def sCopyHeld : State := (s0.withRst ((List.finRange 6).map Blk.mc)).startOp 7 0 0x23 (.copy 0x1000 0x2000 64)
def sNoOp : State := (List.range 64).foldl (fun s n => s.startOp n 0 0x22 (.fill 0x1000 64 9)) s0
def sRetrain : State := (List.range 6).foldl (fun s m => s.setFlag F.MC_STAT.retraining true m) s0
def sMcReset : State := s0.withRst ((List.finRange 6).map Blk.mc)

theorem wit_MemoryCommandsComplete_1 (O : Obligations.MemoryCommandsComplete) : ∃ t, exec (.writeMem (hd 0xff 20)
    0x1000 8 [1, 2, 3, 4, 5, 6, 7, 8]) s0 = .next t :=
  ⟨_, (((O s0 (hd 0xff 20) 0 x0 adm rfl ok).1 0x1000 8 ok ok ok).1 [1, 2, 3, 4, 5, 6, 7, 8] rfl rfl ok).1 ok⟩

theorem wit_MemoryCommandsComplete_2 (O : Obligations.MemoryCommandsComplete) : ∃ t, exec (.readMem (hd 0xff 12)
    0x1000 8) s0 = .next t :=
  ⟨_, ((((O s0 (hd 0xff 12) 0 x0 adm rfl ok).1 0x1000 8 ok ok ok).2 rfl).1 ok).1 ok⟩

theorem wit_MemoryCommandsComplete_3 (O : Obligations.MemoryCommandsComplete) : ∃ t, exec (.readMem (hd 0xff 12) 0xff8
    16) sPoison = .next t :=
  ⟨_, ((((O sPoison (hd 0xff 12) 0 x0 adm rfl ok).1 0xff8 16 ok ok ok).2 rfl).1 ok).2 1 ok⟩

theorem wit_MemoryCommandsComplete_4 (O : Obligations.MemoryCommandsComplete) : ∃ t, exec (.writeMem (hd 0xff 20)
    0x1000 8 [1, 2, 3, 4, 5, 6, 7, 8]) sMcReset = .next t :=
  ⟨_, (((O sMcReset (hd 0xff 20) 0 x0 adm rfl ok).1 0x1000 8 ok ok ok).1 [1, 2, 3, 4, 5, 6, 7, 8] rfl rfl ok).2.1 ok⟩

theorem wit_MemoryCommandsComplete_5 (O : Obligations.MemoryCommandsComplete) : ∃ t, exec (.writeMem (hd 0xff 20)
    0x1000 8 [1, 2, 3, 4, 5, 6, 7, 8]) sRetrain = .next t :=
  ⟨_, (((O sRetrain (hd 0xff 20) 0 x0 adm rfl ok).1 0x1000 8 ok ok ok).1 [1, 2, 3, 4, 5, 6, 7, 8] rfl rfl ok).2.2 ok
    ok⟩

theorem wit_MemoryCommandsComplete_6 (O : Obligations.MemoryCommandsComplete) : ∃ t, exec (.readMem (hd 0xff 12)
    0x1000 8) sMcReset = .next t :=
  ⟨_, (((O sMcReset (hd 0xff 12) 0 x0 adm rfl ok).1 0x1000 8 ok ok ok).2 rfl).2.1 ok⟩

theorem wit_MemoryCommandsComplete_7 (O : Obligations.MemoryCommandsComplete) : ∃ t, exec (.readMem (hd 0xff 12)
    0x1000 8) sRetrain = .next t :=
  ⟨_, (((O sRetrain (hd 0xff 12) 0 x0 adm rfl ok).1 0x1000 8 ok ok ok).2 rfl).2.2 ok ok⟩

theorem wit_MemoryCommandsComplete_8 (O : Obligations.MemoryCommandsComplete) : ∃ t, exec (.fillMem (hd 0xff 24)
    0x1000 64 9) s0 = .next t :=
  ⟨_, ((O s0 (hd 0xff 24) 0 x0 adm rfl ok).2.1 0x1000 64 9 rfl ok ok ok ok ok).1 0 ok⟩

theorem wit_MemoryCommandsComplete_9 (O : Obligations.MemoryCommandsComplete) : ∃ t, exec (.copyMem (hd 0xff 24)
    0x1000 0x1040 64) s0 = .next t :=
  ⟨_, ((O s0 (hd 0xff 24) 0 x0 adm rfl ok).2.2 0x1000 0x1040 64 rfl ok ok ok ok ok ok ok ok).1 0 ok⟩

theorem wit_MemoryCommandsComplete_10 (O : Obligations.MemoryCommandsComplete) : ∃ t, exec (.fillMem (hd 0xff 24)
    0x1000 64 9) sNoOp = .next t :=
  ⟨_, ((O sNoOp (hd 0xff 24) 0 x0 adm rfl ok).2.1 0x1000 64 9 rfl ok ok ok ok ok).2 ok⟩

theorem wit_MemoryCommandsComplete_11 (O : Obligations.MemoryCommandsComplete) : ∃ t, exec (.copyMem (hd 0xff 24)
    0x1000 0x1040 64) sNoOp = .next t :=
  ⟨_, ((O sNoOp (hd 0xff 24) 0 x0 adm rfl ok).2.2 0x1000 0x1040 64 rfl ok ok ok ok ok ok ok ok).2 ok⟩

theorem wit_MemoryOperationsEnd_1 (O : Obligations.MemoryOperationsEnd) : ∃ t, exec (.fillMemDone 7) sRun = .next t :=
  ⟨_, ((O sRun 7 _ rfl ok).1 _ _ _ rfl).1 ok⟩

theorem wit_MemoryOperationsEnd_2 (O : Obligations.MemoryOperationsEnd) : ∃ t, exec (.fillMemDone 7) sRunHeld = .next
    t :=
  ⟨_, ((O sRunHeld 7 _ rfl ok).1 _ _ _ rfl).2 ok⟩

theorem wit_MemoryOperationsEnd_3 (O : Obligations.MemoryOperationsEnd) : ∃ t, exec (.copyMemDone 7) sCopying = .next
    t :=
  ⟨_, ((O sCopying 7 _ rfl ok).2 _ _ _ rfl).1 ok ok⟩

theorem wit_MemoryOperationsEnd_4 (O : Obligations.MemoryOperationsEnd) : ∃ t, exec (.copyMemDone 7) sCopyHeld = .next
    t :=
  ⟨_, ((O sCopyHeld 7 _ rfl ok).2 _ _ _ rfl).2 (.inl ok)⟩

theorem wit_WriteMemStoresItsBytesOnly_1 (O : Obligations.WriteMemStoresItsBytesOnly) : ∃ t, exec (.writeMem (hd 0xff
    20) 0x1000 8 [1, 2, 3, 4, 5, 6, 7, 8]) s0 = .next t ∧ t.memByte 0x1003 = 4 :=
  ⟨_, rfl, (O s0 _ (hd 0xff 20) 0 x0 0x1000 8 [1, 2, 3, 4, 5, 6, 7, 8] adm rfl rfl rfl canon0 ok ok ok ok ok ok ok ok
    ok ok rfl).1 3 ok⟩

theorem wit_ReadMemLeavesMemory_1 (O : Obligations.ReadMemLeavesMemory) : s0.readWord 0x1000 .asStored = (⟨0, false⟩,
    s0) :=
  (O s0 0x1000 1).2.2.2.2 _ ok

/-! ### Stalls and streams -/

/-- A table of one HALT entry at 0x1000 and 64 hopper units for stall 0; then loaded; then armed; then running in a window. -/
def sTable : State := (s0.writeWords (dcpWriter 0) 0x1000 [⟨0, false⟩, ⟨0x2800000000000000, false⟩]).setFl F.STL_HOP_CTL.units 64 0
def sTabHeld : State := (List.range 6).foldl (fun s m => s.setFlag F.MC_STAT.retraining true m) sTable
def sLoaded : State := sTable.loadTable 0 0x1000 1
def sArmed : State := sLoaded.setFl F.STL_SEQ_STAT.state 2 0
def sWin : State := (sLoaded.setFl F.STL_SEQ_STAT.state 3 0).setFlag F.ACQ_CTL.mode true 0
def strm : Stream := { slot := 0, gen := 0, target := 0, maxPayload := 1024, flushUs := 10, limit := 8, next := 3, floor := 1 }
def sStream : State := s0.setStream 512 (some strm)
def sNone : State := s0.setOwner 0 none
def sLevel3 : State := s0.setFlag F.PCR_SERVICE.timing_die_ok false
def sBare : State := s0.setFl F.DEV_PART.octets 0 0

theorem wit_StallCommandsComplete_1 (O : Obligations.StallCommandsComplete) : ∃ t, exec (.status (hd 0 0)) s0 = .next
    t :=
  ⟨_, (O s0 (hd 0 0) 0 x0 0 adm rfl ok ok).1 rfl⟩

theorem wit_StallCommandsComplete_2 (O : Obligations.StallCommandsComplete) : ∃ t, exec (.loadSeq (hd 0 12) 0x1000 1)
    sTable = .next t :=
  ⟨_, (((O sTable (hd 0 12) 0 x0 0 adm rfl ok ok).2 ok ok).1 0x1000 1 rfl ok ok ok ok ok ok ok).1 ok ok⟩

theorem wit_StallCommandsComplete_3 (O : Obligations.StallCommandsComplete) : ∃ t, exec (.loadSeq (hd 0 12) 0x1000 1)
    s0 = .next t :=
  ⟨_, (((O s0 (hd 0 12) 0 x0 0 adm rfl ok ok).2 ok ok).1 0x1000 1 rfl ok ok ok ok ok ok ok).2.1 (0, 1) ok ok⟩

theorem wit_StallCommandsComplete_4 (O : Obligations.StallCommandsComplete) : ∃ t, exec (.loadSeq (hd 0 12) 0x1000 1)
    sTabHeld = .next t :=
  ⟨_, (((O sTabHeld (hd 0 12) 0 x0 0 adm rfl ok ok).2 ok ok).1 0x1000 1 rfl ok ok ok ok ok ok ok).2.2 ok ok⟩

theorem wit_StallCommandsComplete_5 (O : Obligations.StallCommandsComplete) : ∃ t, exec (.start (hd 0 6) 1 0 0 0 0)
    sLoaded = .next t :=
  ⟨_, (((O sLoaded (hd 0 6) 0 x0 0 adm rfl ok ok).2 ok ok).2.1 1 0 0 0 0 rfl ok ok ok ok ok ok ok ok ok ok ok).1 ok⟩

theorem wit_StallCommandsComplete_6 (O : Obligations.StallCommandsComplete) : ∃ t, exec (.start (hd 0 6) 1 0 0 0 0)
    sTable = .next t :=
  ⟨_, (((O sTable (hd 0 6) 0 x0 0 adm rfl ok ok).2 ok ok).2.1 1 0 0 0 0 rfl ok ok ok ok ok ok ok ok ok ok ok).2 ok⟩

theorem wit_StallCommandsComplete_7 (O : Obligations.StallCommandsComplete) : ∃ t, exec (.stop (hd 0 1) 0) sArmed =
    .next t :=
  ⟨_, (((O sArmed (hd 0 1) 0 x0 0 adm rfl ok ok).2 ok ok).2.2.1 0 rfl ok).1 ok⟩

theorem wit_StallCommandsComplete_8 (O : Obligations.StallCommandsComplete) : ∃ t, exec (.stop (hd 0 1) 1) sWin =
    .next t :=
  ⟨_, (((O sWin (hd 0 1) 0 x0 0 adm rfl ok ok).2 ok ok).2.2.1 1 rfl ok).2.1 ok ok⟩

theorem wit_StallCommandsComplete_9 (O : Obligations.StallCommandsComplete) : ∃ t, exec (.stop (hd 0 1) 1) s0 = .next
    t :=
  ⟨_, (((O s0 (hd 0 1) 0 x0 0 adm rfl ok ok).2 ok ok).2.2.1 1 rfl ok).2.2 ok ok⟩

theorem wit_StallCommandsComplete_10 (O : Obligations.StallCommandsComplete) : ∃ t, exec (.arm (hd 0 0)) sWin = .next
    t :=
  ⟨_, (((O sWin (hd 0 0) 0 x0 0 adm rfl ok ok).2 ok ok).2.2.2.1 rfl ok ok ok).1 ok⟩

theorem wit_StallCommandsComplete_11 (O : Obligations.StallCommandsComplete) : ∃ t, exec (.arm (hd 0 0)) (sWin.setFl
    F.ACQ_WIN_STAT.state 3 0) = .next t :=
  ⟨_, (((O (sWin.setFl F.ACQ_WIN_STAT.state 3 0) (hd 0 0) 0 x0 0 adm rfl ok ok).2 ok ok).2.2.2.1 rfl ok ok ok).2 ok⟩

theorem wit_StallCommandsComplete_12 (O : Obligations.StallCommandsComplete) : ∃ t, exec (.setflag (hd 0 2) 0x0f 0x15)
    s0 = .next t :=
  ⟨_, ((O s0 (hd 0 2) 0 x0 0 adm rfl ok ok).2 ok ok).2.2.2.2.1 0x0f 0x15 rfl⟩

theorem wit_StallCommandsComplete_13 (O : Obligations.StallCommandsComplete) : ∃ t, exec (.stallReset (hd 0 0)) sWin =
    .next t :=
  ⟨_, (((O sWin (hd 0 0) 0 x0 0 adm rfl ok ok).2 ok ok).2.2.2.2.2 rfl).1 ok⟩

theorem wit_StallCommandsComplete_14 (O : Obligations.StallCommandsComplete) : ∃ t, exec (.stallReset (hd 0 0)) s0 =
    .next t :=
  ⟨_, (((O s0 (hd 0 0) 0 x0 0 adm rfl ok ok).2 ok ok).2.2.2.2.2 rfl).2 ok⟩

theorem wit_StallCommandsNeedOwnerAndService_1 (O : Obligations.StallCommandsNeedOwnerAndService) : ∃ t, exec (.stop
    (hd 0 1) 1) sLevel3 = .next t :=
  ⟨_, (O (.stop (hd 0 1) 1) sLevel3 (hd 0 1) 0 x0 0 adm rfl ok (.inl ⟨1, rfl, rfl, ok⟩)).1 ok⟩

theorem wit_StallCommandsNeedOwnerAndService_2 (O : Obligations.StallCommandsNeedOwnerAndService) : ∃ t, exec (.arm
    (hd 0 0)) sNone = .next t :=
  ⟨_, (O (.arm (hd 0 0)) sNone (hd 0 0) 0 x0 0 adm rfl ok (.inr (.inl ⟨rfl, rfl⟩))).2.1 ok ok⟩

theorem wit_StallCommandsNeedOwnerAndService_3 (O : Obligations.StallCommandsNeedOwnerAndService) : ∃ t, exec
    (.setflag (hd 0 2) 1 1) sBare = .next t :=
  ⟨_, (O (.setflag (hd 0 2) 1 1) sBare (hd 0 2) 0 x0 0 adm rfl ok (.inr (.inr (.inl ⟨1, 1, rfl, rfl⟩)))).2.2.1 ok ok
    ok⟩

theorem wit_StallCommandsNeedOwnerAndService_4 (O : Obligations.StallCommandsNeedOwnerAndService) : ∃ t, exec (.status
    (hd 0 0)) sLevel3 = .next t :=
  ⟨_, (O (.stallReset (hd 0 0)) sLevel3 (hd 0 0) 0 x0 0 adm rfl ok (.inr (.inr (.inr ⟨rfl, rfl⟩)))).2.2.2 rfl ok⟩

theorem wit_SetflagChangesMaskedHostFlags_1 (O : Obligations.SetflagChangesMaskedHostFlags) : ∃ t, exec (.setflag (hd
    0 2) 0x0f 0x15) s0 = .next t ∧ t.stalls = s0.stalls :=
  ⟨_, rfl, (O s0 _ (hd 0 2) 0 x0 0 0x0f 0x15 adm rfl ok rfl ok ok ok ok ok canon0 rfl).2.2.2.1⟩

theorem wit_StreamCommandsComplete_1 (O : Obligations.StreamCommandsComplete) : ∃ t, exec (.streamOpen (hd 0 10) 512
    1024 8 10) s0 = .next t :=
  ⟨_, (O.1 s0 (hd 0 10) 0 x0 512 adm ok ok).1 1024 10 8 _ rfl ok ok ok ok ok ok ok ok ok rfl⟩

theorem wit_StreamCommandsComplete_2 (O : Obligations.StreamCommandsComplete) : ∃ t, exec (.credit (hd 0 10) 512 2 9)
    sStream = .next t :=
  ⟨_, (((O.1 sStream (hd 0 10) 0 x0 512 adm ok ok).2.1 strm ok ok).1 2 9 rfl).1 ok⟩

theorem wit_StreamCommandsComplete_3 (O : Obligations.StreamCommandsComplete) : ∃ t, exec (.credit (hd 0 10) 512 9 9)
    sStream = .next t :=
  ⟨_, (((O.1 sStream (hd 0 10) 0 x0 512 adm ok ok).2.1 strm ok ok).1 9 9 rfl).2 ok⟩

theorem wit_StreamCommandsComplete_4 (O : Obligations.StreamCommandsComplete) : ∃ t, exec (.streamClose (hd 0 2) 512)
    sStream = .next t :=
  ⟨_, ((O.1 sStream (hd 0 2) 0 x0 512 adm ok ok).2.1 strm ok ok).2.1 rfl⟩

theorem wit_StreamCommandsComplete_5 (O : Obligations.StreamCommandsComplete) : ∃ t, exec (.rewind (hd 0 6) 512 1)
    sStream = .next t :=
  ⟨_, (((O.1 sStream (hd 0 6) 0 x0 512 adm ok ok).2.1 strm ok ok).2.2 1 rfl ok ok ok).1 ok⟩

theorem wit_StreamCommandsComplete_6 (O : Obligations.StreamCommandsComplete) : ∃ t, exec (.rewind (hd 0 6) 512 0)
    sStream = .next t :=
  ⟨_, (((O.1 sStream (hd 0 6) 0 x0 512 adm ok ok).2.1 strm ok ok).2.2 0 rfl ok ok ok).2 ok⟩

theorem wit_StreamCommandsComplete_7 (O : Obligations.StreamCommandsComplete) : ∃ t, exec (.streamClose (hd 0 2) 512)
    (s0.setStream 512 (some { strm with slot := 3 })) = .next t :=
  ⟨_, (O.1 (s0.setStream 512 (some { strm with slot := 3 })) (hd 0 2) 0 x0 512 adm ok ok).2.2 _ rfl ok rfl⟩

theorem wit_StreamCommandsComplete_8 (O : Obligations.StreamCommandsComplete) : ∃ t, exec (.creditFrame (hd 0 8) 512 2
    9) sStream = .next t :=
  ⟨_, O.2 sStream (hd 0 8) 512 2 9 0 x0 strm ok ok ok ok ok ok ok ok ok ok ok⟩

theorem wit_ConsumedQueueRefusesStream_1 (O : Obligations.ConsumedQueueRefusesStream) : ∃ t, exec (.streamOpen (hd 0
    10) 512 1024 8 10) sStream = .next t :=
  ⟨_, O.1 sStream (hd 0 10) 0 x0 512 1024 10 8 adm ok ok rfl ok ok ok ok ok ok (.inl ok)⟩

theorem wit_ConsumedQueueRefusesStream_2 (O : Obligations.ConsumedQueueRefusesStream) : ∃ t, exec (.streamOpen (hd
    0xfe 10) 1024 256 8 1) (s0.setFlag F.QM_CFG.consumer true 1024) = .next t :=
  ⟨_, O.1 (s0.setFlag F.QM_CFG.consumer true 1024) (hd 0xfe 10) 0 x0 1024 256 1 8 adm ok ok rfl ok ok ok ok ok ok
    (.inr ok)⟩

theorem wit_ConsumedQueueRefusesStream_3 (O : Obligations.ConsumedQueueRefusesStream) : ∃ t, exec (.qmCfgWrite (hd
    0xff 10) 1023 0x118d) s0 = .next t :=
  ⟨_, O.2.1 s0 (hd 0xff 10) 0 x0 1023 0x118d adm rfl rfl ok ok⟩

/-! ### Calibration and self-test -/

theorem pair_of {α β : Type} {p : α × β} {a : α} (h : p.1 = a) : p = (a, p.2) := by cases h; rfl

def found0 : TestFinding := ⟨0, 0, [0, 0, 0, 0], 0, 0, 0, 0⟩
def opOf (k : OpKind) : OpRec := ⟨0, 0, 0x50, k, false, 0, 0, 0, 0⟩
def sCal (k : OpKind) : State := (s0.setOp 7 (some (opOf k))).withCalOp (some 7)
def mm1 : CalMeas := ⟨4, 0, [[65535]], [], 60⟩
def meas1 : List CalMeas := [mm1]
def mm0 : CalMeas := ⟨2, 5, [[9, 4], [3, 3], [3, 2]], [77], 60⟩
def meas0 : List CalMeas := [mm0]

theorem wit_CalibrationCommandsComplete_1 (O : Obligations.CalibrationCommandsComplete) : ∃ t, exec (.calRead (hd 0xff
    2) 15 0) s0 = .next t :=
  ⟨_, (O s0 (hd 0xff 2) 0 x0 adm).1 15 0 rfl rfl ok ok ok ok⟩

theorem wit_CalibrationCommandsComplete_2 (O : Obligations.CalibrationCommandsComplete) : ∃ t, exec (.calRead (hd 0xff
    2) 255 4) s0 = .next t :=
  ⟨_, (O s0 (hd 0xff 2) 0 x0 adm).1 255 4 rfl rfl ok ok ok ok⟩

theorem wit_CalibrationCommandsComplete_3 (O : Obligations.CalibrationCommandsComplete) : ∃ t, exec (.selftestRead (hd
    0xff 0)) s0 = .next t :=
  ⟨_, (O s0 (hd 0xff 0) 0 x0 adm).2.1 _ ok rfl rfl⟩

theorem wit_CalibrationCommandsComplete_4 (O : Obligations.CalibrationCommandsComplete) : ∃ t, exec (.calRun (hd 0 6)
    2 1 [15]) s0 = .next t :=
  ⟨_, ((O s0 (hd 0 6) 0 x0 adm).2.2 ok ok 0 ok).1 2 1 [15] rfl rfl ok ok ok ok⟩

theorem wit_CalibrationCommandsComplete_5 (O : Obligations.CalibrationCommandsComplete) : ∃ t, exec (.calRun (hd 0xff
    5) 31 0 []) s0 = .next t :=
  ⟨_, ((O s0 (hd 0xff 5) 0 x0 adm).2.2 ok ok 0 ok).1 31 0 [] rfl rfl ok ok ok ok⟩

theorem wit_CalibrationCommandsComplete_6 (O : Obligations.CalibrationCommandsComplete) : ∃ t, exec (.calCommit (hd 0
    0)) s0 = .next t :=
  ⟨_, ((O s0 (hd 0 0) 0 x0 adm).2.2 ok ok 0 ok).2.1 rfl ok ok ok (.inr ok)⟩

theorem wit_CalibrationCommandsComplete_7 (O : Obligations.CalibrationCommandsComplete) : ∃ t, exec (.calCommit (hd
    0xff 0)) s0 = .next t :=
  ⟨_, ((O s0 (hd 0xff 0) 0 x0 adm).2.2 ok ok 0 ok).2.1 rfl ok ok ok (.inl rfl)⟩

theorem wit_CalibrationCommandsComplete_8 (O : Obligations.CalibrationCommandsComplete) : ∃ t, exec (.selftestRun (hd
    0 4) 1) s0 = .next t :=
  ⟨_, (((O s0 (hd 0 4) 0 x0 adm).2.2 ok ok 0 ok).2.2 1 rfl ok ok ok ok ok).1 ok (.inr ok) ok⟩

theorem wit_CalibrationCommandsComplete_9 (O : Obligations.CalibrationCommandsComplete) : ∃ t, exec (.selftestRun (hd
    0xff 4) 8) (s0.setFl F.YRD_STAT.state 2) = .next t :=
  ⟨_, (((O (s0.setFl F.YRD_STAT.state 2) (hd 0xff 4) 0 x0 adm).2.2 ok ok 0 ok).2.2 8 rfl ok ok ok ok ok).1 ok (.inl
    rfl) ok⟩

theorem wit_CalibrationCommandsComplete_10 (O : Obligations.CalibrationCommandsComplete) : ∃ t, exec (.selftestRun (hd
    0 4) 0x10) sLoaded = .next t :=
  ⟨_, (((O sLoaded (hd 0 4) 0 x0 adm).2.2 ok ok 0 ok).2.2 0x10 rfl ok ok ok ok ok).2 ok ok ok ok ok ((sLoaded.taken
    (hd 0 4) 0 x0).loopStart 0 0x10).2 0 (pair_of ok) ok⟩

theorem wit_CalibrationOperationsEnd_1 (O : Obligations.CalibrationOperationsEnd) : ∃ t, exec (.calRunDone 7 meas0)
    (sCal (.calRun 0 2 [5])) = .next t :=
  ⟨_, (O (sCal (.calRun 0 2 [5])) 7 _ rfl ok ok).1 _ _ _ meas0 rfl⟩

theorem wit_CalibrationOperationsEnd_2 (O : Obligations.CalibrationOperationsEnd) : ∃ t, exec (.calCommitDone 7) (sCal
    (.calCommit 0xff)) = .next t :=
  ⟨_, (O (sCal (.calCommit 0xff)) 7 _ rfl ok ok).2.1 _ rfl⟩

theorem wit_CalibrationOperationsEnd_3 (O : Obligations.CalibrationOperationsEnd) : ∃ t, exec (.calCommitDone 7) (sCal
    (.calCommit 0)) = .next t :=
  ⟨_, (O (sCal (.calCommit 0)) 7 _ rfl ok ok).2.1 _ rfl⟩

theorem wit_CalibrationOperationsEnd_4 (O : Obligations.CalibrationOperationsEnd) : ∃ t, exec (.selftestDone 7 {
    found0 with fail := 3 }) (sCal (.selftest 0xff 7)) = .next t :=
  ⟨_, (O (sCal (.selftest 0xff 7)) 7 _ rfl ok ok).2.2 _ _ { found0 with fail := 3 } rfl ok⟩

theorem wit_CalibrationOperationsEnd_5 (O : Obligations.CalibrationOperationsEnd) : ∃ t, exec (.selftestDone 7 found0)
    (sCal (.selftest 0 0x10)) = .next t :=
  ⟨_, (O (sCal (.selftest 0 0x10)) 7 _ rfl ok ok).2.2 _ _ found0 rfl ok⟩

theorem wit_BestCandidateIsKept_1 (O : Obligations.BestCandidateIsKept) : ((s0.measured meas0 2 5).calElem 2 5).codes
    = [77] :=
  by have h := (O s0 meas0 2 5 mm0 ok ok canon0 ok).2.1 ok; exact h.2.1

theorem wit_BestCandidateIsKept_2 (O : Obligations.BestCandidateIsKept) : ((s0.measured meas1 4 0).calElem 4 0).state
    = 3 :=
  by have h := (O s0 meas1 4 0 mm1 ok ok canon0 ok).1 ok; exact h.1

/-! ### The Yard -/

/-- A template of one operation of service 9 (R383); its CRC-32 over bytes 64 to 79 comes from an outside calculation. -/
def img0 : List Byte :=
  [1, 0, 1, 0, 0, 0, 0, 0, 255, 255, 1, 0, 255, 255, 255, 0, 255, 255, 0, 0, 175, 241, 25, 127] ++ List.replicate 40 0
    ++ [9, 0, 255, 255, 255, 255, 0, 0, 0, 0, 0, 0, 255, 255, 0, 0]

def sImg : State := (s0.writeWords (dcpWriter 0) 0x10000 (wordsOfBytes 10 img0)).withInited (mset (fun _ => false) s0.inited 0 true)
def sLoadOp (kind len : Nat) : State := sImg.startOp 7 0 0x60 (.yardLoad kind 3 0x10000 len)
/-- A module of eight bytes of code at entry 0 with a time limit of 1,000 µs (R398). -/
def mod0 : List Byte := [1, 0, 0, 0, 0, 0, 0, 0, 8, 0, 0, 0, 0, 0, 0, 0, 8, 0, 0, 0, 0, 0, 0, 0, 232, 3, 0, 0, 0, 0, 0, 0, 0, 0, 0, 0, 0, 0, 0, 0, 0, 0, 0, 0, 197, 136, 202, 63] ++ List.replicate 16 0
  ++ [1, 2, 3, 4, 5, 6, 7, 8]

def sModOp : State :=
  ((s0.writeWords (dcpWriter 0) 0x10000 (wordsOfBytes 9 mod0)).withInited (mset (fun _ => false) s0.inited 0 true)).startOp 7 0 0x60
    (.yardLoad 1 3 0x10000 72)
def sTmpl : State := s0.putTemplate 3 img0
def inst0 : Inst := ⟨0, 3, none, [], 0xff, 0xffff, [{ counter := 0, readyAt := some 0 }], [], false⟩
def sInst : State := sTmpl.createInst 3 yNone []
def sBusyCore : State := sInst.setCore 31 { work := some (0, 0), startAt := 0 }
def sQuiesce : State := s0.startOp 7 0 0x63 (.quiesce 0)
def sYflag : State := s0.withYflags (mset (fun _ => []) s0.yflags 0 [(100, 0xff, 0x81)])

theorem wit_YardCommandsComplete_1 (O : Obligations.YardCommandsComplete) : ∃ t, exec (.yardStatus (hd 0xfe 0)) s0 =
    .next t :=
  ⟨_, (O s0 (hd 0xfe 0) 0 x0 adm rfl).1 rfl⟩

theorem wit_YardCommandsComplete_2 (O : Obligations.YardCommandsComplete) : ∃ t, exec (.yardLoad (hd 0xfe 15) 0 4095
    0x10000 80) s0 = .next t :=
  ⟨_, ((O s0 (hd 0xfe 15) 0 x0 adm rfl).2.1 ok ok).1 0 4095 0x10000 80 0 rfl ok ok⟩

theorem wit_YardCommandsComplete_3 (O : Obligations.YardCommandsComplete) : ∃ t, exec (.yardUnload (hd 0xfe 3) 0 4095)
    s0 = .next t :=
  ⟨_, (((O s0 (hd 0xfe 3) 0 x0 adm rfl).2.1 ok ok).2.1 4095 rfl).1 ok ok⟩

theorem wit_YardCommandsComplete_4 (O : Obligations.YardCommandsComplete) : ∃ t, exec (.yardUnload (hd 0xfe 3) 1 255)
    s0 = .next t :=
  ⟨_, (((O s0 (hd 0xfe 3) 0 x0 adm rfl).2.1 ok ok).2.1 255 rfl).2 ok ok⟩

theorem wit_YardCommandsComplete_5 (O : Obligations.YardCommandsComplete) : ∃ t, exec (.yardQuiesce (hd 0xfe 0)) s0 =
    .next t :=
  ⟨_, ((O s0 (hd 0xfe 0) 0 x0 adm rfl).2.1 ok ok).2.2.1 0 rfl ok ok⟩

theorem wit_YardCommandsComplete_6 (O : Obligations.YardCommandsComplete) : ∃ t, exec (.yardResume (hd 0xfe 0)) s0 =
    .next t :=
  ⟨_, ((O s0 (hd 0xfe 0) 0 x0 adm rfl).2.1 ok ok).2.2.2 rfl⟩

theorem wit_YardCommandsComplete_7 (O : Obligations.YardCommandsComplete) : ∃ t, exec (.yardSubmit (hd 0xfe 6) 3 1023
    0 []) sTmpl = .next t :=
  ⟨_, (O sTmpl (hd 0xfe 6) 0 x0 adm rfl).2.2 3 1023 0 [] rfl rfl ok ok ok (.inl ok) ok ok ok ok ok⟩

theorem wit_YardCommandsComplete_8 (O : Obligations.YardCommandsComplete) : ∃ t, exec (.yardSubmit (hd 0xfe 6) 3
    0xffff 0 []) sTmpl = .next t :=
  ⟨_, (O sTmpl (hd 0xfe 6) 0 x0 adm rfl).2.2 3 0xffff 0 [] rfl rfl ok ok ok (.inr ok) ok ok ok ok ok⟩

theorem wit_YardEventsComplete_1 (O : Obligations.YardEventsComplete) : ∃ t, exec (.yardLoadDone 7) (sLoadOp 0 0) =
    .next t :=
  ⟨_, (O.1 (sLoadOp 0 0) 7 _ 0 3 0x10000 0 rfl rfl ok ok).1 (.inr rfl)⟩

theorem wit_YardEventsComplete_2 (O : Obligations.YardEventsComplete) : ∃ t, exec (.yardLoadDone 7) (sLoadOp 0 72) =
    .next t :=
  ⟨_, ((O.1 (sLoadOp 0 72) 7 _ 0 3 0x10000 72 rfl rfl ok ok).2 ok ok ok).1 ok⟩

theorem wit_YardEventsComplete_3 (O : Obligations.YardEventsComplete) : ∃ t, exec (.yardLoadDone 7) (sLoadOp 0 80) =
    .next t :=
  ⟨_, ((O.1 (sLoadOp 0 80) 7 _ 0 3 0x10000 80 rfl rfl ok ok).2 ok ok ok).2.1 ok ok⟩

theorem wit_YardEventsComplete_4 (O : Obligations.YardEventsComplete) : ∃ t, exec (.yardLoadDone 7) sModOp = .next t
    :=
  ⟨_, ((O.1 sModOp 7 _ 1 3 0x10000 72 rfl rfl ok ok).2 ok ok ok).2.2 ok ok⟩

theorem wit_YardEventsComplete_5 (O : Obligations.YardEventsComplete) : ∃ t, exec (.instanceCreate) (sTmpl.withDue
    [3]) = .next t :=
  ⟨_, O.2.1 (sTmpl.withDue [3]) 3 [] rfl ok ok ok⟩

theorem wit_YardEventsComplete_6 (O : Obligations.YardEventsComplete) : ∃ t, exec (.yardQuiesceDone 7) sQuiesce =
    .next t :=
  ⟨_, O.2.2.1 sQuiesce 7 _ 0 rfl rfl ok ok⟩

theorem wit_YardEventsComplete_7 (O : Obligations.YardEventsComplete) : ∃ t, exec (.workRequest 31) s0 = .next t :=
  ⟨_, (O.2.2.2.1 s0 31 ok ok).1 ok⟩

theorem wit_YardEventsComplete_8 (O : Obligations.YardEventsComplete) : ∃ t, exec (.workRequest 31) sInst = .next t :=
  ⟨_, (O.2.2.2.1 sInst 31 ok ok).2 inst0 0 ok (.inr (.inl ok))⟩

theorem wit_YardEventsComplete_9 (O : Obligations.YardEventsComplete) : ∃ t, exec (.operationComplete 31 [] 0)
    sBusyCore = .next t :=
  ⟨_, (O.2.2.2.2.1 sBusyCore 31 _ 0 inst0 rfl ok).1 [] 0 ok⟩

theorem wit_YardEventsComplete_10 (O : Obligations.YardEventsComplete) : ∃ t, exec (.operationTimeout ⟨31, []⟩)
    sBusyCore = .next t :=
  ⟨_, (O.2.2.2.2.1 sBusyCore 31 _ 0 inst0 rfl ok).2 []⟩

theorem wit_YardEventsComplete_11 (O : Obligations.YardEventsComplete) : ∃ t, exec (.yardflagUpdate 0) sYflag = .next
    t :=
  ⟨_, O.2.2.2.2.2 sYflag 0 100 0xff 0x81 [] ok⟩

/-! ### Time -/

def sRate : State := s0.setFlag F.TB_SYNC_CTL.master true
def sValid : State := s0.setFlag F.TB_STAT.valid true
def al (period : Nat) : Alarm := ⟨1000, period, 1, 0, false⟩
def sAlarm (period : Nat) : State := sValid.setAlarm 3 (some (al period))
def sPtp (role : Nat) : State := (sValid.setFl F.HP_LINK_STAT.state 4 2).setFl F.TB_PTP_CTL.role role 2
def sSyncIn : State := (s0.withNow 100).setFlag F.TB_SYNC_CTL.in_en true

theorem wit_TimeCommandsComplete_1 (O : Obligations.TimeCommandsComplete) : ∃ t, exec (.timeRead (hd 0xff 0)) s0 =
    .next t :=
  ⟨_, (O s0 (hd 0xff 0) 0 x0 adm rfl).1 rfl⟩

theorem wit_TimeCommandsComplete_2 (O : Obligations.TimeCommandsComplete) : ∃ t, exec (.timeSet (hd 0xff 22) 5
    999999999 1 (-1073741824)) s0 = .next t :=
  ⟨_, ((O s0 (hd 0xff 22) 0 x0 adm rfl).2.1 ok).1 5 999999999 1 (-1073741824) rfl ok ok ok ok ok⟩

theorem wit_TimeCommandsComplete_3 (O : Obligations.TimeCommandsComplete) : ∃ t, exec (.timeStep (hd 0xff 8) 7) s0 =
    .next t :=
  ⟨_, ((O s0 (hd 0xff 8) 0 x0 adm rfl).2.1 ok).2.1 7 rfl ok ok⟩

theorem wit_TimeCommandsComplete_4 (O : Obligations.TimeCommandsComplete) : ∃ t, exec (.alarmSet (hd 0xff 22) 15 8 1
    999999999 1000) s0 = .next t :=
  ⟨_, ((O s0 (hd 0xff 22) 0 x0 adm rfl).2.1 ok).2.2.1 15 8 1 999999999 1000 rfl ok ok ok ok (.inr ok) ok⟩

theorem wit_TimeCommandsComplete_5 (O : Obligations.TimeCommandsComplete) : ∃ t, exec (.alarmSet (hd 0xff 22) 0 0 0 0
    0) s0 = .next t :=
  ⟨_, ((O s0 (hd 0xff 22) 0 x0 adm rfl).2.1 ok).2.2.1 0 0 0 0 0 rfl ok ok ok ok (.inl ok) ok⟩

theorem wit_TimeCommandsComplete_6 (O : Obligations.TimeCommandsComplete) : ∃ t, exec (.alarmCancel (hd 0xff 1) 15) s0
    = .next t :=
  ⟨_, ((O s0 (hd 0xff 1) 0 x0 adm rfl).2.1 ok).2.2.2.1 15 rfl ok⟩

theorem wit_TimeCommandsComplete_7 (O : Obligations.TimeCommandsComplete) : ∃ t, exec (.tsqRead (hd 0xff 2) 7 64) s0 =
    .next t :=
  ⟨_, ((O s0 (hd 0xff 2) 0 x0 adm rfl).2.1 ok).2.2.2.2 7 64 rfl ok ok ok⟩

theorem wit_TimeCommandsComplete_8 (O : Obligations.TimeCommandsComplete) : ∃ t, exec (.timeStep (hd 0xff 8) 7) sFree
    = .next t :=
  ⟨_, (O sFree (hd 0xff 8) 0 x0 adm rfl).2.2 ok 7 rfl⟩

theorem wit_TimeReadIsOneEdge_1 (O : Obligations.TimeReadIsOneEdge) : ∃ t, exec (.timeRead (hd 0xff 0)) s0 = .next t
    :=
  (O.1 s0 (hd 0xff 0) 0 x0 adm rfl rfl ok).elim fun t e => ⟨t, e.1⟩

theorem wit_TimeReadIsOneEdge_2 (O : Obligations.TimeReadIsOneEdge) : (s0.regReads [R.addr .TB_CNT_LO]).1 = [0] :=
  (O.2 s0 0 0 0 .TB_RATE_HI canon0 ok).1.trans (ok (p := [BitVec.ofNat 32 (s0.cnt.toNat % 2 ^ 32)] = [0]))

theorem wit_TimeEventsComplete_1 (O : Obligations.TimeEventsComplete) : ∃ t, exec (.syncOutPulse) (sRate.withSyncDue
    [100]) = .next t :=
  ⟨_, O.1 (sRate.withSyncDue [100]) 100 [] ok ok ok⟩

theorem wit_TimeEventsComplete_2 (O : Obligations.TimeEventsComplete) : ∃ t, exec (.syncOutPulse) (sRate.withSyncOut {
    high := true, fallAt := some 9 }) = .next t :=
  ⟨_, O.2.1 (sRate.withSyncOut { high := true, fallAt := some 9 }) 9 ok ok ok⟩

theorem wit_TimeEventsComplete_3 (O : Obligations.TimeEventsComplete) : ∃ t, exec (.syncEpochBoundary false false 0 0)
    sSyncIn = .next t :=
  ⟨_, O.2.2.1 sSyncIn false false 0 0 ok ok⟩

theorem wit_TimeEventsComplete_4 (O : Obligations.TimeEventsComplete) : ∃ t, exec (.syncEpochBoundary true true 3
    2499) sSyncIn = .next t :=
  ⟨_, O.2.2.1 sSyncIn true true 3 2499 ok ok⟩

theorem wit_TimeEventsComplete_5 (O : Obligations.TimeEventsComplete) : ∃ t, exec (.trigInEdge 3 true) s0 = .next t :=
  ⟨_, O.2.2.2.1 s0 3 ok⟩

theorem wit_TimeEventsComplete_6 (O : Obligations.TimeEventsComplete) : ∃ t, exec (.alarmFire 3) (sAlarm 0) = .next t
    :=
  ⟨_, (O.2.2.2.2.1 (sAlarm 0) 3 (al 0) ok ok ok).1 rfl⟩

theorem wit_TimeEventsComplete_7 (O : Obligations.TimeEventsComplete) : ∃ t, exec (.alarmFire 3) (sAlarm 65536000) =
    .next t :=
  ⟨_, (O.2.2.2.2.1 (sAlarm 65536000) 3 (al 65536000) ok ok ok).2 ok⟩

theorem wit_TimeEventsComplete_8 (O : Obligations.TimeEventsComplete) : ∃ t, exec (.toutPulse 3) (s0.withTout (mset
    (fun _ => ({} : Pulse)) s0.tout 3 { riseAt := some 5 })) = .next t :=
  ⟨_, (O.2.2.2.2.2.1 (s0.withTout (mset (fun _ => ({} : Pulse)) s0.tout 3 { riseAt := some 5 })) 3 { riseAt := some 5
    } 5 ok ok).1 rfl rfl⟩

theorem wit_TimeEventsComplete_9 (O : Obligations.TimeEventsComplete) : ∃ t, exec (.toutPulse 3) (s0.withTout (mset
    (fun _ => ({} : Pulse)) s0.tout 3 { fallAt := some 5, high := true })) = .next t :=
  ⟨_, (O.2.2.2.2.2.1 (s0.withTout (mset (fun _ => ({} : Pulse)) s0.tout 3 { fallAt := some 5, high := true })) 3 {
    fallAt := some 5, high := true } 5 ok ok).2 rfl rfl⟩

theorem wit_TimeEventsComplete_10 (O : Obligations.TimeEventsComplete) : ∃ t, exec (.ptpMessageRx 2 ⟨false, .other 0⟩)
    (sPtp 2) = .next t :=
  ⟨_, ((O.2.2.2.2.2.2.1 (sPtp 2) 2 false (.other 0) ok).2 ok (.inl rfl)).2 ok |>.1 ok⟩

theorem wit_TimeEventsComplete_11 (O : Obligations.TimeEventsComplete) : ∃ t, exec (.ptpMessageRx 2 ⟨false, .other 0⟩)
    (sPtp 1) = .next t :=
  ⟨_, ((O.2.2.2.2.2.2.1 (sPtp 1) 2 false (.other 0) ok).2 ok (.inl rfl)).2 ok |>.2 ok⟩

theorem wit_TimeEventsComplete_12 (O : Obligations.TimeEventsComplete) : ∃ t, exec (.ptpMessageRx 2 ⟨false, .other 9⟩)
    (sPtp 1) = .next t :=
  ⟨_, ((O.2.2.2.2.2.2.1 (sPtp 1) 2 false (.other 9) ok).2 ok (.inl rfl)).1 ok⟩

theorem wit_TimeEventsComplete_13 (O : Obligations.TimeEventsComplete) : ∃ t, exec (.ptpMessageRx 2 ⟨false, .other 0⟩)
    (sPtp 0) = .next t :=
  ⟨_, (O.2.2.2.2.2.2.1 (sPtp 0) 2 false (.other 0) ok).1 (.inl ok)⟩

theorem wit_TimeEventsComplete_14 (O : Obligations.TimeEventsComplete) : ∃ t, exec (.ptpMessageRx 2 ⟨true, .other 0⟩)
    (sPtp 1) = .next t :=
  ⟨_, (O.2.2.2.2.2.2.1 (sPtp 1) 2 true (.other 0) ok).1 (.inr ok)⟩

theorem wit_TimeEventsComplete_15 (O : Obligations.TimeEventsComplete) : ∃ t, exec (.ptpSyncInterval 2 77) (sPtp 2) =
    .next t :=
  ⟨_, O.2.2.2.2.2.2.2.1 (sPtp 2) 2 77 ok ok⟩

theorem wit_TimeEventsComplete_16 (O : Obligations.TimeEventsComplete) : ∃ t, exec (.ptpHoldover) (sPtp 1) = .next t
    :=
  ⟨_, O.2.2.2.2.2.2.2.2 (sPtp 1) 2 ok⟩

/-! ### Faults -/

def sHold : State := s0.setFlag F.STL_SEQ_STAT.fault_hold true 0
def sLiveHold : State := (sHold.setSrcBit .FLC_LIVE 0 true).setReaction 0 2
def sCalm : State := s0.setReaction 7 0
theorem calmCanon : sCalm.Canon := by constructor <;> decide +kernel

theorem wit_FaultCommandsComplete_1 (O : Obligations.FaultCommandsComplete) : ∃ t, exec (.faultRead (hd 0xff 0)) s0 =
    .next t :=
  ⟨_, (O s0 (hd 0xff 0) 0 x0 adm).1 rfl rfl⟩

theorem wit_FaultCommandsComplete_2 (O : Obligations.FaultCommandsComplete) : ∃ t, exec (.faultClear (hd 0xff 33)
    0xffff 1) s0 = .next t :=
  ⟨_, ((O s0 (hd 0xff 33) 0 x0 adm).2.1 rfl ok).1 0xffff 1 rfl ok⟩

theorem wit_FaultCommandsComplete_3 (O : Obligations.FaultCommandsComplete) : ∃ t, exec (.faultReaction (hd 0xff 2)
    144 5) s0 = .next t :=
  ⟨_, ((O s0 (hd 0xff 2) 0 x0 adm).2.1 rfl ok).2.1 144 5 rfl ok ok ok ok⟩

theorem wit_FaultCommandsComplete_4 (O : Obligations.FaultCommandsComplete) : ∃ t, exec (.faultInject (hd 0xff 1) 12)
    s0 = .next t :=
  ⟨_, (((O s0 (hd 0xff 1) 0 x0 adm).2.1 rfl ok).2.2 12 rfl ok ok).1 ok ok⟩

theorem wit_FaultCommandsComplete_5 (O : Obligations.FaultCommandsComplete) : ∃ t, exec (.faultInject (hd 0xff 1) 12)
    (s0.setFlag F.FLC_INJECT.pending true) = .next t :=
  ⟨_, (((O (s0.setFlag F.FLC_INJECT.pending true) (hd 0xff 1) 0 x0 adm).2.1 rfl ok).2.2 12 rfl ok ok).2.1 ok ok⟩

theorem wit_FaultCommandsComplete_6 (O : Obligations.FaultCommandsComplete) : ∃ t, exec (.faultInject (hd 0xff 1) 7)
    s0 = .next t :=
  ⟨_, (((O s0 (hd 0xff 1) 0 x0 adm).2.1 rfl ok).2.2 7 rfl ok ok).2.2 ok⟩

theorem wit_FaultCommandsComplete_7 (O : Obligations.FaultCommandsComplete) : ∃ t, exec (.faultRelease (hd 15 0)) s0 =
    .next t :=
  ⟨_, ((O s0 (hd 15 0) 0 x0 adm).2.2 15 rfl ok rfl ok).1 ok⟩

theorem wit_FaultCommandsComplete_8 (O : Obligations.FaultCommandsComplete) : ∃ t, exec (.faultRelease (hd 0 0)) sHold
    = .next t :=
  ⟨_, ((O sHold (hd 0 0) 0 x0 adm).2.2 0 rfl ok rfl ok).2.2 ok ok⟩

theorem wit_FaultCommandsComplete_9 (O : Obligations.FaultCommandsComplete) : ∃ t, exec (.faultRelease (hd 0 0))
    sLiveHold = .next t :=
  ⟨_, ((O sLiveHold (hd 0 0) 0 x0 adm).2.2 0 rfl ok rfl ok).2.1 ok ok⟩

theorem wit_FaultEventsComplete_1 (O : Obligations.FaultEventsComplete) : ∃ t, exec (.faultActivation 5 1) s0 = .next
    t :=
  ⟨_, (O.1 s0 5 1 ok ok).1 ok⟩

theorem wit_FaultEventsComplete_2 (O : Obligations.FaultEventsComplete) : ∃ t, exec (.faultActivation 31 512) s0 =
    .next t :=
  ⟨_, (O.1 s0 31 512 ok ok).2 ok⟩

theorem wit_FaultEventsComplete_3 (O : Obligations.FaultEventsComplete) : ∃ t, exec (.watchdog) s0 = .next t :=
  ⟨_, O.2.1 s0⟩

theorem wit_FaultEventsComplete_4 (O : Obligations.FaultEventsComplete) : ∃ t, exec (.condSourceInactive 6) s0 = .next
    t :=
  ⟨_, (O.2.2.1 s0 6 ok ok).1 ok⟩

theorem wit_FaultEventsComplete_5 (O : Obligations.FaultEventsComplete) : ∃ t, exec (.condSourceInactive 11) s0 =
    .next t :=
  ⟨_, (O.2.2.1 s0 11 ok ok).2 ok⟩

theorem wit_FaultEventsComplete_6 (O : Obligations.FaultEventsComplete) : ∃ t, exec (.faultyPair 5 true) s0 = .next t
    :=
  ⟨_, (O.2.2.2.1 s0 5 ok).1 ok⟩

theorem wit_FaultEventsComplete_7 (O : Obligations.FaultEventsComplete) : ∃ t, exec (.faultyPair 255 false)
    (s0.setSrcBit .FLC_WIRE 255 true) = .next t :=
  ⟨_, ((O.2.2.2.1 (s0.setSrcBit .FLC_WIRE 255 true) 255 ok).2 ok).1 ok⟩

theorem wit_FaultEventsComplete_8 (O : Obligations.FaultEventsComplete) : ∃ t, exec (.faultyPair 5 false)
    ((s0.setSrcBit .FLC_WIRE 5 true).setCond 5 true) = .next t :=
  ⟨_, ((O.2.2.2.1 ((s0.setSrcBit .FLC_WIRE 5 true).setCond 5 true) 5 ok).2 ok).2.1 ok ok ok⟩

theorem wit_FaultEventsComplete_9 (O : Obligations.FaultEventsComplete) : ∃ t, exec (.faultyPair 5 false)
    (s0.setSrcBit .FLC_WIRE 5 true) = .next t :=
  ⟨_, ((O.2.2.2.1 (s0.setSrcBit .FLC_WIRE 5 true) 5 ok).2 ok).2.2 ok ok ok⟩

theorem wit_FaultEventsComplete_10 (O : Obligations.FaultEventsComplete) : ∃ t, exec (.shadowEnd .qm) (s0.withShadows
    [⟨.qm, some 50⟩]) = .next t :=
  ⟨_, O.2.2.2.2.1 (s0.withShadows [⟨.qm, some 50⟩]) .qm ⟨.qm, some 50⟩ 50 ok rfl⟩

theorem wit_FaultEventsComplete_11 (O : Obligations.FaultEventsComplete) : ∃ t, exec (.blockResetComplete .qm)
    (s0.withRst [.qm]) = .next t :=
  ⟨_, O.2.2.2.2.2 (s0.withRst [.qm]) .qm ok⟩

theorem wit_InjectionIsReported_1 (O : Obligations.InjectionIsReported) : ∃ t, exec (.faultInject (hd 0xff 1) 7) sCalm
    = .next t ∧ t.srcBit .FLC_STICKY 7 = true :=
  ⟨_, rfl, (O sCalm _ (hd 0xff 1) 0 x0 7 adm rfl rfl ok ok ok ok ok ok calmCanon ok ok ok ok rfl).1⟩

/-! ### Tack store and firmware -/

def d64 : List Byte := List.replicate 64 7
def sFw : State := s0.startOp 7 0 0x93 .fwVerify
def sSlotB : State := s0.setFlag (slotValid 1) true

theorem wit_TackAndFirmwareCommandsComplete_1 (O : Obligations.TackAndFirmwareCommandsComplete) : ∃ t, exec (.tackRead
    (hd 0xff 6) 0xffffc0 64) s0 = .next t :=
  ⟨_, ((O.1 s0 (hd 0xff 6) 0 x0 adm rfl).1 0xffffc0 64 ok).1 rfl ok⟩

theorem wit_TackAndFirmwareCommandsComplete_2 (O : Obligations.TackAndFirmwareCommandsComplete) : ∃ t, exec
    (.tackWrite (hd 0xff 70) 0xf00000 64 d64) s0 = .next t :=
  ⟨_, (((O.1 s0 (hd 0xff 70) 0 x0 adm rfl).1 0xf00000 64 ok).2 d64 rfl rfl).1 ok ok |>.1 ok⟩

theorem wit_TackAndFirmwareCommandsComplete_3 (O : Obligations.TackAndFirmwareCommandsComplete) : ∃ t, exec
    (.tackWrite (hd 0xff 70) 0xffffc0 64 d64) sFree = .next t :=
  ⟨_, (((O.1 sFree (hd 0xff 70) 0 x0 adm rfl).1 0xffffc0 64 ok).2 d64 rfl rfl).1 ok ok |>.2 ok⟩

theorem wit_TackAndFirmwareCommandsComplete_4 (O : Obligations.TackAndFirmwareCommandsComplete) : ∃ t, exec (.fwWrite
    (hd 0xff 70) 0x1dffc0 64 d64) s0 = .next t :=
  ⟨_, (((O.1 s0 (hd 0xff 70) 0 x0 adm rfl).1 0x1dffc0 64 ok).2 d64 rfl rfl).2 ok ok⟩

theorem wit_TackAndFirmwareCommandsComplete_5 (O : Obligations.TackAndFirmwareCommandsComplete) : ∃ t, exec (.fwVerify
    (hd 0xff 0)) s0 = .next t :=
  ⟨_, ((O.1 s0 (hd 0xff 0) 0 x0 adm rfl).2.1 rfl ok).1 0 ok⟩

theorem wit_TackAndFirmwareCommandsComplete_6 (O : Obligations.TackAndFirmwareCommandsComplete) : ∃ t, exec
    (.fwActivate (hd 0xff 0)) sSlotB = .next t :=
  ⟨_, ((O.1 sSlotB (hd 0xff 0) 0 x0 adm rfl).2.1 rfl ok).2.1 ok⟩

theorem wit_TackAndFirmwareCommandsComplete_7 (O : Obligations.TackAndFirmwareCommandsComplete) : ∃ t, exec
    (.fwActivate (hd 0xff 0)) s0 = .next t :=
  ⟨_, ((O.1 s0 (hd 0xff 0) 0 x0 adm rfl).2.1 rfl ok).2.2 ok⟩

theorem wit_TackAndFirmwareCommandsComplete_8 (O : Obligations.TackAndFirmwareCommandsComplete) : ∃ t, exec (.ident
    (hd 0xff 0)) s0 = .next t :=
  ⟨_, (O.1 s0 (hd 0xff 0) 0 x0 adm rfl).2.2 rfl⟩

theorem wit_TackAndFirmwareCommandsComplete_9 (O : Obligations.TackAndFirmwareCommandsComplete) : ∃ t, exec
    (.fwVerifyDone 7 (sFw.slotPasses sFw.inactive)) sFw = .next t :=
  ⟨_, O.2 sFw 7 _ rfl rfl ok _ rfl⟩

theorem wit_TackWriteStoresItsBytesOnly_1 (O : Obligations.TackWriteStoresItsBytesOnly) : ∃ t, exec (.tackWrite (hd
    0xff 70) 0xf00000 64 d64) s0 = .next t ∧ t.tackB 0xf00002 = 7 :=
  ⟨_, rfl, (O s0 _ (hd 0xff 70) 0 x0 0xf00000 64 d64 adm rfl rfl rfl ok ok ok ok ok canon0 rfl).1 2 ok⟩

/-! ### DRAM -/

def mig0 (w : Nat) (paused : Bool) : Mig := ⟨0, 0, 3, w, paused⟩
def sInit0 : State := s0.withInited (mset (fun _ => false) s0.inited 0 true)
def sBare0 : State := s0.withDram ⟨List.replicate 6 0x113, 2, []⟩
def sMig (w : Nat) : State := s0.withMig (some (mig0 w false))
def sSpare : State := s0.withDram ⟨List.replicate 6 0x1f3, 2, [0, 1, 2, 3, 4, 5]⟩
def sScrub : State := (s0.startOp 7 0 0xa3 (.scrub [0])).withScrubOp (some (7, 0, []))
def sPanic : State := s0.setStall 0 { s0.stall 0 with panic := true }
def sPd : State := s0.setFl F.MC_SYS_PWR.pd_timer 5
def sSr : State := s0.setFlag F.MC_SYS_PWR.sr_en true

theorem wit_DramCommandsComplete_1 (O : Obligations.DramCommandsComplete) : ∃ t, exec (.mcStatus (hd 0xff 1) 5) s0 =
    .next t :=
  ⟨_, (O s0 (hd 0xff 1) 0 x0 adm rfl).2.1 5 ok rfl ok⟩

theorem wit_DramCommandsComplete_2 (O : Obligations.DramCommandsComplete) : ∃ t, exec (.mcStatus (hd 0xff 1) 5) sBare0
    = .next t :=
  ⟨_, ((O sBare0 (hd 0xff 1) 0 x0 adm rfl).1 ok).1 5 rfl ok⟩

theorem wit_DramCommandsComplete_3 (O : Obligations.DramCommandsComplete) : ∃ t, exec (.migStatus (hd 0xff 0)) sBare0
    = .next t :=
  ⟨_, ((O sBare0 (hd 0xff 0) 0 x0 adm rfl).1 ok).2.1 rfl⟩

theorem wit_DramCommandsComplete_4 (O : Obligations.DramCommandsComplete) : ∃ t, exec (.rankRetire (hd 0xff 2) 5 0)
    sBare0 = .next t :=
  ⟨_, ((O sBare0 (hd 0xff 2) 0 x0 adm rfl).1 ok).2.2.1 5 0 rfl ok ok ok⟩

theorem wit_DramCommandsComplete_5 (O : Obligations.DramCommandsComplete) : ∃ t, exec (.scrub (hd 0xff 1) 0xff) sBare0
    = .next t :=
  ⟨_, ((O sBare0 (hd 0xff 1) 0 x0 adm rfl).1 ok).2.2.2 0xff rfl (.inr rfl)⟩

theorem wit_DramCommandsComplete_6 (O : Obligations.DramCommandsComplete) : ∃ t, exec (.migStatus (hd 0xff 0)) (sMig
    256) = .next t :=
  ⟨_, ((O (sMig 256) (hd 0xff 0) 0 x0 adm rfl).2.2.1 ok rfl).1 _ rfl⟩

theorem wit_DramCommandsComplete_7 (O : Obligations.DramCommandsComplete) : ∃ t, exec (.migStatus (hd 0xff 0)) s0 =
    .next t :=
  (((O s0 (hd 0xff 0) 0 x0 adm rfl).2.2.1 ok rfl).2 rfl).elim fun _ e => ⟨_, e⟩

theorem wit_DramCommandsComplete_8 (O : Obligations.DramCommandsComplete) : ∃ t, exec (.rankRetire (hd 0xff 2) 5 0)
    sSpare = .next t :=
  ⟨_, ((O sSpare (hd 0xff 2) 0 x0 adm rfl).2.2.2 ok ok ok 0 ok).1 5 0 rfl ok ok ok ok ok ok⟩

theorem wit_DramCommandsComplete_9 (O : Obligations.DramCommandsComplete) : ∃ t, exec (.scrub (hd 0xff 1) 0xff) s0 =
    .next t :=
  ⟨_, ((O s0 (hd 0xff 1) 0 x0 adm rfl).2.2.2 ok ok ok 0 ok).2 0xff rfl (.inr rfl) ok⟩

theorem wit_DramCommandsComplete_10 (O : Obligations.DramCommandsComplete) : ∃ t, exec (.scrub (hd 0xff 1) 5) s0 =
    .next t :=
  ⟨_, ((O s0 (hd 0xff 1) 0 x0 adm rfl).2.2.2 ok ok ok 0 ok).2 5 rfl (.inl ok) ok⟩

theorem wit_DramEventsComplete_1 (O : Obligations.DramEventsComplete) : ∃ t, exec (.dramRequest .dcp 0x1000 none
    .asStored) s0 = .next t :=
  ⟨_, (O.1 s0 .dcp 0x1000 none .asStored 0x1000 ok ok ok).2 (.inl ok)⟩

theorem wit_DramEventsComplete_2 (O : Obligations.DramEventsComplete) : ∃ t, exec (.dramRequest .dcp 0x1000 none
    .asStored) sInit0 = .next t :=
  ⟨_, (O.1 sInit0 .dcp 0x1000 none .asStored 0x1000 ok ok ok).1 ok ok ok⟩

theorem wit_DramEventsComplete_3 (O : Obligations.DramEventsComplete) : ∃ t, exec (.regionFill 0) s0 = .next t :=
  ⟨_, O.2.1 s0 0 ok ok⟩

theorem wit_DramEventsComplete_4 (O : Obligations.DramEventsComplete) : ∃ t, exec (.refreshInterval 5 3) s0 = .next t
    :=
  ⟨_, ((O.2.2.1 s0 5 3 ok).1 ok).1 ok⟩

theorem wit_DramEventsComplete_5 (O : Obligations.DramEventsComplete) : ∃ t, exec (.refreshInterval 0 0) sPanic =
    .next t :=
  ⟨_, ((O.2.2.1 sPanic 0 0 ok).1 ok).2.1 ok ok⟩

theorem wit_DramEventsComplete_6 (O : Obligations.DramEventsComplete) : ∃ t, exec (.refreshInterval 0 0)
    (sPanic.setDebt 0 0 4) = .next t :=
  ⟨_, ((O.2.2.1 (sPanic.setDebt 0 0 4) 0 0 ok).1 ok).2.2.1 ok ok⟩

theorem wit_DramEventsComplete_7 (O : Obligations.DramEventsComplete) : ∃ t, exec (.powerDownEntry 0 3) sPd = .next t
    :=
  ⟨_, ((O.2.2.1 sPd 0 3 ok).1 ok).2.2.2 ok ok⟩

theorem wit_DramEventsComplete_8 (O : Obligations.DramEventsComplete) : ∃ t, exec (.selfRefreshEntry 0 3) sSr = .next
    t :=
  ⟨_, (O.2.2.1 sSr 0 3 ok).2 ok⟩

theorem wit_DramEventsComplete_9 (O : Obligations.DramEventsComplete) : ∃ t, exec (.mr4Poll 5 [1, 1, 1, 1] [85, 85,
    85, 85]) s0 = .next t :=
  ⟨_, O.2.2.2.1 s0 5 [1, 1, 1, 1] [85, 85, 85, 85] ok⟩

theorem wit_DramEventsComplete_10 (O : Obligations.DramEventsComplete) : ∃ t, exec (.rowDisturbanceWindowEnd 5) s0 =
    .next t :=
  ⟨_, O.2.2.2.2.1 s0 5⟩

theorem wit_DramEventsComplete_11 (O : Obligations.DramEventsComplete) : ∃ t, exec (.migrationUnitCopy []) (sMig 0) =
    .next t :=
  ⟨_, (O.2.2.2.2.2.1 (sMig 0) (mig0 0 false) [] rfl rfl).1 ok ok⟩

theorem wit_DramEventsComplete_12 (O : Obligations.DramEventsComplete) : ∃ t, exec (.migrationDone) (sMig (2 ^ 40)) =
    .next t :=
  ⟨_, (O.2.2.2.2.2.1 (sMig (2 ^ 40)) (mig0 (2 ^ 40) false) [] rfl rfl).2 ok⟩

theorem wit_DramEventsComplete_13 (O : Obligations.DramEventsComplete) : ∃ t, exec (.scrubDone 7) sScrub = .next t :=
  ⟨_, O.2.2.2.2.2.2.1 sScrub 7 _ 0 [] [0] rfl rfl ok rfl 0 [] ok⟩

theorem wit_DramEventsComplete_14 (O : Obligations.DramEventsComplete) : ∃ t, exec (.warmRetrain 5) (s0.setFlag
    F.MC_STAT.retraining true 5) = .next t :=
  ⟨_, (O.2.2.2.2.2.2.2 (s0.setFlag F.MC_STAT.retraining true 5) 5 true).1 ok ok⟩

theorem wit_DramEventsComplete_15 (O : Obligations.DramEventsComplete) : ∃ t, exec (.retrainingComplete 5 false)
    (s0.withRetrain [(5, true)]) = .next t :=
  ⟨_, (O.2.2.2.2.2.2.2 (s0.withRetrain [(5, true)]) 5 false).2 ok⟩

/-! ### Power, clocks and resets -/

def si0 : StartIn := ⟨0x01, 200, 200, 63, true, 60, 60⟩
theorem resetCanon : State.reset.Canon := by constructor <;> decide +kernel
def sRails : State := (State.reset.withPhase .coldRails).withStartIn (some si0)
def sDark : State := s0.setFlag F.PCR_SUPPLY_STAT.vmain_ok false
def sBoth : State := s0.setFlag F.PCR_SUPPLY_STAT.vaux_ok true
def sVaux : State := (sBoth.setFlag F.PCR_SUPPLY_STAT.on_vaux true)
def sClk : State := (s0.setFlag F.PCR_CLK_STAT.refclk_present true).setFlag F.PCR_CLK_STAT.root_lock true

theorem wit_ResetAndStartComplete_1 (O : Obligations.ResetAndStartComplete) : ∃ t, exec (.coldReset (.porst 19)) s0 =
    .next t :=
  ⟨_, ((O.1 s0 19).1 ok).1⟩

theorem wit_ResetAndStartComplete_2 (O : Obligations.ResetAndStartComplete) : ∃ t, exec (.warmReset (.pin 19)) s0 =
    .next t :=
  ⟨_, ((O.1 s0 19).1 ok).2⟩

theorem wit_ResetAndStartComplete_3 (O : Obligations.ResetAndStartComplete) : ∃ t, exec (.coldReset (.porst 50)) s0 =
    .next t :=
  ⟨_, ((O.1 s0 50).2.2 ok).1 ok⟩

theorem wit_ResetAndStartComplete_4 (O : Obligations.ResetAndStartComplete) : ∃ t, exec (.warmReset (.pin 50)) s0 =
    .next t :=
  ⟨_, ((O.1 s0 50).2.2 ok).2⟩

theorem wit_ResetAndStartComplete_5 (O : Obligations.ResetAndStartComplete) : ∃ t, exec (.coldReset (.porst 49)) s0 =
    .next t :=
  ((O.1 s0 49).2.1 ok ok).1.elim (fun h => ⟨_, h⟩) (fun h => ⟨_, h⟩)

theorem wit_ResetAndStartComplete_6 (O : Obligations.ResetAndStartComplete) : ∃ t, exec (.warmReset (.pin 20)) s0 =
    .next t :=
  ((O.1 s0 20).2.1 ok ok).2.elim (fun h => ⟨_, h⟩) (fun h => ⟨_, h⟩)

theorem wit_ResetAndStartComplete_7 (O : Obligations.ResetAndStartComplete) : ∃ t, exec (.coldReset .cmd)
    (s0.withResetAt (some (90, .cold))) = .next t :=
  ⟨_, O.2.1 (s0.withResetAt (some (90, .cold))) 90 rfl⟩

theorem wit_ResetAndStartComplete_8 (O : Obligations.ResetAndStartComplete) : ∃ t, exec (.coldReset .supply) sDark =
    .next t :=
  ⟨_, O.2.2.1 sDark ok ok ok⟩

theorem wit_ResetAndStartComplete_9 (O : Obligations.ResetAndStartComplete) : ∃ t, exec (.warmReset .clock)
    (s0.withClockStopped true) = .next t :=
  ⟨_, O.2.2.2.1 (s0.withClockStopped true) rfl⟩

theorem wit_ResetAndStartComplete_10 (O : Obligations.ResetAndStartComplete) : ∃ t, exec (.warmReset .cmd)
    (s0.withResetAt (some (90, .warm .cmd))) = .next t :=
  ⟨_, (O.2.2.2.2.1 (s0.withResetAt (some (90, .warm .cmd))) 90).1 rfl⟩

theorem wit_ResetAndStartComplete_11 (O : Obligations.ResetAndStartComplete) : ∃ t, exec (.warmReset .fault)
    (s0.withResetAt (some (90, .warm .fault))) = .next t :=
  ⟨_, ((O.2.2.2.2.1 (s0.withResetAt (some (90, .warm .fault))) 90).2 rfl).1⟩

theorem wit_ResetAndStartComplete_12 (O : Obligations.ResetAndStartComplete) : ∃ t, exec (.deviceReset)
    (s0.withResetAt (some (90, .warm .fault))) = .next t :=
  ⟨_, ((O.2.2.2.2.1 (s0.withResetAt (some (90, .warm .fault))) 90).2 rfl).2⟩

theorem wit_ResetAndStartComplete_13 (O : Obligations.ResetAndStartComplete) : ∃ t, exec (.coldStart si0) State.reset
    = .next t :=
  (O.2.2.2.2.2.1 State.reset si0 resetCanon rfl rfl (.inl ok)).elim fun _ e => ⟨_, e.1⟩

theorem wit_ResetAndStartComplete_14 (O : Obligations.ResetAndStartComplete) : ∃ t, exec (.rootPllLock) sRails = .next
    t :=
  ⟨_, O.2.2.2.2.2.2.1 sRails si0 rfl rfl⟩

theorem wit_ResetAndStartComplete_15 (O : Obligations.ResetAndStartComplete) : ∃ t, exec (.hostReady) (s0.withPhase
    .coldUp) = .next t :=
  ⟨_, O.2.2.2.2.2.2.2.1 (s0.withPhase .coldUp) (.inl rfl) ok ok⟩

theorem wit_ResetAndStartComplete_16 (O : Obligations.ResetAndStartComplete) : ∃ t, exec (.warmStart si0)
    (s0.withPhase .warmHold) = .next t :=
  ⟨_, O.2.2.2.2.2.2.2.2.1 (s0.withPhase .warmHold) si0 rfl ok⟩

theorem wit_ResetAndStartComplete_17 (O : Obligations.ResetAndStartComplete) : ∃ t, exec (.inputLeavesRange .vmain
    ⟨100, none⟩) s0 = .next t :=
  ⟨_, (O.2.2.2.2.2.2.2.2.2.1 s0 .vmain 100 none ok).1 ok⟩

theorem wit_ResetAndStartComplete_18 (O : Obligations.ResetAndStartComplete) : ∃ t, exec (.inputLeavesRange .vmain
    ⟨100, some 99⟩) sBoth = .next t :=
  ⟨_, (O.2.2.2.2.2.2.2.2.2.1 sBoth .vmain 100 (some 99) ok).1 ok⟩

theorem wit_ResetAndStartComplete_19 (O : Obligations.ResetAndStartComplete) : ∃ t, exec (.inputLeavesRange .vmain
    ⟨100, none⟩) sBoth = .next t :=
  ⟨_, (O.2.2.2.2.2.2.2.2.2.1 sBoth .vmain 100 none ok).2.1 ok ok⟩

theorem wit_ResetAndStartComplete_20 (O : Obligations.ResetAndStartComplete) : ∃ t, exec (.inputLeavesRange .vaux
    ⟨100, none⟩) sBoth = .next t :=
  ⟨_, (O.2.2.2.2.2.2.2.2.2.1 sBoth .vaux 100 none ok).2.2 ok ok⟩

theorem wit_ResetAndStartComplete_21 (O : Obligations.ResetAndStartComplete) : ∃ t, exec (.inputEntersRange .vaux 107)
    s0 = .next t :=
  ⟨_, (O.2.2.2.2.2.2.2.2.2.2.1 s0 .vaux 107 ok ok).2 (.inl ok)⟩

theorem wit_ResetAndStartComplete_22 (O : Obligations.ResetAndStartComplete) : ∃ t, exec (.inputEntersRange .vaux 107)
    (s0.setCond 8 true) = .next t :=
  ⟨_, (O.2.2.2.2.2.2.2.2.2.2.1 (s0.setCond 8 true) .vaux 107 ok ok).1 ok ok⟩

theorem wit_ResetAndStartComplete_23 (O : Obligations.ResetAndStartComplete) : ∃ t, exec (.inputEntersRange .vmain
    230) sDark = .next t :=
  ⟨_, (O.2.2.2.2.2.2.2.2.2.2.1 sDark .vmain 230 ok ok).2 (.inl ok)⟩

theorem wit_ResetAndStartComplete_24 (O : Obligations.ResetAndStartComplete) : ∃ t, exec (.returnToVmain) sVaux =
    .next t :=
  ⟨_, O.2.2.2.2.2.2.2.2.2.2.2.1 sVaux ok ok ok ok⟩

theorem wit_ResetAndStartComplete_25 (O : Obligations.ResetAndStartComplete) : ∃ t, exec (.refclkLoss) sClk = .next t
    :=
  ⟨_, (O.2.2.2.2.2.2.2.2.2.2.2.2.1 sClk ok ok).1⟩

theorem wit_ResetAndStartComplete_26 (O : Obligations.ResetAndStartComplete) : ∃ t, exec (.pllUnlock) sClk = .next t
    :=
  ⟨_, (O.2.2.2.2.2.2.2.2.2.2.2.2.1 sClk ok ok).2 ok⟩

theorem wit_ResetAndStartComplete_27 (O : Obligations.ResetAndStartComplete) : ∃ t, exec (.refclkReturn si0) s0 =
    .next t :=
  ⟨_, (O.2.2.2.2.2.2.2.2.2.2.2.2.2.1 s0 si0).1 ok⟩

theorem wit_ResetAndStartComplete_28 (O : Obligations.ResetAndStartComplete) : ∃ t, exec (.pllRelock si0) (s0.setFlag
    F.PCR_CLK_STAT.refclk_present true) = .next t :=
  ⟨_, (O.2.2.2.2.2.2.2.2.2.2.2.2.2.1 (s0.setFlag F.PCR_CLK_STAT.refclk_present true) si0).2 ok ok⟩

theorem wit_ResetAndStartComplete_29 (O : Obligations.ResetAndStartComplete) : ∃ t, exec (.jtagTrst true) s0 = .next t
    :=
  ⟨_, O.2.2.2.2.2.2.2.2.2.2.2.2.2.2 s0 true⟩

theorem wit_WarmResetKeepsMemoryAndTime_1 (O : Obligations.WarmResetKeepsMemoryAndTime) : ∃ t, exec (.warmReset (.pin
    50)) sPoison = .next t :=
  (O sPoison 50 ok ok ok).elim fun t e => ⟨t, e.1⟩

theorem wit_ColdResetKeepsTackStoreOnly_1 (O : Obligations.ColdResetKeepsTackStoreOnly) : ∃ t, exec (.coldReset
    (.porst 50)) s0 = .next t :=
  (O s0 50 ok ok).elim fun t e => ⟨t, e.1⟩

/-! ### Host lanes, serial masters, management target -/

def sLane (state : Nat) : State := (s0.setLane 2 { s0.lane 2 with eff := 9, okSince := some 5 }).setFl F.HP_LINK_STAT.state state 2
def xfer : PesXfer := ⟨1, 3, true, [1, 2, 3]⟩
def sPes (running : Bool) : State := s0.setPesm 3 { queue := [xfer], running := running }
def sPart : State := s0.withMgt { s0.mgt with inPart := some [0x21] }
/-- The sixteen bytes of an IDENT of session 0 with number 5 (R105). -/
def identBytes : List Byte := [0x21, 0, 0, 0, 0, 0, 0, 5, 0xff, 0, 0, 0x95, 0, 0, 0, 0]
def reservedBytes : List Byte := [0x21, 0, 0, 0, 0, 0, 0, 5, 0xff, 0, 0, 0x08, 0, 0, 0, 0]
theorem reservedSpelt : decodeDcp ([] ++ reservedBytes) = .unknown (hd 0xff 0) 8 := by rfl
theorem identSpelt : decodeDcp ([] ++ identBytes) = .cmd (.ident (hd 0xff 0)) := by rfl

theorem wit_LaneEventsComplete_1 (O : Obligations.LaneEventsComplete) : ∃ t, exec (.signalDetected 2) (sLane 1) =
    .next t :=
  ⟨_, (O.1 (sLane 1) 2 ok).1 ok⟩

theorem wit_LaneEventsComplete_2 (O : Obligations.LaneEventsComplete) : ∃ t, exec (.blockLock 2) (sLane 2) = .next t
    :=
  ⟨_, (O.1 (sLane 2) 2 ok).2.1 ok⟩

theorem wit_LaneEventsComplete_3 (O : Obligations.LaneEventsComplete) : ∃ t, exec (.linkUp 2) (sLane 3) = .next t :=
  ⟨_, (O.1 (sLane 3) 2 ok).2.2.1 5 ok ok ok ok ok⟩

theorem wit_LaneEventsComplete_4 (O : Obligations.LaneEventsComplete) : ∃ t, exec (.signalLoss 2 true) (sLane 3) =
    .next t :=
  ⟨_, (O.1 (sLane 3) 2 ok).2.2.2 (.inr ok) true ok⟩

theorem wit_LaneEventsComplete_5 (O : Obligations.LaneEventsComplete) : ∃ t, exec (.signalLoss 2 false) (sLane 2) =
    .next t :=
  ⟨_, (O.1 (sLane 2) 2 ok).2.2.2 (.inl ok) false ok⟩

theorem wit_LaneEventsComplete_6 (O : Obligations.LaneEventsComplete) : ∃ t, exec (.linkDown 2 (.begins .blockLock))
    (sLane 4) = .next t :=
  ⟨_, (O.2.1 (sLane 4) 2 .blockLock (.inl ok)).1⟩

theorem wit_LaneEventsComplete_7 (O : Obligations.LaneEventsComplete) : ∃ t, exec (.linkDown 2 (.ends .hiBer)) (sLane
    3) = .next t :=
  ⟨_, (O.2.1 (sLane 3) 2 .hiBer (.inr ok)).2⟩

theorem wit_LaneEventsComplete_8 (O : Obligations.LaneEventsComplete) : ∃ t, exec (.laneSettingsApply 2) (s0.setLane 2
    { s0.lane 2 with applyAt := some 9 }) = .next t :=
  ⟨_, (O.2.2.1 (s0.setLane 2 { s0.lane 2 with applyAt := some 9 }) 2 9).1 ok⟩

theorem wit_LaneEventsComplete_9 (O : Obligations.LaneEventsComplete) : ∃ t, exec (.loopTimeout 2) (s0.setLane 2 {
    s0.lane 2 with loopEnd := some 9 }) = .next t :=
  ⟨_, (O.2.2.1 (s0.setLane 2 { s0.lane 2 with loopEnd := some 9 }) 2 9).2 ok⟩

theorem wit_LaneEventsComplete_10 (O : Obligations.LaneEventsComplete) : ∃ t, exec (.ownChangeApply) (s0.withOwnAt
    (some 9)) = .next t :=
  ⟨_, O.2.2.2.1 (s0.withOwnAt (some 9)) 9 ok⟩

theorem wit_LaneEventsComplete_11 (O : Obligations.LaneEventsComplete) : ∃ t, exec (.pesTransferBegin 3) (sPes false)
    = .next t :=
  ⟨_, (O.2.2.2.2 (sPes false) 3 xfer [] ok).1 ok⟩

theorem wit_LaneEventsComplete_12 (O : Obligations.LaneEventsComplete) : ∃ t, exec (.pesTransferEnd 3 [9, 8, 7]) (sPes
    true) = .next t :=
  ⟨_, (O.2.2.2.2 (sPes true) 3 xfer [] ok).2 [9, 8, 7] ok ok⟩

theorem wit_OwnSettingsApplyLater_1 (O : Obligations.OwnSettingsApplyLater) : ∃ t, exec (.ownCtlWrite (hd 0xff 10)
    0x5ff) s0 = .next t :=
  ⟨_, (O s0 (hd 0xff 10) 0 x0 0x5ff adm rfl rfl ok).1 ok⟩

theorem wit_OwnSettingsApplyLater_2 (O : Obligations.OwnSettingsApplyLater) : ∃ t, exec (.ownCtlWrite (hd 0xff 10)
    0x600) s0 = .next t :=
  ⟨_, (O s0 (hd 0xff 10) 0 x0 0x600 adm rfl rfl ok).2.2.1 ok⟩

theorem wit_OwnSettingsApplyLater_3 (O : Obligations.OwnSettingsApplyLater) : ∃ t, exec (.ownUdpWrite (hd 0xff 10)
    320) s0 = .next t :=
  ⟨_, (O s0 (hd 0xff 10) 0 x0 320 adm rfl rfl ok).2.1 ok⟩

theorem wit_OwnSettingsApplyLater_4 (O : Obligations.OwnSettingsApplyLater) : ∃ t, exec (.ownUdpWrite (hd 0xff 10)
    321) s0 = .next t :=
  ⟨_, (O s0 (hd 0xff 10) 0 x0 321 adm rfl rfl ok).2.2.2.1 ok⟩

theorem wit_OwnSettingsApplyLater_5 (O : Obligations.OwnSettingsApplyLater) : ∃ t, exec (.ownChangeApply)
    (s0.withOwnAt (some 9)) = .next t :=
  ⟨_, ((O s0 (hd 0xff 10) 0 x0 0 adm rfl rfl ok).2.2.2.2 9 (s0.withOwnAt (some 9)) ok ok).1⟩

theorem wit_FramesAreTagged_1 (O : Obligations.FramesAreTagged) : (sUp.sendPtp 2 11 1 0).out = s0.out ++ [.ptp 2 none
    none 11 0 1 0 (some 128)] :=
  (O.2.2.1 sUp 2 11 1 0 ok).trans ok

theorem wit_FramesAreTagged_2 (O : Obligations.FramesAreTagged) : (sUp.sendDcp (.eth 2 9) m4).out = s0.out ++ [.dcp
    (.eth 2 9) none (.eth 0x88b5) m4] :=
  (O.2.1 sUp (.eth 2 9) 2 m4 ok ok).trans ok

theorem wit_FramesAreTagged_3 (O : Obligations.FramesAreTagged) : ∃ t, exec (.arpRequest 2 5 0x0a000001) sUp = .next t
    ∧ t.out = s0.out ++ [.arp 2 none 5 (sUp.laneMac 2) 0x0a000001] :=
  ⟨_, rfl, ((O.2.2.2 sUp _ 2 5 0x0a000001 [] ok ok ok ok).1 rfl).trans ok⟩

theorem wit_LaneThatIsDownDiscards_1 (O : Obligations.LaneThatIsDownDiscards) : (s0.offer 2 (.arp 2 none 5 6 7)).out =
    s0.out :=
  (O s0 2 (.arp 2 none 5 6 7) ok canon0).1

theorem wit_ManagementTargetCompletes_1 (O : Obligations.ManagementTargetCompletes) : ∃ t, exec (.blockWrite ⟨0x58,
    [1, 0x21]⟩ true) s0 = .next t :=
  ⟨_, ((O s0 0x58 ok ok).1 1 [] [0x21] (.inl ok)).1 ok⟩

theorem wit_ManagementTargetCompletes_2 (O : Obligations.ManagementTargetCompletes) : ∃ t, exec (.blockWrite ⟨0x58,
    [0, 0]⟩ true) sPart = .next t :=
  ⟨_, ((O sPart 0x58 ok ok).1 0 [0x21] [0] (.inr ok)).1 ok⟩

theorem wit_ManagementTargetCompletes_3 (O : Obligations.ManagementTargetCompletes) : ∃ t, exec (.blockWrite ⟨0x58,
    [2, 0]⟩ true) sPart = .next t :=
  ⟨_, (((O sPart 0x58 ok ok).1 2 [0x21] [0] (.inr ok)).2 ok).1 ok⟩

theorem wit_ManagementTargetCompletes_4 (O : Obligations.ManagementTargetCompletes) : exec (.blockWrite ⟨0x58, 3 ::
    identBytes⟩ true) s0 = exec (.ident (hd 0xff 0)) ((s0.toBus 0x58).withMgt { (s0.toBus 0x58).mgt with inPart :=
    none }) :=
  (((O s0 0x58 ok ok).1 3 [] identBytes (.inl ok)).2 ok).2.2 (.ident (hd 0xff 0)) identSpelt ⟨_, rfl⟩ rfl

theorem wit_ManagementTargetCompletes_5 (O : Obligations.ManagementTargetCompletes) : exec (.blockWrite ⟨0x58, 3 ::
    reservedBytes⟩ true) s0 = exec (.dcpFrameDrop (hd 0xff 0) (.reservedOpcode 8)) ((s0.toBus 0x58).withMgt {
    (s0.toBus 0x58).mgt with inPart := none }) :=
  (((O s0 0x58 ok ok).1 3 [] reservedBytes (.inl ok)).2 ok).2.1 _ _ reservedSpelt

theorem wit_ManagementTargetCompletes_6 (O : Obligations.ManagementTargetCompletes) : ∃ t, exec (.blockWrite ⟨0x58,
    [3, 0x21]⟩ false) s0 = .next t :=
  ⟨_, ((O s0 0x58 ok ok).2.1 3 [0x21]).1⟩

theorem wit_ManagementTargetCompletes_7 (O : Obligations.ManagementTargetCompletes) : ∃ t, exec (.blockWrite ⟨0x58,
    [2, 0x21]⟩ true) s0 = .next t :=
  ⟨_, ((O s0 0x58 ok ok).2.1 2 [0x21]).2 ok ok⟩

theorem wit_ManagementTargetCompletes_8 (O : Obligations.ManagementTargetCompletes) : ∃ t, exec (.blockRead) s0 =
    .next t :=
  ⟨_, ((O s0 0x58 ok ok).2.2.1 (.inl rfl)).1⟩

theorem wit_ManagementTargetCompletes_9 (O : Obligations.ManagementTargetCompletes) : ∃ t, exec (.blockReadRepeat)
    (s0.toBus 0x58) = .next t :=
  ⟨_, ((O (s0.toBus 0x58) 0x58 ok ok).2.2.1 (.inr rfl)).2⟩

theorem wit_ManagementTargetCompletes_10 (O : Obligations.ManagementTargetCompletes) : ∃ t, exec (.alertResponse)
    (s0.withMgt { s0.mgt with out := [m4] }) = .next t :=
  ⟨_, (O (s0.withMgt { s0.mgt with out := [m4] }) 0x58 ok ok).2.2.2.1 ok⟩

theorem wit_ManagementTargetCompletes_11 (O : Obligations.ManagementTargetCompletes) : ∃ t, exec (.blockWrite ⟨0x59,
    [1, 0x21]⟩ true) s0 = .next t :=
  ⟨_, ((O s0 0x58 ok ok).2.2.2.2.1 0x59 ok).1 [1, 0x21] true⟩

theorem wit_ManagementTargetCompletes_12 (O : Obligations.ManagementTargetCompletes) : ∃ t, exec (.blockRead)
    (s0.toBus 0x5b) = .next t :=
  ⟨_, ((O (s0.toBus 0x5b) 0x58 ok ok).2.2.2.2.1 0x5b ok).2 rfl |>.1⟩

theorem wit_ManagementTargetCompletes_13 (O : Obligations.ManagementTargetCompletes) : ∃ t, exec (.sclLowTimeout)
    sPart = .next t :=
  ⟨_, (O sPart 0x58 ok ok).2.2.2.2.2 ok⟩

/-! ### Stall, acquisition, interval and queue events -/

/-- A play of one granule of line 0, and stall 0 armed with it, its start event placed. -/
def play1 : Play := ⟨0, 0, 0x04000000000000000000010000000000, [], [(0, 5)], 0, 0, false, false⟩
def xArm : Stall := { sArmed.stall 0 with octets := [0, 1], path := [.play play1], startAt := some 1000000 }
def sAbs : State := sArmed.setStall 0 { xArm with inflight := [⟨0, 0, 0, false, false⟩] }
def sStarved : State := sArmed.setStall 0 { xArm with inflight := [⟨0, 0, 0, false, false⟩], starved := true }
def sWait2 : State := sArmed.setStall 0 { xArm with waiting := [⟨7, 0, 3, 3⟩, ⟨0, 0, 0, 2⟩] }
def sResets : State := s0.setStall 0 { s0.stall 0 with stops := [⟨6, .atTime 0⟩] }
def sPre (source : Nat) : State := sArmed.setStall 0 { xArm with look := { mode := .halted }, src := ⟨source, 0⟩ }
def sPlay : State := (sArmed.setStall 0 { xArm with held := [⟨0, 0, 0, 0, false, false⟩, ⟨0, 8, 8, 0, false, false⟩] }).setFlag F.CHN_TG_CTL.mode true 0
def sDde : State := sPlay.setFlag F.CHN_TG_CTL.mode false 0
def nx : NextVec := ⟨play1, 0, 0, 1000000, true⟩

/-- The present instant is not later than the deadline of the first absent line. -/
theorem inTime {s : State} {st : Nat} (n : Nat × Nat × Nat) (e : s.firstAbsent st = some n)
    (c : s.nowU ≤ deadline n.2.1) :
    ∀ vec t0 line, s.firstAbsent st = some (vec, t0, line) → s.nowU ≤ deadline t0 := by
  intro vec t0 line h
  rw [e] at h
  cases h
  exact c

/-- Stall 0 running in vector 9, with its latest two T0. -/
def xRun (mode : Nat) : Stall := { sRunning.stall 0 with mode := mode, vec := some 9, tNext := 100000, t0s := [(1, 50000), (0, 0)] }
def sMid (mode : Nat) : State := sRunning.setStall 0 (xRun mode)
def sHalt : State := sRunning.setStall 0 { xRun 0 with stops := [⟨1, .atTime 0⟩, ⟨5, .atTime 100001⟩] }
def ev1 : CmpEvt := ⟨100, 100, 0, 1, 0, 0, 0, 0, false, false, false⟩
def sCmp : State := (sMid 0).setChan 15 { (sMid 0).chan 15 with cmp := [ev1] }
def sCap : State := (sMid 0).setChan 15 { (sMid 0).chan 15 with grid := [(0, 0)] }
def sRx : State := (sMid 2).setFlag F.FRM_RX_CTL.en true 1

theorem wit_LookaheadReadsAndLinesArrive_1 (O : Obligations.LookaheadReadsAndLinesArrive) : ∃ t, exec (.seqEntryRead
    0) sArmed = .next t :=
  ⟨_, (O sArmed 0 ok).1 ok ok⟩

theorem wit_LookaheadReadsAndLinesArrive_2 (O : Obligations.LookaheadReadsAndLinesArrive) : ∃ t, exec (.lineRequest 0)
    sWait2 = .next t :=
  ⟨_, (O sWait2 0 ok).2.1 ⟨0, 0, 0, 2⟩ [] ok ok⟩

theorem wit_LookaheadReadsAndLinesArrive_3 (O : Obligations.LookaheadReadsAndLinesArrive) : ∃ t, exec (.lineArrival 0
    true) sAbs = .next t :=
  ⟨_, (O sAbs 0 ok).2.2 ⟨0, 0, 0, false, false⟩ true ok rfl (.inr (inTime (0, 1000000, 0) ok ok)) ok⟩

theorem wit_LookaheadReadsAndLinesArrive_4 (O : Obligations.LookaheadReadsAndLinesArrive) : ∃ t, exec (.lineArrival 0
    false) sStarved = .next t :=
  ⟨_, (O sStarved 0 ok).2.2 ⟨0, 0, 0, false, false⟩ false ok rfl (.inl rfl) ok⟩

theorem wit_PrefillEndsAndStarvationStops_1 (O : Obligations.PrefillEndsAndStarvationStops) : ∃ t, exec
    (.prefillComplete 0) (sPre 0) = .next t :=
  ⟨_, (O.1 (sPre 0) 0 ok).1 ok⟩

theorem wit_PrefillEndsAndStarvationStops_2 (O : Obligations.PrefillEndsAndStarvationStops) : ∃ t, exec
    (.prefillComplete 0) (sPre 1) = .next t :=
  ⟨_, (O.1 (sPre 1) 0 ok).2 ok⟩

theorem wit_PrefillEndsAndStarvationStops_3 (O : Obligations.PrefillEndsAndStarvationStops) : ∃ t, exec (.starvation
    0) sAbs = .next t :=
  ⟨_, O.2 sAbs 0 0 1000000 0 ok ok ok⟩

theorem wit_VectorsAndStopsTakePlace_1 (O : Obligations.VectorsAndStopsTakePlace) : ∃ t, exec (.vectorT0 0) sPlay =
    .next t :=
  ⟨_, (O.1 sPlay 0 nx ok).1⟩

theorem wit_VectorsAndStopsTakePlace_2 (O : Obligations.VectorsAndStopsTakePlace) : ∃ t, exec (.setfPhaseReset 0)
    sPlay = .next t :=
  ⟨_, ((O.1 sPlay 0 nx ok).2 0 ok ok ok).1 ok (.inl ok)⟩

theorem wit_VectorsAndStopsTakePlace_3 (O : Obligations.VectorsAndStopsTakePlace) : ∃ t, exec (.setfPhaseReset 0) sDde
    = .next t :=
  ⟨_, ((O.1 sDde 0 nx ok).2 0 ok ok ok).2 (.inl ok)⟩

theorem wit_VectorsAndStopsTakePlace_4 (O : Obligations.VectorsAndStopsTakePlace) : ∃ t, exec (.stopBoundary 0) sHalt
    = .next t :=
  ⟨_, O.2.1 sHalt 0 1 [] ok ok⟩

theorem wit_VectorsAndStopsTakePlace_5 (O : Obligations.VectorsAndStopsTakePlace) : ∃ t, exec (.stallResetComplete 0)
    sResets = .next t :=
  ⟨_, O.2.2 sResets 0 ok ok⟩

theorem wit_ChannelEventsComplete_1 (O : Obligations.ChannelEventsComplete) : ∃ t, exec (.compareEvent 15 true false)
    sCmp = .next t :=
  ⟨_, (O.1 sCmp 15 0 ok).1 ev1 [] true false ok ok⟩

theorem wit_ChannelEventsComplete_2 (O : Obligations.ChannelEventsComplete) : ∃ t, exec (.edgeCapture 15 none true
    true) (sMid 0) = .next t :=
  ⟨_, ((O.1 (sMid 0) 15 0 ok).2 ok (.inl ok)).1 true true ok⟩

theorem wit_ChannelEventsComplete_3 (O : Obligations.ChannelEventsComplete) : ∃ t, exec (.edgeCapture 15 (some 0) true
    true) sCap = .next t :=
  ⟨_, ((O.1 sCap 15 0 ok).2 ok (.inl ok)).2.1 0 0 true true (0, 0) [] ok ok ok ok⟩

theorem wit_ChannelEventsComplete_4 (O : Obligations.ChannelEventsComplete) : ∃ t, exec (.edgeCapture 15 (some 160)
    true true) sCap = .next t :=
  ⟨_, ((O.1 sCap 15 0 ok).2 ok (.inl ok)).2.1 160 1 true true (0, 0) [] ok ok ok ok⟩

theorem wit_ChannelEventsComplete_5 (O : Obligations.ChannelEventsComplete) : ∃ t, exec (.eqWindowEnd 15 0 8191 0 2)
    (sMid 0) = .next t :=
  ⟨_, ((O.1 (sMid 0) 15 0 ok).2 ok (.inl ok)).2.2 0 8191 0 2⟩

theorem wit_ChannelEventsComplete_6 (O : Obligations.ChannelEventsComplete) : ∃ t, exec (.framerCharacter 1 true)
    (sMid 0) = .next t :=
  ⟨_, (O.2 (sMid 0) 1 0 ok).1⟩

theorem wit_ChannelEventsComplete_7 (O : Obligations.ChannelEventsComplete) : ∃ t, exec (.framerCharacter 1 false) sRx
    = .next t :=
  ⟨_, (O.2 sRx 1 0 ok).2 ok⟩

/-- A record of stall 0 in the front-end buffer of source 0, of a kept or a discarded type. -/
def rec1 : Rec := ⟨1, 0, 0, 3, 0, 5, 6⟩
def sRec (keep : Bool) : State := ((s0.setBuf 0 [rec1]).setFlag F.ACQ_ROUTE.keep keep 0 0).setFl F.ACQ_ROUTE.queue 1024 0 0
def sQ : State := s0.setRg .QM_CFG 0x18d 1024
def sLost : State := sQ.setLoss 0 1024 (some ⟨2, 3, 1, 9, none, false⟩)
def sAuto : State := (sMid 0).setFlag F.ACQ_AUTO.en true 0
def sRearm : State := sWin.setFl F.ACQ_WIN_STAT.state winRearm 0
def sPulse (p : Pulse) : State := (s0.setFlag F.ACQ_TRIGOUT.en true 3).withTrigOut (mset (fun _ => ({} : Pulse)) s0.trigOut 3 p)
/-- Timer 15 in a state, with gate source 1 and an operand of TIM_CTL. -/
def sT (state stops : Nat) : State := ((s0.setTimState 15 state).setFl F.TIM_CTL.gate_src 1 15).setFl F.TIM_CTL.stop_count stops 15
def sOpen : State := (sT 2 1).setTim 15 { (sT 2 1).tim 15 with gateOpen := true }
def sDue : State := (sT 3 1).setFl F.TIM_TIMEOUT.timeout 7 15
def sFlt : State := (((sMid 0).setFlag F.FLT_ASSIGN.assigned true 3).setFl F.FLT_ASSIGN.stall 0 3).setFlag F.FLT_CTL.en true 3

theorem wit_AcquisitionAndIntervalEventsComplete_1 (O : Obligations.AcquisitionAndIntervalEventsComplete) : ∃ t, exec
    (.recordAccept 0 true) (sRec false) = .next t :=
  ⟨_, (O.1 (sRec false) 0 rec1 [] true ok ok).1 ok⟩

theorem wit_AcquisitionAndIntervalEventsComplete_2 (O : Obligations.AcquisitionAndIntervalEventsComplete) : ∃ t, exec
    (.recordAccept 0 false) (sRec true) = .next t :=
  ⟨_, (O.1 (sRec true) 0 rec1 [] false ok ok).2 1024 ok⟩

theorem wit_AcquisitionAndIntervalEventsComplete_3 (O : Obligations.AcquisitionAndIntervalEventsComplete) : ∃ t, exec
    (.recordAccept 0 true) (sRec true) = .next t :=
  ⟨_, (O.1 (sRec true) 0 rec1 [] true ok ok).2 1024 ok⟩

theorem wit_AcquisitionAndIntervalEventsComplete_4 (O : Obligations.AcquisitionAndIntervalEventsComplete) : ∃ t, exec
    (.gapPairWrite 0 32767) s0 = .next t :=
  ⟨_, (O.2.1 s0 0).1 32767 ok ok ok⟩

theorem wit_AcquisitionAndIntervalEventsComplete_5 (O : Obligations.AcquisitionAndIntervalEventsComplete) : ∃ t, exec
    (.gapPairWrite 0 1024) sLost = .next t :=
  ⟨_, (O.2.1 sLost 0).1 1024 ok ok ok⟩

theorem wit_AcquisitionAndIntervalEventsComplete_6 (O : Obligations.AcquisitionAndIntervalEventsComplete) : ∃ t, exec
    (.timePairPeriodic 0) (sMid 0) = .next t :=
  ⟨_, (O.2.1 (sMid 0) 0).2.1 ok⟩

theorem wit_AcquisitionAndIntervalEventsComplete_7 (O : Obligations.AcquisitionAndIntervalEventsComplete) : ∃ t, exec
    (.autoTrigger 0) sAuto = .next t :=
  ⟨_, (O.2.1 sAuto 0).2.2.1 ok⟩

theorem wit_AcquisitionAndIntervalEventsComplete_8 (O : Obligations.AcquisitionAndIntervalEventsComplete) : ∃ t, exec
    (.windowRearm 0) sRearm = .next t :=
  ⟨_, (O.2.1 sRearm 0).2.2.2 ok⟩

theorem wit_AcquisitionAndIntervalEventsComplete_9 (O : Obligations.AcquisitionAndIntervalEventsComplete) : ∃ t, exec
    (.trigOutPulse 3) (sPulse { riseAt := some 5 }) = .next t :=
  ⟨_, O.2.2.1 (sPulse { riseAt := some 5 }) 3 5 { high := true } ok ok⟩

theorem wit_AcquisitionAndIntervalEventsComplete_10 (O : Obligations.AcquisitionAndIntervalEventsComplete) : ∃ t, exec
    (.trigOutPulse 3) (sPulse { high := true, fallAt := some 9 }) = .next t :=
  ⟨_, O.2.2.1 (sPulse { high := true, fallAt := some 9 }) 3 9 {} ok ok⟩

theorem wit_AcquisitionAndIntervalEventsComplete_11 (O : Obligations.AcquisitionAndIntervalEventsComplete) : ∃ t, exec
    (.timGateOpen 15) (sT 1 1) = .next t :=
  ⟨_, ((O.2.2.2.1 (sT 1 1) 15).1 ok).1 ok⟩

theorem wit_AcquisitionAndIntervalEventsComplete_12 (O : Obligations.AcquisitionAndIntervalEventsComplete) : ∃ t, exec
    (.timGateClose 15) sOpen = .next t :=
  ⟨_, ((O.2.2.2.1 sOpen 15).1 ok).2 ok⟩

theorem wit_AcquisitionAndIntervalEventsComplete_13 (O : Obligations.AcquisitionAndIntervalEventsComplete) : ∃ t, exec
    (.timStartEdge 15 0 0xfff) sOpen = .next t :=
  ⟨_, (O.2.2.2.1 sOpen 15).2.1 0 0xfff ok ok ok ok⟩

theorem wit_AcquisitionAndIntervalEventsComplete_14 (O : Obligations.AcquisitionAndIntervalEventsComplete) : ∃ t, exec
    (.timStopEdge 15 1 0xfff) (sT 3 1) = .next t :=
  ⟨_, ((O.2.2.2.1 (sT 3 1) 15).2.2.1 1 0xfff ok ok ok).1 ok⟩

theorem wit_AcquisitionAndIntervalEventsComplete_15 (O : Obligations.AcquisitionAndIntervalEventsComplete) : ∃ t, exec
    (.timStopEdge 15 9 0) (sT 3 2) = .next t :=
  ⟨_, ((O.2.2.2.1 (sT 3 2) 15).2.2.1 9 0 ok ok ok).2.1 ok ok⟩

theorem wit_AcquisitionAndIntervalEventsComplete_16 (O : Obligations.AcquisitionAndIntervalEventsComplete) : ∃ t, exec
    (.timStopEdge 15 9 0) (sT 3 1) = .next t :=
  ⟨_, ((O.2.2.2.1 (sT 3 1) 15).2.2.1 9 0 ok ok ok).2.2 ok ok⟩

theorem wit_AcquisitionAndIntervalEventsComplete_17 (O : Obligations.AcquisitionAndIntervalEventsComplete) : ∃ t, exec
    (.timTimeout 15) sDue = .next t :=
  ⟨_, (O.2.2.2.1 sDue 15).2.2.2.1 ok ok ok⟩

theorem wit_AcquisitionAndIntervalEventsComplete_18 (O : Obligations.AcquisitionAndIntervalEventsComplete) : ∃ t, exec
    (.timDeadEnd 15) (sT 4 1) = .next t :=
  ⟨_, (O.2.2.2.1 (sT 4 1) 15).2.2.2.2 ok ok⟩

theorem wit_AcquisitionAndIntervalEventsComplete_19 (O : Obligations.AcquisitionAndIntervalEventsComplete) : ∃ t, exec
    (.fltInputSample 3) sFlt = .next t :=
  ⟨_, O.2.2.2.2 sFlt 3 ok ok ok ok ok⟩

def sBuf (r : Option (BitVec 32)) (b : List QWord) : State := s0.setStream 512 (some { strm with maxPayload := 16 + 8 * (2 - b.length), resend := r, buf := b })
def sPop : State := (sQ.setFlag F.QM_CFG.consumer true 1024).setQueue 1024 { sQ.queue 1024 with words := [⟨1, true, false⟩], pkts := 1 }
def sSpill : State := sQ.setQueue 1024 { sQ.queue 1024 with spillEnds := [true] }

theorem wit_QueueEventsComplete_1 (O : Obligations.QueueEventsComplete) : ∃ t, exec (.queuePush 1024 (.acq 0) [(1,
    false), (2, true)] false) sQ = .next t :=
  ⟨_, (O.1 sQ 1024 (.acq 0) [(1, false), (2, true)] false ok ok ok ok).1 ok⟩

theorem wit_QueueEventsComplete_2 (O : Obligations.QueueEventsComplete) : ∃ t, exec (.queuePush 1024 (.acq 0) [(3,
    true)] true) sPop = .next t :=
  ⟨_, (O.1 sPop 1024 (.acq 0) [(3, true)] true ok ok ok ok).1 ok⟩

theorem wit_QueueEventsComplete_3 (O : Obligations.QueueEventsComplete) : ∃ t, exec (.queuePush 64 (.yard 31) [(1,
    true)] false) s0 = .next t :=
  ⟨_, (O.1 s0 64 (.yard 31) [(1, true)] false ok ok ok ok).2 ok⟩

theorem wit_QueueEventsComplete_4 (O : Obligations.QueueEventsComplete) : ∃ t, exec (.queuePush 543 (.acq 0) [(1,
    true)] false) sQ = .next t :=
  ⟨_, (O.1 sQ 543 (.acq 0) [(1, true)] false ok ok ok ok).2 ok⟩

theorem wit_QueueEventsComplete_5 (O : Obligations.QueueEventsComplete) : ∃ t, exec (.queuePop 1024 false) sPop =
    .next t :=
  ⟨_, (O.2.1 sPop 1024 false).1 ok ok⟩

theorem wit_QueueEventsComplete_6 (O : Obligations.QueueEventsComplete) : ∃ t, exec (.queuePop 512 true) (sBuf none
    []) = .next t :=
  ⟨_, (O.2.1 (sBuf none []) 512 true).2 _ rfl ok⟩

theorem wit_QueueEventsComplete_7 (O : Obligations.QueueEventsComplete) : ∃ t, exec (.spillReadback 1024 .asStored)
    sSpill = .next t :=
  ⟨_, O.2.2.1 sSpill 1024 .asStored true [] ok ok⟩

theorem wit_QueueEventsComplete_8 (O : Obligations.QueueEventsComplete) : ∃ t, exec (.streamFrameSend 512) (sBuf (some
    1) []) = .next t :=
  ⟨_, (O.2.2.2 (sBuf (some 1) []) 512 _ rfl).1 1 ok⟩

theorem wit_QueueEventsComplete_9 (O : Obligations.QueueEventsComplete) : ∃ t, exec (.streamFrameSend 512) (sBuf none
    [⟨1, true, false⟩, ⟨2, true, false⟩]) = .next t :=
  ⟨_, (O.2.2.2 (sBuf none [⟨1, true, false⟩, ⟨2, true, false⟩]) 512 _ rfl).2.1 ok ok _ (id rfl) ok ok⟩

theorem wit_QueueEventsComplete_10 (O : Obligations.QueueEventsComplete) : ∃ t, exec (.streamFrameSend 512) (sBuf none
    [⟨1, true, false⟩]) = .next t :=
  ⟨_, (O.2.2.2 (sBuf none [⟨1, true, false⟩]) 512 _ rfl).2.2 ok ok _ (id rfl) ok ok ok⟩

/-! ### Terms that are not well formed -/

/-- A header whose parameter length does not fit its field. -/
def longHdr : Hdr := hd 0xff 65536
theorem test_wf_parameterLength : Instr.wf (.bye longHdr) = false := by decide
theorem test_wf_shortParametersAccepted : Instr.wf (.bye (hd 0xff 65535)) = true := by decide
theorem test_wf_writeReg : Instr.wf (.writeReg (hd 0xff 7) 0 2 [1, 2]) = false := by decide
theorem test_wf_readRegList : Instr.wf (.readRegList (hd 0xff 3) 1 [0]) = false := by decide
theorem test_wf_writeMem : Instr.wf (.writeMem (hd 0xff 1) 0 2 [1, 2]) = false := by decide
theorem test_wf_calRun : Instr.wf (.calRun (hd 0xff 1) 1 2 [0, 1]) = false := by decide
theorem test_wf_yardSubmit : Instr.wf (.yardSubmit (hd 0xff 0) 0 0 1 [9]) = false := by decide
theorem test_wf_tackWrite : Instr.wf (.tackWrite (hd 0xff 0) 0 1 [9]) = false := by decide
theorem test_wf_fwWrite : Instr.wf (.fwWrite (hd 0xff 0) 0 1 [9]) = false := by decide
theorem test_wf_echoPayload (l : List Byte) (n : l.length = 65536) : Instr.wf (.icmpEchoRequest 0 1 2 l) = false :=
  decide_eq_false (by omega)
theorem test_wf_echoPayload_exists : (List.replicate 65536 (0 : Byte)).length = 65536 := List.length_replicate
theorem test_wf_calRunDone : Instr.wf (.calRunDone 0 [⟨0, 0, List.replicate 257 [], [], 0⟩]) = false := by decide +kernel
theorem test_wf_pesTransferEnd : Instr.wf (.pesTransferEnd 0 (List.replicate 129 0)) = false := by decide +kernel
theorem test_wf_emptyPacket : Instr.wf (.queuePush 1024 (.acq 0) [] false) = false := by decide
theorem test_wf_emptyModulePacket : Instr.wf (.operationComplete 0 [.push 0 []] 0) = false := by decide
theorem test_wf_migrationUnit : Instr.wf (.migrationUnitCopy (List.replicate 33 .asStored)) = false := by decide
theorem test_wf_mr4Rates : Instr.wf (.mr4Poll 0 [0, 0, 0, 0, 0] []) = false := by decide
theorem test_wf_mr4Temps : Instr.wf (.mr4Poll 0 [] [0, 0, 0, 0, 0]) = false := by decide
theorem test_wf_ptpTime : Instr.wf (.ptpMessageRx 0 ⟨false, .sync 0 false (2 ^ 64 * 1000000000) 0⟩) = false := by decide
theorem test_wf_emptyBlock : Instr.wf (.blockWrite ⟨0x58, []⟩ true) = false := by decide
theorem test_wf_longBlock : Instr.wf (.blockWrite ⟨0x58, List.replicate 256 0⟩ true) = false := by decide +kernel

/-! ### One step each, with results taken from the spec -/

/-- A command answers a next state of which `p` holds. -/
def gives (o : Host.Outcome State Fault Refusal) (p : State → Bool) : Bool :=
  match o with
  | .next t => p t
  | _ => false
/-- The status and parameters of the reply that session 0 has cached last. -/
def reply (t : State) : Nat × List Byte :=
  match (t.session 0).map (fun x => x.cache) with
  | some (m :: _) => (m.status.toNat, m.params)
  | _ => (0xffff, [])

/-- (HOSTFLAG AND NOT mask) OR (value AND mask), with HOSTFLAG 0xF0, mask 0x3F, value 0x15 (SETFLAG in the opcode table). -/
theorem test_setflag : gives (exec (.setflag (hd 0 2) 0x3f 0x15) (s0.setFl F.STL_FLAGS.hostflag 0xf0 0))
    (fun t => t.fl F.STL_FLAGS.hostflag 0 == 0xd5 && reply t == (0, [0xd5])) = true := by decide +kernel
/-- DEV_ID reads 0x4E440128, most significant byte first (R5, R105). -/
theorem test_readDevId : gives (exec (.readReg (hd 0xff 6) 0 1) s0)
    (fun t => reply t == (0, [0x4e, 0x44, 0x01, 0x28])) = true := by decide +kernel
/-- A lease of 0 gives 2,000 ms (R113); the handle holds the slot in bits 4 to 0 and the generation above (R108). -/
theorem test_hello : gives (exec (.hello { hd 0xff 13 with session := 0xffff, seq := 41 } 99 0 0) s0)
    (fun t => (t.session 1).map (fun x => (x.leaseMs, x.nextSeq)) == some (2000, 42)) = true := by decide +kernel
/-- A command with a sequence number that is neither expected nor cached changes nothing and leaves n (R111). -/
theorem test_badSequence : gives (exec (.setflag { hd 0 2 with seq := 77 } 0xff 0xff) s0)
    (fun t => t.fl F.STL_FLAGS.hostflag 0 == 0 && (t.session 0).map (fun x => x.nextSeq) == some 5) = true := by
  decide +kernel
/-- WRITE_MEM stores its bytes in address order (R128). -/
theorem test_writeMem : gives (exec (.writeMem (hd 0xff 20) 0x1000 8 [1, 2, 3, 4, 5, 6, 7, 8]) s0)
    (fun t => t.memByte 0x1000 == 1 && t.memByte 0x1007 == 8 && t.memByte 0x1008 == 0) = true := by decide +kernel
/-- A step runs the command in front and keeps the rest of the queue. -/
theorem test_step : gives (step ((s0.withPending [.setflag (hd 0 2) 1 1, .bye (hd 0xff 0)])))
    (fun t => t.fl F.STL_FLAGS.hostflag 0 == 1 && t.pending == [.bye (hd 0xff 0)]) = true := by decide +kernel
/-- RELEASE by the owner leaves the stall unowned (R120). -/
theorem test_release : gives (exec (.release (hd 0 0)) s0) (fun t => (t.ownerOf 0).isNone && reply t == (0, [])) = true := by
  decide +kernel

end Sys2Proof.Tests
end

section
/-! SUPPORT. Every step keeps the canonical form of the state. -/

namespace Sys2Proof.Machine

open Sys2Proof

/-- Every command of the table keeps the canonical form: each arm of `exec` is one command's meaning, which keeps it. -/
theorem canon_exec {s : State} (hs : s.Canon) : ∀ c : Instr, Keeps State.Canon (exec c s)
  | .hello .. => canon_execHello hs
  | .claim .. => canon_execClaim hs
  | .release .. => canon_execRelease hs
  | .grant .. => canon_execGrant hs
  | .renew .. => canon_execRenew hs
  | .bye .. => canon_execBye hs
  | .opStatus .. => canon_execOpStatus hs
  | .readReg .. => canon_execReadReg hs
  | .writeReg .. => canon_execWriteReg hs
  | .modifyReg .. => canon_execModifyReg hs
  | .readRegList .. => canon_execReadRegList hs
  | .writeMem .. => canon_execWriteMem hs
  | .readMem .. => canon_execReadMem hs
  | .fillMem .. => canon_execFillMem hs
  | .copyMem .. => canon_execCopyMem hs
  | .loadSeq .. => canon_execLoadSeq hs
  | .start .. => canon_execStart hs
  | .stop .. => canon_execStop hs
  | .arm .. => canon_execArm hs
  | .status .. => canon_execStatus hs
  | .setflag .. => canon_execSetflag hs
  | .stallReset .. => canon_execStallReset hs
  | .streamOpen .. => canon_execStreamOpen hs
  | .credit .. => canon_execCredit hs
  | .creditFrame .. => canon_execCreditFrame hs
  | .streamClose .. => canon_execStreamClose hs
  | .rewind .. => canon_execRewind hs
  | .calRun .. => canon_execCalRun hs
  | .calRead .. => canon_execCalRead hs
  | .calCommit .. => canon_execCalCommit hs
  | .selftestRun .. => canon_execSelftestRun hs
  | .selftestRead .. => canon_execSelftestRead hs
  | .yardLoad .. => canon_execYardLoad hs
  | .yardUnload .. => canon_execYardUnload hs
  | .yardSubmit .. => canon_execYardSubmit hs
  | .yardQuiesce .. => canon_execYardQuiesce hs
  | .yardResume .. => canon_execYardResume hs
  | .yardStatus .. => canon_execYardStatus hs
  | .timeRead .. => canon_execTimeRead hs
  | .timeSet .. => canon_execTimeSet hs
  | .timeStep .. => canon_execTimeStep hs
  | .alarmSet .. => canon_execAlarmSet hs
  | .alarmCancel .. => canon_execAlarmCancel hs
  | .tsqRead .. => canon_execTsqRead hs
  | .faultRead .. => canon_execFaultRead hs
  | .faultClear .. => canon_execFaultClear hs
  | .faultReaction .. => canon_execFaultReaction hs
  | .faultInject .. => canon_execFaultInject hs
  | .faultRelease .. => canon_execFaultRelease hs
  | .tackRead .. => canon_execTackRead hs
  | .tackWrite .. => canon_execTackWrite hs
  | .fwWrite .. => canon_execFwWrite hs
  | .fwVerify .. => canon_execFwVerify hs
  | .fwActivate .. => canon_execFwActivate hs
  | .ident .. => canon_execIdent hs
  | .mcStatus .. => canon_execMcStatus hs
  | .rankRetire .. => canon_execRankRetire hs
  | .migStatus .. => canon_execMigStatus hs
  | .scrub .. => canon_execScrub hs
  | .dcpFrameDrop .. => canon_execDcpFrameDrop hs
  | .rxFrameDrop .. => canon_execRxFrameDrop hs
  | .arpRequest .. => canon_execArpRequest hs
  | .icmpEchoRequest .. => canon_execIcmpEchoRequest hs
  | .fillMemDone .. => canon_execFillMemDone hs
  | .copyMemDone .. => canon_execCopyMemDone hs
  | .calRunDone .. => canon_execCalRunDone hs
  | .calCommitDone .. => canon_execCalCommitDone hs
  | .selftestDone .. => canon_execSelftestDone hs
  | .yardLoadDone .. => canon_execYardLoadDone hs
  | .yardQuiesceDone .. => canon_execYardQuiesceDone hs
  | .fwVerifyDone .. => canon_execFwVerifyDone hs
  | .scrubDone .. => canon_execScrubDone hs
  | .opRecordExpiry .. => canon_execOpRecordExpiry hs
  | .pcrResetCtlWarm .. => canon_execPcrResetCtlWarm hs
  | .pcrResetCtlCold .. => canon_execPcrResetCtlCold hs
  | .blockRstHl .. => canon_execBlockRstHl hs
  | .blockRstMc .. => canon_execBlockRstMc hs
  | .blockRstQm .. => canon_execBlockRstQm hs
  | .blockRstYrd .. => canon_execBlockRstYrd hs
  | .blockRstAcq .. => canon_execBlockRstAcq hs
  | .blockRstFlt .. => canon_execBlockRstFlt hs
  | .blockRstTim .. => canon_execBlockRstTim hs
  | .blockRstFrm .. => canon_execBlockRstFrm hs
  | .blockRstCal .. => canon_execBlockRstCal hs
  | .blockResetComplete .. => canon_execBlockResetComplete hs
  | .forceReturn .. => canon_execForceReturn hs
  | .hpPortCtlWrite .. => canon_execHpPortCtlWrite hs
  | .restart .. => canon_execRestart hs
  | .hpRefCtlWrite .. => canon_execHpRefCtlWrite hs
  | .laneSettingsApply .. => canon_execLaneSettingsApply hs
  | .testLoopSet .. => canon_execTestLoopSet hs
  | .loopTimeout .. => canon_execLoopTimeout hs
  | .prbsGen .. => canon_execPrbsGen hs
  | .prbsChk .. => canon_execPrbsChk hs
  | .ownCtlWrite .. => canon_execOwnCtlWrite hs
  | .ownUdpWrite .. => canon_execOwnUdpWrite hs
  | .ownChangeApply => canon_execOwnChangeApply hs
  | .devPartWrite .. => canon_execDevPartWrite hs
  | .stlFlagsWrite .. => canon_execStlFlagsWrite hs
  | .emit .. => canon_execEmit hs
  | .syncOutPulse => canon_execSyncOutPulse hs
  | .measEnWrite .. => canon_execMeasEnWrite hs
  | .tbSyncTrimWrite .. => canon_execTbSyncTrimWrite hs
  | .tbRateHiWrite .. => canon_execTbRateHiWrite hs
  | .ptpRoleWrite .. => canon_execPtpRoleWrite hs
  | .acqSoftTrig .. => canon_execAcqSoftTrig hs
  | .timArmWrite .. => canon_execTimArmWrite hs
  | .timCtlEnWrite .. => canon_execTimCtlEnWrite hs
  | .qmCfgWrite .. => canon_execQmCfgWrite hs
  | .flush .. => canon_execFlush hs
  | .flcFirstValidWrite .. => canon_execFlcFirstValidWrite hs
  | .flcStickyWrite .. => canon_execFlcStickyWrite hs
  | .pesXferStart .. => canon_execPesXferStart hs
  | .pesTransferBegin .. => canon_execPesTransferBegin hs
  | .pesTransferEnd .. => canon_execPesTransferEnd hs
  | .pesCfgWrite .. => canon_execPesCfgWrite hs
  | .mcCfgWrite .. => canon_execMcCfgWrite hs
  | .mcSysCfgWrite .. => canon_execMcSysCfgWrite hs
  | .policyWrite .. => canon_execPolicyWrite hs
  | .coldReset .. => canon_execColdReset hs
  | .coldStart .. => canon_execColdStart hs
  | .rootPllLock => canon_execRootPllLock hs
  | .hostReady => canon_execHostReady hs
  | .warmReset .. => canon_execWarmReset hs
  | .warmStart .. => canon_execWarmStart hs
  | .warmRetrain .. => canon_execWarmRetrain hs
  | .inputLeavesRange .. => canon_execInputLeavesRange hs
  | .inputEntersRange .. => canon_execInputEntersRange hs
  | .returnToVmain => canon_execReturnToVmain hs
  | .refclkLoss => canon_execRefclkLoss hs
  | .refclkReturn .. => canon_execRefclkReturn hs
  | .pllUnlock => canon_execPllUnlock hs
  | .pllRelock .. => canon_execPllRelock hs
  | .jtagTrst .. => canon_execJtagTrst hs
  | .trigInEdge .. => canon_execTrigInEdge hs
  | .syncEpochBoundary .. => canon_execSyncEpochBoundary hs
  | .linkUp .. => canon_execLinkUp hs
  | .linkDown .. => canon_execLinkDown hs
  | .vectorT0 .. => canon_execVectorT0 hs
  | .seqEntryRead .. => canon_execSeqEntryRead hs
  | .lineRequest .. => canon_execLineRequest hs
  | .lineArrival .. => canon_execLineArrival hs
  | .prefillComplete .. => canon_execPrefillComplete hs
  | .starvation .. => canon_execStarvation hs
  | .stopBoundary .. => canon_execStopBoundary hs
  | .stallResetComplete .. => canon_execStallResetComplete hs
  | .setfPhaseReset .. => canon_execSetfPhaseReset hs
  | .compareEvent .. => canon_execCompareEvent hs
  | .edgeCapture .. => canon_execEdgeCapture hs
  | .eqWindowEnd .. => canon_execEqWindowEnd hs
  | .framerCharacter .. => canon_execFramerCharacter hs
  | .recordAccept .. => canon_execRecordAccept hs
  | .gapPairWrite .. => canon_execGapPairWrite hs
  | .timePairPeriodic .. => canon_execTimePairPeriodic hs
  | .autoTrigger .. => canon_execAutoTrigger hs
  | .windowRearm .. => canon_execWindowRearm hs
  | .trigOutPulse .. => canon_execTrigOutPulse hs
  | .timGateOpen .. => canon_execTimGateOpen hs
  | .timGateClose .. => canon_execTimGateClose hs
  | .timStartEdge .. => canon_execTimStartEdge hs
  | .timStopEdge .. => canon_execTimStopEdge hs
  | .timTimeout .. => canon_execTimTimeout hs
  | .timDeadEnd .. => canon_execTimDeadEnd hs
  | .fltInputSample .. => canon_execFltInputSample hs
  | .queuePush .. => canon_execQueuePush hs
  | .queuePop .. => canon_execQueuePop hs
  | .spillReadback .. => canon_execSpillReadback hs
  | .streamFrameSend .. => canon_execStreamFrameSend hs
  | .leaseExpiry .. => canon_execLeaseExpiry hs
  | .expiredSessionClose .. => canon_execExpiredSessionClose hs
  | .electionClose .. => canon_execElectionClose hs
  | .instanceCreate => canon_execInstanceCreate hs
  | .workRequest .. => canon_execWorkRequest hs
  | .operationComplete .. => canon_execOperationComplete hs
  | .operationTimeout .. => canon_execOperationTimeout hs
  | .yardflagUpdate .. => canon_execYardflagUpdate hs
  | .dramRequest .. => canon_execDramRequest hs
  | .regionFill .. => canon_execRegionFill hs
  | .refreshInterval .. => canon_execRefreshInterval hs
  | .mr4Poll .. => canon_execMr4Poll hs
  | .powerDownEntry .. => canon_execPowerDownEntry hs
  | .selfRefreshEntry .. => canon_execSelfRefreshEntry hs
  | .rowDisturbanceWindowEnd .. => canon_execRowDisturbanceWindowEnd hs
  | .migrationUnitCopy .. => canon_execMigrationUnitCopy hs
  | .migrationDone => canon_execMigrationDone hs
  | .alarmFire .. => canon_execAlarmFire hs
  | .toutPulse .. => canon_execToutPulse hs
  | .ptpMessageRx .. => canon_execPtpMessageRx hs
  | .ptpSyncInterval .. => canon_execPtpSyncInterval hs
  | .ptpHoldover => canon_execPtpHoldover hs
  | .faultActivation .. => canon_execFaultActivation hs
  | .watchdog => canon_execWatchdog hs
  | .deviceReset => canon_execDeviceReset hs
  | .shadowEnd .. => canon_execShadowEnd hs
  | .blockWrite .. => canon_execBlockWrite hs
  | .blockRead => canon_execBlockRead hs
  | .blockReadRepeat => canon_execBlockReadRepeat hs
  | .alertResponse => canon_execAlertResponse hs
  | .sclLowTimeout => canon_execSclLowTimeout hs
  | .signalDetected .. => canon_execSignalDetected hs
  | .blockLock .. => canon_execBlockLock hs
  | .signalLoss .. => canon_execSignalLoss hs
  | .faultyPair .. => canon_execFaultyPair hs
  | .condSourceInactive .. => canon_execCondSourceInactive hs
  | .retrainingComplete .. => canon_execRetrainingComplete hs

/-- A step keeps the canonical form: it runs the command in front, runs a held command, or lets a cycle pass. -/
theorem canon_step {s : State} (hs : s.Canon) : Keeps State.Canon (step s) := by
  unfold step
  split
  · exact canon_exec (hs.withPending _) _
  · split
    · exact canon_exec (canon_takeHeld hs) _
    · exact canon_tick hs

/-- Settles O4: the step's case analysis over the commands of the table. -/
theorem everyStepKeepsCanonicalForm : Obligations.EveryStepKeepsCanonicalForm := by
  intro s t hs ht
  have hk := canon_step hs
  rw [ht] at hk
  exact hk

end Sys2Proof.Machine
end

section
/-! SUPPORT. A write of one register by a session: refused with the first check that fails, or applied (R127, R500). -/

namespace Sys2Proof.Machine

open Sys2Proof

variable {s u : State} {slot i j v : Nat} {r : R}

/-- A single write that fails a check leaves the state as it is (R500). -/
theorem writeRegs_refused {a c : Nat} (h : u.writeStatus [(a, v)] slot a v = c) (hc : c ≠ 0) :
    u.writeRegs slot [(a, v)] = (c, u) := by
  simp [State.writeRegs, State.writesStatus, h, hc]

/-- A single write that passes every check is made (R500). -/
theorem writeRegs_applied {a : Nat} (h : u.writeStatus [(a, v)] slot a v = 0) (hl : u.laterStatus [(a, v)] a v = 0) :
    u.writeRegs slot [(a, v)] = (stOk, u.applyWrite a v) := by
  simp [State.writeRegs, State.writesStatus, State.applyWrites, h, hl]

/-- A code that is not assigned is the first thing that a write of an owned register is checked for (R500 order 1). -/
theorem writeRegs_badCode {res : Nat} (hr : regAt (r.addr i j) = some (r, i, j)) (ho : u.regRes r i j = some res)
    (hc : u.badCode [(r.addr i j, v)] r i j v = true) :
    u.writeRegs slot [(r.addr i j, v)] = (stBadParam, u) :=
  writeRegs_refused (by simp [State.writeStatus, hr, ho, hc]) (by decide)

/-- A write that passes every check of R500 changes the register as its kind does. -/
theorem writeRegs_ok (hr : regAt (r.addr i j) = some (r, i, j)) (W : WriteOk u slot r i j v) :
    u.writeRegs slot [(r.addr i j, v)] = (stOk, u.applyWrite (r.addr i j) v) := by
  obtain ⟨res, ho, hown⟩ := W.owner
  exact writeRegs_applied
    (by simp [State.writeStatus, hr, ho, W.code, W.served, hown, W.inService, W.calm, W.kept])
    (by simp [State.laterStatus, hr, W.kept])

/-- A write of a register outside the timing die takes effect without a die-link flit. -/
theorem applyWrite_systemDie (hr : regAt (r.addr i j) = some (r, i, j)) (hw : writable r i j = true)
    (hd : timingDie (r.addr i j) = false) : u.applyWrite (r.addr i j) v = u.applyReg r i j v := by
  simp [State.applyWrite, hr, hw, hd]

/-- An admitted WRITE_REG of one register ends with the status of its write. -/
theorem done_oneReg {h : Hdr} {x : Session} (A : Admits s h slot x) (ht : h.target = 0xff) (hp : h.plen = 10)
    {self : Instr} {a c : Nat} {t : State} (hw : (s.taken h slot x).writeRegs slot [(a, v)] = (c, t)) :
    done (s.oneReg h self a v) = .next (t.replies slot h 0x0011 c []) :=
  done_reply A (by simp [oneRegBody, devShape, tgDev, ht, hp, writeItems, hw])

@[simp] theorem taken_owns (s : State) (h : Hdr) (n : Nat) (x : Session) (k r : Nat) :
    (s.taken h n x).owns k r = s.owns k r := by
  simp [State.owns, State.ownerOf]

end Sys2Proof.Machine
end

section
/-! SUPPORT. OWN_CTL and OWN_UDP: the codes that they refuse, the write, and the moment at which they come into use (R140). -/

namespace Sys2Proof.Machine

open Sys2Proof

variable {u : State} {slot v : Nat}

theorem regAt_OWN_CTL : regAt (R.addr .OWN_CTL) = some (.OWN_CTL, 0, 0) :=
  regAt_addr (by decide +kernel) (by decide) (by decide)

theorem regAt_OWN_UDP : regAt (R.addr .OWN_UDP) = some (.OWN_UDP, 0, 0) :=
  regAt_addr (by decide +kernel) (by decide) (by decide)

/-- The ethertypes that OWN_CTL refuses (R9, R140). -/
theorem badCode_OWN_CTL (l : List (Nat × Nat)) : u.badCode l .OWN_CTL 0 0 v = true ↔
    v % 2 ^ 16 < 0x600 ∨ v % 2 ^ 16 = 0x800 ∨ v % 2 ^ 16 = 0x806 ∨ v % 2 ^ 16 = 0x8100 ∨ v % 2 ^ 16 = 0x88f7 := by
  simp [State.badCode, bitsOf, or_assoc]

/-- The ports that OWN_UDP refuses (R9, R140). -/
theorem badCode_OWN_UDP (l : List (Nat × Nat)) : u.badCode l .OWN_UDP 0 0 v = true ↔
    v % 2 ^ 16 = 0 ∨ v % 2 ^ 16 = 319 ∨ v % 2 ^ 16 = 320 := by
  simp [State.badCode, bitsOf, or_assoc]

theorem regRes_OWN_CTL : u.regRes .OWN_CTL 0 0 = some devRes := rfl

theorem regRes_OWN_UDP : u.regRes .OWN_UDP 0 0 = some devRes := rfl

/-- The device owner's write of OWN_CTL passes every check but that of the ethertype. -/
theorem writeOk_OWN_CTL (ho : u.owns slot devRes = true)
    (hc : u.badCode [(R.addr .OWN_CTL, v)] .OWN_CTL 0 0 v = false) : WriteOk u slot .OWN_CTL 0 0 v where
  field := rfl
  owner := ⟨devRes, regRes_OWN_CTL, ho⟩
  code := hc
  served h := absurd h.2 (by decide)
  inService := rfl
  calm := rfl
  kept := rfl

/-- The device owner's write of OWN_UDP passes every check but that of the port. -/
theorem writeOk_OWN_UDP (ho : u.owns slot devRes = true)
    (hc : u.badCode [(R.addr .OWN_UDP, v)] .OWN_UDP 0 0 v = false) : WriteOk u slot .OWN_UDP 0 0 v where
  field := rfl
  owner := ⟨devRes, regRes_OWN_UDP, ho⟩
  code := hc
  served h := absurd h.2 (by decide)
  inService := rfl
  calm := rfl
  kept := rfl

/-- A write of OWN_CTL that passes its checks: the register has the value, which comes into use 1 ms later. -/
theorem writeRegs_OWN_CTL (ho : u.owns slot devRes = true)
    (hc : u.badCode [(R.addr .OWN_CTL, v)] .OWN_CTL 0 0 v = false) : u.writeRegs slot [(R.addr .OWN_CTL, v)] =
      (stOk, (u.setRg .OWN_CTL (mergeWrite (R.row .OWN_CTL) (u.rg .OWN_CTL) v)).withOwnAt (some (u.now + msCyc))) := by
  rw [writeRegs_ok regAt_OWN_CTL (writeOk_OWN_CTL ho hc), applyWrite_systemDie regAt_OWN_CTL rfl (by decide)]
  rfl

/-- A write of OWN_UDP that passes its checks: the register has the value, which comes into use 1 ms later. -/
theorem writeRegs_OWN_UDP (ho : u.owns slot devRes = true)
    (hc : u.badCode [(R.addr .OWN_UDP, v)] .OWN_UDP 0 0 v = false) : u.writeRegs slot [(R.addr .OWN_UDP, v)] =
      (stOk, (u.setRg .OWN_UDP (mergeWrite (R.row .OWN_UDP) (u.rg .OWN_UDP) v)).withOwnAt (some (u.now + msCyc))) := by
  rw [writeRegs_ok regAt_OWN_UDP (writeOk_OWN_UDP ho hc), applyWrite_systemDie regAt_OWN_UDP rfl (by decide)]
  rfl

/-- The settings in use become those of the registers when their moment comes. -/
theorem exec_ownChangeApply {z : State} {d : Nat} (hd : z.ownAt = some d) (hr : z.reports = []) :
    exec .ownChangeApply z = .next ((((z.advTo d).withOwnEff
      ((z.advTo d).rd (R.addr .OWN_CTL), (z.advTo d).rd (R.addr .OWN_UDP))).withOwnAt none).sweepShadows) := by
  show execOwnChangeApply z = _
  simp only [execOwnChangeApply, hd]
  exact done_calm (by simpa using hr)

/-- Settles O51: a refused code answers BAD_PARAM, any other is written for use 1 ms later, and at that moment it is in use. -/
theorem ownSettingsApplyLater : Obligations.OwnSettingsApplyLater := by
  intro s h slot x v A ht hp ho u e
  have hu : u.owns slot devRes = true := by simpa [u] using ho
  have hn : u.now = s.now := by simp [u]
  refine ⟨fun hb => ?_, fun hb => ?_, fun hb => ?_, fun hb => ?_, fun d z hd hr => ⟨exec_ownChangeApply hd hr, by simp⟩⟩
  · exact done_oneReg A ht hp (writeRegs_badCode regAt_OWN_CTL regRes_OWN_CTL ((badCode_OWN_CTL _).mpr hb))
  · exact done_oneReg A ht hp (writeRegs_badCode regAt_OWN_UDP regRes_OWN_UDP ((badCode_OWN_UDP _).mpr hb))
  · rw [← hn]
    exact done_oneReg A ht hp (writeRegs_OWN_CTL hu (Bool.eq_false_iff.mpr (mt (badCode_OWN_CTL _).mp hb)))
  · rw [← hn]
    exact done_oneReg A ht hp (writeRegs_OWN_UDP hu (Bool.eq_false_iff.mpr (mt (badCode_OWN_UDP _).mp hb)))

end Sys2Proof.Machine
end

section
/-! SUPPORT. Registers that a write of another register, and the receipt of a frame, leave as they are. -/

namespace Sys2Proof.Machine

open Sys2Proof

variable {s : State}

/-- Registers of two kinds that are apart never share an address. -/
theorem addr_ne_of_apart {r t : R} (ht : r.row.tidy = true) (h : r.row.apart t.row = true) {i j k l : Nat}
    (hi : i < r.row.n1) (hj : j < r.row.n2) (hk : k < t.row.n1) (hl : l < t.row.n2) : r.addr i j ≠ t.addr k l := by
  intro e
  have hr : rowAt r.row (r.addr i j) = some (i, j) := rowAt_self ht hi hj
  have hn : rowAt r.row (t.addr k l) = none := rowAt_apart h hk hl
  rw [← e, hr] at hn
  cases hn

/-- A write of a register leaves every register of a kind that is apart. -/
theorem rg_setRg_apart {r t : R} (ht : r.row.tidy = true) (h : r.row.apart t.row = true) {i j k l : Nat}
    (hi : i < r.row.n1) (hj : j < r.row.n2) (hk : k < t.row.n1) (hl : l < t.row.n2) (v : Nat) :
    (s.setRg t v k l).rg r i j = s.rg r i j :=
  congrArg BitVec.toNat (mget_mset_ne _ _ _ (addr_ne_of_apart ht h hi hj hk hl))

/-- Receipt of a frame leaves every register of a kind that is apart from the lane's two counters. -/
theorem heard_rg {r : R} (ht : r.row.tidy = true) (hf : r.row.apart (R.row .HP_RX_FRAMES) = true)
    (hd : r.row.apart (R.row .HP_RX_DROP) = true) {i j : Nat} (hi : i < r.row.n1) (hj : j < r.row.n2) (h : Hdr) :
    (s.heard h).2.rg r i j = s.rg r i j := by
  have hl : ∀ k, laneOf h.bind = some k → k < 8 := by
    intro k hk
    cases hb : h.bind <;> simp only [hb, laneOf, Option.some.injEq, reduceCtorEq] at hk <;> omega
  unfold State.heard
  split
  · rfl
  · rename_i k hk
    split
    · rfl
    · split
      · exact rg_setRg_apart ht hf hi hj (hl k hk) Nat.one_pos _
      · exact rg_setRg_apart ht hd hi hj (hl k hk) Nat.one_pos _

/-- So does an admitted command, before its own checks. -/
theorem taken_rg {r : R} (ht : r.row.tidy = true) (hf : r.row.apart (R.row .HP_RX_FRAMES) = true)
    (hd : r.row.apart (R.row .HP_RX_DROP) = true) {i j : Nat} (hi : i < r.row.n1) (hj : j < r.row.n2) (h : Hdr) (n : Nat)
    (x : Session) : (s.taken h n x).rg r i j = s.rg r i j :=
  heard_rg ht hf hd hi hj h

@[simp] theorem taken_injectPending (h : Hdr) (n : Nat) (x : Session) :
    (s.taken h n x).flag F.FLC_INJECT.pending = s.flag F.FLC_INJECT.pending := by
  simp only [State.flag, State.fl]
  rw [taken_rg (by decide) (by decide) (by decide) (by decide) (by decide)]

@[simp] theorem taken_dead (h : Hdr) (n : Nat) (x : Session) : (s.taken h n x).dead = s.dead := by
  obtain ⟨r, e⟩ := heard_eq s h
  simp [State.taken, State.accept, e]
  rfl

end Sys2Proof.Machine
end

section
/-! SUPPORT. Bytes and words of DRAM: the words that bytes spell, and what a list of stored words leaves in memory. -/

namespace Sys2Proof.Machine

open Sys2Proof

/-! ### Bytes and words (R5) -/

/-- The number that bytes spell fits their width. -/
theorem ofLe_lt : ∀ l : List Byte, ofLe l < 256 ^ l.length
  | [] => Nat.one_pos
  | b :: t => by
    have hb := b.isLt
    have ht := ofLe_lt t
    simp only [ofLe, List.length_cons, Nat.pow_succ]
    omega

/-- The first byte of a number is its remainder, the others are those of its quotient. -/
theorem leBytes_succ (n x : Nat) : leBytes (n + 1) x = BitVec.ofNat 8 x :: leBytes n (x / 256) := by
  simp only [leBytes, List.range_succ_eq_map, List.map_cons, List.map_map, Nat.mul_zero, Nat.shiftRight_zero]
  congr 1
  refine List.map_congr_left fun k _ => ?_
  simp only [Function.comp, Nat.shiftRight_eq_div_pow, Nat.div_div_eq_div_mul]
  congr 2
  rw [show (8 * k.succ) = 8 + 8 * k by omega, Nat.pow_add]

/-- Bytes are the bytes of the number that they spell. -/
theorem leBytes_ofLe : ∀ l : List Byte, leBytes l.length (ofLe l) = l
  | [] => rfl
  | b :: t => by
    have hm : BitVec.ofNat 8 (ofLe (b :: t)) = b := by
      apply BitVec.eq_of_toNat_eq
      have := b.isLt
      simp only [ofLe, BitVec.toNat_ofNat]
      omega
    have hd : ofLe (b :: t) / 256 = ofLe t := by
      have := b.isLt
      simp only [ofLe]
      omega
    rw [List.length_cons, leBytes_succ, hm, hd, leBytes_ofLe t]

/-- A word spelled by eight bytes has them as its bytes. -/
theorem leBytes_word {l : List Byte} (h : l.length = 8) : leBytes 8 (BitVec.ofNat 64 (ofLe l)).toNat = l := by
  have hl := ofLe_lt l
  rw [h] at hl
  rw [BitVec.toNat_ofNat, Nat.mod_eq_of_lt (by simpa using hl), ← h, leBytes_ofLe]

/-- The words of bytes have them as their bytes. -/
theorem bytesOfWords_wordsOfBytes : ∀ (n : Nat) (l : List Byte), l.length = 8 * n → bytesOfWords (wordsOfBytes n l) = l
  | 0, l, h => (List.length_eq_zero_iff.mp (by simpa using h)).symm
  | n + 1, l, h => by
    have ih := bytesOfWords_wordsOfBytes n (l.drop 8) (by simp only [List.length_drop]; omega)
    have hw := leBytes_word (l := l.take 8) (by simp only [List.length_take]; omega)
    simp only [bytesOfWords] at ih
    simp only [wordsOfBytes, bytesOfWords, List.flatMap_cons, ih, hw, List.take_append_drop]

@[simp] theorem wordsOfBytes_length : ∀ (n : Nat) (l : List Byte), (wordsOfBytes n l).length = n
  | 0, _ => rfl
  | n + 1, l => congrArg (· + 1) (wordsOfBytes_length n (l.drop 8))

/-- Words made of bytes are clean. -/
theorem wordsOfBytes_clean : ∀ (n : Nat) (l : List Byte), ∀ w ∈ wordsOfBytes n l, w.poison = false
  | n + 1, l, w, h => by
    rcases List.mem_cons.mp h with rfl | h
    · rfl
    · exact wordsOfBytes_clean n _ w h

@[simp] theorem leBytes_length (n x : Nat) : (leBytes n x).length = n := by simp [leBytes]

/-- Storing two runs of bytes one behind the other stores them as one. -/
theorem putBytes_append : ∀ (l k : List Byte) (m : List Host.Cell) (a : Nat),
    putBytes m a (l ++ k) = putBytes (putBytes m a l) (a + l.length) k
  | [], _, _, _ => rfl
  | b :: t, k, m, a => by
    simp only [List.cons_append, putBytes, List.length_cons]
    rw [putBytes_append t k, show a + 1 + t.length = a + (t.length + 1) by omega]

/-! ### What stores change -/

variable {s : State}

/-- Waking a rank changes rank timers and registers only. -/
theorem wake_eq (s : State) (p : Place) : ∃ t r, s.wake p = { s with rankT := t, regs := r } := by
  unfold State.wake
  simp only
  split
  · exact ⟨_, _, rfl⟩
  · exact ⟨_, s.regs, rfl⟩

/-- The store of one word by a source, with all that goes with it (R410, R423, R495, R542). -/
def State.storeWord (s : State) (by_ : Writer) (a : Nat) (w : RWord) : State :=
  (((s.setInit (a / 2 ^ 20)).wake (s.place a)).putWord a w.data w.poison).markWrite by_ a

/-- While no controller has failed its retraining, a source's writes are stores word by word. -/
theorem writeEach_cons (hd : s.dead = []) (by_ : Writer) (a : Nat) (w : RWord) (l : List RWord) :
    s.writeEach by_ a (w :: l) = (s.storeWord by_ a w).writeEach by_ (a + 8) l := by
  have hp : s.deadMc (s.place a).m = false := by simp [State.deadMc, hd]
  simp only [State.writeEach, hp, Bool.false_eq_true, if_false]
  rfl

@[simp] theorem wake_mem (p : Place) : (s.wake p).mem = s.mem := by obtain ⟨t, r, e⟩ := wake_eq s p; rw [e]
@[simp] theorem wake_psn (p : Place) : (s.wake p).psn = s.psn := by obtain ⟨t, r, e⟩ := wake_eq s p; rw [e]
@[simp] theorem wake_dead (p : Place) : (s.wake p).dead = s.dead := by obtain ⟨t, r, e⟩ := wake_eq s p; rw [e]
@[simp] theorem wake_reports (p : Place) : (s.wake p).reports = s.reports := by obtain ⟨t, r, e⟩ := wake_eq s p; rw [e]

@[simp] theorem withMem_dead (m : List Host.Cell) : (s.withMem m).dead = s.dead := by rfl
@[simp] theorem withPsn_dead (m : SMap Byte) : (s.withPsn m).dead = s.dead := by rfl
@[simp] theorem withErr_dead (m : SMap Cells) : (s.withErr m).dead = s.dead := by rfl
@[simp] theorem withInited_dead (m : SMap Bool) : (s.withInited m).dead = s.dead := by rfl
@[simp] theorem withWrote_dead (m : SMap Wrote) : (s.withWrote m).dead = s.dead := by rfl

@[simp] theorem storeWord_mem (by_ : Writer) (a : Nat) (w : RWord) :
    (s.storeWord by_ a w).mem = putBytes s.mem a (leBytes 8 w.data.toNat) := by
  simp [State.storeWord, State.markWrite, State.putWord, State.setInit]
@[simp] theorem storeWord_psn (by_ : Writer) (a : Nat) (w : RWord) :
    (s.storeWord by_ a w).psn = mset (fun _ => 0) s.psn (a / 8) (poisonByte w.poison) := by
  simp [State.storeWord, State.markWrite, State.putWord, State.setInit]
@[simp] theorem storeWord_reports (by_ : Writer) (a : Nat) (w : RWord) : (s.storeWord by_ a w).reports = s.reports := by
  simp [State.storeWord, State.markWrite, State.putWord, State.setInit]
@[simp] theorem storeWord_dead (by_ : Writer) (a : Nat) (w : RWord) : (s.storeWord by_ a w).dead = s.dead := by
  simp [State.storeWord, State.markWrite, State.putWord, State.setInit]

/-- A source's writes store the bytes of their words one behind the other. -/
theorem writeEach_mem (by_ : Writer) : ∀ (l : List RWord) {s : State} (a : Nat), s.dead = [] →
    (s.writeEach by_ a l).mem = putBytes s.mem a (bytesOfWords l)
  | [], _, _, _ => rfl
  | w :: l, s, a, hd => by
    rw [writeEach_cons hd, writeEach_mem by_ l _ (by simpa using hd), storeWord_mem]
    simp [bytesOfWords, putBytes_append]

/-- A source's writes make no report. -/
theorem writeEach_reports (by_ : Writer) : ∀ (l : List RWord) {s : State} (a : Nat), s.dead = [] →
    (s.writeEach by_ a l).reports = s.reports
  | [], _, _, _ => rfl
  | w :: l, s, a, hd => by
    rw [writeEach_cons hd, writeEach_reports by_ l _ (by simpa using hd), storeWord_reports]

/-- A word outside the written ones keeps its poison tag. -/
theorem writeEach_psn_frame (by_ : Writer) : ∀ (l : List RWord) {s : State} (a k : Nat), s.dead = [] →
    k < a / 8 ∨ a / 8 + l.length ≤ k → mget (fun _ => 0) (s.writeEach by_ a l).psn k = mget (fun _ => 0) s.psn k
  | [], _, _, _, _, _ => rfl
  | w :: l, s, a, k, hd, hk => by
    simp only [List.length_cons] at hk
    rw [writeEach_cons hd, writeEach_psn_frame by_ l _ k (by simpa using hd) (by omega), storeWord_psn,
      mget_mset_ne _ _ _ (by omega)]

/-- A written word has the poison tag of what was written. -/
theorem writeEach_psn_read (by_ : Writer) (l : List RWord) {s : State} (a i : Nat) (hi : i < l.length) (hd : s.dead = [])
    (hm : mwf (fun _ => 0) s.psn = true) :
    mget (fun _ => 0) (s.writeEach by_ a l).psn (a / 8 + i) = poisonByte l[i].poison := by
  induction l generalizing s a i with
  | nil => cases hi
  | cons w l ih =>
    rw [writeEach_cons hd]
    cases i with
    | zero =>
      rw [writeEach_psn_frame by_ l _ _ (by simpa using hd) (by omega), storeWord_psn]
      exact mget_mset_same _ _ 0 _ _ hm
    | succ i =>
      rw [show a / 8 + (i + 1) = (a + 8) / 8 + i by omega]
      refine ih _ i (by simpa using hi) (by simpa using hd) ?_
      rw [storeWord_psn]
      exact mwf_mset _ _ _ _ hm

/-! ### The lines at both ends -/

/-- Where no stored word has an error and no injection is pending, the read of a partial write finds nothing to do. -/
theorem rmwWord_clean (he : s.err = []) (hj : s.flag F.FLC_INJECT.pending = false) (a : Nat) : s.rmwWord a = s := by
  simp [State.rmwWord, State.injected, hj, State.finding, he]

/-- There a write of words is a source's writes and no more. -/
theorem writeWords_clean (he : s.err = []) (hj : s.flag F.FLC_INJECT.pending = false) (by_ : Writer) (a : Nat)
    (l : List RWord) : s.writeWords by_ a l = s.writeEach by_ a l := by
  have hf : ∀ k : List Nat, k.foldl State.rmwWord s = s := by
    intro k
    induction k with
    | nil => rfl
    | cons b t ih => rw [List.foldl_cons, rmwWord_clean he hj, ih]
  simp only [State.writeWords, hf]

/-! ### What a write disturbs (R150, R496) -/

/-- A fold of steps that change one part of the state only changes that part only. -/
theorem foldl_eq_with {α β : Type} {w : State → β → State} {f : State → α → State} (hs : ∀ s, ∃ b, s = w s b)
    (hw : ∀ s b c, w (w s b) c = w s c) (hf : ∀ s a, ∃ b, f s a = w s b) :
    ∀ (l : List α) (s : State), ∃ b, l.foldl f s = w s b
  | [], s => hs s
  | a :: t, s => by
    obtain ⟨b, hb⟩ := hf s a
    obtain ⟨c, hc⟩ := foldl_eq_with hs hw hf t (f s a)
    exact ⟨c, by rw [List.foldl_cons, hc, hb, hw]⟩

/-- Marking loaded tables changes the stalls only. -/
theorem noteTables_eq (s : State) (a n : Nat) : ∃ t, s.noteTables a n = s.withStalls t := by
  refine foldl_eq_with (w := State.withStalls) (fun s => ⟨s.stalls, rfl⟩) (fun _ _ _ => rfl) (fun s st => ?_) _ s
  split
  · exact ⟨_, rfl⟩
  · exact ⟨s.stalls, rfl⟩

/-- Noting a write changes the stalls and the queues only. -/
theorem noteWrite_eq (s : State) (a n : Nat) : ∃ t q, s.noteWrite a n = (s.withStalls t).withQueues q := by
  obtain ⟨t, ht⟩ := noteTables_eq s a n
  refine ⟨t, ?_⟩
  unfold State.noteWrite
  rw [ht]
  refine foldl_eq_with (w := State.withQueues) (fun s => ⟨s.queues, rfl⟩) (fun _ _ _ => rfl) (fun s q => ?_) _ _
  split
  · exact ⟨_, rfl⟩
  · exact ⟨s.queues, rfl⟩

@[simp] theorem noteWrite_mem (a n : Nat) : (s.noteWrite a n).mem = s.mem := by
  obtain ⟨t, q, e⟩ := noteWrite_eq s a n; rw [e]; rfl
@[simp] theorem noteWrite_psn (a n : Nat) : (s.noteWrite a n).psn = s.psn := by
  obtain ⟨t, q, e⟩ := noteWrite_eq s a n; rw [e]; rfl
@[simp] theorem noteWrite_reports (a n : Nat) : (s.noteWrite a n).reports = s.reports := by
  obtain ⟨t, q, e⟩ := noteWrite_eq s a n; rw [e]; rfl

end Sys2Proof.Machine
end

section
/-! SUPPORT. WRITE_MEM: the access that it makes once its checks pass, and what that leaves in DRAM (R128). -/

namespace Sys2Proof.Machine

open Sys2Proof

variable {s u : State}

/-- A range whose controllers all serve touches none in block reset. -/
theorem memReset_of_not_held {a n : Nat} (h : u.memHeld a n = false) : u.memReset a n = false := by
  simp only [State.memHeld, State.memReset, List.any_eq_false, Bool.not_eq_true] at h ⊢
  intro m hm
  have hs := h m hm
  simp only [State.serving, Bool.not_eq_false', Bool.and_eq_true, Bool.not_eq_true'] at hs
  simpa using hs.2

/-- A range whose controllers all serve is accessed at once. -/
theorem memAccess_served {acc : MemAcc} (h : u.memHeld acc.range.1 acc.range.2 = false) : u.memAccess acc = u.memNow acc := by
  simp [State.memAccess, memReset_of_not_held h, h]

/-- WRITE_MEM's operands as check 6 takes them: the device as target, the lengths that agree, and a range of words. -/
structure WriteMemShape (h : Hdr) (addr : BitVec 64) (len : BitVec 32) (data : List Byte) : Prop where
  target : h.target = 0xff
  plen : h.plen = 12 + len.toNat
  length : data.length = len.toNat
  aligned : addr.toNat % 8 = 0
  lenOk : memLenOk len.toNat = true

/-- A WRITE_MEM that passes its checks, to a range that is served, stores its words and answers OK. -/
theorem writeMemBody_stores {h : Hdr} {addr : BitVec 64} {len : BitVec 32} {data : List Byte} {slot : Nat}
    (hw : WriteMemShape h addr len data) (hd : u.noDram = false) (hi : u.inDram addr.toNat len.toNat = true)
    (ho : u.mayWrite slot addr.toNat len.toNat = true) (hs : u.memHeld addr.toNat len.toNat = false) :
    writeMemBody h addr len data slot u = (.reply stOk [],
      (u.writeWords (dcpWriter u.now) addr.toNat (wordsOfBytes (len.toNat / 8) data)).noteWrite addr.toNat len.toNat) := by
  have hn := memAccess_served (acc := .write addr.toNat len.toNat data) hs
  simp [writeMemBody, devShape, tgDev, hw.target, hw.plen, hw.length, hw.aligned, hw.lenOk, hd, hi, ho, hn, State.memNow, okay]

/-- A length that WRITE_MEM accepts is a whole number of words (R128). -/
theorem memLenOk_words {n : Nat} (h : memLenOk n = true) : 8 * (n / 8) = n := by
  simp only [memLenOk, Bool.and_eq_true, beq_iff_eq] at h
  omega

/-- The poison byte of a clean word reads as clean (R427). -/
theorem readsPoisoned_clean : readsPoisoned (poisonByte false) = false := by decide

/-- Where no error is stored, no injection is pending and no retraining has failed, writing the words of bytes stores these
bytes, and nothing is reported. -/
theorem writeWords_bytes {by_ : Writer} {a n : Nat} {data : List Byte} (hd : u.dead = []) (he : u.err = [])
    (hj : u.flag F.FLC_INJECT.pending = false) (hl : data.length = 8 * n) :
    (u.writeWords by_ a (wordsOfBytes n data)).mem = putBytes u.mem a data ∧
      (u.writeWords by_ a (wordsOfBytes n data)).reports = u.reports := by
  rw [writeWords_clean he hj, writeEach_mem by_ _ _ hd, writeEach_reports by_ _ _ hd, bytesOfWords_wordsOfBytes n data hl]
  exact ⟨rfl, rfl⟩

/-- There each stored word is clean. -/
theorem writeWords_clean_word {by_ : Writer} {a n k : Nat} {data : List Byte} (hd : u.dead = []) (he : u.err = [])
    (hj : u.flag F.FLC_INJECT.pending = false) (hm : mwf (fun _ => 0) u.psn = true) (hk : k < n) :
    readsPoisoned (mget (fun _ => 0) (u.writeWords by_ a (wordsOfBytes n data)).psn (a / 8 + k)) = false := by
  have hi : k < (wordsOfBytes n data).length := by simpa using hk
  rw [writeWords_clean he hj, writeEach_psn_read by_ _ _ _ hi hd hm, wordsOfBytes_clean n data _ (List.getElem_mem hi)]
  exact readsPoisoned_clean

/-- There a word that is not written keeps its tag. -/
theorem writeWords_psn_frame {by_ : Writer} {a n k : Nat} {data : List Byte} (hd : u.dead = []) (he : u.err = [])
    (hj : u.flag F.FLC_INJECT.pending = false) (hk : k < a / 8 ∨ a / 8 + n ≤ k) :
    mget (fun _ => 0) (u.writeWords by_ a (wordsOfBytes n data)).psn k = mget (fun _ => 0) u.psn k := by
  rw [writeWords_clean he hj]
  exact writeEach_psn_frame by_ _ _ _ hd (by simpa using hk)

/-- A reply with no report waiting leaves DRAM as it is. -/
theorem replies_dram {v : State} {slot : Nat} {h : Hdr} {op c : Nat} {p : List Byte} (hr : v.reports = []) :
    (v.replies slot h op c p).mem = v.mem ∧ (v.replies slot h op c p).psn = v.psn := by
  rw [replies_calm hr]
  simp

/-- Settles O25: the checks pass, the access is served at once, and a source's writes store the data's bytes word by word. -/
theorem writeMemStoresItsBytesOnly : Obligations.WriteMemStoresItsBytesOnly := by
  intro s t h slot x addr len data A htg hpl hlen hs hal hok hdead herr hinj hrep u hdram hin hheld hown hex
  have hd : u.dead = [] := by simpa [u] using hdead
  have he : u.err = [] := by simpa [u] using herr
  have hj : u.flag F.FLC_INJECT.pending = false := by simpa [u] using hinj
  have hmem : u.mem = s.mem := by simp [u]
  have hpsn : u.psn = s.psn := by simp [u]
  have hn := memLenOk_words hok
  generalize hw : u.writeWords (dcpWriter u.now) addr.toNat (wordsOfBytes (len.toNat / 8) data) = w
  have hbody := writeMemBody_stores ⟨htg, hpl, hlen, hal, hok⟩ hdram hin hown hheld
  rw [hw] at hbody
  obtain ⟨hwm, hwr⟩ := writeWords_bytes (by_ := dcpWriter u.now) (a := addr.toNat) hd he hj (hlen.trans hn.symm)
  rw [hw] at hwm hwr
  have ht : t = (w.noteWrite addr.toNat len.toNat).replies slot h 0x0020 stOk [] :=
    Host.Outcome.next.inj (hex.symm.trans (done_reply A hbody))
  obtain ⟨htm, htp⟩ := replies_dram (slot := slot) (h := h) (op := 0x0020) (c := stOk) (p := [])
    (v := w.noteWrite addr.toNat len.toNat) (by simp [hwr, u, hrep])
  rw [← ht, noteWrite_mem, hwm, hmem] at htm
  rw [← ht, noteWrite_psn, ← hw] at htp
  refine ⟨fun i hi => ?_, fun i hi => ?_, fun a ha => ?_, fun k hk => ?_⟩
  · rw [State.memByte, htm]
    exact putBytes_read data s.mem addr.toNat i hs.mem hi
  · rw [State.poisoned, htp, show (addr.toNat + i) / 8 = addr.toNat / 8 + i / 8 by omega]
    exact writeWords_clean_word hd he hj (hpsn ▸ hs.psn) (by omega)
  · rw [State.memByte, htm]
    exact putBytes_frame data s.mem addr.toNat a (by omega)
  · rw [htp, ← hpsn]
    exact writeWords_psn_frame hd he hj (by omega)

end Sys2Proof.Machine
end

section
/-! SUPPORT. A stall's lookahead and leat: the next entry is read, the oldest waiting line is requested, the oldest line in
flight arrives (R151, R196, R207, R473). -/

namespace Sys2Proof.Machine

open Sys2Proof

variable {s : State} {st : Nat}

/-- The run-time record of a stall holds no bit that says whether the stall is armed or running. -/
@[simp] theorem setStall_busyStall (k : Nat) (x : Stall) : (s.setStall k x).busyStall st = s.busyStall st := rfl

@[simp] theorem raise_busyStall (n d : Nat) (b : Bool) (k : Option Nat) :
    (s.raise n d b k).busyStall st = s.busyStall st := rfl

@[simp] theorem setStall_injected (k n : Nat) (x : Stall) : (s.setStall k x).injected n = s.injected n := rfl

/-- The lookahead of a busy stall reads on once every line of its earlier requests is issued (R151). -/
theorem canRead_of_issued (hb : s.busyStall st = true) (hg : (s.stall st).look.mode = .going)
    (hw : ∀ r ∈ (s.stall st).waiting, r.upto ≤ r.from_) : s.canRead st = true := by
  simpa [State.canRead, hb, hg] using hw

/-- The oldest range with a line unissued gives its first line to the requests in flight (R196). -/
theorem issue_oldest {x : Stall} {r : LineRange} {t : List LineRange}
    (h : x.waiting.filter (fun r => decide (r.from_ < r.upto)) = r :: t) : x.issue =
      { x with inflight := x.inflight ++ [⟨r.pid, r.from_, r.base + r.from_, false, false⟩]
               waiting := if r.from_ + 1 < r.upto then { r with from_ := r.from_ + 1 } :: t else t } := by
  simp only [Stall.issue, h]

/-- No starvation is found where one is marked already or no deadline has passed (R205). -/
theorem checkStarve_inTime (h : (s.stall st).starved = true ∨
    ∀ vec t0 line, s.firstAbsent st = some (vec, t0, line) → s.nowU ≤ deadline t0) : s.checkStarve st = s := by
  unfold State.checkStarve
  obtain hs | hd := h
  · simp [hs]
  · cases e : s.firstAbsent st with
    | none => simp
    | some a =>
      obtain ⟨vec, t0, line⟩ := a
      simp [Nat.not_lt.mpr (hd vec t0 line e)]

/-- With no checker injection pending, a flit is bad when its parity is, and a bad one is reported (R15, R16, R472). -/
theorem checkFlit_uninjected (h : s.injected 12 = false) (detail : Nat) (stall : Option Nat) (bad : Bool) :
    s.checkFlit detail stall bad = (bad, if bad then s.raise 12 detail false stall else s) := by
  cases bad <;> simp [State.checkFlit, h]

/-- A line of a play that is still wanted is read from DRAM and held by its busy stall (R196, R429, R473). -/
theorem arrive_holds (hb : s.busyStall st = true) {r : LineReq}
    (hf : (s.stall st).inflight.find? (fun r => ! r.lost) = some r) (hd : r.dead = false) (hj : s.injected 12 = false)
    (bad : Bool) :
    let v := s.setStall st { s.stall st with inflight := (s.stall st).inflight.erase r }
    let w := if bad then v.raise 12 2 false (some st) else v
    let l := w.readLine r.line
    let y := l.2.2.stall st
    s.arrive st bad = (l.2.2.setStall st { y with
      held := y.held ++ [⟨r.pid, r.off, r.line, l.1, l.2.1 || bad, y.toResident r.pid⟩] }).judgeLeat st := by
  intro v w l y
  have hv : v.checkFlit 2 (some st) bad = (bad, w) := checkFlit_uninjected (by simpa [v] using hj) 2 (some st) bad
  have hw : w.busyStall st = true := by cases bad <;> simpa [w, v] using hb
  simp only [State.arrive, hf]
  rw [hv]
  simp only [hd, hw, Bool.not_true, Bool.or_self, Bool.false_eq_true, if_false]
  rfl

/-- Settles O55: one lemma for each event says what it does, and the busy stall passes the event's guard. -/
theorem lookaheadReadsAndLinesArrive : Obligations.LookaheadReadsAndLinesArrive := by
  intro s st hb x
  refine ⟨fun hg hw => ?_, fun r t hc hw => ?_, fun r bad hf hd hs hj => ?_⟩
  · show execSeqEntryRead st s = _
    rw [execSeqEntryRead, if_pos (canRead_of_issued hb hg hw), done]
  · show execLineRequest st s = _
    rw [execLineRequest, if_pos (by simp [hb, hc]), issue_oldest hw, done]
  · show execLineArrival st bad s = _
    rw [execLineArrival, checkStarve_inTime hs, arrive_holds hb hf hd hj bad, done]

end Sys2Proof.Machine
end

section
/-! SUPPORT. Checks 1 and 2 of every command of a session: its version and the part's service, in this order (R66, R116). -/

namespace Sys2Proof.Machine

open Sys2Proof

variable {s : State} {h : Hdr}

/-- A reply outside a session's cache resumes no held command. -/
@[simp] theorem bounce_resuming (s : State) (h : Hdr) (op st : Nat) (p : List Byte) :
    (s.bounce h op st p).resuming = s.resuming := by
  simp [State.bounce]

@[simp] theorem strapError_resuming (s : State) (h : Hdr) (op : Nat) :
    (s.strapError h op).resuming = s.resuming := by
  simp [State.strapError, State.draw]

/-- A frame that the command engine does not get resumes no held command. -/
@[simp] theorem unheard_resuming (s : State) (b : Binding) (c : Instr) : (s.unheard b c).resuming = s.resuming := by
  cases b <;> simp only [State.unheard, State.relay] <;> split <;> simp

/-- A command frame of opcode `op` arrives: checks 1 and 2, and `pass` for a frame that passes them (R33, R66, R116). -/
def State.twoChecks (s : State) (h : Hdr) (op : Nat) (c : Instr) (pass : State → State) : State :=
  if (s.heard h).1 = false then (s.arrived h).unheard h.bind c
  else if h.version ≠ 2 then (s.arrived h).bounce h op stBadVersion
  else if s.phase = .strapStop ∧ h.bind = .mgmt then (s.arrived h).strapError h op
  else if ¬ (s.phase = .ready ∨ s.phase = .bootRom) then (s.arrived h).bounce h op stBusy
  else pass (s.arrived h)

/-- The command engine starts with checks 1 and 2. -/
theorem cmd_twoChecks (hf : s.resuming = false) (op : Nat) (self : Instr) (rom : Bool) (body : Body) :
    s.cmd h op self rom body
      = s.twoChecks h op self (fun t => (t.inSession h op self rom body).withResuming false) := by
  have hp : (s.heard h).2.phase = s.phase := heard_phase s h
  simp only [State.cmd, State.twoChecks, hf, Bool.false_eq_true, if_false, State.ready, hp, Bool.not_eq_true',
    Bool.and_eq_true, beq_iff_eq, Bool.or_eq_false_iff, beq_eq_false_iff_ne, not_or]
  rw [show (s.heard h).2 = s.arrived h from rfl]
  split
  · exact withResuming_self (by simp [hf])
  · split
    · exact withResuming_self (by simp [hf])
    · split
      · exact withResuming_self (by simp [hf])
      · split
        · exact withResuming_self (by simp [hf])
        · rfl

/-- HELLO starts with the same two checks (R109). -/
theorem execHello_twoChecks (client : BitVec 64) (lease : BitVec 32) (flags : BitVec 8) :
    execHello h client lease flags s
      = done (s.twoChecks h 1 (.hello h client lease flags) (fun t => t.hello h client lease.toNat flags.toNat)) := by
  have hp : (s.heard h).2.phase = s.phase := heard_phase s h
  simp only [execHello, State.twoChecks, State.ready, hp, Bool.not_eq_true', Bool.and_eq_true, beq_iff_eq,
    Bool.or_eq_false_iff, beq_eq_false_iff_ne, not_or, apply_ite done]
  rfl

/-- Every command of a session starts with checks 1 and 2, under its own opcode. -/
theorem exec_twoChecks (c : Instr) (hc : hdrOf c = some h) (hf : s.resuming = false) :
    ∃ pass, exec c s = done (s.twoChecks h (opcodeOf c) c pass) := by
  cases c with
  | hello g client lease flags =>
    cases hc
    exact ⟨_, execHello_twoChecks client lease flags⟩
  | dcpFrameDrop g why =>
    cases why with
    | reservedOpcode op =>
      cases hc
      exact ⟨_, (exec_reservedOpcode h op s).trans (congrArg done (cmd_twoChecks hf ..))⟩
    | _ => cases hc
  | _ =>
    obtain ⟨body, e⟩ := exec_cmd _ h s hc (by simp [opcodeOf]) (by simp)
    exact ⟨_, e.trans (congrArg done (cmd_twoChecks hf ..))⟩

section
variable {op : Nat} {c : Instr} {pass : State → State}

/-- Check 1 fails: BAD_VERSION, and nothing else is looked at. -/
theorem twoChecks_badVersion (hh : (s.heard h).1 = true) (hv : h.version ≠ 2) :
    s.twoChecks h op c pass = (s.arrived h).bounce h op stBadVersion := by
  rw [State.twoChecks, if_neg (by simp [hh]), if_pos hv]

/-- Check 2 fails: BUSY. -/
theorem twoChecks_busy (hh : (s.heard h).1 = true) (hv : h.version = 2) (hr : s.phase ≠ .ready)
    (hb : s.phase ≠ .bootRom) (hs : ¬ (s.phase = .strapStop ∧ h.bind = .mgmt)) :
    s.twoChecks h op c pass = (s.arrived h).bounce h op stBusy := by
  simp [State.twoChecks, hh, hv, hr, hb, hs]

/-- A frame over the management target counts in no lane's register (R88). -/
theorem arrived_mgmt (s : State) (hm : h.bind = .mgmt) : s.arrived h = s := by
  simp [State.arrived, State.heard, hm, laneOf]

/-- A strap error is reported over the management target with a free status (R33, log 3). -/
theorem twoChecks_strapStop (hh : (s.heard h).1 = true) (hv : h.version = 2) (hp : s.phase = .strapStop)
    (hm : h.bind = .mgmt) : s.twoChecks h op c pass
      = (s.withFreeCtr (s.freeCtr + 1)).bounce h op (Config.free s.freeCtr 16).toNat := by
  simp [State.twoChecks, hh, hv, hp, hm, arrived_mgmt s hm, State.strapError, State.draw]

end

/-- Settles O7: every command starts with the two checks, and each clause is one outcome of them. -/
theorem versionAndServiceAreCheckedFirst : Obligations.VersionAndServiceAreCheckedFirst := by
  intro c h s hc hf hh
  obtain ⟨pass, e⟩ := exec_twoChecks c hc hf
  rw [e]
  refine ⟨fun hv => ?_, fun hv hr hb hs => ?_, fun hv hp hm => ?_⟩
  · rw [twoChecks_badVersion hh hv, done]
  · rw [twoChecks_busy hh hv hr hb hs, done]
  · rw [twoChecks_strapStop hh hv hp hm, done]

end Sys2Proof.Machine
end

section
/-! SUPPORT. The management target: which transactions it answers, what a fragment does to the message being received, and
the command that a whole message spells (R43, R514–R516). -/

namespace Sys2Proof.Machine

open Sys2Proof

variable {s : State} {bus other : BitVec 7}

/-! ### What a message spells (R105, R124) -/

/-- No opcode with its parameters spells the row of a dropped frame. -/
theorem decodeCmd_ne_drop (h : Hdr) (op : Nat) (p : List Byte) (g : Hdr) (why : DcpDrop) :
    decodeCmd h op p ≠ some (.dcpFrameDrop g why) := by
  unfold decodeCmd
  split <;> simp

/-- No message spells the row of a dropped frame. -/
theorem decodeDcp_ne_drop (l : List Byte) (g : Hdr) (why : DcpDrop) : decodeDcp l ≠ .cmd (.dcpFrameDrop g why) := by
  intro e
  simp only [decodeDcp] at e
  split at e
  · cases e
  · split at e
    · split at e
      · next hi =>
        cases e
        exact decodeCmd_ne_drop _ _ _ _ _ hi
      · cases e
    · split at e <;> cases e

/-- The effect of a received message is that of its command, for every command of a session but the rows that write one
register, which arrive as WRITE_REG. -/
theorem dcpEffect_eq_exec {i : Instr} {u : State} (hh : ∃ h, hdrOf i = some h) (hw : rowWrite u i = none)
    (hd : ∀ g why, i ≠ .dcpFrameDrop g why) (t : State) : dcpEffect i t = exec i t := by
  obtain ⟨h, hh⟩ := hh
  -- A row is an arm of both tables, or it is no command of a session, or it writes one register.
  cases i with
  | dcpFrameDrop g why => exact absurd rfl (hd g why)
  | _ => first | rfl | (cases hh; done) | cases hw

/-! ### Which transactions the target answers (R43) -/

/-- After a block write the target answers if it is on and the write is at its address. -/
theorem busMine_toBus : (s.toBus bus).busMine = (s.mgmtOn && bus.toNat == s.busAddress) := rfl

/-- A transaction at the target's own address is its own. -/
theorem busMine_own (hm : s.mgmtOn = true) (hb : bus.toNat = s.busAddress) : (s.toBus bus).busMine = true := by
  simp [busMine_toBus, hm, hb]

/-- A transaction at any other address is not. -/
theorem busMine_other (hb : bus.toNat = s.busAddress) (ho : other ≠ bus) : (s.toBus other).busMine = false := by
  have : other.toNat ≠ s.busAddress := fun e => ho (BitVec.eq_of_toNat_eq (e.trans hb.symm))
  simp [busMine_toBus, this]

/-- The bus stands at the address of the last block write. -/
theorem toBus_self (ht : s.mgt.to_ = some bus) : s.toBus bus = s := by
  simp [State.toBus, ← ht, State.withMgt]

/-! ### Fragments (R514, R515) -/

section
variable {b : Byte} {l rest : List Byte}

/-- A fragment with a bad PEC drops what was received. -/
theorem exec_blockWrite_badPec (hu : (s.toBus bus).busMine = true) :
    exec (.blockWrite ⟨bus, b :: rest⟩ false) s = .next (s.toBus bus).dropInbound.settle := by
  show execBlockWrite ⟨bus, b :: rest⟩ false s = _
  simp [execBlockWrite, hu, done]

/-- So does a fragment that continues no message. -/
theorem exec_blockWrite_stray (hu : (s.toBus bus).busMine = true) (hb : b.getLsbD 0 = false)
    (hp : s.mgt.inPart = none) :
    exec (.blockWrite ⟨bus, b :: rest⟩ true) s = .next (s.toBus bus).dropInbound.settle := by
  have hi : (s.toBus bus).mgt.inPart = none := hp
  show execBlockWrite ⟨bus, b :: rest⟩ true s = _
  simp only [execBlockWrite, hu, hb, hi, Bool.not_true, Bool.false_eq_true, if_false, done]

/-- What a fragment is put behind: nothing for a first one, else what was received of its message. -/
def State.Continues (s : State) (b : Byte) (l : List Byte) : Prop :=
  b.getLsbD 0 = true ∧ l = [] ∨ b.getLsbD 0 = false ∧ s.mgt.inPart = some l

/-- A fragment that is not the last is kept. -/
theorem exec_blockWrite_keeps (hu : (s.toBus bus).busMine = true) (hc : s.Continues b l) (hb : b.getLsbD 1 = false) :
    exec (.blockWrite ⟨bus, b :: rest⟩ true) s
      = .next ((s.toBus bus).withMgt { (s.toBus bus).mgt with inPart := some (l ++ rest) }).settle := by
  show execBlockWrite ⟨bus, b :: rest⟩ true s = _
  obtain ⟨h0, rfl⟩ | ⟨h0, hp⟩ := hc
  · simp only [execBlockWrite, hu, h0, hb, Bool.not_true, Bool.false_eq_true, if_false, if_true, done]
  · have hi : (s.toBus bus).mgt.inPart = some l := hp
    simp only [execBlockWrite, hu, h0, hb, hi, Bool.not_true, Bool.false_eq_true, if_false, done]

/-- The last fragment completes the message, which is handled. -/
theorem exec_blockWrite_last (hu : (s.toBus bus).busMine = true) (hc : s.Continues b l) (hb : b.getLsbD 1 = true) :
    exec (.blockWrite ⟨bus, b :: rest⟩ true) s = (s.toBus bus).inbound (l ++ rest) := by
  show execBlockWrite ⟨bus, b :: rest⟩ true s = _
  obtain ⟨h0, rfl⟩ | ⟨h0, hp⟩ := hc
  · simp only [execBlockWrite, hu, h0, hb, Bool.not_true, Bool.false_eq_true, if_false, if_true]
  · have hi : (s.toBus bus).mgt.inPart = some l := hp
    simp only [execBlockWrite, hu, h0, hb, hi, Bool.not_true, Bool.false_eq_true, if_false, if_true]

/-- A fragment at another address is on the bus, and that is all. -/
theorem exec_blockWrite_notMine (hu : (s.toBus bus).busMine = false) (frag : List Byte) (pecOk : Bool) :
    exec (.blockWrite ⟨bus, frag⟩ pecOk) s = .next (s.toBus bus).settle := by
  show execBlockWrite ⟨bus, frag⟩ pecOk s = _
  cases frag <;> simp [execBlockWrite, hu, done]

end

/-! ### A whole message (R105, R124, R515) -/

theorem inbound_dropped {l : List Byte} (hl : decodeDcp l = .dropped) : s.inbound l = .next s.dropInbound.settle := by
  simp [State.inbound, hl, done]

theorem inbound_unknown {l : List Byte} {h : Hdr} {op : BitVec 16} (hl : decodeDcp l = .unknown h op) :
    s.inbound l = exec (.dcpFrameDrop h (.reservedOpcode op)) (s.withMgt { s.mgt with inPart := none }) := by
  rw [State.inbound, hl]
  rfl

theorem inbound_cmd {l : List Byte} {i : Instr} (hl : decodeDcp l = .cmd i) (hh : ∃ h, hdrOf i = some h)
    (hw : rowWrite s i = none) : s.inbound l = exec i (s.withMgt { s.mgt with inPart := none }) := by
  rw [State.inbound, hl]
  exact dcpEffect_eq_exec hh hw (fun g why e => decodeDcp_ne_drop l g why (e ▸ hl)) _

/-! ### Reading (R514, R516) -/

/-- A block read that the target answers takes the next fragment. -/
theorem exec_blockRead_mine (hu : s.busMine = true) : exec .blockRead s
    = .next (s.withMgt { s.mgt.next.2 with last := some s.mgt.next.1, bus := s.mgt.next.1 }).settle := by
  show execBlockRead s = _
  simp [execBlockRead, hu, done]

/-- Its repeat gives the last fragment again. -/
theorem exec_blockReadRepeat_mine (hu : s.busMine = true) : exec .blockReadRepeat s
    = .next (s.withMgt { s.mgt with bus := s.mgt.last.getD [0] }).settle := by
  show execBlockReadRepeat s = _
  simp [execBlockReadRepeat, hu, done]

/-- At another address neither does anything. -/
theorem exec_blockReads_notMine (hu : s.busMine = false) :
    exec .blockRead s = .next s.settle ∧ exec .blockReadRepeat s = .next s.settle := by
  constructor
  · show execBlockRead s = _
    simp [execBlockRead, hu, done]
  · show execBlockReadRepeat s = _
    simp [execBlockReadRepeat, hu, done]

/-- A read is the target's own when no block write was at another address. -/
theorem busMine_of_to (hm : s.mgmtOn = true) (hb : bus.toNat = s.busAddress)
    (ht : s.mgt.to_ = none ∨ s.mgt.to_ = some bus) : s.busMine = true := by
  obtain ht | ht := ht <;> simp [State.busMine, hm, ht, hb]

/-- While a message waits the target answers the alert response with its address. -/
theorem exec_alertResponse_waiting (hm : s.mgmtOn = true) (hw : s.mgt.out ≠ []) : exec .alertResponse s
    = .next (s.withMgt { s.mgt with bus := [BitVec.ofNat 8 s.busAddress] }).settle := by
  show execAlertResponse s = _
  simp [execAlertResponse, State.alerting, hm, hw, done]

/-- A timeout drops a message partly received. -/
theorem exec_sclLowTimeout_partial (hm : s.mgmtOn = true) (hp : s.mgt.inPart ≠ none) :
    exec .sclLowTimeout s = .next s.dropInbound.settle := by
  show execSclLowTimeout s = _
  simp [execSclLowTimeout, hm, Option.isSome_iff_ne_none.mpr hp, done]

/-- Settles O54: each clause is the lemma above for its transaction, at the address that the straps give or at another. -/
theorem managementTargetCompletes : Obligations.ManagementTargetCompletes := by
  intro s bus hm hb u
  have hu : u.busMine = true := busMine_own hm hb
  refine ⟨fun b l rest hc => ⟨exec_blockWrite_keeps hu hc, fun h1 => ?_⟩,
    fun b rest => ⟨exec_blockWrite_badPec hu, exec_blockWrite_stray hu⟩,
    fun ht => ?_, exec_alertResponse_waiting hm, fun other ho => ?_, exec_sclLowTimeout_partial hm⟩
  · rw [exec_blockWrite_last hu hc h1]
    exact ⟨inbound_dropped, fun h op => inbound_unknown, fun i => inbound_cmd⟩
  · have hs := busMine_of_to hm hb ht
    exact ⟨exec_blockRead_mine hs, exec_blockReadRepeat_mine hs⟩
  · have hn := busMine_other hb ho
    exact ⟨exec_blockWrite_notMine hn, fun ht => exec_blockReads_notMine (toBus_self ht ▸ hn)⟩

end Sys2Proof.Machine
end

section
/-! SUPPORT. Reads of registers after writes: what a register and a field hold after a write of themselves, of a field above,
and of a register at a higher address. -/

namespace Sys2Proof.Machine

open Sys2Proof

variable {s : State}

/-- A register of a canonical register file reads as the low 32 bits that were written. -/
theorem rg_setRg_same (hs : mwf regRst s.regs = true) (r : R) (v i j : Nat) : (s.setRg r v i j).rg r i j = v % 2 ^ 32 :=
  (congrArg BitVec.toNat (mget_mset_same _ _ 0 (r.addr i j) _ hs)).trans (BitVec.toNat_ofNat v 32)

/-- A write keeps the register file canonical. -/
theorem mwf_setRg (hs : mwf regRst s.regs = true) (r : R) (v i j : Nat) : mwf regRst (s.setRg r v i j).regs = true :=
  mwf_mset _ _ _ _ hs

/-- A register below the first address of a kind does not see a write of that kind, whatever its indices are. -/
theorem rg_setRg_above {r t : R} {i j : Nat} (h : r.addr i j < t.row.base) (v k l : Nat) :
    (s.setRg t v k l).rg r i j = s.rg r i j := by
  have hle : t.row.base ≤ t.addr k l := by unfold R.addr; omega
  exact congrArg BitVec.toNat (mget_mset_ne _ _ _ (by omega))

/-- Nor does it see a write of a field of that kind. -/
theorem rg_setFl_above {r : R} {f : FRef} {i j : Nat} (h : r.addr i j < f.reg.row.base) (v k l : Nat) :
    (s.setFl f v k l).rg r i j = s.rg r i j :=
  rg_setRg_above h _ _ _

/-- A field follows from the bits of its register up to its highest. -/
theorem bitsOf_congr {x y n hi : Nat} (h : x % 2 ^ n = y % 2 ^ n) (hn : hi < n) (lo : Nat) :
    bitsOf x hi lo = bitsOf y hi lo := by
  refine Nat.eq_of_testBit_eq fun k => ?_
  simp only [bitsOf, Nat.testBit_mod_two_pow, Nat.testBit_shiftRight]
  by_cases hk : k < hi + 1 - lo
  · have e := congrArg (fun z => z.testBit (lo + k)) h
    simp only [Nat.testBit_mod_two_pow, show lo + k < n by omega, decide_true, Bool.true_and] at e
    rw [e]
  · simp [hk]

/-- Replacing a field leaves the bits below it. -/
theorem putBits_mod (x hi lo v : Nat) : putBits x hi lo v % 2 ^ lo = x % 2 ^ lo := by
  have hle : bitsOf x hi lo * 2 ^ lo ≤ x := calc
    bitsOf x hi lo * 2 ^ lo ≤ x / 2 ^ lo * 2 ^ lo := by
      rw [bitsOf, Nat.shiftRight_eq_div_pow]; exact Nat.mul_le_mul_right _ (Nat.mod_le _ _)
    _ ≤ x := Nat.div_mul_le_self _ _
  calc putBits x hi lo v % 2 ^ lo = (x - bitsOf x hi lo * 2 ^ lo) % 2 ^ lo := Nat.add_mul_mod_self_right _ _ _
    _ = (x - bitsOf x hi lo * 2 ^ lo + bitsOf x hi lo * 2 ^ lo) % 2 ^ lo := (Nat.add_mul_mod_self_right _ _ _).symm
    _ = x % 2 ^ lo := by rw [Nat.sub_add_cancel hle]

/-- A field keeps its value when a higher field of its register is written. -/
theorem fl_setFl_below (hs : mwf regRst s.regs = true) {f g : FRef} (hr : f.reg = g.reg) (h : f.hi < g.lo) (hl : g.lo ≤ 32)
    (v i j : Nat) : (s.setFl g v i j).fl f i j = s.fl f i j := by
  rw [State.fl, hr, State.setFl, rg_setRg_same hs, State.fl, hr]
  exact bitsOf_congr ((Nat.mod_mod_of_dvd _ (Nat.pow_dvd_pow 2 hl)).trans (putBits_mod ..)) h _

/-- Registers that are kept read as in the state before the reset. -/
theorem rg_keepRegs {old : State} {r : R} : ∀ (l : List R) (s : State), mwf regRst s.regs = true →
    r ∈ l ∨ s.rg r = old.rg r → (s.keepRegs old l).rg r = old.rg r
  | [], s, _, h => h.resolve_left (by simp)
  | t :: l, s, hs, h => by
    refine rg_keepRegs l (s.setRg t (old.rg t)) (mwf_setRg hs ..) ?_
    by_cases ha : r.addr = t.addr
    · have ht : (s.setRg t (old.rg t)).rg t = old.rg t :=
        (rg_setRg_same hs ..).trans (Nat.mod_eq_of_lt (old.rd (t.addr)).isLt)
      exact .inr (by simpa only [State.rg, ha] using ht)
    · have hn : (s.setRg t (old.rg t)).rg r = s.rg r := congrArg BitVec.toNat (mget_mset_ne _ _ _ ha)
      rw [hn]
      exact h.imp_left fun hm => (List.mem_cons.mp hm).resolve_left fun e => ha (e ▸ rfl)

end Sys2Proof.Machine
end

section
/-! SUPPORT. Resets by the pins: the state in which PORST_L and WRST_L leave the part, and what its registers hold (R26, R31,
R56–R59). -/

namespace Sys2Proof.Machine

open Sys2Proof

variable {s t : State}

/-! ### Changes of the register file alone -/

/-- A state is another one with some register file. -/
def State.RegsOnly (s t : State) : Prop := ∃ r, t = s.withRegs r

theorem State.RegsOnly.refl (s : State) : s.RegsOnly s := ⟨s.regs, rfl⟩

theorem State.RegsOnly.setRg (h : s.RegsOnly t) (r : R) (v i j : Nat) : s.RegsOnly (t.setRg r v i j) := by
  obtain ⟨_, rfl⟩ := h
  exact ⟨_, rfl⟩

theorem State.RegsOnly.setFl (h : s.RegsOnly t) (f : FRef) (v i j : Nat) : s.RegsOnly (t.setFl f v i j) :=
  h.setRg ..

theorem State.RegsOnly.setFlag (h : s.RegsOnly t) (f : FRef) (b : Bool) (i j : Nat) : s.RegsOnly (t.setFlag f b i j) :=
  h.setRg ..

theorem State.RegsOnly.keepRegs {old : State} {l : List R} (h : s.RegsOnly t) : s.RegsOnly (t.keepRegs old l) :=
  foldl_keeps (fun _ _ h => h.setRg ..) _ h

theorem State.RegsOnly.sleepAll (h : s.RegsOnly t) : s.RegsOnly t.sleepAll :=
  foldl_keeps (fun _ _ h => h.setFl ..) _ h

/-! ### The end of a reset -/

/-- While the part is held in a reset, reports of a switch-over wait, and a command ends as it is (R60). -/
theorem settle_held {l : List Report} (ha : s.armed = false) (hs : s.shadows = []) (hr : s.reports = switchReports l) :
    s.settle = s := by
  have hk : s.reports.filter (fun r => r.src == 7) = s.reports := by
    rw [hr, switchReports, List.filter_filter]
    simp
  have hf : s.withReports (s.reports.filter (fun r => r.src == 7)) = s := by rw [hk]; rfl
  have hn : s.settleN 16 = s := by
    rw [State.settleN]
    split
    · rfl
    · simp [ha, hf]
  rw [State.settle, hn, sweepShadows_none hs, ite_self]

/-- A low level of 50 ns or longer passes the filter of the reset pins (R525). -/
theorem pinFilter_long (s : State) {ns : Nat} (h : 50 ≤ ns) : s.pinFilter ns = (true, s) := by
  simp [State.pinFilter, h, show ¬ ns < 20 by omega]

/-! ### Cold reset -/

/-- What a cold reset leaves, but for the registers that it writes. -/
def State.coldBase (s : State) : State :=
  { State.reset with
    pending := s.pending, out := s.out, now := s.now, freeCtr := s.freeCtr, tack := s.tack, trigIn := s.trigIn
    tap := s.tap, wrstLow := s.wrstLow, fwWritten := s.fwWritten, reports := switchReports s.reports
    condOn := keepCond s false, condDet := s.condDet, vmainAt := s.vmainAt }

theorem coldTo_regsOnly (s : State) (cause : Nat) : s.coldBase.RegsOnly (s.coldTo cause) :=
  ((((State.RegsOnly.refl s.coldBase).keepRegs).setFl ..).setFl ..).setRg ..

/-- PORST_L, low for 50 ns or longer, resets a part that a supply loss does not hold in cold reset (R50, R56). -/
theorem exec_porst {low : BitVec 16} (hl : 50 ≤ low.toNat)
    (hs : ¬ (s.phase = .coldHold ∧ s.flag F.PCR_RESET_CAUSE.cold_supply = true)) :
    exec (.coldReset (.porst low)) s = .next (s.coldTo 0) := by
  have hc : (s.phase == .coldHold && s.flag F.PCR_RESET_CAUSE.cold_supply) = false := by simpa using hs
  have ht : (s.coldTo 0).settle = s.coldTo 0 := by
    obtain ⟨r, e⟩ := coldTo_regsOnly s 0
    rw [e]
    exact settle_held (l := s.reports) rfl rfl rfl
  show execColdReset (.porst low) s = _
  simp [execColdReset, pinFilter_long s hl, hc, done, ht]

/-! ### Warm reset -/

/-- What a warm reset leaves, but for the registers that it writes. -/
def State.warmBase (s : State) : State :=
  { State.reset with
    pending := s.pending, out := s.out, now := s.now, cnt := s.cnt, freeCtr := s.freeCtr, phase := .warmHold
    startIn := s.startIn, everReady := s.everReady, clockStopped := s.clockStopped, tack := s.tack, trigIn := s.trigIn
    tap := s.tap, wrstLow := s.wrstLow, fwWritten := s.fwWritten, reports := switchReports s.reports
    condOn := keepCond s true, condDet := s.condDet, vmainAt := s.vmainAt
    mem := s.mem, psn := s.psn, err := s.err, inited := s.inited, wrote := s.wrote, dram := s.dram, dead := s.dead
    mig := s.mig.map (fun (g : Mig) => { g with paused := true, w := g.w / 2 ^ 20 * 2 ^ 20 })
    ofs := s.ofs, rate := s.rate, rateLo := s.rateLo, nextInst := s.nextInst, yended := s.yended }

theorem warmTo_regsOnly (s : State) (c : WarmCause) : s.warmBase.RegsOnly (s.warmTo c) :=
  ((((foldl_keeps (fun _ _ h => h.setRg ..) _
    (((State.RegsOnly.refl s.warmBase).keepRegs).setRg ..)).setFlag ..).setFlag ..).setRg ..).sleepAll

/-- WRST_L, low for 50 ns or longer, resets a part that has been host-ready since its last cold reset (R57, R60). -/
theorem exec_wrst {low : BitVec 16} (hl : 50 ≤ low.toNat) (hr : s.everReady = true) (hp : s.phase ≠ .coldHold) :
    exec (.warmReset (.pin low)) s = .next ((s.withWrstLow true).warmTo .pin) := by
  have ht : ((s.withWrstLow true).warmTo .pin).settle = (s.withWrstLow true).warmTo .pin := by
    obtain ⟨r, e⟩ := warmTo_regsOnly (s.withWrstLow true) .pin
    rw [e]
    exact settle_held (l := s.reports) rfl rfl rfl
  have he : (s.withWrstLow true).everReady = true := hr
  show execWarmReset (.pin low) s = _
  simp [execWarmReset, pinFilter_long s hl, State.beginWarm, he, hp, done, ht]

/-! ### The registers after a reset -/

/-- PCR_RESET_CAUSE reads as the bit of the cause that was written. -/
theorem rg_setRg_resetCause (s : State) {c : Nat} (h : c < 32) :
    (s.setRg .PCR_RESET_CAUSE (2 ^ c)).rg .PCR_RESET_CAUSE = 2 ^ c := by
  have hc : 2 ^ c < 2 ^ 32 := Nat.pow_lt_pow_right (by decide) h
  have hz : regRst (R.addr .PCR_RESET_CAUSE) = 0 := by decide +kernel
  have hn : BitVec.ofNat 32 (2 ^ c) ≠ regRst (R.addr .PCR_RESET_CAUSE) := fun e => by
    have h0 := congrArg BitVec.toNat (e.trans hz)
    rw [BitVec.toNat_ofNat, Nat.mod_eq_of_lt hc] at h0
    exact (Nat.two_pow_pos c).ne' h0
  calc (s.setRg .PCR_RESET_CAUSE (2 ^ c)).rg .PCR_RESET_CAUSE
    _ = (BitVec.ofNat 32 (2 ^ c)).toNat := congrArg BitVec.toNat (mget_mset_listed _ _ _ hn)
    _ = 2 ^ c := by rw [BitVec.toNat_ofNat, Nat.mod_eq_of_lt hc]

theorem coldTo_resetCause (s : State) {c : Nat} (h : c < 32) : (s.coldTo c).rg .PCR_RESET_CAUSE = 2 ^ c :=
  rg_setRg_resetCause _ h

/-- A cold reset keeps the fields of PCR_SUPPLY_STAT below the count of switch-overs (R57, R59). -/
theorem coldTo_supplyStat (s : State) (c : Nat) {f : FRef} (hr : f.reg = .PCR_SUPPLY_STAT) (hf : f.hi < 24) :
    (s.coldTo c).fl f = s.fl f := by
  have hb : mwf regRst s.coldBase.regs = true := rfl
  have hk : mwf regRst (s.coldBase.keepRegs s [.DEV_STEP, .PCR_SUPPLY_STAT]).regs = true :=
    mwf_setRg (mwf_setRg hb ..) ..
  calc (s.coldTo c).fl f
    _ = ((s.coldBase.keepRegs s [.DEV_STEP, .PCR_SUPPLY_STAT]).setFl F.PCR_SUPPLY_STAT.switch_count 0).fl f := by
      rw [State.fl, State.fl, hr, State.coldTo, rg_setRg_above (by decide), rg_setFl_above (by decide)]
      rfl
    _ = (s.coldBase.keepRegs s [.DEV_STEP, .PCR_SUPPLY_STAT]).fl f := fl_setFl_below hk hr hf (by decide) 0 0 0
    _ = s.fl f := by rw [State.fl, State.fl, hr, rg_keepRegs _ _ hb (.inl (by simp))]

/-- Putting the ranks into self-refresh writes MC_STAT only. -/
theorem rg_sleepAll {r : R} {i j : Nat} (h : r.addr i j < (R.row .MC_STAT).base) : s.sleepAll.rg r i j = s.rg r i j :=
  foldl_keeps (P := fun t => t.rg r i j = s.rg r i j) (fun _ _ e => (rg_setFl_above h ..).trans e) _ rfl

theorem warmTo_resetCause (s : State) (c : WarmCause) : (s.warmTo c).rg .PCR_RESET_CAUSE = 2 ^ warmBit c := by
  rw [State.warmTo, rg_sleepAll (by decide)]
  exact rg_setRg_resetCause _ (by cases c <;> decide)

/-- A warm reset keeps the straps as sampled (R31). -/
theorem warmTo_strap (s : State) (c : WarmCause) : (s.warmTo c).rg .DEV_STRAP = s.rg .DEV_STRAP := by
  have hb : mwf regRst s.warmBase.regs = true := rfl
  rw [State.warmTo, rg_sleepAll (by decide), rg_setRg_above (by decide), State.setFlag, State.setFlag,
    rg_setFl_above (by decide), rg_setFl_above (by decide)]
  refine foldl_keeps (P := fun t => t.rg .DEV_STRAP = s.rg .DEV_STRAP)
    (fun _ _ e => (rg_setRg_above (by decide) ..).trans e) _ ?_
  exact (rg_setRg_above (by decide) ..).trans (rg_keepRegs warmKept s.warmBase hb (.inl (by decide)))

/-- Settles O48: the warm reset leaves its base state with other registers, whose straps and cause the lemmas above give. -/
theorem warmResetKeepsMemoryAndTime : Obligations.WarmResetKeepsMemoryAndTime := by
  intro s low hl hr hp
  have he := exec_wrst hl hr hp
  have hs : ((s.withWrstLow true).warmTo .pin).rg .DEV_STRAP = s.rg .DEV_STRAP := warmTo_strap _ _
  have hc := warmTo_resetCause (s.withWrstLow true) .pin
  obtain ⟨r, hw⟩ := warmTo_regsOnly (s.withWrstLow true) .pin
  rw [hw] at he hs hc
  exact ⟨_, he, rfl, rfl, rfl, rfl, rfl, rfl, rfl, rfl, rfl, rfl, hs, hc, fun _ => rfl, fun _ => rfl, fun _ => rfl,
    fun _ => rfl, fun _ => rfl, rfl, rfl, rfl, rfl, rfl, rfl, rfl, rfl⟩

/-- Settles O49: the cold reset leaves its base state with other registers, whose supply readings and cause the lemmas above
give. -/
theorem coldResetKeepsTackStoreOnly : Obligations.ColdResetKeepsTackStoreOnly := by
  intro s low hl hs
  have he := exec_porst hl hs
  have hm := coldTo_supplyStat s 0 (f := F.PCR_SUPPLY_STAT.vmain_v) rfl (by decide)
  have hx := coldTo_supplyStat s 0 (f := F.PCR_SUPPLY_STAT.vaux_v) rfl (by decide)
  have hc := coldTo_resetCause s (c := 0) (by decide)
  obtain ⟨r, hw⟩ := coldTo_regsOnly s 0
  rw [hw] at he hm hx hc
  exact ⟨_, he, rfl, rfl, hm, hx, hc, rfl, rfl, rfl, rfl, fun _ => rfl, fun _ => rfl, fun _ => rfl, fun _ => rfl, rfl, rfl,
    rfl, fun _ => rfl, rfl, rfl⟩

end Sys2Proof.Machine
end

section
/-! SUPPORT. The part in cold reset: every map of the state is empty (R57, R108, R118, R440). -/

namespace Sys2Proof.Machine

open Sys2Proof

/-- The maps of the reset state are empty, so they are canonical. -/
theorem canon_reset : State.reset.Canon := by constructor <;> rfl

/-- No shadow is open at reset. -/
theorem shadowsInv_reset : State.reset.shadowsInv := fun _ hx => absurd hx List.not_mem_nil

/-- Settles O3: the maps, the lists and the counter of the reset state are written out. -/
theorem invariantsAtReset : Obligations.InvariantsAtReset :=
  ⟨canon_reset, shadowsInv_reset, rfl, rfl, rfl, fun _ => rfl, fun _ => rfl, fun _ => rfl, rfl⟩

end Sys2Proof.Machine
end

section
/-! SUPPORT. The boot ROM: a command that arrives in turn is executed in order, and outside the two groups that the boot
ROM serves its opcode is refused (R67, R111, R124, R126). -/

namespace Sys2Proof.Machine

open Sys2Proof

variable {s : State} {h : Hdr} {slot : Nat} {x : Session}

/-- A session's command that arrives in turn is executed in order. -/
theorem cmd_inTurn (A : Arrives s h) (hs : s.slotOf h.session = some slot) (hx : s.session slot = some x)
    (hb : x.bind = h.bind) (hl : x.expired = false) (hw : s.mustWait h = false) (op : Nat) (self : Instr) (rom : Bool)
    (body : Body) :
    s.cmd h op self rom body = ((s.arrived h).inOrder h op rom body slot x).withResuming false := by
  have hf : (s.arrived h).withResuming false = s.arrived h := withResuming_self (by simpa using A.fresh)
  rw [cmd_arrives A, State.inSession]
  simp [hs, hx, hb, hl, arrived_mustWait, hw, hf]

/-- The answer of a body that the boot ROM does not serve, or that refuses the opcode itself (R124, R126). -/
theorem inOrder_badOpcode {t : State} {op : Nat} {rom : Bool} {body : Body} (hq : h.seq = x.nextSeq)
    (hp : t.phase = .bootRom) (hr : rom = true → body = fun _ t => refuse stBadOpcode t) :
    t.inOrder h op rom body slot x = (t.accept slot x).finish slot h op (.reply stBadOpcode []) := by
  have ha : (t.accept slot x).phase = .bootRom := by simp [State.accept, hp]
  cases rom with
  | false => simp [State.inOrder, hq, ha]
  | true => simp [State.inOrder, hq, hr rfl, refuse]

/-- Every command outside the two groups is one call of the engine, whose body the boot ROM does not serve or refuses. -/
theorem exec_outsideGroups (c : Instr) (s : State) (hc : hdrOf c = some h) (h7 : 7 < opcodeOf c)
    (hg : opcodeOf c < 0x0090 ∨ 0x0095 < opcodeOf c) : ∃ rom body, exec c s = done (s.cmd h (opcodeOf c) c rom body) ∧
      (rom = true → body = fun _ t => refuse stBadOpcode t) := by
  cases c with
  | dcpFrameDrop g why =>
    cases why with
    | reservedOpcode op =>
      cases hc
      exact ⟨true, _, exec_reservedOpcode h op s, fun _ => rfl⟩
    | _ => cases hc
  | _ =>
    obtain ⟨body, e⟩ := exec_cmd _ h s hc (by omega) (by simp)
    exact ⟨_, body, e, fun hr => absurd (of_decide_eq_true hr) (by omega)⟩

/-- Settles O10: the command is one engine call, executed in order, and its opcode is refused. -/
theorem bootRomServesTwoGroups : Obligations.BootRomServesTwoGroups := by
  intro c h s slot x hc h7 hg A hp hs hx hb hl hw hq
  obtain ⟨rom, body, e, hr⟩ := exec_outsideGroups c s hc h7 hg
  rw [e, cmd_inTurn A hs hx hb hl hw, inOrder_badOpcode hq (by simpa using hp) hr]
  rfl

end Sys2Proof.Machine
end

section
/-! SUPPORT. Every command answers a next state in which reports have been acted on: each branch of each meaning ends with
`done` (R66, R116, R124, R478). -/

namespace Sys2Proof.Machine

open Sys2Proof

/-- The outcome is a next state, the settled form of some state. -/
def Answers (o : Host.Outcome State Fault Refusal) : Prop := ∃ v : State, o = .next v.settle

theorem answers_done (t : State) : Answers (done t) := ⟨t, rfl⟩

/-- A meaning with one guard answers on both sides of it. -/
theorem answers_guard {p : Prop} [Decidable p] {a b : State} : Answers (if p then done a else done b) := by
  split
  · exact answers_done a
  · exact answers_done b

variable {s : State}

/-- HELLO answers whichever of its checks fails first (R106, R108). -/
theorem answers_hello {h : Hdr} {client : BitVec 64} {leaseMs : BitVec 32} {flags : BitVec 8} :
    Answers (execHello h client leaseMs flags s) := by
  simp only [execHello]
  repeat' split
  all_goals exact answers_done _

/-- A CREDIT frame answers, heard or not (R124, R136). -/
theorem answers_creditFrame {h : Hdr} {queue : BitVec 16} {ack limit : BitVec 32} :
    Answers (execCreditFrame h queue ack limit s) := by
  simp only [execCreditFrame]
  repeat' split
  all_goals exact answers_done _

/-- A message over the management target answers: it is a command of the table that one engine call answers, HELLO, a CREDIT
frame, or nothing. -/
theorem answers_dcpEffect (i : Instr) : Answers (dcpEffect i s) := by
  cases i with
  | hello => exact answers_hello
  | creditFrame => exact answers_creditFrame
  | _ => exact answers_done _

/-- A whole message answers, dropped, of a reserved opcode, or a command (R515). -/
theorem answers_inbound (l : List Byte) : Answers (s.inbound l) := by
  unfold State.inbound
  split
  · exact answers_done _
  · exact answers_done _
  · exact answers_dcpEffect _

/-- A fragment answers: only the last one of a message that the target answers is more than kept or dropped (R515). -/
theorem answers_blockWrite {frag : BusWrite} {pecOk : Bool} : Answers (execBlockWrite frag pecOk s) := by
  simp only [execBlockWrite]
  split
  · exact answers_done _
  · split
    · exact answers_done _
    · split
      · exact answers_done _
      · split
        · exact answers_done _
        · split
          · exact answers_inbound _
          · exact answers_done _

/-- Every command answers: by one call of `done`, on each side of one guard, or on each of its branches. -/
theorem answers_exec (c : Instr) (s : State) : Answers (exec c s) := by
  cases c with
  | hello => exact answers_hello
  | creditFrame => exact answers_creditFrame
  | blockWrite => exact answers_blockWrite
  -- Frames outside sessions, ends of operations, and events that records, states and operands steer.
  | arpRequest | icmpEchoRequest | rxFrameDrop | dcpFrameDrop | fillMemDone | copyMemDone | calRunDone | calCommitDone
    | selftestDone | yardLoadDone | yardQuiesceDone | fwVerifyDone | scrubDone | opRecordExpiry | laneSettingsApply |
    loopTimeout | ownChangeApply | syncOutPulse | pesTransferBegin | pesTransferEnd | coldReset | coldStart |
    rootPllLock | warmReset | inputLeavesRange | inputEntersRange | refclkLoss | trigInEdge | linkUp | linkDown |
    vectorT0 | prefillComplete | starvation | stopBoundary | setfPhaseReset | compareEvent | edgeCapture | eqWindowEnd
    | framerCharacter | recordAccept | trigOutPulse | timStopEdge | timDeadEnd | fltInputSample | queuePush |
    streamFrameSend | leaseExpiry | expiredSessionClose | electionClose | instanceCreate | workRequest |
    operationComplete | operationTimeout | yardflagUpdate | dramRequest | refreshInterval | migrationUnitCopy |
    migrationDone | alarmFire | toutPulse | ptpMessageRx | ptpHoldover | deviceReset | shadowEnd | faultyPair =>
    simp only [exec, execArpRequest, execIcmpEchoRequest, execRxFrameDrop, execDcpFrameDrop, execFillMemDone,
      execCopyMemDone, execCalRunDone, execCalCommitDone, execSelftestDone, execYardLoadDone,
      execYardQuiesceDone, execFwVerifyDone, execScrubDone, execOpRecordExpiry, execLaneSettingsApply,
      execLoopTimeout, execOwnChangeApply, execSyncOutPulse, execPesTransferBegin, execPesTransferEnd,
      execColdReset, execColdStart, execRootPllLock, execWarmReset, execInputLeavesRange, execInputEntersRange,
      execRefclkLoss, execTrigInEdge, execLinkUp, execLinkDown, execVectorT0, execPrefillComplete,
      execStarvation, execStopBoundary, execSetfPhaseReset, execCompareEvent, execEdgeCapture, execEqWindowEnd,
      execFramerCharacter, execRecordAccept, execTrigOutPulse, execTimStopEdge, execTimDeadEnd,
      execFltInputSample, execQueuePush, execStreamFrameSend, execLeaseExpiry, execExpiredSessionClose,
      execElectionClose, execInstanceCreate, execWorkRequest, execOperationComplete, execOperationTimeout,
      execYardflagUpdate, execDramRequest, execRefreshInterval, execMigrationUnitCopy, execMigrationDone,
      execAlarmFire, execToutPulse, execPtpMessageRx, execPtpHoldover, execDeviceReset, execShadowEnd,
      execFaultyPair]
    repeat' split
    all_goals exact answers_done _
  -- Events with one guard.
  | alertResponse | autoTrigger | blockLock | blockRead | blockReadRepeat | blockResetComplete | condSourceInactive |
    faultActivation | gapPairWrite | hostReady | lineRequest | mr4Poll | pllRelock | pllUnlock | powerDownEntry |
    ptpSyncInterval | refclkReturn | regionFill | retrainingComplete | returnToVmain | sclLowTimeout |
    selfRefreshEntry | seqEntryRead | signalDetected | signalLoss | stallResetComplete | syncEpochBoundary |
    timGateClose | timGateOpen | timStartEdge | timTimeout | timePairPeriodic | warmRetrain | warmStart | windowRearm =>
    exact answers_guard
  -- Commands of a session, each one call of the engine, and events without a guard.
  | _ => exact answers_done _

/-- Settles O6: no branch of a meaning ends in a fault or a refusal. -/
theorem everyCommandAnswersNextState : Obligations.EveryCommandAnswersNextState :=
  answers_exec

end Sys2Proof.Machine
end

section
/-! SUPPORT. The checks 7 and 8 that every stall command starts with: service level, ownership, octets (R71, R118,
R130). -/

namespace Sys2Proof.Machine

open Sys2Proof

variable {s u : State} {h : Hdr} {slot st : Nat} {x : Session}

/-! ### The checks (R71, R118, R130) -/

theorem stallCheck_mgmtOnly (hl : u.level = 3) : u.stallCheck slot st = stNoResource := by
  simp [State.stallCheck, hl]

theorem stallCheck_notOwner (hl : u.level ≠ 3) (ho : u.owns slot st = false) : u.stallCheck slot st = stNotOwner := by
  simp [State.stallCheck, hl, ho]

theorem stallCheck_noOctets (hl : u.level ≠ 3) (ho : u.owns slot st = true) (hk : u.octetsOf st = []) :
    u.stallCheck slot st = stNoResource := by
  simp [State.stallCheck, hl, ho, hk]

/-! ### The commands that make them (R130) -/

/-- STOP, ARM, SETFLAG or STALL_RESET to a stall, with legal parameters. -/
def StallCommand (h : Hdr) (c : Instr) : Prop :=
  (∃ atWhen : BitVec 8, c = .stop h atWhen ∧ h.plen = 1 ∧ atWhen.toNat ≤ 1) ∨ (c = .arm h ∧ h.plen = 0) ∨
    (∃ m v : BitVec 8, c = .setflag h m v ∧ h.plen = 2) ∨ (c = .stallReset h ∧ h.plen = 0)

/-- A body that refuses, with the status of the checks, whenever they do not pass. -/
def ChecksStall (st : Nat) (body : Body) : Prop :=
  ∀ slot u, u.stallCheck slot st ≠ 0 → body slot u = refuse (u.stallCheck slot st) u

/-- Each of the four commands is one call of the engine with a body that makes the checks first. -/
theorem exec_stallCommand {c : Instr} (hc : StallCommand h c) (hs : h.target.toNat < 16) (s : State) : ∃ body,
    exec c s = done (s.cmd h (opcodeOf c) c false body) ∧ ChecksStall h.target.toNat body := by
  obtain ⟨atWhen, rfl, hp, ha⟩ | ⟨rfl, hp⟩ | ⟨m, v, rfl, hp⟩ | ⟨rfl, hp⟩ := hc
  · exact ⟨stopBody h atWhen, rfl, fun slot u hn => by
      simp [stopBody, stallShape, hs, hp, hn, show ¬ 1 < atWhen.toNat by omega]⟩
  · exact ⟨armBody h, rfl, fun slot u hn => by simp [armBody, stallShape, hs, hp, hn]⟩
  · exact ⟨setflagBody h m v, rfl, fun slot u hn => by simp [setflagBody, stallShape, hs, hp, hn]⟩
  · exact ⟨stallResetBody h, rfl, fun slot u hn => by simp [stallResetBody, stallShape, hs, hp, hn]⟩

/-- An admitted stall command that fails the checks gets their status, and that is all. -/
theorem stallCommand_refused {c : Instr} (A : Admits s h slot x) (hc : StallCommand h c) (hs : h.target.toNat < 16)
    {k : Nat} (hk : (s.taken h slot x).stallCheck slot h.target.toNat = k) (h0 : k ≠ 0) :
    exec c s = .next ((s.taken h slot x).replies slot h (opcodeOf c) k []) := by
  obtain ⟨body, e, hb⟩ := exec_stallCommand hc hs s
  rw [e]
  exact done_reply A ((hb slot _ (hk ▸ h0)).trans (by rw [hk]; rfl))

/-- STATUS is refused at MGMT_ONLY (R71, log 33). -/
theorem status_mgmtOnly (A : Admits s h slot x) (hs : h.target.toNat < 16) (hp : h.plen = 0)
    (hl : (s.taken h slot x).level = 3) :
    exec (.status h) s = .next ((s.taken h slot x).replies slot h 0x0034 stNoResource []) :=
  done_reply A (body := statusBody h) (by simp [statusBody, stallShape, hs, hp, hl, refuse])

/-- Settles O28: each command makes the checks first, and each clause is one outcome of them. -/
theorem stallCommandsNeedOwnerAndService : Obligations.StallCommandsNeedOwnerAndService := by
  intro c s h slot x st A ht hs hc u
  subst ht
  exact ⟨fun hl => stallCommand_refused A hc hs (stallCheck_mgmtOnly hl) (by decide),
    fun hl ho => stallCommand_refused A hc hs (stallCheck_notOwner hl ho) (by decide),
    fun hl ho hk => stallCommand_refused A hc hs (stallCheck_noOctets hl ho hk) (by decide),
    fun hp hl => status_mgmtOnly A hs hp hl⟩

end Sys2Proof.Machine
end

section
/-! SUPPORT. The tack store and its commands: what a write of bytes leaves in it, and what each command does once its checks
pass (R67, R75, R76, R132, R508, R517). -/

namespace Sys2Proof.Machine

open Sys2Proof

variable {s t u : State} {h : Hdr} {slot n : Nat} {x : Session}

/-! ### Bytes of the tack store (R517) -/

/-- A byte outside the written range keeps its value. -/
theorem tackB_setTack_frame : ∀ (l : List Byte) (s : State) {a b : Nat}, b < a ∨ a + l.length ≤ b →
    (s.setTack a l).tackB b = s.tackB b
  | [], _, _, _, _ => rfl
  | c :: l, s, a, b, h => by
    simp only [List.length_cons] at h
    rw [State.setTack, tackB_setTack_frame l _ (by omega)]
    exact mget_mset_ne _ _ _ (by omega)

/-- A written byte is the byte of the data. -/
theorem tackB_setTack_read (l : List Byte) {s : State} {a i : Nat} (hm : mwf (fun _ => 0) s.tack = true)
    (hi : i < l.length) : (s.setTack a l).tackB (a + i) = l[i] := by
  induction l generalizing s a i with
  | nil => cases hi
  | cons c l ih =>
    rw [State.setTack]
    cases i with
    | zero =>
      rw [tackB_setTack_frame l _ (by omega)]
      exact mget_mset_same _ _ 0 _ _ hm
    | succ i =>
      rw [show a + (i + 1) = a + 1 + i by omega]
      exact ih (mwf_mset _ _ _ _ hm) (by simpa using hi)

/-! ### Commands of the device (R132) -/

theorem devShape_of (ht : h.target = 0xff) (hp : h.plen = n) : devShape h n = true := by
  simp [devShape, tgDev, ht, hp]

section
variable (A : Admits s h slot x) (ht : h.target = 0xff)
include A ht

theorem exec_tackRead {off : BitVec 32} {len : BitVec 16} (hr : tackRange off.toNat len.toNat = true) (hp : h.plen = 6)
    (hb : off.toNat + len.toNat ≤ 0x1000000) : exec (.tackRead h off len) s
      = .next (((s.taken h slot x).checkTack off.toNat).replies slot h 0x0090 stOk
        ((s.taken h slot x).tackRead off.toNat len.toNat)) :=
  done_reply A (body := tackReadBody h off len) (by
    simp [tackReadBody, devShape_of ht hp, hr, show ¬ 0x1000000 < off.toNat + len.toNat by omega, okay])

/-- A legal TACK_WRITE is judged by the ownership of the device. -/
theorem exec_tackWrite {off : BitVec 32} {len : BitVec 16} {data : List Byte} (hr : tackRange off.toNat len.toNat = true)
    (hp : h.plen = 6 + len.toNat) (hd : data.length = len.toNat) (ha : 0xf00000 ≤ off.toNat)
    (hb : off.toNat + len.toNat ≤ 0x1000000) :
    ((s.taken h slot x).owns slot devRes = true → exec (.tackWrite h off len data) s
      = .next (((s.taken h slot x).setTack off.toNat data).replies slot h 0x0091 stOk [])) ∧
    ((s.taken h slot x).owns slot devRes = false → exec (.tackWrite h off len data) s
      = .next ((s.taken h slot x).replies slot h 0x0091 stNotOwner [])) := by
  have ha' : ¬ off.toNat < 0xf00000 := by omega
  have hb' : ¬ 0x1000000 < off.toNat + len.toNat := by omega
  refine ⟨fun ho => done_reply A (body := tackWriteBody h off len data) ?_,
    fun ho => done_reply A (body := tackWriteBody h off len data) ?_⟩
  · simp [tackWriteBody, devShape_of ht hp, hd, hr, ha', hb', ho, okay]
  · simp [tackWriteBody, devShape_of ht hp, hd, hr, ha', hb', ho, refuse]

theorem exec_fwWrite {off : BitVec 32} {len : BitVec 16} {data : List Byte} (hr : tackRange off.toNat len.toNat = true)
    (hp : h.plen = 6 + len.toNat) (hd : data.length = len.toNat) (hb : off.toNat + len.toNat ≤ 1966080)
    (ho : (s.taken h slot x).owns slot devRes = true) :
    let u := s.taken h slot x
    exec (.fwWrite h off len data) s = .next ((((u.setTack (slotBase u.inactive + off.toNat) data).setFlag
      (slotValid u.inactive) false).markSlot u.inactive true).replies slot h 0x0092 stOk []) :=
  done_reply A (body := fwWriteBody h off len data) (by
    simp [fwWriteBody, devShape_of ht hp, hd, hr, show ¬ 1966080 < off.toNat + len.toNat by omega, ho, okay])

/-- FW_VERIFY takes an operation record and clears the mark of writes, which no record depends on. -/
theorem exec_fwVerify (hp : h.plen = 0) (ho : (s.taken h slot x).owns slot devRes = true)
    (hn : (s.taken h slot x).freeOp = some n) :
    let u := s.taken h slot x
    exec (.fwVerify h) s = .next (((u.markSlot u.inactive false).startOp n slot 0x0093 .fwVerify).replies slot h 0x0093
      stOk (beBytes 2 n)) :=
  done_reply A (body := fwVerifyBody h) (by
    have hm : ((s.taken h slot x).markSlot (s.taken h slot x).inactive false).freeOp = some n := hn
    simp [fwVerifyBody, devShape_of ht hp, ho, hn, acceptOp, hm, okay])

/-- FW_ACTIVATE is judged by the mark of the inactive slot. -/
theorem exec_fwActivate (hp : h.plen = 0) (ho : (s.taken h slot x).owns slot devRes = true) :
    let u := s.taken h slot x
    (u.flag (slotValid u.inactive) = true →
      exec (.fwActivate h) s = .next ((u.writePointer u.inactive).replies slot h 0x0094 stOk [])) ∧
    (u.flag (slotValid u.inactive) = false →
      exec (.fwActivate h) s = .next (u.replies slot h 0x0094 stVerifyFail [])) := by
  refine ⟨fun hf => done_reply A (body := fwActivateBody h) ?_, fun hf => done_reply A (body := fwActivateBody h) ?_⟩
  · simp [fwActivateBody, devShape_of ht hp, ho, hf, okay]
  · simp [fwActivateBody, devShape_of ht hp, ho, hf, refuse]

theorem exec_ident (hp : h.plen = 0) :
    let u := s.taken h slot x
    exec (.ident h) s = .next (u.replies slot h 0x0095 stOk (beBytes 4 (u.rg .DEV_ID) ++ beBytes 1 (u.rg .DEV_STEP)
      ++ beBytes 8 (u.rg64 .DEV_SERIAL_LO .DEV_SERIAL_HI)
      ++ beBytes 8 (u.rg .DEV_MAC_LO + u.rg .DEV_MAC_HI % 2 ^ 16 * 2 ^ 32))) :=
  done_reply A (body := identBody h) (by simp only [identBody, devShape_of ht hp]; rfl)

end

/-- The end of a verification whose outcome is that of the slot's bytes (R67, R76, log 85). -/
theorem exec_fwVerifyDone {op : BitVec 16} {o : OpRec} (ho : s.op op.toNat = some o) (hk : o.kind = .fwVerify)
    (hd : o.done = false) {ok : Bool} (hok : ok = s.slotPasses s.inactive) : exec (.fwVerifyDone op ok) s
      = .next ((s.setFlag (slotValid s.inactive) ok).endOpFree op.toNat (if ok then stOk else stVerifyFail)).settle := by
  show execFwVerifyDone op ok s = _
  simp [execFwVerifyDone, ho, hk, hd, ← hok, done]

/-- Settles O43: each clause is the lemma above for its command. -/
theorem tackAndFirmwareCommandsComplete : Obligations.TackAndFirmwareCommandsComplete := by
  refine ⟨fun s h slot x A ht => ⟨fun off n hr => ⟨exec_tackRead A ht hr,
    fun data hp hd => ⟨fun ha hb => ?_, fun hb ho => ?_⟩⟩, fun hp ho => ⟨fun n hn => ?_, ?_⟩, exec_ident A ht⟩, fun s op o ho hk hd ok hok => exec_fwVerifyDone ho hk hd hok⟩
  · exact exec_tackWrite A ht hr hp hd ha hb
  · exact exec_fwWrite A ht hr hp hd hb ho
  · exact exec_fwVerify A ht hp ho hn
  · exact exec_fwActivate A ht hp ho

/-! ### What TACK_WRITE changes (R132, R517) -/

@[simp] theorem taken_chans (s : State) (h : Hdr) (n : Nat) (x : Session) : (s.taken h n x).chans = s.chans := by
  obtain ⟨_, e⟩ := heard_eq s h
  simp only [State.taken, State.accept, e]
  rfl

/-- Settles O44: the write and the reply change nothing but the tack store there, and of it the written bytes only. -/
theorem tackWriteStoresItsBytesOnly : Obligations.TackWriteStoresItsBytesOnly := by
  intro s t h slot x off n data A ht hp hd hr ha hb ho hrep hs he
  have hu : (s.taken h slot x).owns slot devRes = true := by simpa using ho
  obtain ⟨m, hm⟩ := setTack_eq data (s.taken h slot x) off.toNat
  have hrep' : ((s.taken h slot x).setTack off.toNat data).reports = [] := by rw [hm]; simpa using hrep
  have e := Host.Outcome.next.inj (he.symm.trans ((exec_tackWrite A ht hr hp hd ha hb).1 hu))
  rw [replies_calm hrep'] at e
  have htack : t.tack = ((s.taken h slot x).setTack off.toNat data).tack := by rw [e]; simp
  have hB (a : Nat) : t.tackB a = ((s.taken h slot x).setTack off.toNat data).tackB a := by
    rw [State.tackB, htack, State.tackB]
  have hT (a : Nat) : (s.taken h slot x).tackB a = s.tackB a := by simp [State.tackB]
  refine ⟨fun i hi => ?_, fun a hab => ?_, ?_, ?_, ?_, ?_⟩
  · rw [hB]
    exact tackB_setTack_read data (by simpa using hs.tack) hi
  · rw [hB, tackB_setTack_frame data _ (by omega), hT]
  all_goals rw [e, hm]; simp

end Sys2Proof.Machine
end

section
/-! SUPPORT. The DRAM maintenance commands once their parameters are legal: refused while no DRAM is in service, else each
with its effect (R71, R125, R132, R431, R435, R437, R438). -/

namespace Sys2Proof.Machine

open Sys2Proof

variable {s : State} {h : Hdr} {slot : Nat} {x : Session} {m r : BitVec 8}

section
variable (A : Admits s h slot x) (ht : h.target = 0xff)
include A ht

/-- MC_STATUS returns the controller's status registers (R71, R437). -/
theorem exec_mcStatus (hp : h.plen = 1) (hm : m.toNat ≤ 5) :
    let u := s.taken h slot x
    (u.noDram = true → exec (.mcStatus h m) s = .next (u.replies slot h 0x00a0 stDramAbsent [])) ∧
    (u.noDram = false → exec (.mcStatus h m) s = .next (u.replies slot h
      0x00a0 stOk (mcStatusRegs.flatMap (fun r => beBytes 4 (u.mcReg m.toNat r))))) := by
  have hm' : ¬ 5 < m.toNat := by omega
  refine ⟨fun hd => done_reply A (body := mcStatusBody h m) ?_, fun hd => done_reply A (body := mcStatusBody h m) ?_⟩
  · simp [mcStatusBody, devShape_of ht hp, hm', hd, refuse]
  · simp [mcStatusBody, devShape_of ht hp, hm', hd, okay]

/-- MIG_STATUS returns the migration in progress, or a free watermark without one (R71, R438, log 3). -/
theorem exec_migStatus (hp : h.plen = 0) :
    let u := s.taken h slot x
    (u.noDram = true → exec (.migStatus h) s = .next (u.replies slot h 0x00a2 stDramAbsent [])) ∧
    (u.noDram = false →
      (∀ g, u.mig = some g → exec (.migStatus h) s = .next (u.replies slot h 0x00a2 stOk
        ([if g.paused then 2 else 1, BitVec.ofNat 8 g.m, BitVec.ofNat 8 g.rank] ++ beBytes 8 g.w))) ∧
      (u.mig = none → exec (.migStatus h) s = .next ((u.withFreeCtr (u.freeCtr + 1)).replies slot h
        0x00a2 stOk ([0, 0xff, 0xff] ++ beBytes 8 (Config.free u.freeCtr 64).toNat)))) := by
  refine ⟨fun hd => done_reply A (body := migStatusBody h) ?_,
    fun hd => ⟨fun g hg => done_reply A (body := migStatusBody h) ?_,
      fun hg => done_reply A (body := migStatusBody h) ?_⟩⟩
  · simp [migStatusBody, devShape_of ht hp, hd, refuse]
  · simp only [migStatusBody, devShape_of ht hp, hd, hg]
    rfl
  · simp only [migStatusBody, devShape_of ht hp, hd, hg]
    rfl

/-- RANK_RETIRE of a rank that its controller has: the rank becomes a candidate, and its migration begins or waits
(R431). -/
theorem exec_rankRetire (hp : h.plen = 2) (hm : m.toNat ≤ 5) (hr : r.toNat ≤ 3)
    (hc : r.toNat ≤ bitsOf ((s.taken h slot x).useCfg m.toNat) 1 0) :
    let u := s.taken h slot x
    (u.noDram = true → exec (.rankRetire h m r) s = .next (u.replies slot h 0x00a1 stDramAbsent [])) ∧
    (u.noDram = false → u.owns slot devRes = true → u.mig = none → ∀ n, u.freeOp = some n →
      u.dram.set.contains m.toNat = true → u.spareFree m.toNat = true →
      let v := (u.startOp n slot 0x00a1 (.migrate m.toNat r.toNat)).candidate m.toNat r.toNat
      v.mig.isSome = true → exec (.rankRetire h m r) s = .next (v.replies slot h 0x00a1 stOk (beBytes 2 n))) := by
  have hm' : ¬ 5 < m.toNat := by omega
  have hr' : ¬ 3 < r.toNat := by omega
  have hc' : ¬ bitsOf ((s.taken h slot x).useCfg m.toNat) 1 0 < r.toNat := by omega
  refine ⟨fun hd => done_reply A (body := rankRetireBody h m r) ?_,
    fun hd ho hg n hn hset hf => ?_⟩
  · simp [rankRetireBody, devShape_of ht hp, hm', hr', hc', hd, refuse]
  · intro v hv
    refine done_reply A (body := rankRetireBody h m r) ?_
    simp only [rankRetireBody, devShape_of ht hp, hm', hr', hc', hd, ho, hg, hset, hf, hn]
    exact if_pos hv

/-- SCRUB of one controller or of all (R435). -/
theorem exec_scrub (hp : h.plen = 1) (hm : m.toNat ≤ 5 ∨ m.toNat = 0xff) :
    let u := s.taken h slot x
    (u.noDram = true → exec (.scrub h m) s = .next (u.replies slot h 0x00a3 stDramAbsent [])) ∧
    (u.noDram = false → u.owns slot devRes = true → u.mig = none → ∀ n, u.freeOp = some n → u.scrubOp = none →
      exec (.scrub h m) s = .next (((u.startOp n slot 0x00a3 (.scrub (u.dram.set.filter
        (fun k => m.toNat == 0xff || k == m.toNat)))).withScrubOp (some (n, 0, []))).replies slot h 0x00a3 stOk
          (beBytes 2 n))) := by
  have hm' : (decide (5 < m.toNat) && decide (m.toNat ≠ 0xff)) = false := by simp; omega
  refine ⟨fun hd => done_reply A (body := scrubBody h m) ?_,
    fun hd ho hg n hn hs => done_reply A (body := scrubBody h m) ?_⟩
  · simp only [scrubBody, devShape_of ht hp, hm', hd]
    rfl
  · simp only [scrubBody, devShape_of ht hp, hm', hd, ho, hg, hs, hn]
    rfl

end

/-- Settles O45: each clause is the lemma above for its command. -/
theorem dramCommandsComplete : Obligations.DramCommandsComplete := by
  intro s h slot x A ht u
  refine ⟨fun hd => ⟨fun m hp hm => (exec_mcStatus A ht hp hm).1 hd, fun hp => (exec_migStatus A ht hp).1 hd,
      fun m r hp hm hr hc => (exec_rankRetire A ht hp hm hr hc).1 hd,
      fun m hp hm => (exec_scrub A ht hp hm).1 hd⟩,
    fun m hd hp hm => (exec_mcStatus A ht hp hm).2 hd, fun hd hp => ⟨?_, fun hg => ⟨Config.free u.freeCtr 64, ?_⟩⟩,
    fun hd ho hg n hn => ⟨fun m r hp hm hr hc => ?_, fun m hp hm => ?_⟩⟩
  · exact ((exec_migStatus A ht hp).2 hd).1
  · exact ((exec_migStatus A ht hp).2 hd).2 hg
  · exact (exec_rankRetire A ht hp hm hr hc).2 hd ho hg n hn
  · exact (exec_scrub A ht hp hm).2 hd ho hg n hn

end Sys2Proof.Machine
end

section
/-! SUPPORT. Reads of fields after a write of a field of the same register: of itself, and of a flag from
a higher field or register. -/

namespace Sys2Proof.Machine

open Sys2Proof

variable {s : State} {hi v : Nat}

/-- The bits of a register from the lowest of a field on, after that field is written. -/
theorem putBits_div (x hi lo v : Nat) :
    putBits x hi lo v / 2 ^ lo = x / 2 ^ lo - bitsOf x hi lo + v % 2 ^ (hi + 1 - lo) := by
  have hle : 2 ^ lo * bitsOf x hi lo ≤ x := calc
    2 ^ lo * bitsOf x hi lo ≤ 2 ^ lo * (x / 2 ^ lo) := by
      rw [bitsOf, Nat.shiftRight_eq_div_pow]; exact Nat.mul_le_mul_left _ (Nat.mod_le _ _)
    _ ≤ x := Nat.mul_div_le _ _
  rw [putBits, Nat.add_mul_div_right _ _ (Nat.two_pow_pos lo), Nat.mul_comm, Nat.sub_mul_div _ _ _]

/-- What lies above a field, as a multiple of the field's range. -/
theorem div_sub_bitsOf (x hi lo : Nat) :
    x / 2 ^ lo - bitsOf x hi lo = 2 ^ (hi + 1 - lo) * (x / 2 ^ lo / 2 ^ (hi + 1 - lo)) := by
  rw [bitsOf, Nat.shiftRight_eq_div_pow]
  have := Nat.div_add_mod (x / 2 ^ lo) (2 ^ (hi + 1 - lo))
  omega

/-- A written field holds the low bits of the value. -/
theorem bitsOf_putBits_same (x hi lo v : Nat) : bitsOf (putBits x hi lo v) hi lo = v % 2 ^ (hi + 1 - lo) := by
  rw [bitsOf, Nat.shiftRight_eq_div_pow, putBits_div, div_sub_bitsOf, Nat.mul_add_mod, Nat.mod_mod]

/-- A field of a register word is a field of its low 32 bits. -/
theorem bitsOf_mod_word (x lo : Nat) (h : hi < 32) : bitsOf (x % 2 ^ 32) hi lo = bitsOf x hi lo :=
  bitsOf_congr (Nat.mod_mod _ _) h lo

/-- A written field reads as the value that was written, if it fits. -/
theorem fl_setFl_same (hs : mwf regRst s.regs = true) {f : FRef} (h : f.hi < 32) (hv : v < 2 ^ (f.hi + 1 - f.lo))
    (i j : Nat) :
    (s.setFl f v i j).fl f i j = v := by
  rw [State.fl, State.setFl, rg_setRg_same hs, bitsOf_mod_word _ _ h, bitsOf_putBits_same, Nat.mod_eq_of_lt hv]

/-- A write of a field keeps the register file canonical. -/
theorem mwf_setFl (hs : mwf regRst s.regs = true) (f : FRef) (v i j : Nat) : mwf regRst (s.setFl f v i j).regs = true :=
  mwf_setRg hs ..

/-- A flag reads as the bit that was written. -/
theorem flag_setFl_bit (hs : mwf regRst s.regs = true) {f : FRef} (h : f.hi < 32) (hw : f.lo ≤ f.hi) (b : Bool)
    (i j : Nat) : (s.setFl f (bit b) i j).flag f i j = b := by
  have hb : bit b < 2 ^ (f.hi + 1 - f.lo) := calc
    bit b < 2 ^ 1 := by cases b <;> decide
    _ ≤ 2 ^ (f.hi + 1 - f.lo) := Nat.pow_le_pow_right (by decide) (by omega)
  rw [State.flag, fl_setFl_same hs h hb]
  cases b <;> rfl

/-- A flag keeps its value when a higher field of its register is written. -/
theorem flag_setFl_below (hs : mwf regRst s.regs = true) {f g : FRef} (hr : f.reg = g.reg) (h : f.hi < g.lo)
    (hl : g.lo ≤ 32) (v i j : Nat) : (s.setFl g v i j).flag f i j = s.flag f i j := by
  rw [State.flag, fl_setFl_below hs hr h hl, State.flag]

/-- A flag keeps its value when a field of a register at a higher address is written. -/
theorem flag_setFl_above {f g : FRef} {i j : Nat} (h : f.reg.addr i j < g.reg.row.base) (v k l : Nat) :
    (s.setFl g v k l).flag f i j = s.flag f i j := by
  rw [State.flag, State.fl, rg_setFl_above h, State.flag, State.fl]

end Sys2Proof.Machine
end

section
/-! SUPPORT. Resets, start-up, supplies and clocks: what each event does when its conditions hold (R46, R48, R50, R54–R56,
R60, R63, R64, R69, R70, R525). -/

namespace Sys2Proof.Machine

open Sys2Proof

variable {s : State} {ns t : Nat}

/-! ### The reset pins (R525) -/

/-- A low level below 20 ns passes no filter. -/
theorem pinFilter_short (s : State) (h : ns < 20) : s.pinFilter ns = (false, s) := by
  simp [State.pinFilter, h]

/-- Between 20 ns and 50 ns a free value decides. -/
theorem pinFilter_between (s : State) (hl : 20 ≤ ns) (hh : ns < 50) :
    s.pinFilter ns = (Config.free s.freeCtr 1 == 1, s.withFreeCtr (s.freeCtr + 1)) := by
  simp [State.pinFilter, show ¬ ns < 20 by omega, show ¬ 50 ≤ ns by omega, State.draw]

section
variable {low : BitVec 16} {f : State}

/-- PORST_L does nothing when its filter passes no level, or in the hold of a supply loss (R50, log 86). -/
theorem exec_porst_ignored {b : Bool} (hf : s.pinFilter low.toNat = (b, f))
    (h : b = false ∨ s.phase = .coldHold ∧ s.flag F.PCR_RESET_CAUSE.cold_supply = true) :
    exec (.coldReset (.porst low)) s = .next f.settle := by
  show execColdReset (.porst low) s = _
  have hc : (!b || (s.phase == .coldHold && s.flag F.PCR_RESET_CAUSE.cold_supply)) = true := by
    obtain rfl | ⟨hp, hs⟩ := h <;> simp [*]
  simp only [execColdReset, hf, hc, if_true, done]

/-- PORST_L that passes its filter otherwise holds the part in cold reset (R56). -/
theorem exec_porst_resets (hf : s.pinFilter low.toNat = (true, f))
    (h : ¬ (s.phase = .coldHold ∧ s.flag F.PCR_RESET_CAUSE.cold_supply = true)) :
    exec (.coldReset (.porst low)) s = .next (f.coldTo 0).settle := by
  show execColdReset (.porst low) s = _
  have hc : (s.phase == .coldHold && s.flag F.PCR_RESET_CAUSE.cold_supply) = false := by simpa using h
  simp [execColdReset, hf, hc, done]

theorem exec_wrst_ignored (hf : s.pinFilter low.toNat = (false, f)) :
    exec (.warmReset (.pin low)) s = .next f.settle := by
  show execWarmReset (.pin low) s = _
  simp [execWarmReset, hf, done]

theorem exec_wrst_begins (hf : s.pinFilter low.toNat = (true, f)) :
    exec (.warmReset (.pin low)) s = .next ((f.withWrstLow true).beginWarm .pin).settle := by
  show execWarmReset (.pin low) s = _
  simp [execWarmReset, hf, done]

end

/-! ### Resets that were asked for, and a lost clock (R54–R56, R78, R482) -/

/-- An accepted cold reset begins at its moment. -/
theorem exec_coldReset_cmd (hr : s.resetAt = some (t, .cold)) :
    exec (.coldReset .cmd) s = .next ((s.advTo t).coldTo 0).settle := by
  show execColdReset .cmd s = _
  simp [execColdReset, hr, done]

/-- A part without an input in range writes its record and is held in cold reset, once (R49, R50). -/
theorem exec_coldReset_supply (hm : s.flag F.PCR_SUPPLY_STAT.vmain_ok = false)
    (ha : s.flag F.PCR_SUPPLY_STAT.vaux_ok = false) (hc : s.flag F.PCR_RESET_CAUSE.cold_supply = false) :
    exec (.coldReset .supply) s = .next s.supplyLoss.settle := by
  show execColdReset .supply s = _
  simp [execColdReset, hm, ha, hc, done]

theorem exec_warmReset_clock (hc : s.clockStopped = true) :
    exec (.warmReset .clock) s = .next (s.beginWarm .clock).settle := by
  show execWarmReset .clock s = _
  simp [execWarmReset, hc, done]

/-- A warm reset that is due is due for its own cause only. -/
theorem dueWarm_of {c : WarmCause} (hr : s.resetAt = some (t, .warm c)) : s.dueWarm c = some (s.advTo t) := by
  simp [State.dueWarm, hr]

/-- An accepted warm reset begins at its moment. -/
theorem exec_warmReset_cmd (hr : s.resetAt = some (t, .warm .cmd)) :
    exec (.warmReset .cmd) s = .next ((s.advTo t).beginWarm .cmd).settle := by
  show execWarmReset .cmd s = _
  simp [execWarmReset, dueWarm_of hr, done]

/-- So does that of the fault reaction, whose own event is DEVICE_RESET. -/
theorem exec_warmReset_fault (hr : s.resetAt = some (t, .warm .fault)) :
    exec (.warmReset .fault) s = .next ((s.advTo t).beginWarm .fault).settle ∧
    exec .deviceReset s = .next ((s.advTo t).beginWarm .fault).settle := by
  constructor
  · show execWarmReset .fault s = _
    simp [execWarmReset, dueWarm_of hr, done]
  · show execDeviceReset s = _
    simp [execDeviceReset, dueWarm_of hr, done]

theorem exec_refclkLoss (hc : s.clockStopped = false) (hr : s.flag F.PCR_CLK_STAT.refclk_present = true) :
    exec .refclkLoss s = .next ((s.setFlag F.PCR_CLK_STAT.refclk_present false).clockLoss 9).settle := by
  show execRefclkLoss s = _
  simp [execRefclkLoss, hr, hc, done]

theorem exec_pllUnlock (hc : s.clockStopped = false) (hr : s.flag F.PCR_CLK_STAT.refclk_present = true)
    (hl : s.flag F.PCR_CLK_STAT.root_lock = true) :
    exec .pllUnlock s = .next ((s.setFlag F.PCR_CLK_STAT.root_lock false).clockLoss 10).settle := by
  show execPllUnlock s = _
  simp [execPllUnlock, hr, hc, hl, done]

section
variable {i : StartIn}

theorem exec_refclkReturn (hr : s.flag F.PCR_CLK_STAT.refclk_present = false) :
    exec (.refclkReturn i) s = .next ((s.setFlag F.PCR_CLK_STAT.refclk_present true).clockBack 9 i).settle := by
  show execRefclkReturn i s = _
  simp [execRefclkReturn, hr, done]

theorem exec_pllRelock (hl : s.flag F.PCR_CLK_STAT.root_lock = false)
    (hr : s.flag F.PCR_CLK_STAT.refclk_present = true) :
    exec (.pllRelock i) s = .next ((s.setFlag F.PCR_CLK_STAT.root_lock true).clockBack 10 i).settle := by
  show execPllRelock i s = _
  simp [execPllRelock, hr, hl, done]

/-! ### Start-up after the rails (R52, R64, R65, R69–R71) -/

/-- The lock of the root PLL ends the loss of both clocks and starts the control core with the time base at 0. -/
theorem exec_rootPllLock (hp : s.phase = .coldRails) (hi : s.startIn = some i) :
    let a := (s.setFlag F.PCR_CLK_STAT.refclk_present true).setFlag F.PCR_CLK_STAT.root_lock true
    exec .rootPllLock s
      = .next ((((a.setCond 9 false).setCond 10 false).withClockStopped false).withCnt 0 |>.startCore i true).settle := by
  show execRootPllLock s = _
  simp [execRootPllLock, hp, hi, done]

/-- A warm start ends the request of WRST_L and starts the control core while the clocks run. -/
theorem exec_warmStart (hp : s.phase = .warmHold) (hc : s.clockStopped = false) :
    exec (.warmStart i) s = .next ((s.withWrstLow false).startCore i false).settle := by
  have hc' : (s.withWrstLow false).clockStopped = false := hc
  show execWarmStart i s = _
  simp [execWarmStart, hp, hc', done]

end

theorem exec_hostReady (hp : s.phase = .coldUp ∨ s.phase = .warmUp) (hc : s.clockStopped = false)
    (hi : (s.flag F.PCR_SUPPLY_STAT.vmain_ok || s.flag F.PCR_SUPPLY_STAT.vaux_ok) = true) :
    exec .hostReady s = .next ((s.withPhase .ready).withEverReady true).settle := by
  have hp' : (s.phase == .coldUp || s.phase == .warmUp) = true := by simpa using hp
  show execHostReady s = _
  simp only [execHostReady, hp', hc, hi]
  rfl

/-! ### A cold start (R31, R46–R48, R64 steps 1 and 2) -/

/-- The straps as a cold start samples them, unless a warm reset restarted the start-up (R31, R60). -/
def State.strapped (s : State) (i : StartIn) : State :=
  if s.rg .PCR_RESET_CAUSE / 4 % 16 = 0 then s.setRg .DEV_STRAP i.straps.toNat else s

/-- The readings of the two inputs, and the input that the part runs from (R46, R48). -/
def State.supplied (s : State) (i : StartIn) (main aux : Bool) : State :=
  let s := (s.setFlag F.PCR_SUPPLY_STAT.vmain_ok main).setFlag F.PCR_SUPPLY_STAT.vaux_ok aux
  let s := (s.setFl F.PCR_SUPPLY_STAT.vmain_v i.vmainV.toNat).setFl F.PCR_SUPPLY_STAT.vaux_v i.vauxV.toNat
  s.setFlag F.PCR_SUPPLY_STAT.on_vaux (! main)

/-- The rails ramp (R47). -/
def State.ramped (s : State) (i : StartIn) : State :=
  ((s.withPhase .coldRails).withStartIn (some i)).setFl F.PCR_RAIL_STAT.rail_ok 127

theorem strapped_regsOnly (s : State) (i : StartIn) : s.RegsOnly (s.strapped i) := by
  unfold State.strapped
  split
  · exact (State.RegsOnly.refl s).setRg ..
  · exact .refl s

theorem supplied_regsOnly {s₀ : State} (h : s₀.RegsOnly s) (i : StartIn) (main aux : Bool) :
    s₀.RegsOnly (s.supplied i main aux) :=
  ((((h.setFl ..).setFl ..).setFl ..).setFl ..).setFl ..

/-- A cold start with an input in range while WRST_L is high. -/
theorem exec_coldStart {i : StartIn} {main aux : Bool}
    (hm : main = staysInRange (s.flag F.PCR_SUPPLY_STAT.vmain_ok) i.vmainV)
    (ha : aux = staysInRange (s.flag F.PCR_SUPPLY_STAT.vaux_ok) i.vauxV) (hp : s.phase = .coldHold)
    (hw : s.wrstLow = false) (hi : main = true ∨ aux = true) :
    exec (.coldStart i) s = .next (((s.strapped i).supplied i main aux).ramped i).settle := by
  have hg : (s.phase == .coldHold && (main || aux)) = true := by simpa [hp] using hi
  have hl : ((s.strapped i).supplied i main aux).wrstLow = false := by
    obtain ⟨r, e⟩ := supplied_regsOnly (strapped_regsOnly s i) i main aux
    rw [e]
    exact hw
  show execColdStart i s = _
  simp only [execColdStart, ← hm, ← ha, if_pos hg]
  exact if_neg (by rw [Bool.not_eq_true]; exact hl)

/-- Each input's flag reads as sampled, and the part runs from VMAIN when it is in range. -/
theorem supplied_flags (hs : mwf regRst s.regs = true) (i : StartIn) (main aux : Bool) :
    (s.supplied i main aux).flag F.PCR_SUPPLY_STAT.vmain_ok = main ∧
    (s.supplied i main aux).flag F.PCR_SUPPLY_STAT.vaux_ok = aux ∧
    (s.supplied i main aux).flag F.PCR_SUPPLY_STAT.on_vaux = ! main := by
  have h₁ := mwf_setFl hs F.PCR_SUPPLY_STAT.vmain_ok (bit main) 0 0
  have h₂ := mwf_setFl h₁ F.PCR_SUPPLY_STAT.vaux_ok (bit aux) 0 0
  have h₃ := mwf_setFl h₂ F.PCR_SUPPLY_STAT.vmain_v i.vmainV.toNat 0 0
  have h₄ := mwf_setFl h₃ F.PCR_SUPPLY_STAT.vaux_v i.vauxV.toNat 0 0
  simp only [State.supplied, State.setFlag]
  refine ⟨?_, ?_, flag_setFl_bit h₄ (by decide) (by decide) ..⟩
  · rw [flag_setFl_below h₄, flag_setFl_below h₃, flag_setFl_below h₂, flag_setFl_below h₁, flag_setFl_bit hs]
    all_goals decide
  · rw [flag_setFl_below h₄, flag_setFl_below h₃, flag_setFl_below h₂, flag_setFl_bit h₁]
    all_goals decide

/-- Reading the inputs keeps the register file canonical. -/
theorem mwf_supplied (hs : mwf regRst s.regs = true) (i : StartIn) (main aux : Bool) :
    mwf regRst (s.supplied i main aux).regs = true :=
  mwf_setFl (mwf_setFl (mwf_setFl (mwf_setFl (mwf_setFl hs ..) ..) ..) ..) ..

theorem mwf_strapped (hs : mwf regRst s.regs = true) (i : StartIn) : mwf regRst (s.strapped i).regs = true := by
  unfold State.strapped
  split
  · exact mwf_setRg hs ..
  · exact hs

/-- All seven rails are on (R47). -/
theorem ramped_rails (hs : mwf regRst s.regs = true) (i : StartIn) : (s.ramped i).fl F.PCR_RAIL_STAT.rail_ok = 127 :=
  fl_setFl_same (by simpa using hs) (by decide) (by decide) ..

/-- A cold start that no warm reset restarted leaves the straps as sampled (R31). -/
theorem strapped_strap (hs : mwf regRst s.regs = true) (i : StartIn) (hc : s.rg .PCR_RESET_CAUSE / 4 % 16 = 0) :
    (s.strapped i).rg .DEV_STRAP = i.straps.toNat := by
  rw [State.strapped, if_pos hc, rg_setRg_same hs]
  exact Nat.mod_eq_of_lt (Nat.lt_of_lt_of_le i.straps.isLt (by decide))

/-- The inputs' readings stand above the straps. -/
theorem supplied_strap (i : StartIn) (main aux : Bool) : (s.supplied i main aux).rg .DEV_STRAP = s.rg .DEV_STRAP := by
  simp only [State.supplied, State.setFlag]
  iterate 5 rw [rg_setFl_above (by decide)]

/-- So do the rails. -/
theorem ramped_strap (i : StartIn) : (s.ramped i).rg .DEV_STRAP = s.rg .DEV_STRAP :=
  rg_setFl_above (by decide) ..

/-- The rails stand above the inputs' readings. -/
theorem ramped_flag {f : FRef} (hf : f.reg = .PCR_SUPPLY_STAT) (i : StartIn) : (s.ramped i).flag f = s.flag f :=
  flag_setFl_above (by rw [hf]; decide) ..

/-- A cold start with an input in range leaves what R64's steps 1 and 2 say. -/
theorem coldStart_completes {i : StartIn} (hs : s.Canon) (hp : s.phase = .coldHold) (hw : s.wrstLow = false) :
    let main := staysInRange (s.flag F.PCR_SUPPLY_STAT.vmain_ok) i.vmainV
    let aux := staysInRange (s.flag F.PCR_SUPPLY_STAT.vaux_ok) i.vauxV
    (main = true ∨ aux = true) →
    ∃ v : State, exec (.coldStart i) s = .next v.settle ∧ v.phase = .coldRails ∧ v.startIn = some i ∧
      v.flag F.PCR_SUPPLY_STAT.vmain_ok = main ∧ v.flag F.PCR_SUPPLY_STAT.vaux_ok = aux ∧
      v.flag F.PCR_SUPPLY_STAT.on_vaux = ! main ∧ v.fl F.PCR_RAIL_STAT.rail_ok = 127 ∧
      (s.rg .PCR_RESET_CAUSE / 4 % 16 = 0 → v.rg .DEV_STRAP = i.straps.toNat) ∧ v.now = s.now ∧ v.tack = s.tack := by
  intro main aux hi
  have hc := mwf_strapped hs.regs i
  obtain ⟨fm, fa, fv⟩ := supplied_flags hc i main aux
  refine ⟨_, exec_coldStart rfl rfl hp hw hi, rfl, rfl, (ramped_flag rfl i).trans fm, (ramped_flag rfl i).trans fa,
    (ramped_flag rfl i).trans fv, ramped_rails (mwf_supplied hc i main aux) i, fun h0 => ?_, ?_, ?_⟩
  · rw [ramped_strap, supplied_strap, strapped_strap hs.regs i h0]
  all_goals
    obtain ⟨r, e⟩ := supplied_regsOnly (strapped_regsOnly s i) i main aux
    rw [e]
    rfl

/-! ### Supplies (R46, R48) -/

section
variable {i : Input} {volts : BitVec 8}

/-- The readings after an input, and possibly the other one with it, has left its range. -/
def State.inputLost (s : State) (i : Input) (loss : InputLoss) : State :=
  let a := (s.setFlag (okFlag i) false).setFl (voltField i) loss.volts.toNat
  match loss.other with
  | some w => (a.setFlag (okFlag (otherInput i)) false).setFl (voltField (otherInput i)) w.toNat
  | none => a

/-- An input that leaves its range: a supply loss, a switch-over, or the end of redundancy. -/
theorem exec_inputLeavesRange {loss : InputLoss} (hi : s.flag (okFlag i) = true) :
    let t := s.inputLost i loss
    (t.flag (okFlag (otherInput i)) = false → exec (.inputLeavesRange i loss) s = .next t.supplyLoss.settle) ∧
    (t.flag (okFlag (otherInput i)) = true → s.selected = i → exec (.inputLeavesRange i loss) s = .next
      (((t.setFlag F.PCR_SUPPLY_STAT.on_vaux (decide (i = .vmain))).bump F.PCR_SUPPLY_STAT.switch_count 1).raise 7
        (inputCode (otherInput i))).settle) ∧
    (t.flag (okFlag (otherInput i)) = true → s.selected ≠ i → exec (.inputLeavesRange i loss) s
      = .next ((t.setCond 8 true).raise 8 (inputCode i)).settle) := by
  intro t
  have e : exec (.inputLeavesRange i loss) s = if ! t.flag (okFlag (otherInput i)) then done t.supplyLoss
      else if s.selected = i then done (((t.setFlag F.PCR_SUPPLY_STAT.on_vaux (decide (i = .vmain))).bump
        F.PCR_SUPPLY_STAT.switch_count 1).raise 7 (inputCode (otherInput i)))
      else done ((t.setCond 8 true).raise 8 (inputCode i)) := by
    show execInputLeavesRange i loss s = _
    rw [execInputLeavesRange, if_neg (by simp [hi])]
    rfl
  refine ⟨fun ho => ?_, fun ho hs => ?_, fun ho hs => ?_⟩
  · rw [e, if_pos (by simp [ho])]
    rfl
  · rw [e, if_neg (by simp [ho]), if_pos hs]
    rfl
  · rw [e, if_neg (by simp [ho]), if_neg hs]
    rfl

/-- The readings after an input has entered its range; the first one to do so is the one that the part runs from. -/
def State.inputFound (s : State) (i : Input) (volts : BitVec 8) : State :=
  let a := s.setFl (voltField i) volts.toNat
  let b := if a.flag (okFlag (otherInput i)) then a else a.setFlag F.PCR_SUPPLY_STAT.on_vaux (decide (i = .vaux))
  if i = .vmain then (b.setFlag (okFlag i) true).withVmainAt (b.setFlag (okFlag i) true).now
  else b.setFlag (okFlag i) true

/-- An input that enters its range: redundancy returns when it is not the one that the part runs from. -/
theorem exec_inputEntersRange (hi : s.flag (okFlag i) = false) (hv : inRange volts = true) :
    let t := s.inputFound i volts
    (t.cond 8 = true → t.selected ≠ i → exec (.inputEntersRange i volts) s = .next (t.endCond 8).settle) ∧
    (t.cond 8 = false ∨ t.selected = i → exec (.inputEntersRange i volts) s = .next t.settle) := by
  intro t
  have e : exec (.inputEntersRange i volts) s =
      if t.cond 8 && t.selected ≠ i then done (t.endCond 8) else done t := by
    show execInputEntersRange i volts s = _
    rw [execInputEntersRange, if_neg (by simp [hi, hv])]
    simp only [t, State.inputFound]
    cases (s.setFl (voltField i) volts.toNat).flag (okFlag (otherInput i)) <;> rfl
  refine ⟨fun hc hs => ?_, fun h => ?_⟩
  · rw [e, if_pos (by simp [hc, hs])]
    rfl
  · rw [e, if_neg (by obtain hc | hs := h <;> simp [*])]
    rfl

end

theorem exec_returnToVmain (hv : s.flag F.PCR_SUPPLY_STAT.on_vaux = true)
    (hm : s.flag F.PCR_SUPPLY_STAT.vmain_ok = true) (hh : s.flag F.PCR_SUPPLY_CTL.return_hold = false)
    (hp : s.phase ≠ .coldHold) : exec .returnToVmain s
      = .next (s.advTo (s.vmainAt + max 1 (s.fl F.PCR_SUPPLY_CTL.return_delay) * msCyc)).toVmain.settle := by
  show execReturnToVmain s = _
  simp [execReturnToVmain, hv, hm, hh, hp, done]

/-! ### The statement -/

/-- A low level that the filter may pass is ignored or starts a cold reset. -/
theorem exec_porst_between {low : BitVec 16} (hl : 20 ≤ low.toNat) (hh : low.toNat < 50) :
    let u := s.withFreeCtr (s.freeCtr + 1)
    exec (.coldReset (.porst low)) s = .next u.settle ∨ exec (.coldReset (.porst low)) s = .next (u.coldTo 0).settle := by
  have hf := pinFilter_between s hl hh
  by_cases hc : Config.free s.freeCtr 1 == 1 ∧ ¬ (s.phase = .coldHold ∧ s.flag F.PCR_RESET_CAUSE.cold_supply = true)
  · rw [hc.1] at hf
    exact .inr (exec_porst_resets hf hc.2)
  · refine .inl (exec_porst_ignored hf ?_)
    rwa [not_and_or, not_not, Bool.not_eq_true] at hc

/-- Or a warm reset. -/
theorem exec_wrst_between {low : BitVec 16} (hl : 20 ≤ low.toNat) (hh : low.toNat < 50) :
    let u := s.withFreeCtr (s.freeCtr + 1)
    exec (.warmReset (.pin low)) s = .next u.settle
      ∨ exec (.warmReset (.pin low)) s = .next ((u.withWrstLow true).beginWarm .pin).settle := by
  have hf := pinFilter_between s hl hh
  cases hb : (Config.free s.freeCtr 1 == 1) with
  | false => exact .inl (exec_wrst_ignored (hb ▸ hf))
  | true => exact .inr (exec_wrst_begins (hb ▸ hf))

/-- Settles O47: each clause is the lemma above for its event. -/
theorem resetAndStartComplete : Obligations.ResetAndStartComplete := by
  refine ⟨fun s low => ⟨fun hl => ?_, fun hl hh => ⟨exec_porst_between hl hh, exec_wrst_between hl hh⟩,
      fun hl => ⟨exec_porst_resets (pinFilter_long s hl), exec_wrst_begins (pinFilter_long s hl)⟩⟩,
    fun s t => exec_coldReset_cmd, fun s => exec_coldReset_supply, fun s => exec_warmReset_clock,
    fun s t => ⟨exec_warmReset_cmd, exec_warmReset_fault⟩, fun s i => coldStart_completes, fun s i => exec_rootPllLock,
    fun s => exec_hostReady, fun s i => exec_warmStart,
    fun s i volts other => exec_inputLeavesRange (loss := ⟨volts, other⟩), fun s i volts => exec_inputEntersRange,
    fun s => exec_returnToVmain, fun s hc hr => ⟨exec_refclkLoss hc hr, exec_pllUnlock hc hr⟩,
    fun s i => ⟨exec_refclkReturn, exec_pllRelock⟩, fun s low => rfl⟩
  exact ⟨exec_porst_ignored (pinFilter_short s hl) (.inl rfl), exec_wrst_ignored (pinFilter_short s hl)⟩

end Sys2Proof.Machine
end

section
/-! SUPPORT. PCR_RESET_CTL: the keys that it asks for, the reset that it accepts, and the reset when its moment comes (R77,
R78). -/

namespace Sys2Proof.Machine

open Sys2Proof

variable {s t u : State} {h : Hdr} {slot v d : Nat} {x : Session}

/-! ### The write (R77, R78, R500) -/

theorem regAt_PCR_RESET_CTL : regAt (R.addr .PCR_RESET_CTL) = some (.PCR_RESET_CTL, 0, 0) :=
  regAt_addr (by decide +kernel) (by decide) (by decide)

/-- The values that PCR_RESET_CTL refuses: a bit without its key (R77). -/
theorem badCode_PCR_RESET_CTL (l : List (Nat × Nat)) : u.badCode l .PCR_RESET_CTL 0 0 v = true ↔
    tbit v 0 = true ∧ v / 2 ^ 16 % 2 ^ 16 ≠ 0x5752 ∨ tbit v 1 = true ∧ v / 2 ^ 16 % 2 ^ 16 ≠ 0x4352 := by
  simp [State.badCode, bitsOf, Nat.shiftRight_eq_div_pow]

/-- The two bits of a value that sets just one of them. -/
theorem tbit_of_mod_four {k : Nat} (hv : v % 4 = k) : tbit v 0 = tbit k 0 ∧ tbit v 1 = tbit k 1 := by
  have hb (i : Nat) (hi : i < 2) : tbit k i = tbit v i := by
    rw [← hv, tbit, tbit, show (4 : Nat) = 2 ^ 2 by rfl, Nat.testBit_mod_two_pow]
    simp [hi]
  exact ⟨(hb 0 (by decide)).symm, (hb 1 (by decide)).symm⟩

/-- The device owner's write of PCR_RESET_CTL passes every check but that of the key. -/
theorem writeOk_PCR_RESET_CTL (ho : u.owns slot devRes = true)
    (hc : u.badCode [(R.addr .PCR_RESET_CTL, v)] .PCR_RESET_CTL 0 0 v = false) :
    WriteOk u slot .PCR_RESET_CTL 0 0 v where
  field := rfl
  owner := ⟨devRes, rfl, ho⟩
  code := hc
  served h := absurd h.2 (by decide)
  inService := rfl
  calm := rfl
  kept := rfl

/-- A write that passes its checks accepts the reset that it names. -/
theorem writeRegs_PCR_RESET_CTL (ho : u.owns slot devRes = true)
    (hc : u.badCode [(R.addr .PCR_RESET_CTL, v)] .PCR_RESET_CTL 0 0 v = false) :
    u.writeRegs slot [(R.addr .PCR_RESET_CTL, v)] =
      (stOk, if tbit v 1 then u.resetSoon .cold else if tbit v 0 then u.resetSoon (.warm .cmd) else u) := by
  rw [writeRegs_ok regAt_PCR_RESET_CTL (writeOk_PCR_RESET_CTL ho hc),
    applyWrite_systemDie regAt_PCR_RESET_CTL rfl (by decide)]
  rfl

/-- With no reset accepted before, the reset is due 1 ms from now (R78). -/
theorem resetSoon_first (hr : u.resetAt = none) (k : ResetKind) :
    u.resetSoon k = u.withResetAt (some (u.now + msCyc, k)) := by
  simp [State.resetSoon, hr]

/-- The warm bit alone, with its key. -/
theorem writeRegs_warm (ho : u.owns slot devRes = true) (hr : u.resetAt = none) (hb : v % 4 = 1)
    (hk : v / 2 ^ 16 = 0x5752) : u.writeRegs slot [(R.addr .PCR_RESET_CTL, v)] =
      (stOk, u.withResetAt (some (u.now + msCyc, .warm .cmd))) := by
  obtain ⟨h0, h1⟩ := tbit_of_mod_four hb
  have hc : u.badCode [(R.addr .PCR_RESET_CTL, v)] .PCR_RESET_CTL 0 0 v = false :=
    Bool.eq_false_iff.mpr (mt (badCode_PCR_RESET_CTL _).mp (by rw [h0, h1, hk]; decide))
  rw [writeRegs_PCR_RESET_CTL ho hc, h0, h1, resetSoon_first hr, resetSoon_first hr]
  rfl

/-- The cold bit alone, with its key. -/
theorem writeRegs_cold (ho : u.owns slot devRes = true) (hr : u.resetAt = none) (hb : v % 4 = 2)
    (hk : v / 2 ^ 16 = 0x4352) : u.writeRegs slot [(R.addr .PCR_RESET_CTL, v)] =
      (stOk, u.withResetAt (some (u.now + msCyc, .cold))) := by
  obtain ⟨h0, h1⟩ := tbit_of_mod_four hb
  have hc : u.badCode [(R.addr .PCR_RESET_CTL, v)] .PCR_RESET_CTL 0 0 v = false :=
    Bool.eq_false_iff.mpr (mt (badCode_PCR_RESET_CTL _).mp (by rw [h0, h1, hk]; decide))
  rw [writeRegs_PCR_RESET_CTL ho hc, h0, h1, resetSoon_first hr]
  rfl

/-! ### The reply (R78) -/

@[simp] theorem replyTo_everReady (s : State) (n : Nat) (op : BitVec 16) (q : BitVec 32) (g : BitVec 8) (c : Nat)
    (p : List Byte) : (s.replyTo n op q g c p).everReady = s.everReady := by
  obtain ⟨_, _, _, _, e⟩ := replyTo_eq s n op q g c p; rw [e]

@[simp] theorem sweepShadows_everReady (s : State) : s.sweepShadows.everReady = s.everReady := by
  obtain ⟨_, e⟩ := sweepShadows_eq s; rw [e]

@[simp] theorem taken_everReady (s : State) (h : Hdr) (n : Nat) (x : Session) :
    (s.taken h n x).everReady = s.everReady := by
  obtain ⟨_, e⟩ := heard_eq s h
  simp only [State.taken, State.accept, e]
  rfl

/-- What the reply to an accepted reset leaves: the reset is due, nothing is reset yet. -/
theorem replies_resetDue {r : Nat × ResetKind} {op c : Nat} {p : List Byte} (hr : u.reports = [])
    (ht : t = (u.withResetAt (some r)).replies slot h op c p) :
    t.resetAt = some r ∧ t.phase = u.phase ∧ t.now = u.now ∧ t.everReady = u.everReady := by
  rw [ht, replies_calm (by simpa using hr)]
  refine ⟨by simp, by simp, by simp, ?_⟩
  rw [sweepShadows_everReady]
  exact replyTo_everReady ..

/-! ### The reset (R60, R78) -/

/-- A cold reset leaves no report to act on but that of a switch-over. -/
theorem settle_coldTo (s : State) (c : Nat) : (s.coldTo c).settle = s.coldTo c := by
  obtain ⟨r, e⟩ := coldTo_regsOnly s c
  rw [e]
  exact settle_held (l := s.reports) rfl rfl rfl

/-- Nor does a warm reset. -/
theorem settle_warmTo (s : State) (c : WarmCause) : (s.warmTo c).settle = s.warmTo c := by
  obtain ⟨r, e⟩ := warmTo_regsOnly s c
  rw [e]
  exact settle_held (l := s.reports) rfl rfl rfl

@[simp] theorem coldTo_now (s : State) (c : Nat) : (s.coldTo c).now = s.now := by
  obtain ⟨r, e⟩ := coldTo_regsOnly s c; rw [e]; rfl
@[simp] theorem coldTo_phase (s : State) (c : Nat) : (s.coldTo c).phase = .coldHold := by
  obtain ⟨r, e⟩ := coldTo_regsOnly s c; rw [e]; rfl
@[simp] theorem warmTo_now (s : State) (c : WarmCause) : (s.warmTo c).now = s.now := by
  obtain ⟨r, e⟩ := warmTo_regsOnly s c; rw [e]; rfl
@[simp] theorem warmTo_phase (s : State) (c : WarmCause) : (s.warmTo c).phase = .warmHold := by
  obtain ⟨r, e⟩ := warmTo_regsOnly s c; rw [e]; rfl

@[simp] theorem advTo_everReady (t : Nat) : (s.advTo t).everReady = s.everReady := by
  unfold State.advTo; split <;> rfl

/-- From its moment on the part holds in the warm reset that was accepted. -/
theorem exec_warmReset_due (hr : s.resetAt = some (d, .warm .cmd)) (hp : s.phase = .ready) (he : s.everReady = true) :
    exec (.warmReset .cmd) s = .next ((s.advTo d).warmTo .cmd) := by
  have hb : (s.advTo d).beginWarm .cmd = (s.advTo d).warmTo .cmd := by simp [State.beginWarm, hp, he]
  rw [exec_warmReset_cmd hr, hb, settle_warmTo]

/-- Or in the cold reset. -/
theorem exec_coldReset_due (hr : s.resetAt = some (d, .cold)) :
    exec (.coldReset .cmd) s = .next ((s.advTo d).coldTo 0) := by
  rw [exec_coldReset_cmd hr, settle_coldTo]

/-- Settles O22: the write makes the reset due, the reply changes nothing of that, and at its moment the reset begins. -/
theorem resetBeginsOneMillisecondAfterReply : Obligations.ResetBeginsOneMillisecondAfterReply := by
  intro s h slot x v A ht hp ho hrep hra her u
  have hu : u.owns slot devRes = true := by simpa [u] using ho
  have hun : u.resetAt = none := by simpa [u] using hra
  have hur : u.reports = [] := by simpa [u] using hrep
  have hn : u.now = s.now := by simp [u]
  have hph : u.phase = .ready := by simpa [u] using A.ready
  have hue : u.everReady = true := by simpa [u] using her
  refine ⟨fun hb hk => ?_, fun hb hk => ?_⟩
  · have e : exec (.pcrResetCtlWarm h v) s = .next ((u.withResetAt (some (s.now + msCyc, .warm .cmd))).replies slot h
        0x0011 stOk []) := by
      rw [← hn]
      exact done_oneReg A ht hp (writeRegs_warm hu hun hb hk)
    refine ⟨e, fun t het => ?_⟩
    obtain ⟨h1, h2, h3, h4⟩ := replies_resetDue hur (Host.Outcome.next.inj (het.symm.trans e))
    rw [hph] at h2
    rw [hn] at h3
    exact ⟨h1, h2, h3, _, exec_warmReset_due h1 h2 (h4.trans hue), by simp [h3], warmTo_phase _ _⟩
  · have e : exec (.pcrResetCtlCold h v) s = .next ((u.withResetAt (some (s.now + msCyc, .cold))).replies slot h
        0x0011 stOk []) := by
      rw [← hn]
      exact done_oneReg A ht hp (writeRegs_cold hu hun hb hk)
    refine ⟨e, fun t het => ?_⟩
    obtain ⟨h1, h2, h3, -⟩ := replies_resetDue hur (Host.Outcome.next.inj (het.symm.trans e))
    exact ⟨h1, h2.trans hph, h3.trans hn, _, exec_coldReset_due h1, by simp [h3, hn], coldTo_phase _ _⟩

end Sys2Proof.Machine
end

section
/-! SUPPORT. The fault events: detectors and the ends of conditions, wire pairs, shadows, and the ends of block resets
(R62, R472, R475–R477, R486, R487). -/

namespace Sys2Proof.Machine

open Sys2Proof

variable {s : State} {source : BitVec 8} {detail : BitVec 16}

/-! ### Detectors and conditions (R47, R472, R477) -/

@[simp] theorem setCond_condDet (n : Nat) (on : Bool) : (s.setCond n on).condDet = s.condDet := rfl

/-- A detector acts on what it monitors, sets its condition if it is one, and reports with its detail. -/
theorem exec_faultActivation (hr : srcReserved source.toNat = false) (ho : ownEvents source.toNat = false) :
    let n := source.toNat
    let v := s.detected n
    let d := if n ≤ 6 then n else detail.toNat
    (isCond n = true → exec (.faultActivation source detail) s = .next (((v.setCond n true).withCondDet
      (mset (fun _ => 0) (v.setCond n true).condDet n d)).raise n d false
        (if n = 31 then tailStall detail.toNat else none)).settle) ∧
    (isCond n = false → exec (.faultActivation source detail) s = .next (v.raise n d false
      (if n = 31 then tailStall detail.toNat else none)).settle) := by
  refine ⟨fun hc => ?_, fun hc => ?_⟩
  · show execFaultActivation source detail s = _
    simp [execFaultActivation, hr, ho, hc, done]
  · show execFaultActivation source detail s = _
    simp [execFaultActivation, hr, ho, hc, done]

/-- The end of a condition clears what it monitors, a rail's bit (R47), and ends the condition. -/
theorem exec_condSourceInactive (hc : isCond source.toNat = true) (ho : ownEvents source.toNat = false) :
    (source.toNat ≤ 6 → exec (.condSourceInactive source) s = .next ((s.setRg .PCR_RAIL_STAT
      (putBits (s.rg .PCR_RAIL_STAT) source.toNat source.toNat 1)).endCond source.toNat).settle) ∧
    (6 < source.toNat → exec (.condSourceInactive source) s = .next (s.endCond source.toNat).settle) := by
  refine ⟨fun h6 => ?_, fun h6 => ?_⟩
  · show execCondSourceInactive source s = _
    simp [execCondSourceInactive, ho, hc, h6, done]
  · show execCondSourceInactive source s = _
    simp [execCondSourceInactive, ho, hc, show ¬ source.toNat ≤ 6 by omega, done]

/-! ### Faulty pairs (R475, R476) -/

/-- A pair that begins to read equal is marked. -/
theorem exec_faultyPair_equal (hr : srcReserved source.toNat = false) (hw : s.srcBit .FLC_WIRE source.toNat = false) :
    exec (.faultyPair source true) s = .next (s.setSrcBit .FLC_WIRE source.toNat true).followWire.settle := by
  show execFaultyPair source true s = _
  simp [execFaultyPair, hr, hw, done]

/-- A pair that reads validly again is unmarked; the source then follows its detector, if it is a condition. -/
theorem exec_faultyPair_valid (hr : srcReserved source.toNat = false) (hw : s.srcBit .FLC_WIRE source.toNat = true) :
    let n := source.toNat
    let v := (s.setSrcBit .FLC_WIRE n false).followWire
    (n = 255 ∨ isCond n = false → exec (.faultyPair source false) s = .next v.settle) ∧
    (n ≠ 255 → isCond n = true → v.cond n = true →
      exec (.faultyPair source false) s = .next (v.raise n (v.condDetail n)).settle) ∧
    (n ≠ 255 → isCond n = true → v.cond n = false →
      exec (.faultyPair source false) s = .next (v.endCond n).settle) := by
  refine ⟨fun hn => ?_, fun hn hc hv => ?_, fun hn hc hv => ?_⟩
  · show execFaultyPair source false s = _
    simp [execFaultyPair, hr, hw, hn, done]
  · show execFaultyPair source false s = _
    simp [execFaultyPair, hr, hw, hn, hc, hv, done]
  · show execFaultyPair source false s = _
    simp [execFaultyPair, hr, hw, hn, hc, hv, done]

/-! ### Shadows and block resets (R62, R486, R487) -/

/-- The end of a shadow activates every dependent that is live and in no other shadow. -/
theorem exec_shadowEnd {b : Blk} {x : Shadow} {t : Nat} (hx : s.shadows.find? (fun y => y.blk == b) = some x)
    (ht : x.endsAt = some t) :
    let v := (s.advTo t).withShadows ((s.advTo t).shadows.filter (fun y => y.blk != b))
    exec (.shadowEnd b) s = .next ((List.range 256).foldl (fun w n =>
      if dependent b n && w.srcLive n && ! w.shadowed n then w.activate ⟨n, w.condDetail n, false, none⟩
      else w) v).settle := by
  show execShadowEnd b s = _
  simp [execShadowEnd, hx, ht, done]

theorem exec_blockResetComplete {b : Blk} (hb : s.inReset b = true) :
    exec (.blockResetComplete b) s = .next (s.endBlock b).settle := by
  show execBlockResetComplete b s = _
  simp [execBlockResetComplete, hb, done]

/-- Settles O41: each clause is the lemma above for its event. -/
theorem faultEventsComplete : Obligations.FaultEventsComplete :=
  ⟨fun _ _ _ => exec_faultActivation, fun _ => rfl, fun _ _ => exec_condSourceInactive,
    fun _ _ hr => ⟨exec_faultyPair_equal hr, exec_faultyPair_valid hr⟩, fun _ _ _ _ => exec_shadowEnd,
    fun _ _ => exec_blockResetComplete⟩

end Sys2Proof.Machine
end

section
/-! SUPPORT. A frame that a host lane is offered, and a frame that it counts: what each changes, and what it leaves (R88, R90). -/

namespace Sys2Proof.Machine

open Sys2Proof

variable {s : State}

/-! ### Counters -/

/-- A count leaves every other address. -/
theorem rd_bump_ne {f : FRef} {a i j : Nat} (h : a ≠ f.reg.addr i j) (n : Nat) : (s.bump f n i j).rd a = s.rd a :=
  mget_mset_ne _ _ _ h

theorem sat_eq_min (m x : Nat) : sat m x = min m x := by
  unfold sat
  split <;> omega

/-- A counter that fills its register stops at the largest word. -/
theorem rg_bump_word (hs : mwf regRst s.regs = true) (r : R) (n i j : Nat) :
    (s.bump ⟨r, 31, 0⟩ n i j).rg r i j = min (2 ^ 32 - 1) (s.rg r i j + n) := by
  have hw : ∀ t : State, t.fl ⟨r, 31, 0⟩ i j = t.rg r i j := fun t => Nat.mod_eq_of_lt (t.rd _).isLt
  have hlt : min (2 ^ 32 - 1) (s.rg r i j + n) < 2 ^ 32 := by omega
  refine (hw _).symm.trans ?_
  rw [State.bump, sat_eq_min, hw s]
  exact fl_setFl_same (f := ⟨r, 31, 0⟩) hs (by decide : 31 < 32) hlt i j

/-- Counting on a lane leaves its link state. -/
theorem laneUp_bump {f : FRef} (hf : (R.row .HP_LINK_STAT).apart f.reg.row = true) {i j : Nat} (hi : i < f.reg.row.n1)
    (hj : j < f.reg.row.n2) (n : Nat) (k : LaneIx) : (s.bump f n i j).laneUp k.val = s.laneUp k.val := by
  simp only [State.laneUp, State.fl]
  rw [show (s.bump f n i j).rg .HP_LINK_STAT k.val = s.rg .HP_LINK_STAT k.val from
    rg_setRg_apart (by decide) hf k.isLt (by decide) hi hj _]

/-! ### Offering a frame (R90) -/

theorem offer_up {k : Nat} (hu : s.laneUp k = true) (f : Sent) :
    s.offer k f = (s.withOut (s.out ++ [f])).bump F.HP_TX_FRAMES.count 1 k := by
  simp [State.offer, hu]

theorem offer_down {k : Nat} (hu : s.laneUp k = false) (f : Sent) : s.offer k f = s.bump F.HP_TX_DROP.count 1 k := by
  simp [State.offer, hu]

theorem offer_out {k : Nat} (hu : s.laneUp k = true) (f : Sent) : (s.offer k f).out = s.out ++ [f] := by
  rw [offer_up hu]; rfl

@[simp] theorem offer_reports (k : Nat) (f : Sent) : (s.offer k f).reports = s.reports := by
  unfold State.offer
  split <;> rfl

/-- Settles O53: the frame is counted in HP_TX_DROP, and that is all. -/
theorem laneThatIsDownDiscards : Obligations.LaneThatIsDownDiscards := by
  intro s k f hd hc t
  have ht : t = s.bump F.HP_TX_DROP.count 1 k.val := offer_down hd f
  rw [ht]
  exact ⟨rfl, rfl, rg_bump_word hc.regs .HP_TX_DROP 1 k.val 0, fun r i j h => congrArg BitVec.toNat (rd_bump_ne h 1)⟩

end Sys2Proof.Machine
end

section
/-! SUPPORT. Frames that are no commands: malformed and dropped ones, ARP and ICMP echo requests (R88, R104, R106). -/

namespace Sys2Proof.Machine

open Sys2Proof

variable {s : State}

/-- A malformed frame that the part hears is counted, whatever is wrong with it. -/
theorem exec_dcpFrameDrop_malformed {h : Hdr} {why : DcpDrop} (hw : ∀ op, why ≠ .reservedOpcode op)
    (hh : (s.heard { h with plen := 0 }).1 = true) :
    exec (.dcpFrameDrop h why) s = .next ((s.heard { h with plen := 0 }).2.bump F.OWN_DROP.count 1).settle := by
  show execDcpFrameDrop h why s = _
  cases why with
  | reservedOpcode op => exact absurd rfl (hw op)
  | shortFrame | ipFragment | udpChecksum | reservedType => simp only [execDcpFrameDrop, hh, if_true, done]

theorem exec_rxFrameDrop_badFcs {k : LaneIx} (hu : s.laneUp k.val = true) :
    exec (.rxFrameDrop k .badFcs) s = .next (s.bump F.HP_RX_FCS_ERR.count 1 k.val).settle := by
  show execRxFrameDrop k .badFcs s = _
  simp [execRxFrameDrop, hu, done]

theorem exec_rxFrameDrop_undelivered {k : LaneIx} {why : RxDrop} (hu : s.laneUp k.val = true) (hw : why ≠ .badFcs) :
    exec (.rxFrameDrop k why) s = .next (s.bump F.HP_RX_DROP.count 1 k.val).settle := by
  show execRxFrameDrop k why s = _
  cases why with
  | badFcs => exact absurd rfl hw
  | notForPart | macControl | badLength => simp [execRxFrameDrop, hu, done]

variable {k : LaneIx} {mac : BitVec 48} {ip : BitVec 32} {data : List Byte}

theorem exec_arpRequest_own (hu : s.laneUp k.val = true) (hi : s.rg .HP_IPV4 k.val ≠ 0 ∧ ip.toNat = s.rg .HP_IPV4 k.val) :
    exec (.arpRequest k mac ip) s = .next ((s.bump F.HP_RX_FRAMES.count 1 k.val).offer k.val
      (.arp k (s.vlanTag k.val) mac (s.laneMac k.val) ip)).settle := by
  show execArpRequest k mac ip s = _
  simp only [execArpRequest, hu, if_pos hi, Bool.not_true, Bool.false_eq_true, if_false, done]

theorem exec_arpRequest_other (hu : s.laneUp k.val = true)
    (hi : ¬ (s.rg .HP_IPV4 k.val ≠ 0 ∧ ip.toNat = s.rg .HP_IPV4 k.val)) :
    exec (.arpRequest k mac ip) s = .next (s.bump F.HP_RX_DROP.count 1 k.val).settle := by
  show execArpRequest k mac ip s = _
  simp only [execArpRequest, hu, if_neg hi, Bool.not_true, Bool.false_eq_true, if_false, done]

theorem exec_icmpEchoRequest_own (hu : s.laneUp k.val = true)
    (hi : s.rg .HP_IPV4 k.val ≠ 0 ∧ ip.toNat = s.rg .HP_IPV4 k.val) :
    exec (.icmpEchoRequest k mac ip data) s = .next ((s.bump F.HP_RX_FRAMES.count 1 k.val).offer k.val
      (.echo k (s.vlanTag k.val) mac (s.ipOut k.val) data)).settle := by
  show execIcmpEchoRequest k mac ip data s = _
  simp only [execIcmpEchoRequest, hu, if_pos hi, Bool.not_true, Bool.false_eq_true, if_false, done]

theorem exec_icmpEchoRequest_other (hu : s.laneUp k.val = true)
    (hi : ¬ (s.rg .HP_IPV4 k.val ≠ 0 ∧ ip.toNat = s.rg .HP_IPV4 k.val)) :
    exec (.icmpEchoRequest k mac ip data) s = .next (s.bump F.HP_RX_DROP.count 1 k.val).settle := by
  show execIcmpEchoRequest k mac ip data s = _
  simp only [execIcmpEchoRequest, hu, if_neg hi, Bool.not_true, Bool.false_eq_true, if_false, done]

/-- Settles O16: the lemmas above, and the engine's answer to a reserved opcode. -/
theorem framesWithoutCommand : Obligations.FramesWithoutCommand := by
  refine ⟨fun s h why hw hh => exec_dcpFrameDrop_malformed ?_ hh,
    fun s h slot x op A => (exec_reservedOpcode h op s).trans (done_reply A rfl),
    fun s k why hu => ⟨fun hw => ?_, exec_rxFrameDrop_undelivered hu⟩,
    fun s k mac ip data hu => ⟨fun hi => ⟨exec_arpRequest_own hu hi, exec_icmpEchoRequest_own hu hi⟩, fun hi => ?_⟩⟩
  · rintro op rfl
    simp at hw
  · rw [hw]
    exact exec_rxFrameDrop_badFcs hu
  · have hn : ¬ (s.rg .HP_IPV4 k.val ≠ 0 ∧ ip.toNat = s.rg .HP_IPV4 k.val) := by tauto
    exact ⟨exec_arpRequest_other hu hn, exec_icmpEchoRequest_other hu hn⟩

end Sys2Proof.Machine
end

section
/-! SUPPORT. The frames that a lane transmits: each is appended to what was sent, with the lane's tag (R91). -/

namespace Sys2Proof.Machine

open Sys2Proof

variable {s : State}

/-- A message to a session on a lane leaves as one frame of that lane. -/
theorem sendDcp_out {b : Binding} {k : Nat} (hb : laneOf b = some k) (hu : s.laneUp k = true) (m : Msg) :
    (s.sendDcp b m).out = s.out ++ [.dcp b (s.vlanTag k) (s.carrier b m) m] := by
  simp only [State.sendDcp, hb, offer_out hu]

/-- The port of a lane's number is that lane. -/
theorem find_lane (k : LaneIx) : (List.finRange 8).find? (fun j => j.val == k.val) = some k := by
  revert k
  decide

/-- A PTP message of a port leaves as one frame of its lane (R446, R447). -/
theorem sendPtp_eq (k : LaneIx) (type seqId time : Nat) : s.sendPtp k.val type seqId time = s.offer k.val
    (.ptp k (s.vlanTag k.val) (if (s.port k.val).udp then some (s.ipOut k.val, if type < 8 then 319 else 320) else none)
      (BitVec.ofNat 4 type) (BitVec.ofNat 8 (s.fl F.TB_PTP_CTL.domain k.val)) (BitVec.ofNat 16 seqId) time
      (if type = 11 then some (BitVec.ofNat 8 (s.fl F.TB_PTP_CTL.priority1 k.val)) else none)) := by
  simp only [State.sendPtp, find_lane]

/-- An answer that a lane sends to a frame which it counts is the last thing sent. -/
theorem answered_out {k : LaneIx} {f : Sent} {t : State} {o : Host.Outcome State Fault Refusal}
    (hu : s.laneUp k.val = true) (hr : s.reports = [])
    (he : o = .next ((s.bump F.HP_RX_FRAMES.count 1 k.val).offer k.val f).settle) (ht : o = .next t) :
    t.out = s.out ++ [f] := by
  obtain rfl : _ = t := Host.Outcome.next.inj (he.symm.trans ht)
  rw [settle_calm (by simpa using hr), sweepShadows_out,
    offer_out ((laneUp_bump (by decide) k.isLt (by decide) 1 k).trans hu), bump_out]

/-- Settles O52: every kind of frame is offered to its lane with the tag of HP_VLAN. -/
theorem framesAreTagged : Obligations.FramesAreTagged := by
  refine ⟨fun s k => rfl, fun s b k m hb hu => sendDcp_out hb hu m, fun s k type seqId time hu => ?_,
    fun s t k mac ip data hu hr h0 hi => ⟨?_, ?_⟩⟩
  · rw [sendPtp_eq, offer_out hu]
  · exact answered_out hu hr (exec_arpRequest_own hu ⟨h0, hi⟩)
  · exact answered_out hu hr (exec_icmpEchoRequest_own hu ⟨h0, hi⟩)

end Sys2Proof.Machine
end

section
/-! SUPPORT. A command that is only answered: what its receipt and its reply change (R88, R107, R111, R113). -/

namespace Sys2Proof.Machine

open Sys2Proof

variable {s : State}

/-! ### The registers that sending and receiving count in -/

/-- The addresses of a lane's frame counters. -/
def frameCounters (k : LaneIx) : List Nat :=
  [R.addr .HP_RX_FRAMES k.val, R.addr .HP_RX_DROP k.val, R.addr .HP_TX_FRAMES k.val, R.addr .HP_TX_DROP k.val]

/-- The lane of a binding is one of the eight. -/
theorem lane_of_laneOf {b : Binding} {n : Nat} (h : laneOf b = some n) : ∃ k : LaneIx, k.val = n := by
  cases b with
  | eth k _ => exact ⟨k, Option.some.inj h⟩
  | udp k _ _ => exact ⟨k, Option.some.inj h⟩
  | mgmt => cases h

section
variable {a : Nat} (ha : ∀ k, a ∉ frameCounters k)
include ha

theorem offer_rd (k : LaneIx) (f : Sent) : (s.offer k.val f).rd a = s.rd a := by
  have hk := ha k
  simp only [frameCounters, List.mem_cons, not_or] at hk
  obtain ⟨-, -, hsent, hdrop, -⟩ := hk
  unfold State.offer
  split
  · exact rd_bump_ne hsent 1
  · exact rd_bump_ne hdrop 1

theorem sendDcp_rd (b : Binding) (m : Msg) : (s.sendDcp b m).rd a = s.rd a := by
  unfold State.sendDcp
  split
  · next hb =>
    obtain ⟨k, rfl⟩ := lane_of_laneOf hb
    exact offer_rd ha k _
  · split <;> rfl

theorem replyTo_rd (n : Nat) (op : BitVec 16) (q : BitVec 32) (t : BitVec 8) (c : Nat) (p : List Byte) :
    (s.replyTo n op q t c p).rd a = s.rd a := by
  unfold State.replyTo
  split
  · rfl
  · exact sendDcp_rd ha _ _

theorem heard_rd (h : Hdr) : (s.heard h).2.rd a = s.rd a := by
  unfold State.heard
  split
  · rfl
  · next hb =>
    obtain ⟨k, rfl⟩ := lane_of_laneOf hb
    have hk := ha k
    simp only [frameCounters, List.mem_cons, not_or] at hk
    obtain ⟨hgot, hlost, -⟩ := hk
    split
    · rfl
    · split
      · exact rd_bump_ne hgot 1
      · exact rd_bump_ne hlost 1

end

/-! ### Sessions (R108, R111) -/

/-- A handle that leads to a slot is the handle of the session in it. -/
theorem handle_of_slotOf {g : BitVec 16} {n : Nat} (h : s.slotOf g = some n) : s.handle (some n) = g := by
  unfold State.slotOf at h
  split at h
  · rename_i x hx
    split at h
    · rename_i hg
      cases h
      simp [State.handle, hx, hg]
    · cases h
  · cases h

/-- Sending a message leaves the sessions. -/
@[simp] theorem sendDcp_session (b : Binding) (m : Msg) (n : Nat) : (s.sendDcp b m).session n = s.session n := by
  obtain ⟨_, _, _, e⟩ := sendDcp_eq s b m
  rw [e]
  rfl

/-- A reply leaves the sessions of the other slots. -/
theorem replyTo_session_ne {n k : Nat} (hk : k ≠ n) (op : BitVec 16) (q : BitVec 32) (t : BitVec 8) (c : Nat) (p : List Byte) :
    (s.replyTo n op q t c p).session k = s.session k := by
  unfold State.replyTo
  split
  · rfl
  · rw [sendDcp_session, session_setSession_ne _ _ hk]

@[simp] theorem sweepShadows_session (n : Nat) : s.sweepShadows.session n = s.session n := by
  simp [State.session]

/-- An admitted command leaves the sessions of the other slots. -/
theorem taken_session_ne {n k : Nat} (hk : k ≠ n) (h : Hdr) (x : Session) : (s.taken h n x).session k = s.session k :=
  (session_setSession_ne _ _ hk).trans (heard_session s h k)

/-- The handle of a command's session is still the one that the command carries. -/
theorem taken_handle {h : Hdr} {n : Nat} {x : Session} (hs : s.slotOf h.session = some n) (hx : s.session n = some x) :
    (s.taken h n x).handle (some n) = h.session := by
  rw [← handle_of_slotOf hs]
  simp [State.handle, taken_session, hx]

/-! ### The whole state -/

variable {h : Hdr} {slot : Nat} {x : Session} {op c : Nat} {p : List Byte}

/-- The end of a command that is only answered. -/
theorem answered_eq (hr : s.reports = []) : (s.taken h slot x).replies slot h op c p =
    (((s.taken h slot x).replyTo slot (BitVec.ofNat 16 op) h.seq h.target c p).withResuming false).sweepShadows :=
  replies_calm (by simpa using hr)

/-- A command that is only answered changes what was sent, registers, the management target, sessions and shadows only. -/
theorem answered_frame (hr : s.reports = []) : ∃ o r g e d, (s.taken h slot x).replies slot h op c p =
    { s with out := o, regs := r, mgt := g, sess := e, shadows := d, resuming := false } := by
  obtain ⟨r, er⟩ := heard_eq s h
  obtain ⟨o, r', g, e, et⟩ := replyTo_eq (s.taken h slot x) slot (BitVec.ofNat 16 op) h.seq h.target c p
  obtain ⟨d, ed⟩ := sweepShadows_eq
    (((s.taken h slot x).replyTo slot (BitVec.ofNat 16 op) h.seq h.target c p).withResuming false)
  refine ⟨o, r', g, e, d, ?_⟩
  rw [answered_eq hr, ed, et, State.taken, er]
  rfl

/-- Settles O11: the reply's own lemmas for the session, and the frame for the rest. -/
theorem answerFrame : Obligations.AnswerFrame := by
  intro s h slot x op c p A hr t
  refine ⟨?_, fun n hn => ?_, fun a ha => ?_, ?_⟩
  · have e := replyTo_session (taken_session s h slot x) (BitVec.ofNat 16 op) h.seq h.target c p
    rw [taken_handle A.handle A.session] at e
    simp only [t, answered_eq hr, sweepShadows_session]
    exact e
  · simp only [t, answered_eq hr, sweepShadows_session]
    exact (replyTo_session_ne hn ..).trans (taken_session_ne hn h x)
  · simp only [t, answered_eq hr, sweepShadows_regs]
    exact (replyTo_rd ha ..).trans (heard_rd ha h)
  · obtain ⟨o, r, g, e, d, et⟩ := answered_frame (h := h) (slot := slot) (x := x) (op := op) (c := c) (p := p) hr
    simp only [t, et, and_self]

end Sys2Proof.Machine
end

section
/-! SUPPORT. The events of the time base: SYNC and TRIG edges, alarms and their outputs, and the PTP messages (R173, R240–R243,
R447, R451–R453). -/

namespace Sys2Proof.Machine

open Sys2Proof

variable {s : State}

/-! ### SYNC and TRIG_IN (R240, R241, R243, R304) -/

/-- SYNC_OUT is low: it rises for the oldest edge that is due. -/
theorem exec_syncOutPulse_rise {e : Nat} {rest : List Nat} (hm : s.flag F.TB_SYNC_CTL.master = true)
    (hl : s.syncOut.high = false) (hd : s.syncDue = e :: rest) :
    exec .syncOutPulse s = .next (((s.advTo (ceilDiv (8 * e + s.syncDelay) 8)).withSyncDue
      rest).withSyncOut { high := true, fallAt := some (8 * e + s.syncDelay + 512) }).settle := by
  show execSyncOutPulse s = _
  simp [execSyncOutPulse, hm, hl, hd, done]

/-- SYNC_OUT is high: it falls at its moment. -/
theorem exec_syncOutPulse_fall {t : Nat} (hm : s.flag F.TB_SYNC_CTL.master = true) (hh : s.syncOut.high = true)
    (hf : s.syncOut.fallAt = some t) :
    exec .syncOutPulse s = .next (((s.advTo (ceilDiv t 8)).withSyncOut {}).withSyncFell (some t)).settle := by
  show execSyncOutPulse s = _
  simp [execSyncOutPulse, hm, hh, hf, done]

/-- A rise of SYNC_IN that is a boundary. -/
theorem exec_syncEpochBoundary {short disagree : Bool} {edges lead : BitVec 16} (he : s.flag F.TB_SYNC_CTL.in_en = true) :
    let e := s.syncEdge edges.toNat lead.toNat
    s.syncWasLow e.1 = true →
    let v := ((s.advTo e.1).withSyncLast (some (e.1, short))).bump F.TB_SYNC_COUNT.count 1
    let w := v.setRg64 .TB_SYNC_CNT_LO .TB_SYNC_CNT_HI v.cnt.toNat
    let y := if short then w.setFlag F.TB_SYNC_STAT.short true else w
    let z := if disagree then y.setFlag F.TB_SYNC_STAT.disagree true else y
    exec (.syncEpochBoundary short disagree edges lead) s
      = .next ((if z.flag F.TB_SYNC_CTL.meas_en then z.syncMeasure e.2 else z).startOn 2 0).settle := by
  intro e hw v w y z
  have hc : (! s.flag F.TB_SYNC_CTL.in_en || ! s.syncWasLow e.1) = false := by simp [he, hw]
  show execSyncEpochBoundary short disagree edges lead s = _
  exact if_neg (by simpa using hc)

/-- TRIG_INn was low and rises. -/
theorem exec_trigInEdge_rise {n : Fin 4} (hl : tbit s.trigIn.toNat n.val = false) :
    let v := s.withTrigIn (BitVec.ofNat 4 (putBits s.trigIn.toNat n.val n.val 1))
    let w := v.withOctets.foldl (fun v st => v.setStall st ((v.stall st).latchTrig n.val v.nowU)) v
    exec (.trigInEdge n true) s = .next ((w.startOn 3 n.val).triggerAll 1 n.val).settle := by
  show execTrigInEdge n true s = _
  simp [execTrigInEdge, hl, bit, done]

/-! ### Alarms and their outputs (R451–R453) -/

/-- The start of an armed stall by alarm `a` crosses the die link in one flit (log 93). -/
def State.alarmFlit (s : State) (a : Nat) : State :=
  if (List.range 16).any (fun st => s.stState st == stArmed && (s.stall st).src == ⟨1, a⟩) then s.controlFlit 0 else s

/-- An armed alarm fires while network time is valid. -/
theorem fireAlarm_valid {a : Nat} {x : Alarm} (hv : s.flag F.TB_STAT.valid = true) :
    let v := (s.advTo (s.alarmCycle x)).toutAction x.action
    s.fireAlarm a x = (((if x.period = 0 then (v.setAlarm a none).setFlag F.TB_ALARM_STAT.armed false a
      else (v.setAlarm a (some { x with tau := (x.next v.nt).1, setAt := v.now, late := false })).bump
        F.TB_ALARM_STAT.skipped (x.next v.nt).2 a).alarmFlit a).startOn 1 a).triggerAll 5 a := by
  have hv' : (s.advTo (s.alarmCycle x)).flag F.TB_STAT.valid = true := by
    simpa [State.flag, State.fl, State.rg, State.rd] using hv
  simp only [State.fireAlarm, hv', if_true]
  rfl

theorem exec_alarmFire {a : Fin 16} {x : Alarm} (hx : s.alarm a.val = some x) (hc : s.clockStopped = false) :
    exec (.alarmFire a) s = .next (s.fireAlarm a.val x).settle := by
  show execAlarmFire a s = _
  simp [execAlarmFire, hx, hc, done]

section
variable {n : Fin 4} {p : Pulse} {t : Nat} (hg : (mget (fun _ => ({} : Pulse)) s.tout (4 + n.val)).riseAt = none)
  (hp : mget (fun _ => ({} : Pulse)) s.tout n.val = p)
include hg hp

theorem exec_toutPulse_rise (hl : p.high = false) (ht : p.riseAt = some t) : exec (.toutPulse n) s = .next
    (((s.advTo t).withTout (mset (fun _ => ({} : Pulse)) (s.advTo t).tout n.val
      { p with riseAt := none, high := true })).withToutLvl
        (BitVec.ofNat 4 (putBits (s.advTo t).toutLvl.toNat n.val n.val 1))).settle := by
  show execToutPulse n s = _
  simp [execToutPulse, hg, hp, hl, ht, done]

theorem exec_toutPulse_fall (hh : p.high = true) (ht : p.fallAt = some t) : exec (.toutPulse n) s = .next
    (((s.advTo t).withTout (mset (fun _ => ({} : Pulse)) (s.advTo t).tout n.val
      { p with fallAt := none, high := false })).withToutLvl
        (BitVec.ofNat 4 (putBits (s.advTo t).toutLvl.toNat n.val n.val 0))).settle := by
  show execToutPulse n s = _
  simp [execToutPulse, hg, hp, hh, ht, done]

end

/-! ### PTP messages (R88, R446, R447) -/

section
variable {k : LaneIx} {udp : Bool} {msg : PtpMsg} (hu : s.laneUp k.val = true)
include hu

/-- A port without a role, or a lane without an address for UDP, takes no message. -/
theorem exec_ptpMessageRx_dropped (hr : s.fl F.TB_PTP_CTL.role k.val = 0 ∨ (udp = true ∧ s.rg .HP_IPV4 k.val = 0)) :
    exec (.ptpMessageRx k ⟨udp, msg⟩) s = .next (s.bump F.HP_RX_DROP.count 1 k.val).settle := by
  show execPtpMessageRx k ⟨udp, msg⟩ s = _
  simp [execPtpMessageRx, hu, hr, done]

/-- A port with a role takes a message: of its domain, as the master or as a slave. -/
theorem exec_ptpMessageRx_taken (hr : s.fl F.TB_PTP_CTL.role k.val ≠ 0) (hi : udp = false ∨ s.rg .HP_IPV4 k.val ≠ 0) :
    let v := s.bump F.HP_RX_FRAMES.count 1 k.val
    let w := v.setPort k.val { v.port k.val with udp := udp }
    exec (.ptpMessageRx k ⟨udp, msg⟩) s = .next (if (ptpDomain msg).toNat ≠ w.fl F.TB_PTP_CTL.domain k.val then w
      else if s.fl F.TB_PTP_CTL.role k.val = 2 then w.ptpMaster k.val msg else w.ptpSlave k.val msg).settle := by
  intro v w
  have hd : (decide (s.fl F.TB_PTP_CTL.role k.val = 0) || (udp && s.rg .HP_IPV4 k.val == 0)) = false := by
    obtain rfl | h := hi <;> simp_all
  show execPtpMessageRx k ⟨udp, msg⟩ s = _
  simp only [execPtpMessageRx, hu, hd, Bool.not_true, Bool.false_eq_true, if_false, done]
  split
  · rfl
  · split <;> rfl

end

theorem exec_ptpSyncInterval {k : LaneIx} {stamp : BitVec 64} (hr : s.fl F.TB_PTP_CTL.role k.val = 2)
    (hv : s.flag F.TB_STAT.valid = true) :
    let n := (s.port k.val).seqId
    let v := s.setPort k.val { s.port k.val with seqId := n + 1 }
    let w := (v.sendPtp k.val 11 n.toNat 0).sendPtp k.val 0 n.toNat 0
    let z := if w.laneUp k.val then w.stamp k.val 0 n.toNat stamp else w
    exec (.ptpSyncInterval k stamp) s
      = .next (z.sendPtp k.val 8 n.toNat (ntOf z.ofs z.rate stamp.toNat).toNat).settle :=
  if_pos ⟨hr, hv⟩

/-- The slave port is the one of role 1. -/
theorem exec_ptpHoldover {k : Nat} (hk : (List.range 8).find? (fun j => s.fl F.TB_PTP_CTL.role j == 1) = some k) :
    exec .ptpHoldover s = .next (((s.setPort k { s.port k with close := 0, wait := .none }).setFlag F.TB_STAT.locked
      false).setFlag F.TB_STAT.holdover true).settle := by
  show execPtpHoldover s = _
  simp only [execPtpHoldover, hk, done]

/-- Settles O39: each clause is the lemma above for its event. -/
theorem timeEventsComplete : Obligations.TimeEventsComplete := by
  refine ⟨fun _ _ _ => exec_syncOutPulse_rise, fun _ _ => exec_syncOutPulse_fall,
    fun _ _ _ _ _ => exec_syncEpochBoundary, fun _ _ => exec_trigInEdge_rise,
    fun s a x hx hc hv => ⟨fun hp => ?_, fun hp => ?_⟩,
    fun _ _ _ _ hg hp => ⟨exec_toutPulse_rise hg hp, exec_toutPulse_fall hg hp⟩,
    fun s k udp msg hu => ⟨exec_ptpMessageRx_dropped hu,
      fun hr hi => ⟨fun hd => ?_, fun hd => ⟨fun hm => ?_, fun hm => ?_⟩⟩⟩,
    fun _ _ _ => exec_ptpSyncInterval, fun _ _ => exec_ptpHoldover⟩
  · rw [exec_alarmFire hx hc, fireAlarm_valid hv, if_pos hp]
    rfl
  · rw [exec_alarmFire hx hc, fireAlarm_valid hv, if_neg hp]
    rfl
  · rw [exec_ptpMessageRx_taken hu hr hi, if_pos hd]
  · rw [exec_ptpMessageRx_taken hu hr hi, if_neg (not_not.mpr hd), if_pos hm]
  · rw [exec_ptpMessageRx_taken hu hr hi, if_neg (not_not.mpr hd), if_neg hm]

end Sys2Proof.Machine
end

section
/-! SUPPORT. The beginning of a serial master's transfer (R511), and a register file on which it is not what O50 says. -/

namespace Sys2Proof.Machine

open Sys2Proof

variable {s : State} {j : Fin 4} {y : PesXfer} {rest : List PesXfer}

/-- The oldest transfer begins: the chip selects that stay held are judged before the new select is written. -/
theorem exec_pesTransferBegin (hq : (s.pesm j.val).queue = y :: rest) (hr : (s.pesm j.val).running = false) :
    let w := s.setPesm j.val { s.pesm j.val with running := true }
    exec (.pesTransferBegin j) s = .next ((w.setFl F.PES_STAT.cs y.cs j.val).setFl F.PES_STAT.held
      (w.fl F.PES_STAT.held j.val &&& 2 ^ y.cs) j.val).settle := by
  show execPesTransferBegin j s = _
  simp only [execPesTransferBegin, hq, hr, done]

/-- A write of a field leaves what lies above it. -/
theorem putBits_div_above (x v : Nat) {hi lo : Nat} (h : lo ≤ hi) : putBits x hi lo v / 2 ^ (hi + 1) = x / 2 ^ (hi + 1) := by
  have hw : 2 ^ (hi + 1) = 2 ^ lo * 2 ^ (hi + 1 - lo) := by rw [← Nat.pow_add]; congr 1; omega
  rw [hw, ← Nat.div_div_eq_div_mul, putBits_div, div_sub_bitsOf, Nat.mul_add_div (Nat.two_pow_pos _),
    Nat.div_eq_of_lt (Nat.mod_lt _ (Nat.two_pow_pos _)), Nat.add_zero, Nat.div_div_eq_div_mul]

/-- A field keeps its value when a lower field of its register is written. -/
theorem fl_setFl_over (hs : mwf regRst s.regs = true) {f g : FRef} (hr : f.reg = g.reg) (hg : g.lo ≤ g.hi) (h : g.hi < f.lo)
    (hf : f.hi < 32) (v i j : Nat) : (s.setFl g v i j).fl f i j = s.fl f i j := by
  rw [State.fl, hr, State.setFl, rg_setRg_same hs, bitsOf_mod_word _ _ hf, State.fl, hr]
  have hlo : f.lo = (g.hi + 1) + (f.lo - (g.hi + 1)) := by omega
  simp only [bitsOf, Nat.shiftRight_eq_div_pow]
  rw [hlo, Nat.pow_add, ← Nat.div_div_eq_div_mul, putBits_div_above _ _ hg, Nat.div_div_eq_div_mul]

/-- In the canonical form the write of the select leaves the held ones, so that the order of the two does not matter. -/
theorem exec_pesTransferBegin_canon (hs : s.Canon) (hq : (s.pesm j.val).queue = y :: rest)
    (hr : (s.pesm j.val).running = false) :
    let v := (s.setPesm j.val { s.pesm j.val with running := true }).setFl F.PES_STAT.cs y.cs j.val
    exec (.pesTransferBegin j) s
      = .next (v.setFl F.PES_STAT.held (v.fl F.PES_STAT.held j.val &&& 2 ^ y.cs) j.val).settle := by
  intro v
  have hv : v.fl F.PES_STAT.held j.val = s.fl F.PES_STAT.held j.val :=
    fl_setFl_over (s := s.setPesm ..) (f := F.PES_STAT.held) (g := F.PES_STAT.cs) hs.regs rfl (by decide) (by decide)
      (by decide) y.cs j.val 0
  rw [exec_pesTransferBegin hq hr, hv]
  rfl

/-- PES_STAT[0] is listed twice, which no canonical register file does: select 1 in front, and behind it select 0 held low.
The master's oldest transfer is of select 0. -/
def twiceListed : State :=
  (State.reset.withRegs [(R.addr .PES_STAT 0, 1), (R.addr .PES_STAT 0, 0x1000)]).setPesm 0
    { queue := [⟨0, 1, false, [0]⟩], running := false }

/-- Refutes O50, by the clause on the beginning of a transfer: writing select 0 brings PES_STAT[0] to its reset value, which
unlists its first entry. The claim then reads the held selects from the second one, where select 0 is held; the event read
them before, from the first, where none is. (In the canonical form the clause holds, by the lemma above.) -/
theorem not_laneEventsComplete : ¬ Obligations.LaneEventsComplete := by
  intro ⟨_, _, _, _, hpes⟩
  have hq : (twiceListed.pesm (0 : Fin 4).val).queue = [⟨0, 1, false, [0]⟩] := by decide
  have claimed := (hpes twiceListed 0 ⟨0, 1, false, [0]⟩ [] hq).1 (by decide)
  rw [exec_pesTransferBegin hq (by decide)] at claimed
  have regs := congrArg State.regs (Host.Outcome.next.inj claimed)
  rw [settle_calm (by rfl), settle_calm (by rfl), sweepShadows_regs, sweepShadows_regs] at regs
  revert regs
  decide +kernel

end Sys2Proof.Machine
end

section
/-! SUPPORT. Check 3 and the order of a session's commands: a handle without a live session of the sender, a command behind a
waiting reply, and sequence numbers that are not the next one (R109, R111, R112, R114, R116). -/

namespace Sys2Proof.Machine

open Sys2Proof

variable {s : State} {h : Hdr} {slot : Nat} {x : Session}

/-! ### Closing a session resumes no held command -/

@[simp] theorem judgeLow_resuming (s : State) (q : Nat) : (s.judgeLow q).resuming = s.resuming := by
  unfold State.judgeLow
  dsimp only
  split
  · rfl
  · split
    · refine foldl_keeps (P := fun t => t.resuming = s.resuming) (fun t st ht => ?_) _ (by simp)
      split <;> simp [ht]
    · simp

@[simp] theorem pop_resuming (s : State) (q : Nat) (bad : Bool) : (s.pop q bad).2.resuming = s.resuming := by
  unfold State.pop
  dsimp only
  split
  · split <;> simp
  · split
    · split <;> simp [State.useInjection]
    · simp

@[simp] theorem popStream_resuming (s : State) (q : Nat) (bad : Bool) : (s.popStream q bad).resuming = s.resuming := by
  have hp := pop_resuming s q bad
  unfold State.popStream
  split
  · rfl
  · split
    · rfl
    · split
      · exact hp
      · split
        · rfl
        · split <;> next e => simpa [e] using hp

@[simp] theorem sendFrame_resuming (s : State) (q : Nat) : (s.sendFrame q).resuming = s.resuming := by
  unfold State.sendFrame State.sendStream
  split
  · rfl
  · split
    · rfl
    · dsimp only
      split <;> simp

@[simp] theorem closeStream_resuming (s : State) (q : Nat) : (s.closeStream q).resuming = s.resuming := by
  simp only [State.closeStream, State.wholeRecord]
  split <;> [split; skip] <;> simp

@[simp] theorem closeStreams_resuming (s : State) (n : Nat) : (s.closeStreams n).resuming = s.resuming :=
  foldl_keeps (P := fun t => t.resuming = s.resuming) (fun t q ht => by simpa using ht) _ rfl

@[simp] theorem releaseAll_resuming (s : State) (n : Nat) : (s.releaseAll n).resuming = s.resuming :=
  foldl_keeps (P := fun t => t.resuming = s.resuming) (fun t q ht => by split <;> simpa using ht) _ rfl

@[simp] theorem dropClaims_resuming (s : State) (n : Nat) : (s.dropClaims n).resuming = s.resuming :=
  foldl_keeps (P := fun t => t.resuming = s.resuming) (fun t q ht => by split <;> simpa using ht) _ rfl

@[simp] theorem freeOps_resuming (s : State) (n g : Nat) : (s.freeOps n g).resuming = s.resuming :=
  foldl_keeps (P := fun t => t.resuming = s.resuming)
    (fun t q ht => by split <;> [split; skip] <;> simpa using ht) _ rfl

@[simp] theorem closeSession_resuming (s : State) (n : Nat) : (s.closeSession n).resuming = s.resuming := by
  unfold State.closeSession
  split <;> simp

/-! ### Check 3 (R109, R114) -/

/-- Every command of a session but HELLO is one call of the engine, under its own opcode. -/
theorem exec_engine (c : Instr) (hc : hdrOf c = some h) (ho : opcodeOf c ≠ 1) (s : State) :
    ∃ rom body, exec c s = done (s.cmd h (opcodeOf c) c rom body) := by
  cases c with
  | dcpFrameDrop g why =>
    cases why with
    | reservedOpcode op =>
      cases hc
      exact ⟨_, _, exec_reservedOpcode h op s⟩
    | _ => cases hc
  | _ =>
    obtain ⟨body, e⟩ := exec_cmd _ h s hc ho (by simp)
    exact ⟨_, body, e⟩

/-- A command that passes checks 1 and 2 does what its session's part of the engine does. -/
theorem exec_inSession (c : Instr) (hc : hdrOf c = some h) (ho : opcodeOf c ≠ 1) (A : Arrives s h) :
    ∃ rom body, exec c s = done (((s.arrived h).inSession h (opcodeOf c) c rom body).withResuming false) := by
  obtain ⟨rom, body, e⟩ := exec_engine c hc ho s
  exact ⟨rom, body, by rw [e, cmd_arrives A]⟩

/-- What ends a command that the engine refuses, unless it resumes a held one. -/
theorem done_arrived (A : Arrives s h) {t : State} (ht : t.resuming = s.resuming) :
    done (t.withResuming false) = .next t.settle := by
  rw [withResuming_self (ht.trans A.fresh), done]

section
variable {op : Nat} {self : Instr} {rom : Bool} {body : Body}

/-- A handle that names no session. -/
theorem inSession_noSession {t : State} (hs : t.slotOf h.session = none) :
    t.inSession h op self rom body = t.bounce h op stBadSession := by
  simp [State.inSession, hs]

/-- A handle of another sender's session. -/
theorem inSession_otherSender {t : State} (hs : t.slotOf h.session = some slot) (hx : t.session slot = some x)
    (hb : x.bind ≠ h.bind) : t.inSession h op self rom body = t.bounce h op stBadSession := by
  simp [State.inSession, hs, hx, hb]

/-- A handle of an expired session of the sender: the session closes. -/
theorem inSession_expired {t : State} (hs : t.slotOf h.session = some slot) (hx : t.session slot = some x)
    (hb : x.bind = h.bind) (he : x.expired = true) :
    t.inSession h op self rom body = (t.bounce h op stLeaseExpired).closeSession slot := by
  simp [State.inSession, hs, hx, hb, he]

/-- A command behind a waiting reply, or behind held commands, is held. -/
theorem inSession_mustWait {t : State} (hs : t.slotOf h.session = some slot) (hx : t.session slot = some x)
    (hb : x.bind = h.bind) (he : x.expired = false) (hw : t.mustWait h = true) :
    t.inSession h op self rom body = t.withHeld (t.held ++ [self]) := by
  simp [State.inSession, hs, hx, hb, he, hw]

end

/-- Settles O8: the engine's check 3, one lemma for each of its outcomes. -/
theorem wrongSessionGetsBadSession : Obligations.WrongSessionGetsBadSession := by
  intro c h s hc ho A
  obtain ⟨rom, body, e⟩ := exec_inSession c hc ho A
  rw [e]
  refine ⟨fun hs => ?_, fun slot x hs hx hb => ?_, fun slot x hs hx hb he => ?_⟩
  · rw [inSession_noSession (by simpa using hs)]
    exact done_arrived A (by simp)
  · rw [inSession_otherSender (by simpa using hs) (by simpa using hx) hb]
    exact done_arrived A (by simp)
  · rw [inSession_expired (by simpa using hs) (by simpa using hx) hb he]
    exact done_arrived A (by simp)

/-! ### The sequence of a session's commands (R111) -/

section
variable {op : Nat} {rom : Bool} {body : Body}

/-- A sequence number among the 16 before the next one: the cached reply, if there is one, is sent again. -/
theorem inOrder_repeated {t : State} (h1 : 1 ≤ (x.nextSeq - h.seq).toNat) (h16 : (x.nextSeq - h.seq).toNat ≤ 16) :
    t.inOrder h op rom body slot x = t.resendCached x h.seq := by
  have hn : h.seq ≠ x.nextSeq := fun e => by simp [e] at h1
  rw [State.inOrder, if_neg hn, if_pos h16]

/-- Any other sequence number but the next one. -/
theorem inOrder_badSequence {t : State} (h16 : 16 < (x.nextSeq - h.seq).toNat) :
    t.inOrder h op rom body slot x = t.bounce h op stBadSequence (beBytes 4 x.nextSeq.toNat) := by
  have hn : h.seq ≠ x.nextSeq := fun e => by simp [e] at h16
  rw [State.inOrder, if_neg hn, if_neg (by omega)]

@[simp] theorem resendCached_resuming (t : State) (x : Session) (q : BitVec 32) :
    (t.resendCached x q).resuming = t.resuming := by
  unfold State.resendCached
  split <;> simp

end

/-- Settles O9: a command that must wait is held; the sequence number of any other is judged by the two lemmas above. -/
theorem sequenceOfASession : Obligations.SequenceOfASession := by
  intro c h s slot x hc ho A hs hx hb he
  obtain ⟨rom, body, e⟩ := exec_engine c hc ho s
  refine ⟨fun hw => ?_, fun hw => ?_⟩
  · rw [e, cmd_arrives A, inSession_mustWait (by simpa using hs) (by simpa using hx) hb he
      (by rw [arrived_mustWait]; exact hw)]
    exact done_arrived A (by simp)
  · rw [e, cmd_inTurn A hs hx hb he hw]
    refine ⟨fun m hq hm => ?_, fun hq hm => ?_, fun hq => ?_⟩
    · rw [inOrder_repeated hq.1 hq.2, State.resendCached, hm]
      exact done_arrived A (by simp)
    · rw [inOrder_repeated hq.1 hq.2, State.resendCached, hm]
      exact done_arrived A (by simp)
    · rw [inOrder_badSequence hq]
      exact done_arrived A (by simp)

end Sys2Proof.Machine
end

section
/-! SUPPORT. Elections: the claim that wins, and the close of an election (R121). -/

namespace Sys2Proof.Machine

open Sys2Proof

/-! ### The claim that wins -/

/-- A claim, by slot and priority, is ahead of another: a higher priority, or the same and a slot that is no higher (R121).
-/
def Ahead (b c : Nat × Nat) : Prop := c.2 < b.2 ∨ (c.2 = b.2 ∧ b.1 ≤ c.1)

theorem Ahead.refl (b : Nat × Nat) : Ahead b b := .inr ⟨rfl, Nat.le_refl _⟩

theorem Ahead.trans {a b c : Nat × Nat} (h : Ahead a b) (k : Ahead b c) : Ahead a c := by
  unfold Ahead at *
  omega

/-- Two claims that are ahead of each other come from one slot. -/
theorem Ahead.antisymm {a b : Nat × Nat} (h : Ahead a b) (k : Ahead b a) : a.1 = b.1 := by
  unfold Ahead at *
  omega

/-- The better of the best claim so far and a further one. -/
def betterClaim (b : Option (Nat × Nat)) (c : Nat × Nat) : Option (Nat × Nat) :=
  match b with
  | some w => if w.2 < c.2 ∨ (w.2 = c.2 ∧ c.1 < w.1) then some c else b
  | none => some c

theorem winner_eq (l : List (Nat × Nat)) : winner l = (l.foldl betterClaim none).map (fun c => c.1) := rfl

/-- The better of two claims is one of them, and ahead of both. -/
theorem betterClaim_some (b c : Nat × Nat) :
    ∃ w, betterClaim (some b) c = some w ∧ (w = b ∨ w = c) ∧ Ahead w b ∧ Ahead w c := by
  by_cases h : b.2 < c.2 ∨ (b.2 = c.2 ∧ c.1 < b.1)
  · exact ⟨c, if_pos h, .inr rfl, by unfold Ahead; omega, .refl c⟩
  · exact ⟨b, if_neg h, .inl rfl, .refl b, by unfold Ahead; omega⟩

/-- The best claim from a first one on is one of them, and ahead of all of them. -/
theorem foldl_betterClaim : ∀ (l : List (Nat × Nat)) (b : Nat × Nat), ∃ w, l.foldl betterClaim (some b) = some w ∧
    w ∈ b :: l ∧ ∀ c ∈ b :: l, Ahead w c
  | [], b => ⟨b, rfl, by simp, by simpa using Ahead.refl b⟩
  | c :: l, b => by
    obtain ⟨v, hv, hm, hb, hc⟩ := betterClaim_some b c
    obtain ⟨w, hw, hwm, ha⟩ := foldl_betterClaim l v
    have hwv : Ahead w v := ha v (by simp)
    refine ⟨w, by rw [List.foldl_cons, hv, hw], ?_, ?_⟩
    · rcases List.mem_cons.mp hwm with rfl | hl
      · rcases hm with rfl | rfl <;> simp
      · simp [hl]
    · simp only [List.forall_mem_cons]
      exact ⟨hwv.trans hb, hwv.trans hc, fun d hd => ha d (by simp [hd])⟩

/-- An election with claims has a winning claim, which is ahead of every other. -/
theorem winner_spec {l : List (Nat × Nat)} (hl : l ≠ []) :
    ∃ b, winner l = some b.1 ∧ b ∈ l ∧ ∀ c ∈ l, Ahead b c := by
  cases l with
  | nil => exact absurd rfl hl
  | cons a l =>
    obtain ⟨w, hw, hm, ha⟩ := foldl_betterClaim l a
    exact ⟨w, by rw [winner_eq, List.foldl_cons, show betterClaim none a = some a from rfl, hw]; rfl, hm, ha⟩

/-- Without claims no one wins. -/
theorem claims_ne_nil {l : List (Nat × Nat)} {w : Nat} (h : winner l = some w) : l ≠ [] := by
  rintro rfl
  cases h

/-- The winner does not depend on the order of the claims. -/
theorem winner_perm {c d : List (Nat × Nat)} (hp : c.Perm d) : winner c = winner d := by
  by_cases hc : c = []
  · subst hc
    rw [List.nil_perm.mp hp]
  · obtain ⟨b, hb, hbm, hba⟩ := winner_spec hc
    obtain ⟨e, he, hem, hea⟩ := winner_spec (fun hd => hc (List.perm_nil.mp (hd ▸ hp)))
    rw [hb, he, (hba e (hp.mem_iff.mpr hem)).antisymm (hea b (hp.mem_iff.mp hbm))]

/-! ### The close -/

variable {s : State} {r : Fin 17} {e : Election} {w : Nat}

/-- When an election closes, its winner owns the resource and every waiting claimant is answered (R121). -/
theorem exec_electionClose (he : s.election r.val = some e) (hw : winner e.claims = some w) :
    let v := ((s.advTo e.closeAt).setElection r.val none).setOwner r.val (some w)
    exec (.electionClose r) s = .next ((List.range 32).foldl (fun t n => t.answer n (.claim r.val)
      (if n = w then stOk else stNotOwner) (beBytes 2 (v.handle (some w)).toNat)) v).settle := by
  show execElectionClose r s = _
  simp only [execElectionClose, he, hw, done]

/-- In the canonical form the resource then has its owner and no election. -/
theorem closed_election (hs : s.Canon) (t : Nat) :
    let v := ((s.advTo t).setElection r.val none).setOwner r.val (some w)
    v.ownerOf r.val = some w ∧ v.election r.val = none := by
  have hc : (s.advTo t).Canon := canon_advTo hs
  exact ⟨mget_mset_same _ _ 0 _ _ hc.owner, mget_mset_same _ _ 0 _ _ hc.elect⟩

/-- Settles O14: the winning claim is ahead of every other in whatever order they came, and the close is the event's one
branch. -/
theorem electionPicksHighestPriority : Obligations.ElectionPicksHighestPriority := by
  refine ⟨fun claims w hw => ?_, fun claims hc => ?_, fun c d => winner_perm,
    fun s r e w he hw => ⟨exec_electionClose he hw, fun hs => closed_election hs _⟩⟩
  · obtain ⟨⟨n, p⟩, hb, hm, ha⟩ := winner_spec (claims_ne_nil hw)
    obtain rfl : n = w := Option.some.inj (hb.symm.trans hw)
    exact ⟨p, hm, fun m q hq => ha (m, q) hq⟩
  · obtain ⟨b, hb, -, -⟩ := winner_spec hc
    exact ⟨b.1, hb⟩

end Sys2Proof.Machine
end

section
/-! SUPPORT. Reads of DRAM: whatever errors they find, they leave its bytes, its poison tags and the initialisation map
(R128, R410, R428, R429). -/

namespace Sys2Proof.Machine

open Sys2Proof

/-! ### What leaves the contents of DRAM alone -/

/-- What DRAM holds: its bytes, its poison tags, and which regions are initialised. -/
def State.contents (s : State) : List Host.Cell × SMap Byte × SMap Bool := (s.mem, s.psn, s.inited)

section
variable (s : State)

@[simp] theorem setErr_contents (a : Nat) (c : Cells) : (s.setErr a c).contents = s.contents := rfl
@[simp] theorem setRg_contents (r : R) (v i j : Nat) : (s.setRg r v i j).contents = s.contents := rfl
@[simp] theorem setFl_contents (f : FRef) (v i j : Nat) : (s.setFl f v i j).contents = s.contents := rfl
@[simp] theorem setFlag_contents (f : FRef) (b : Bool) (i j : Nat) : (s.setFlag f b i j).contents = s.contents := rfl
@[simp] theorem bump_contents (f : FRef) (n i j : Nat) : (s.bump f n i j).contents = s.contents := rfl
@[simp] theorem raise_contents (n d : Nat) (b : Bool) (t : Option Nat) : (s.raise n d b t).contents = s.contents := rfl
@[simp] theorem useInjection_contents : s.useInjection.contents = s.contents := rfl
@[simp] theorem withMig_contents (g : Option Mig) : (s.withMig g).contents = s.contents := rfl
@[simp] theorem withMigWait_contents (g : SMap (Option Nat)) : (s.withMigWait g).contents = s.contents := rfl

@[simp] theorem saveMap_contents (m a b c : Nat) : (s.saveMap m a b c).contents = s.contents := by
  obtain ⟨t, e⟩ := setTack_eq (record64 [BitVec.ofNat 8 a, BitVec.ofNat 8 b, BitVec.ofNat 8 c]) s (0x10200 + 0x40 * m)
  rw [State.saveMap, e]
  rfl

@[simp] theorem event_contents (to_ : Option Nat) (c t : Nat) (p : List Byte) :
    (s.event to_ c t p).contents = s.contents := by
  simp [State.contents]

@[simp] theorem wake_contents (p : Place) : (s.wake p).contents = s.contents := by
  obtain ⟨t, r, e⟩ := wake_eq s p
  rw [e]
  rfl

@[simp] theorem startMig_contents (m x : Nat) : (s.startMig m x).contents = s.contents := by
  simp [State.startMig]

/-- A rank that becomes a candidate for retirement keeps its contents. -/
@[simp] theorem candidate_contents (m x : Nat) : (s.candidate m x).contents = s.contents := by
  cases hg : s.mig with
  | none =>
    simp only [State.candidate, hg]
    split
    · rfl
    · split <;> simp
  | some g =>
    simp only [State.candidate, hg]
    split
    · rfl
    · split
      · simp
      · split <;> simp

@[simp] theorem uncorrectable_contents (a : Nat) (p : Place) (i r : Bool) :
    (s.uncorrectable a p i r).contents = s.contents := by
  simp only [State.uncorrectable]
  split
  · split <;> simp
  · split <;> simp

@[simp] theorem storedWord_contents (a : Nat) : (s.storedWord a).2.contents = s.contents := by
  unfold State.storedWord
  split
  · rfl
  · split <;> rfl

end

/-! ### Reads -/

/-- What a read delivers once its rank is awake and the cells hold what they hold. -/
def State.foundWord (s : State) (a : Nat) (p : Place) : RWord × State :=
  if s.injected (19 + p.m) then (⟨0, true⟩, s.useInjection.uncorrectable a p true false)
  else
    match s.finding a .asStored with
    | .uncorrectable => (⟨0, true⟩, s.uncorrectable a p false true)
    | .correctable =>
      let s := s.bump F.MC_CE_CNT.count 1 p.m
      (if s.flag F.MC_SYS_ECC.ce_wb then s.setErr a .asStored else s).storedWord a
    | .asStored => s.storedWord a

/-- A finding is counted, marked or corrected in place at most. -/
theorem foundWord_contents (s : State) (a : Nat) (p : Place) : (s.foundWord a p).2.contents = s.contents := by
  unfold State.foundWord
  split
  · simp
  · split
    · simp
    · dsimp only
      rw [storedWord_contents]
      split <;> simp
    · simp

/-- A read of a word leaves DRAM's contents. -/
@[simp] theorem readWord_contents (s : State) (a : Nat) (c : Cells) : (s.readWord a c).2.contents = s.contents := by
  unfold State.readWord
  split
  · rfl
  · dsimp only
    split
    · rfl
    · cases c <;> exact (foundWord_contents _ a (s.place a)).trans (by simp)

/-- A read of words delivers as many as asked for and leaves DRAM's contents. -/
theorem readWords_spec : ∀ (n : Nat) (s : State) (a : Nat),
    (s.readWords a n).1.length = n ∧ (s.readWords a n).2.contents = s.contents
  | 0, _, _ => ⟨rfl, rfl⟩
  | n + 1, s, a => by
    obtain ⟨hl, hc⟩ := readWords_spec n (s.readWord a).2 (a + 8)
    exact ⟨congrArg (· + 1) hl, hc.trans (readWord_contents s a .asStored)⟩

/-- A word of a region that is not initialised reads as 0 and clean. -/
theorem readWord_uninitialised {s : State} {a : Nat} (h : s.isInit a = false) (c : Cells) :
    s.readWord a c = (⟨0, false⟩, s) := by
  simp [State.readWord, h]

/-- Settles O26: by induction on the words read, each of which leaves DRAM's contents. -/
theorem readMemLeavesMemory : Obligations.ReadMemLeavesMemory := by
  intro s a n
  obtain ⟨hl, hc⟩ := readWords_spec n s a
  simp only [State.contents, Prod.mk.injEq] at hc
  obtain ⟨hmem, hpsn, hinit⟩ := hc
  exact ⟨hl, hmem, hpsn, hinit, fun c h => readWord_uninitialised h c⟩

end Sys2Proof.Machine
end

section
/-! SUPPORT. The register commands: the rows that write one register, and READ_REG, READ_REG_LIST, WRITE_REG and MODIFY_REG
(R127, R500–R503, R505). -/

namespace Sys2Proof.Machine

open Sys2Proof

variable {s u : State} {c : Instr} {h : Hdr} {slot : Nat} {x : Session} {r : R} {i j v : Nat}

/-! ### The rows that write one register -/

/-- The registers that a row of its own writes. -/
def rowRegs : List R :=
  [.PCR_RESET_CTL, .PCR_BLOCK_RST, .PCR_SUPPLY_CTL, .HP_PORT_CTL, .HP_REF_CTL, .HP_TEST_CTL, .OWN_CTL, .OWN_UDP, .DEV_PART,
    .STL_FLAGS, .TB_SYNC_CTL, .TB_SYNC_TRIM, .TB_RATE_HI, .TB_PTP_CTL, .ACQ_SOFT, .TIM_ARM, .TIM_CTL, .QM_CFG, .FLC_FIRST,
    .FLC_STICKY, .PES_XFER, .PES_CFG, .MC_CFG, .MC_SYS_CFG, .MC_SYS_REF]

/-- Each of them has its addresses to itself. -/
theorem rowRegs_own : ∀ r ∈ rowRegs, r.own = true := by decide +kernel

/-- A row that writes one register is WRITE_REG of its address (R127). -/
theorem exec_rowWrite (hc : hdrOf c = some h) (hw : rowWrite s c = some (r, i, j, v)) :
    exec c s = done (s.oneReg h c (r.addr i j) v) := by
  cases c with
  | pcrResetCtlWarm | pcrResetCtlCold | blockRstHl | blockRstMc | blockRstQm | blockRstYrd | blockRstAcq | blockRstFlt
  | blockRstTim | blockRstFrm | blockRstCal | forceReturn | hpPortCtlWrite | restart | hpRefCtlWrite | testLoopSet | prbsGen
  | prbsChk | ownCtlWrite | ownUdpWrite | devPartWrite | stlFlagsWrite | emit | measEnWrite | tbSyncTrimWrite
  | tbRateHiWrite | ptpRoleWrite | acqSoftTrig | timArmWrite | timCtlEnWrite | qmCfgWrite | flush | flcFirstValidWrite
  | flcStickyWrite | pesXferStart | pesCfgWrite | mcCfgWrite | mcSysCfgWrite | policyWrite =>
    cases hc
    cases hw
    rfl
  | _ => cases hw

/-- The register of such a row is one of the list, with indices that it has. -/
theorem rowWrite_indices (hw : rowWrite s c = some (r, i, j, v)) : r ∈ rowRegs ∧ i < r.row.n1 ∧ j < r.row.n2 := by
  cases c with
  | pcrResetCtlWarm | pcrResetCtlCold | blockRstHl | blockRstMc | blockRstQm | blockRstYrd | blockRstAcq | blockRstFlt
  | blockRstTim | blockRstFrm | blockRstCal | forceReturn | ownCtlWrite | ownUdpWrite | emit | measEnWrite
  | tbSyncTrimWrite | tbRateHiWrite | flcFirstValidWrite | mcSysCfgWrite | policyWrite =>
    cases hw
    exact ⟨by decide, by decide, by decide⟩
  | hpPortCtlWrite _ k | restart _ k | hpRefCtlWrite _ k | testLoopSet _ k | prbsGen _ k | prbsChk _ k | devPartWrite _ k
  | stlFlagsWrite _ k | ptpRoleWrite _ k | acqSoftTrig _ k | timArmWrite _ k | timCtlEnWrite _ k | qmCfgWrite _ k
  | flush _ k | flcStickyWrite _ k | pesCfgWrite _ k | mcCfgWrite _ k =>
    cases hw
    exact ⟨by decide, k.isLt, by decide⟩
  | pesXferStart _ k l =>
    cases hw
    exact ⟨by decide, k.isLt, l.isLt⟩
  | _ => cases hw

/-- Its address leads to it. -/
theorem regAt_rowWrite (hw : rowWrite s c = some (r, i, j, v)) : regAt (r.addr i j) = some (r, i, j) := by
  obtain ⟨hr, hi, hj⟩ := rowWrite_indices hw
  exact regAt_addr (rowRegs_own r hr) hi hj

/-- A write of a register with writable fields crosses the die link if the register lies on the timing die (R15, R505). -/
theorem applyWrite_register (hr : regAt (r.addr i j) = some (r, i, j)) (hf : writable r i j = true) :
    u.applyWrite (r.addr i j) v = (if timingDie (r.addr i j) then u.controlFlit 0 else u).applyReg r i j v := by
  simp [State.applyWrite, hr, hf]

/-- Settles O18: a row is one call of WRITE_REG, whose write passes its checks and takes effect. -/
theorem registerWriteRowsComplete : Obligations.RegisterWriteRowsComplete := by
  intro c s h slot x r i j v hc hw A ht hp W u
  have hr : regAt (r.addr i j) = some (r, i, j) := regAt_rowWrite hw
  rw [exec_rowWrite hc hw, ← applyWrite_register hr W.field]
  exact done_oneReg A ht hp (writeRegs_ok hr W)

/-! ### READ_REG and READ_REG_LIST (R127, R502) -/

section
variable (A : Admits s h slot x) (ht : h.target = 0xff)
include A ht

theorem exec_readReg {addr : BitVec 32} {n : BitVec 16} (hp : h.plen = 6) (hn : countOk n.toNat = true)
    (ha : addrsOk (regRange addr.toNat n.toNat) = true) :
    let w := (s.taken h slot x).regReads (regRange addr.toNat n.toNat)
    exec (.readReg h addr n) s = .next (w.2.replies slot h 0x0010 stOk (wordBytes w.1)) :=
  done_reply A (body := readRegBody h addr n) (by simp [readRegBody, devShape_of ht hp, hn, ha, okay])

theorem exec_readRegList {n : BitVec 16} {l : List (BitVec 32)} (hp : h.plen = 2 + 4 * n.toNat) (hl : l.length = n.toNat)
    (hn : countOk n.toNat = true) (ha : addrsOk (l.map BitVec.toNat) = true) :
    let w := (s.taken h slot x).regReads (l.map BitVec.toNat)
    exec (.readRegList h n l) s = .next (w.2.replies slot h 0x0013 stOk (wordBytes w.1)) :=
  done_reply A (body := readRegListBody h n l) (by simp [readRegListBody, devShape_of ht hp, hl, hn, ha, okay])

/-! ### WRITE_REG (R127, R500, R501) -/

/-- A WRITE_REG of legal addresses ends with the status of its writes. -/
theorem exec_writeReg {addr : BitVec 32} {n : BitVec 16} {l : List Word} (hp : h.plen = 6 + 4 * n.toNat)
    (hl : l.length = n.toNat) (hn : countOk n.toNat = true) (ha : addrsOk (regRange addr.toNat n.toNat) = true) :
    let w := (s.taken h slot x).writeRegs slot ((regRange addr.toNat n.toNat).zip (l.map BitVec.toNat))
    exec (.writeReg h addr n l) s = .next (w.2.replies slot h 0x0011 w.1 []) :=
  done_reply A (body := writeRegBody h addr n l) (by simp [writeRegBody, devShape_of ht hp, hl, hn, ha, writeItems])

/-! ### MODIFY_REG (R127, R503) -/

theorem exec_modifyReg_unassigned {addr mask value : BitVec 32} (hp : h.plen = 12) (ha : addrsOk [addr.toNat] = true)
    (hr : regAt addr.toNat = none) : exec (.modifyReg h addr mask value) s
      = .next ((s.taken h slot x).replies slot h 0x0012 stOk (List.replicate 8 0)) :=
  done_reply A (body := modifyRegBody h addr mask value) (by simp [modifyRegBody, devShape_of ht hp, ha, hr, okay])

theorem exec_modifyReg {addr mask value : BitVec 32} (hp : h.plen = 12) (ha : addrsOk [addr.toNat] = true)
    (hr : regAt addr.toNat = some (r, i, j)) (hc : hasRc r = false) {t : State}
    (hw : (s.taken h slot x).writeRegs slot [(addr.toNat,
      modifyWord r.row ((s.taken h slot x).peekReg addr.toNat) mask.toNat value.toNat)] = (stOk, t)) :
    exec (.modifyReg h addr mask value) s = .next (t.replies slot h 0x0012 stOk
      (beBytes 4 ((s.taken h slot x).peekReg addr.toNat) ++ beBytes 4 (t.peekReg addr.toNat))) :=
  done_reply A (body := modifyRegBody h addr mask value) (by
    simp [modifyRegBody, devShape_of ht hp, ha, hr, hc, hw, okay, stOk])

end

/-- Writes that all pass are made; otherwise none is (R500). -/
theorem writeRegs_passed {l : List (Nat × Nat)} (hw : u.writesStatus u l slot l = 0) :
    u.writeRegs slot l = (stOk, u.applyWrites l) := by
  simp [State.writeRegs, hw]

theorem writeRegs_failed {l : List (Nat × Nat)} (hw : u.writesStatus u l slot l ≠ 0) :
    u.writeRegs slot l = (u.writesStatus u l slot l, u) := by
  simp [State.writeRegs, hw]

/-- Settles O20: each clause is the lemma above for its command. -/
theorem registerCommandsComplete : Obligations.RegisterCommandsComplete := by
  intro s h slot x A ht u
  refine ⟨fun addr n hp hn ha => exec_readReg A ht hp hn ha,
    fun n l hp hl hn ha => exec_readRegList A ht hp hl hn ha, fun addr n l hp hl hn ha => ?_,
    fun addr mask value hp ha => ⟨exec_modifyReg_unassigned A ht hp ha, fun r i j hr hc => ?_⟩⟩
  · have e := exec_writeReg A ht hp hl hn ha
    refine ⟨fun hw => ?_, fun hw => ?_⟩
    · rw [e, writeRegs_passed hw]
    · rw [e, writeRegs_failed hw]
  · intro w hw
    exact exec_modifyReg A ht hp ha hr hc (writeRegs_passed hw)

end Sys2Proof.Machine
end

section
/-! SUPPORT. The stall commands, once checks 7 and 8 pass: LOAD_SEQ, START, STOP, ARM, STATUS, SETFLAG and STALL_RESET (R118,
R130, R131, R150, R155, R172, R177, R180, R181, R316, R412). -/

namespace Sys2Proof.Machine

open Sys2Proof

variable {s u : State} {h : Hdr} {slot st : Nat} {x : Session}

/-! ### The checks and the accesses that the commands share -/

/-- The owner of a stall with octets passes the checks while the service level allows it (R71, R118, R130). -/
theorem stallCheck_passes (hl : u.level ≠ 3) (ho : u.owns slot st = true) (hk : u.octetsOf st ≠ []) :
    u.stallCheck slot st = 0 := by
  simp [State.stallCheck, hl, ho, hk]

theorem stallShape_of {n : Nat} (hs : h.target.toNat < 16) (hp : h.plen = n) : stallShape h n = true := by
  simp [stallShape, hs, hp]

/-- A controller that retrains serves no request (R412). -/
theorem memHeld_of_retrains {a n : Nat} (h : u.memRetrains a n = true) : u.memHeld a n = true := by
  simp only [State.memRetrains, State.memHeld, List.any_eq_true] at h ⊢
  obtain ⟨m, hm, hr⟩ := h
  exact ⟨m, hm, by simp [State.serving, hr]⟩

/-- A controller in block reset discards an access (R436). -/
theorem memAccess_reset {acc : MemAcc} (h : u.memReset acc.range.1 acc.range.2 = true) :
    u.memAccess acc = refuse stTimeout u := by
  simp [State.memAccess, h]

/-- An access is held, at most 10 ms, while a controller that it needs retrains (R412). -/
theorem memAccess_retrains {acc : MemAcc} (hr : u.memReset acc.range.1 acc.range.2 = false)
    (ht : u.memRetrains acc.range.1 acc.range.2 = true) :
    u.memAccess acc = (.waits (.mem (u.now + 10 * msCyc) acc), u) := by
  simp [State.memAccess, hr, memHeld_of_retrains ht]

/-- LOAD_SEQ of a table inside DRAM into an idle stall is its access of DRAM (R130, R150). -/
theorem loadSeqBody_access (hs : h.target.toNat < 16) (hc : u.stallCheck slot h.target.toNat = 0) {table : BitVec 64}
    {n : BitVec 32} (hp : h.plen = 12) (ha : table.toNat % 16 = 0) (h0 : n.toNat ≠ 0) (hn : n.toNat ≤ 65536)
    (hl : u.level ≠ 3) (hd : u.noDram = false) (hi : u.inDram table.toNat (16 * n.toNat) = true)
    (hb : u.busyStall h.target.toNat = false) (hk : u.calUsesStall h.target.toNat = false) :
    loadSeqBody h table n slot u = u.memAccess (.load h.target.toNat table.toNat n.toNat) := by
  simp [loadSeqBody, stallShape_of hs hp, ha, h0, show ¬ 65536 < n.toNat by omega, hl, hd, hi, hc, hb, hk]

/-! ### The commands -/

section
variable (A : Admits s h slot x) (hs : h.target.toNat < 16)
include A hs

/-- STATUS needs neither ownership nor octets (R118, R131). -/
theorem exec_status (hp : h.plen = 0) (hl : (s.taken h slot x).level ≠ 3) : exec (.status h) s
    = .next ((s.taken h slot x).replies slot h 0x0034 stOk ((s.taken h slot x).statusBytes h.target.toNat)) :=
  done_reply A (body := statusBody h) (by simp [statusBody, stallShape_of hs hp, hl, okay])

section
variable (hc : (s.taken h slot x).stallCheck slot h.target.toNat = 0)
include hc

/-- START of an idle stall that nothing keeps from starting is accepted, or refused by the checks of its run (R130, R172). -/
theorem exec_start {mode acq source ix : BitVec 8} {first : BitVec 16} (hp : h.plen = 6) (hm : mode.toNat ≤ 3)
    (ha : acq.toNat ≤ 1) (hsrc : source.toNat ≤ 3) (hix : ix.toNat ≤ sourceMax source.toNat)
    (hl : (s.taken h slot x).level ≠ 3) (hd : (s.taken h slot x).noDram = false)
    (hb : (s.taken h slot x).busyStall h.target.toNat = false)
    (hf : (s.taken h slot x).flag F.STL_SEQ_STAT.fault_hold h.target.toNat = false)
    (hg : (s.taken h slot x).mig = none) (ht : (s.taken h slot x).retrains = false)
    (hk : (s.taken h slot x).startBusy h.target.toNat = false)
    (hr : ((s.taken h slot x).stall h.target.toNat).stops.any (fun p => p.cause == 6) = false) :
    let u := s.taken h slot x
    let w := ! u.flag F.ACQ_CTL.normal h.target.toNat
    let r := u.runCheck h.target.toNat mode.toNat first.toNat (acq == 1) w
    (r.1 = 0 → exec (.start h mode acq source ix first) s
      = .next ((r.2.acceptRun h.target.toNat mode.toNat (acq == 1) w ⟨source.toNat, ix.toNat⟩ first.toNat).waitsFor slot h
        0x0031 (.start h.target.toNat))) ∧
    (r.1 ≠ 0 → exec (.start h mode acq source ix first) s = .next (r.2.replies slot h 0x0031 r.1 [])) := by
  intro u w r
  have body : startBody h mode acq source ix first slot u = if r.1 ≠ 0 then refuse r.1 r.2
      else (.waits (.start h.target.toNat),
        r.2.acceptRun h.target.toNat mode.toNat (acq == 1) w ⟨source.toNat, ix.toNat⟩ first.toNat) := by
    have hm' : ¬ 3 < mode.toNat := by omega
    have ha' : ¬ 1 < acq.toNat := by omega
    have hsrc' : ¬ 3 < source.toNat := by omega
    have hix' : ¬ sourceMax source.toNat < ix.toNat := by omega
    simp only [startBody, stallShape_of hs hp, hm', ha', hsrc', hix', hl, hd, hc, hb, hf, hg, ht, hk, hr, u]
    rfl
  refine ⟨fun h0 => done_waits A (body := startBody h mode acq source ix first) ?_,
    fun h0 => done_reply A (body := startBody h mode acq source ix first) ?_⟩
  · rw [body, if_neg (by simpa using h0)]
  · rw [body, if_pos h0]
    rfl

/-- STOP of an armed, a running and any other stall (R130, R177, R180). -/
theorem exec_stop {atWhen : BitVec 8} (hp : h.plen = 1) (ha : atWhen.toNat ≤ 1) :
    let u := s.taken h slot x
    let st := h.target.toNat
    (u.stState st = stArmed → exec (.stop h atWhen) s
      = .next (((u.disarm st).answerAll (.start st) stOk []).replies slot h 0x0032 stOk noVector)) ∧
    (u.running st = true → u.stState st ≠ stArmed → exec (.stop h atWhen) s = .next ((u.setStall st { u.stall st with
      stops := (u.stall st).stops ++ [⟨2, u.stopWhen st atWhen.toNat⟩] }).waitsFor slot h 0x0032 (.stop st))) ∧
    (u.running st = false → u.stState st ≠ stArmed → exec (.stop h atWhen) s
      = .next (u.replies slot h 0x0032 stOk (((u.stall st).lastRun.map (beBytes 8)).getD noVector))) := by
  have ha' : ¬ 1 < atWhen.toNat := by omega
  refine ⟨fun hm => done_reply A (body := stopBody h atWhen) ?_,
    fun hr hm => done_waits A (body := stopBody h atWhen) ?_, fun hr hm => done_reply A (body := stopBody h atWhen) ?_⟩
  · simp [stopBody, stallShape_of hs hp, ha', hc, hm, okay]
  · simp [stopBody, stallShape_of hs hp, ha', hc, hm, hr]
  · cases hv : ((s.taken h slot x).stall h.target.toNat).lastRun <;>
      simp [stopBody, stallShape_of hs hp, ha', hc, hm, hr, hv, okay]

/-- ARM of a busy stall in window mode, out of a window's post-trigger part (R316). -/
theorem exec_arm (hp : h.plen = 0) (hb : (s.taken h slot x).busyStall h.target.toNat = true)
    (hw : (s.taken h slot x).windowMode h.target.toNat = true)
    (hpost : (s.taken h slot x).fl F.ACQ_WIN_STAT.state h.target.toNat ≠ winPost) :
    let u := s.taken h slot x
    let st := h.target.toNat
    (u.fl F.ACQ_WIN_STAT.state st = 0 → exec (.arm h) s = .next ((u.setStall st { u.stall st with
      win := { (u.stall st).win with armed := true } }).replies slot h 0x0033 stOk [])) ∧
    (u.fl F.ACQ_WIN_STAT.state st ≠ 0 → exec (.arm h) s = .next ((u.enterFill st).replies slot h 0x0033 stOk [])) := by
  refine ⟨fun h0 => done_reply A (body := armBody h) ?_, fun h0 => done_reply A (body := armBody h) ?_⟩
  · simp only [armBody, stallShape_of hs hp, hc, hb, hw, h0]
    rfl
  · simp only [armBody, stallShape_of hs hp, hc, hb, hw, hpost, h0]
    rfl

/-- SETFLAG changes the host flags under its mask, by a control flit to the timing die (R130, R155). -/
theorem exec_setflag {mask value : BitVec 8} (hp : h.plen = 2) :
    let u := s.taken h slot x
    let new : BitVec 8 :=
      (BitVec.ofNat 8 (u.fl F.STL_FLAGS.hostflag h.target.toNat) &&& ~~~mask) ||| (value &&& mask)
    exec (.setflag h mask value) s = .next (((u.controlFlit 0).setFl F.STL_FLAGS.hostflag new.toNat
      h.target.toNat).replies slot h 0x0035 stOk [new]) :=
  done_reply A (body := setflagBody h mask value) (by
    simp only [setflagBody, stallShape_of hs hp, hc]
    rfl)

/-- STALL_RESET waits for the end of a running stall, and resets another at once (R181). -/
theorem exec_stallReset (hp : h.plen = 0) :
    let u := s.taken h slot x
    let st := h.target.toNat
    (u.running st = true →
      exec (.stallReset h) s = .next ((u.stallResetBegin st stBusy).waitsFor slot h 0x0036 (.stallReset st))) ∧
    (u.running st = false →
      exec (.stallReset h) s = .next ((u.stallResetBegin st stBusy).replies slot h 0x0036 stOk [])) := by
  refine ⟨fun hr => done_waits A (body := stallResetBody h) ?_, fun hr => done_reply A (body := stallResetBody h) ?_⟩
  · simp [stallResetBody, stallShape_of hs hp, hc, hr]
  · simp [stallResetBody, stallShape_of hs hp, hc, hr, okay]

end

end

/-- LOAD_SEQ's access ends with the load, with the first failing entry, or is held (R150, R412). -/
theorem done_loadSeq (A : Admits s h slot x) {table : BitVec 64} {n : BitVec 32} {st : Nat}
    (hb : loadSeqBody h table n slot (s.taken h slot x)
      = (s.taken h slot x).memAccess (.load st table.toNat n.toNat)) :
    let u := s.taken h slot x
    let r := u.scanLoad table.toNat n.toNat 0 n.toNat
    (u.memHeld table.toNat (16 * n.toNat) = false → r.1 = none → exec (.loadSeq h table n) s
      = .next ((r.2.loadTable st table.toNat n.toNat).replies slot h 0x0030 stOk [])) ∧
    (∀ e, u.memHeld table.toNat (16 * n.toNat) = false → r.1 = some e → exec (.loadSeq h table n) s
      = .next ((r.2.loadErr st e.1 e.2).replies slot h 0x0030 (if e.2 = 10 then stPoison else stBadParam) [])) ∧
    (u.memReset table.toNat (16 * n.toNat) = false → u.memRetrains table.toNat (16 * n.toNat) = true →
      exec (.loadSeq h table n) s
        = .next (u.waitsFor slot h 0x0030 (.mem (u.now + 10 * msCyc) (.load st table.toNat n.toNat)))) := by
  refine ⟨fun hm hr => done_reply A (body := loadSeqBody h table n) ?_,
    fun e hm hr => done_reply A (body := loadSeqBody h table n) ?_,
    fun hr ht => done_waits A (body := loadSeqBody h table n) ?_⟩
  · rw [hb, memAccess_served hm]
    simp only [State.memNow, hr]
    rfl
  · rw [hb, memAccess_served hm]
    simp only [State.memNow, hr]
    rfl
  · rw [hb, memAccess_retrains hr ht]

/-- Settles O27: each clause is the lemma above for its command. -/
theorem stallCommandsComplete : Obligations.StallCommandsComplete := by
  intro s h slot x st A hst hs u hl
  subst hst
  refine ⟨fun hp => exec_status A hs hp hl, fun ho hk => ?_⟩
  have hc : u.stallCheck slot h.target.toNat = 0 := stallCheck_passes hl ho hk
  refine ⟨fun table n hp ha h0 hn hd hi hb hcal => ?_,
    fun mode acq source ix first hp hm ha hsrc hix hd hb hf hg ht hk hr => ?_,
    fun atWhen hp ha => ?_, exec_arm A hs hc, fun mask value hp => exec_setflag A hs hc hp, exec_stallReset A hs hc⟩
  · exact done_loadSeq A (loadSeqBody_access hs hc hp ha h0 hn hl hd hi hb hcal)
  · exact exec_start A hs hc hp hm ha hsrc hix hl hd hb hf hg ht hk hr
  · obtain ⟨harmed, hrun, hidle⟩ := exec_stop A hs hc hp ha
    refine ⟨harmed, hrun, fun hr hm => ?_⟩
    rw [hidle hr hm]
    cases ((s.taken h slot x).stall h.target.toNat).lastRun <;> rfl

end Sys2Proof.Machine
end

section
/-! SUPPORT. SETFLAG: the host flags that it changes, the reply that carries them, and what it leaves (R130, R152, R155). -/

namespace Sys2Proof.Machine

open Sys2Proof

variable {s u : State} {h : Hdr} {slot st : Nat} {x : Session}

/-! ### An admitted command sees the service level and the partition as they were -/

/-- A field of a register that counts no frames. -/
theorem taken_fl {f : FRef} (ht : f.reg.row.tidy = true) (hf : f.reg.row.apart (R.row .HP_RX_FRAMES) = true)
    (hd : f.reg.row.apart (R.row .HP_RX_DROP) = true) {i j : Nat} (hi : i < f.reg.row.n1) (hj : j < f.reg.row.n2) :
    (s.taken h slot x).fl f i j = s.fl f i j := by
  rw [State.fl, taken_rg ht hf hd hi hj, State.fl]

@[simp] theorem taken_level : (s.taken h slot x).level = s.level := by
  simp only [State.level, State.ready, taken_phase, taken_dram, State.flag]
  rw [taken_fl (by decide) (by decide) (by decide) (by decide) (by decide)]
  rfl

theorem taken_octetsOf (hs : st < 16) : (s.taken h slot x).octetsOf st = s.octetsOf st := by
  simp only [State.octetsOf]
  rw [taken_fl (by decide) (by decide) (by decide) hs (by decide)]

theorem mwf_regs_taken (hc : s.Canon) : mwf regRst (s.taken h slot x).regs = true :=
  (canon_accept (canon_heard hc)).regs

/-! ### The new flags -/

/-- The flags after SETFLAG: those under the mask from the value, the others as they were (R130). -/
def maskedFlags (old mask value : BitVec 8) : BitVec 8 := (old &&& ~~~mask) ||| (value &&& mask)

theorem getLsbD_maskedFlags (old mask value : BitVec 8) {k : Nat} (hk : k < 8) :
    (maskedFlags old mask value).getLsbD k = if mask.getLsbD k then value.getLsbD k else old.getLsbD k := by
  simp only [maskedFlags, BitVec.getLsbD_or, BitVec.getLsbD_and, BitVec.getLsbD_not, hk, decide_true, Bool.true_and]
  cases mask.getLsbD k <;> simp

/-- A bit of a byte-wide field, as a bit of the byte. -/
theorem tbit_byte {v k : Nat} (hk : k < 8) : (BitVec.ofNat 8 v).getLsbD k = tbit v k := by
  simp only [tbit, BitVec.getLsbD_ofNat, hk, decide_true, Bool.true_and]

/-! ### The reply -/

/-- A register that counts no frames reads after the reply as before it. -/
theorem replies_rg {op c : Nat} {p : List Byte} (hr : u.reports = []) {r : R} {i j : Nat}
    (ha : ∀ k, r.addr i j ∉ frameCounters k) : (u.replies slot h op c p).rg r i j = u.rg r i j := by
  rw [replies_calm hr]
  simp only [State.rg, State.rd, sweepShadows_regs]
  exact congrArg BitVec.toNat (replyTo_rd ha slot _ _ _ _ _)

/-- STL_FLAGS counts no frames. -/
theorem stlFlags_not_counter (hs : st < 16) (k : LaneIx) : R.addr .STL_FLAGS st ∉ frameCounters k := by
  have hk : k.val < 8 := k.isLt
  simp only [frameCounters, List.mem_cons, List.not_mem_nil, or_false, not_or]
  refine ⟨?_, ?_, ?_, ?_⟩ <;>
    exact addr_ne_of_apart (by decide) (by decide) (by exact hs) (by decide) (by exact hk) (by decide)

/-- SETFLAG with no injection waiting: the flags change, and the reply carries them. -/
theorem exec_setflag_clean (A : Admits s h slot x) (hst : h.target.toNat < 16) (hp : h.plen = 2) (hl : s.level ≠ 3)
    (ho : s.owns slot h.target.toNat = true) (hk : s.octetsOf h.target.toNat ≠ [])
    (hj : s.flag F.FLC_INJECT.pending = false) (mask value : BitVec 8) :
    let u := s.taken h slot x
    let new := maskedFlags (BitVec.ofNat 8 (u.fl F.STL_FLAGS.hostflag h.target.toNat)) mask value
    exec (.setflag h mask value) s
      = .next ((u.setFl F.STL_FLAGS.hostflag new.toNat h.target.toNat).replies slot h 0x0035 stOk [new]) := by
  have hc : (s.taken h slot x).stallCheck slot h.target.toNat = 0 :=
    stallCheck_passes (by simpa using hl) (by simpa using ho) (by simpa [taken_octetsOf hst] using hk)
  have hn : (s.taken h slot x).controlFlit 0 = s.taken h slot x := by
    simp [State.controlFlit, State.checkFlit, State.injected, hj]
  intro u new
  rw [exec_setflag A hst hc hp, hn]
  rfl

/-- Settles O29: the reply leaves what SETFLAG wrote, and that is the flags of its stall. -/
theorem setflagChangesMaskedHostFlags : Obligations.SetflagChangesMaskedHostFlags := by
  intro s t h slot x st mask value A hst hs hp hl ho hk hr hj hcan he
  subst hst
  have hu := exec_setflag_clean A hs hp hl ho hk hj mask value
  rw [he] at hu
  simp only [Host.Outcome.next.injEq] at hu
  generalize hnew : maskedFlags (BitVec.ofNat 8 ((s.taken h slot x).fl F.STL_FLAGS.hostflag h.target.toNat)) mask value
    = new at hu
  have hrep : ((s.taken h slot x).setFl F.STL_FLAGS.hostflag new.toNat h.target.toNat).reports = [] := by simpa using hr
  have hold : (s.taken h slot x).fl F.STL_FLAGS.hostflag h.target.toNat = s.fl F.STL_FLAGS.hostflag h.target.toNat :=
    taken_fl (by decide) (by decide) (by decide) hs (by decide)
  have hfl : t.fl F.STL_FLAGS.hostflag h.target.toNat = new.toNat := by
    rw [hu, State.fl, replies_rg hrep (stlFlags_not_counter hs)]
    exact fl_setFl_same (mwf_regs_taken hcan) (by decide) new.isLt _ _
  refine ⟨fun k hk8 => ?_, fun y hy => ?_, fun r i j hne hcnt => ?_, ?_⟩
  · rw [hfl, ← hold, ← tbit_byte hk8, BitVec.ofNat_toNat, ← hnew, ← tbit_byte hk8]
    simpa using getLsbD_maskedFlags _ mask value hk8
  · rw [hfl]
    rw [hu, replies_calm hrep, sweepShadows_session] at hy
    have hx := replyTo_session (s := (s.taken h slot x).setFl F.STL_FLAGS.hostflag new.toNat h.target.toNat)
      (taken_session s h slot x) (BitVec.ofNat 16 0x0035) h.seq h.target stOk [new]
    obtain rfl := Option.some.inj (hx.symm.trans hy)
    simp [cacheSize, stOk]
  · have ha : ∀ k, r.addr i j ∉ frameCounters k := fun k hk => hcnt k (by
      simp only [frameCounters, List.mem_cons, List.not_mem_nil, or_false] at hk ⊢
      tauto)
    rw [hu, replies_rg hrep ha]
    exact congrArg BitVec.toNat ((mget_mset_ne _ _ _ hne).trans (heard_rd ha h))
  · rw [hu, replies_calm hrep]
    simp

end Sys2Proof.Machine
end

section
/-! SUPPORT. The session group and the records of long operations: CLAIM, RELEASE, GRANT, RENEW, BYE and OP_STATUS, the end
of a lease and of an expired session, and the end of a finished record (R113–R115, R118, R120, R122, R123, R125, R139). -/

namespace Sys2Proof.Machine

open Sys2Proof

variable {s : State} {h : Hdr} {slot : Nat} {x : Session}

/-! ### Ownership (R120, R122) -/

section
variable (A : Admits s h slot x) {r : Nat} (hr : targetRes h.target = some r)
include A hr

/-- CLAIM of an owned resource is answered at once with its owner (R120). -/
theorem exec_claim_owned {prio : BitVec 8} (hp : h.plen = 1) {o : Nat} (ho : (s.taken h slot x).ownerOf r = some o) :
    exec (.claim h prio) s = .next ((s.taken h slot x).replies slot h 0x0002 (if o = slot then stOk else stNotOwner)
      (beBytes 2 ((s.taken h slot x).handle (some o)).toNat)) :=
  done_reply A (body := claimBody h prio) (by simp only [claimBody, hr, hp, ho]; rfl)

/-- CLAIM of an unowned resource joins the open election, or the one that it opens for 1 ms (R120). -/
theorem exec_claim_unowned {prio : BitVec 8} (hp : h.plen = 1) (ho : (s.taken h slot x).ownerOf r = none) :
    let u := s.taken h slot x
    let e := (u.election r).getD ⟨u.now + msCyc, []⟩
    exec (.claim h prio) s = .next ((u.setElection r
      (some { e with claims := e.claims ++ [(slot, prio.toNat)] })).waitsFor slot h 0x0002 (.claim r)) :=
  done_waits A (body := claimBody h prio) (by simp only [claimBody, hr, hp, ho]; rfl)

/-- RELEASE is the owner's (R122). -/
theorem exec_release (hp : h.plen = 0) :
    let u := s.taken h slot x
    (u.owns slot r = true → exec (.release h) s = .next ((u.setOwner r none).replies slot h 0x0003 stOk [])) ∧
    (u.owns slot r = false → exec (.release h) s = .next (u.replies slot h 0x0003 stNotOwner [])) := by
  refine ⟨fun ho => done_reply A (body := releaseBody h) ?_, fun ho => done_reply A (body := releaseBody h) ?_⟩
  · simp [releaseBody, hr, hp, ho, okay]
  · simp [releaseBody, hr, hp, ho, refuse]

/-- GRANT passes the owner's ownership to a live session, and tells it (R122, R139). -/
theorem exec_grant {toSession : BitVec 16} {n : Nat} (hp : h.plen = 2)
    (hn : (s.taken h slot x).slotOf toSession = some n) (hl : (s.taken h slot x).live n = true) :
    let u := s.taken h slot x
    (u.owns slot r = true → n ≠ slot → exec (.grant h toSession) s = .next
      (((u.setOwner r (some n)).ownerChange (some n) r (u.handle (some slot)) (u.handle (some n)) 1).replies slot h
        0x0004 stOk [])) ∧
    (u.owns slot r = true → n = slot → exec (.grant h toSession) s = .next (u.replies slot h 0x0004 stOk [])) ∧
    (u.owns slot r = false → exec (.grant h toSession) s = .next (u.replies slot h 0x0004 stNotOwner [])) := by
  refine ⟨fun ho hne => done_reply A (body := grantBody h toSession) ?_,
    fun ho he => done_reply A (body := grantBody h toSession) ?_,
    fun ho => done_reply A (body := grantBody h toSession) ?_⟩
  · simp [grantBody, hr, hn, hp, hl, ho, hne, okay]
  · subst he
    simp [grantBody, hr, hn, hp, hl, ho, okay]
  · simp [grantBody, hr, hn, hp, hl, ho, refuse]

end

/-- Settles O13: each command's lemma above, and for CLAIM the open election apart from the one that it opens. -/
theorem ownershipCommandsComplete : Obligations.OwnershipCommandsComplete := by
  intro s h slot x r A hr u
  refine ⟨fun prio hp => ⟨fun o ho => exec_claim_owned A hr hp ho, fun e ho he => ?_, fun ho he => ?_⟩,
    fun hp => (exec_release A hr hp).1, fun hp => (exec_release A hr hp).2,
    fun to_ n hp hn hl => exec_grant A hr hp hn hl⟩
  · rw [exec_claim_unowned A hr hp ho, show (s.taken h slot x).election r = some e from he]
    rfl
  · rw [exec_claim_unowned A hr hp ho, show (s.taken h slot x).election r = none from he]
    rfl

/-! ### Leases, the end of a session, and operation records (R113, R115, R125) -/

section
variable (A : Admits s h slot x) (ht : h.target = 0xff)
include A ht

/-- RENEW restarts the lease with the length given, 0 keeping it (R113). -/
theorem exec_renew {ms : BitVec 32} {y : Session} (hp : h.plen = 4) (hms : leaseOk ms.toNat = true)
    (hy : (s.taken h slot x).session slot = some y) :
    let u := s.taken h slot x
    exec (.renew h ms) s = .next ((u.setSession slot (some { y with
        leaseMs := if ms = 0 then y.leaseMs else ms.toNat
        leaseEnd := u.now + (if ms = 0 then y.leaseMs else ms.toNat) * msCyc })).replies slot h 0x0005 stOk
      (beBytes 4 (if ms = 0 then y.leaseMs else ms.toNat))) :=
  done_reply A (body := renewBody h ms) (by simp only [renewBody, devShape_of ht hp, hms, hy]; rfl)

/-- BYE releases the session's ownerships and closes its streams, and its reply is the session's last (R115). -/
theorem exec_bye (hp : h.plen = 0) : exec (.bye h) s
    = .next ((((s.taken h slot x).releaseAll slot).closeStreams slot).ends slot h 0x0006 (.last stOk [])) := by
  have body : byeBody h slot (s.taken h slot x)
      = (.last stOk [], ((s.taken h slot x).releaseAll slot).closeStreams slot) := by
    simp [byeBody, devShape_of ht hp]
  show done (s.cmd h 0x0006 (.bye h) true (byeBody h)) = _
  rw [done_admitted A, body]

section
variable {op : BitVec 16} (hp : h.plen = 2)
include hp

/-- OP_STATUS of no operation (R125). -/
theorem exec_opStatus_none (ho : (s.taken h slot x).op op.toNat = none) : exec (.opStatus h op) s
    = .next ((s.taken h slot x).replies slot h 0x0007 stOk (List.replicate 14 0)) :=
  done_reply A (body := opStatusBody h op) (by simp only [opStatusBody, devShape_of ht hp, ho]; rfl)

/-- OP_STATUS of a finished operation frees its record (R125). -/
theorem exec_opStatus_done {o : OpRec} (ho : (s.taken h slot x).op op.toNat = some o) (hd : o.done = true) :
    exec (.opStatus h op) s = .next (((s.taken h slot x).setOp op.toNat none).replies slot h 0x0007 stOk
      ([2, 100] ++ beBytes 2 o.opcode.toNat ++ beBytes 2 o.status.toNat ++ beBytes 8 o.result.toNat)) :=
  done_reply A (body := opStatusBody h op) (by simp only [opStatusBody, devShape_of ht hp, ho, hd]; rfl)

/-- OP_STATUS of a running operation: the free percentage is one of 0 to 100 (R125, log 3). -/
theorem exec_opStatus_running {o : OpRec} (ho : (s.taken h slot x).op op.toNat = some o) (hd : o.done = false) :
    let u := s.taken h slot x
    ∃ percent : Byte, percent.toNat ≤ 100 ∧ exec (.opStatus h op) s = .next
      ((u.withFreeCtr (u.freeCtr + 1)).replies slot h 0x0007 stOk
        ([1, percent] ++ beBytes 2 o.opcode.toNat ++ List.replicate 10 0)) := by
  intro u
  refine ⟨BitVec.ofNat 8 ((u.draw 7).1.toNat % 101), ?_, done_reply A (body := opStatusBody h op) ?_⟩
  · have hlt := Nat.mod_lt (u.draw 7).1.toNat (show 0 < 101 by omega)
    rw [BitVec.toNat_ofNat, Nat.mod_eq_of_lt (by omega)]
    omega
  · simp only [opStatusBody, devShape_of ht hp, ho, hd]
    rfl

end

end

/-- The lease of a live session runs out (R113, R123, R139). -/
theorem exec_leaseExpiry {n : Fin 32} (hx : s.session n.val = some x) (he : x.expired = false) :
    let a := s.advTo x.leaseEnd
    let b := (a.releaseAll n.val).closeStreams n.val
    ∀ y, b.session n.val = some y →
      exec (.leaseExpiry n) s = .next (((List.range 16).filter (fun r => a.owns n.val r)).foldl
        (fun t r => t.ownerChange (t.ownerOf devRes) r (a.handle (some n.val)) 0xffff 3)
        (b.setSession n.val (some { y with expired := true, expiredAt := b.now }))).settle := by
  intro a b y hy
  show execLeaseExpiry n s = _
  simp only [execLeaseExpiry, hx, he]
  rw [show (((s.advTo x.leaseEnd).releaseAll n.val).closeStreams n.val).session n.val = some y from hy]
  rfl

/-- An expired session closes 60 s after it expired (R114). -/
theorem exec_expiredSessionClose {n : Fin 32} (hx : s.session n.val = some x) (he : x.expired = true) :
    exec (.expiredSessionClose n) s
      = .next ((s.advTo (x.expiredAt + 60000 * msCyc)).closeSession n.val).settle := by
  show execExpiredSessionClose n s = _
  simp only [execExpiredSessionClose, hx, he]
  rfl

/-- The record of a finished operation is freed 60 s after it finished (R125). -/
theorem exec_opRecordExpiry {op : BitVec 16} {o : OpRec} (ho : s.op op.toNat = some o) (hd : o.done = true) :
    exec (.opRecordExpiry op) s = .next ((s.advTo (o.doneAt + 60000 * msCyc)).setOp op.toNat none).settle := by
  show execOpRecordExpiry op s = _
  simp only [execOpRecordExpiry, ho, hd]
  rfl

/-- Settles O15: each clause is the lemma above for its command or event. -/
theorem sessionsAreKeptAndEnd : Obligations.SessionsAreKeptAndEnd :=
  ⟨fun _ _ _ _ A ht => ⟨fun _ _ hp hms hy => exec_renew A ht hp hms hy, fun hp => exec_bye A ht hp,
    fun _ hp => ⟨fun ho => exec_opStatus_none A ht hp ho, fun _ ho hd => exec_opStatus_done A ht hp ho hd,
      fun _ ho hd => exec_opStatus_running A ht hp ho hd⟩⟩,
    fun _ _ _ hx he => exec_leaseExpiry hx he, fun _ _ _ hx he => exec_expiredSessionClose hx he,
    fun _ _ _ ho hd => exec_opRecordExpiry ho hd⟩

end Sys2Proof.Machine
end

section
/-! SUPPORT. A step on an empty queue: a held command is taken, or one SCLK cycle passes and the DRAM accesses that have
been held for 10 ms end (R112, R412, R440, log 1). -/

namespace Sys2Proof.Machine

open Sys2Proof

/-- Two states with the same time and the same memory, queues and stalls: what a reply leaves unchanged. -/
def State.SameCore (s t : State) : Prop :=
  t.now = s.now ∧ t.cnt = s.cnt ∧ t.mem = s.mem ∧ t.queues = s.queues ∧ t.stalls = s.stalls

theorem sameCore_refl (s : State) : s.SameCore s := ⟨rfl, rfl, rfl, rfl, rfl⟩

theorem sameCore_answer {s t : State} (h : s.SameCore t) (n : Nat) (k : WaitKind) (c : Nat) (p : List Byte) :
    s.SameCore (t.answer n k c p) := by
  obtain ⟨hnow, hcnt, hmem, hqueues, hstalls⟩ := h
  unfold State.answer
  repeat' split
  all_goals simp [State.SameCore, hnow, hcnt, hmem, hqueues, hstalls]

/-- The end of held DRAM accesses sends replies and does nothing else (R412). -/
theorem sameCore_expireWaits (s : State) : s.SameCore s.expireWaits := by
  refine foldl_keeps (P := s.SameCore) (fun t n ht => ?_) _ (sameCore_refl s)
  unfold State.expireWait
  split
  · split
    · exact sameCore_answer ht n _ _ _
    · exact ht
  · exact ht

/-- A slot whose held access has time left, or which holds none, is left as it is (R412). -/
theorem expireWait_early {s : State} {n : Nat}
    (hd : ∀ x w, s.session n = some x → x.wait = some w → ∀ d acc, w.kind = .mem d acc → s.now < d) :
    s.expireWait n = s := by
  unfold State.expireWait
  split
  case h_1 d acc _ _ _ hw =>
    obtain ⟨x, hx, hwait⟩ := Option.bind_eq_some_iff.mp hw
    rw [if_neg (Nat.not_le.mpr (hd x _ hx hwait d acc rfl))]
  case h_2 => rfl

/-- While no held access reaches its 10 ms, nothing ends (R412). -/
theorem expireWaits_early {s : State}
    (hd : ∀ n x w, s.session n = some x → x.wait = some w → ∀ d acc, w.kind = .mem d acc → s.now < d) :
    s.expireWaits = s :=
  foldl_keeps (P := fun t => t = s) (fun t n ht => by rw [ht]; exact expireWait_early (hd n)) _ rfl

/-- With no command waiting or held, a step is the passing of one SCLK cycle (log 1). -/
theorem step_tick {s : State} (hp : s.pending = []) (hr : s.releasable = none) : step s = .next s.tick := by
  simp only [step, hp, hr]

/-- With no command waiting, a step executes the oldest held command whose session no longer waits (R112). -/
theorem step_held {s : State} {c : Instr} (hp : s.pending = []) (hr : s.releasable = some c) :
    step s = exec c ((s.withHeld (s.held.erase c)).withResuming true) := by
  simp only [step, hp, hr]
  rfl

/-- The time-base counter counts a passing cycle, unless a lost clock stopped it (R440). -/
theorem advTo_next_cnt (s : State) : (s.advTo (s.now + 1)).cnt = if s.clockStopped then s.cnt else s.cnt + 1 := by
  unfold State.advTo
  rw [if_pos (Nat.lt_succ_self _), Nat.add_sub_cancel_left]
  rfl

/-- Settles O2: the two cases of a step on an empty queue, and the passing of a cycle as `SameCore` of the state advanced. -/
theorem stepOnEmptyQueue : Obligations.StepOnEmptyQueue := by
  intro s hp
  refine ⟨fun c hr => step_held hp hr, fun hr => ⟨s.tick, step_tick hp hr, ?_⟩⟩
  obtain ⟨hnow, hcnt, hmem, hqueues, hstalls⟩ := sameCore_expireWaits (s.advTo (s.now + 1))
  refine ⟨by rw [State.tick, hnow]; simp, by rw [State.tick, hcnt, advTo_next_cnt], by rw [State.tick, hmem]; simp,
    by rw [State.tick, hqueues]; simp, by rw [State.tick, hstalls]; simp, fun hd => ?_⟩
  have early : s.tick = s.advTo (s.now + 1) := expireWaits_early (by simpa [State.session] using hd)
  simp [early]

end Sys2Proof.Machine
end

section
/-! SUPPORT. The generation of a slot (R109), and a map of generations on which it is not what O12 says. -/

namespace Sys2Proof.Machine

open Sys2Proof

/-- In the canonical form a new session raises its slot's generation by 1 from its last, with 0 after 2,046 (R109). -/
theorem newSession_slotGen {s : State} (hs : s.Canon) (n : Nat) (h : Hdr) (client : BitVec 64) (leaseMs : Nat) :
    mget (fun _ => 0) (s.newSession n h client leaseMs).slotGen n =
      (if mget (fun _ => 0) (s.closeSession n).slotGen n = 2046 then 0
        else mget (fun _ => 0) (s.closeSession n).slotGen n + 1) :=
  mget_mset_same _ _ 0 n _ (canon_closeSession hs).slotGen

/-- A HELLO from the management port. -/
def firstHello : Hdr := { bind := .mgmt, session := 0xffff, seq := 0, target := 0xff, plen := 13 }

/-- The part in service with slot 0's generation listed twice, which no canonical map does: 2,046, and behind it 5. -/
def generationTwiceListed : State := (State.reset.withPhase .ready).withSlotGen [(0, 2046), (0, 5)]

theorem firstHello_arrives : Arrives generationTwiceListed firstHello where
  fresh := rfl
  heard := by decide
  version := rfl
  serves := .inl rfl

/-- Refutes O12, by its clause on the generation: the one after 2,046 is 0, which is what an unlisted slot reads, so the
write unlists the slot's first entry and the second, 5, shows. (In the canonical form the clause holds, by the lemma above.)
-/
theorem not_helloCreatesSession : ¬ Obligations.HelloCreatesSession := by
  intro holds
  obtain ⟨_, created, _⟩ := holds generationTwiceListed firstHello 0 0 0 firstHello_arrives rfl rfl rfl rfl (by decide)
  obtain ⟨_, _, _, generation⟩ := created 0 (by decide) (by decide)
  revert generation
  decide

end Sys2Proof.Machine
end

section
/-! SUPPORT. The memory commands, once checks 7 and 8 pass, and the ends of FILL_MEM and COPY_MEM (R118, R119, R125, R128,
R129, R410, R412, R429, R436). -/

namespace Sys2Proof.Machine

open Sys2Proof

variable {s u : State} {h : Hdr} {slot : Nat} {x : Session}

/-! ### WRITE_MEM and READ_MEM (R128, R412) -/

/-- WRITE_MEM that passes its checks is its access of DRAM (R118, R119, R128). -/
theorem writeMemBody_access {addr : BitVec 64} {len : BitVec 32} {data : List Byte} (hw : WriteMemShape h addr len data)
    (hd : u.noDram = false) (hi : u.inDram addr.toNat len.toNat = true)
    (ho : u.mayWrite slot addr.toNat len.toNat = true) :
    writeMemBody h addr len data slot u = u.memAccess (.write addr.toNat len.toNat data) := by
  simp [writeMemBody, devShape_of hw.target hw.plen, hw.length, hw.aligned, hw.lenOk, hd, hi, ho]

/-- READ_MEM that passes its checks is its access of DRAM (R128). -/
theorem readMemBody_access {addr : BitVec 64} {len : BitVec 32} (ht : h.target = 0xff) (hp : h.plen = 12)
    (ha : addr.toNat % 8 = 0) (hl : memLenOk len.toNat = true) (hd : u.noDram = false)
    (hi : u.inDram addr.toNat len.toNat = true) :
    readMemBody h addr len slot u = u.memAccess (.read addr.toNat len.toNat) := by
  simp [readMemBody, devShape_of ht hp, ha, hl, hd, hi]

/-- An access to a controller in block reset ends with TIMEOUT, and one to a controller that retrains is held, at most 10 ms,
with the reply waiting (R412, R436). -/
theorem done_memAccess_unserved (A : Admits s h slot x) {op : Nat} {self : Instr} {rom : Bool} {body : Body} {acc : MemAcc}
    (hb : body slot (s.taken h slot x) = (s.taken h slot x).memAccess acc) :
    let u := s.taken h slot x
    (u.memReset acc.range.1 acc.range.2 = true →
      done (s.cmd h op self rom body) = .next (u.replies slot h op stTimeout [])) ∧
    (u.memReset acc.range.1 acc.range.2 = false → u.memRetrains acc.range.1 acc.range.2 = true →
      done (s.cmd h op self rom body) = .next (u.waitsFor slot h op (.mem (u.now + 10 * msCyc) acc))) :=
  ⟨fun hr => done_reply A (hb.trans (memAccess_reset hr)), fun hr ht => done_waits A (hb.trans (memAccess_retrains hr ht))⟩

/-- WRITE_MEM to controllers that serve stores its words (R128). -/
theorem done_writeMem_served (A : Admits s h slot x) {addr : BitVec 64} {len : BitVec 32} {data : List Byte}
    (hb : writeMemBody h addr len data slot (s.taken h slot x)
      = (s.taken h slot x).memAccess (.write addr.toNat len.toNat data)) :
    let u := s.taken h slot x
    u.memHeld addr.toNat len.toNat = false → exec (.writeMem h addr len data) s = .next
      (((u.writeWords (dcpWriter u.now) addr.toNat (wordsOfBytes (len.toNat / 8) data)).noteWrite addr.toNat
        len.toNat).replies slot h 0x0020 stOk []) :=
  fun hm => done_reply A (hb.trans (memAccess_served hm))

/-- READ_MEM of controllers that serve returns the words, with the offset of the first poisoned one (R128, R129, R429). -/
theorem done_readMem_served (A : Admits s h slot x) {addr : BitVec 64} {len : BitVec 32}
    (hb : readMemBody h addr len slot (s.taken h slot x) = (s.taken h slot x).memAccess (.read addr.toNat len.toNat)) :
    let u := s.taken h slot x
    let r := u.readWords addr.toNat (len.toNat / 8)
    u.memHeld addr.toNat len.toNat = false →
      (r.1.findIdx? (fun w => w.poison) = none → exec (.readMem h addr len) s = .next
        (r.2.replies slot h 0x0021 stOk (beBytes 4 0xffffffff ++ bytesOfWords r.1))) ∧
      (∀ k, r.1.findIdx? (fun w => w.poison) = some k → exec (.readMem h addr len) s = .next
        (r.2.replies slot h 0x0021 stPoison (beBytes 4 (8 * k) ++ bytesOfWords r.1))) := by
  intro u r hm
  have served := hb.trans (memAccess_served (acc := .read addr.toNat len.toNat) hm)
  refine ⟨fun hn => done_reply A (served.trans ?_), fun k hk => done_reply A (served.trans ?_)⟩
  · simp only [State.memNow, show ((s.taken h slot x).readWords addr.toNat (len.toNat / 8)).1.findIdx? _ = none from hn]
    rfl
  · simp only [State.memNow, show ((s.taken h slot x).readWords addr.toNat (len.toNat / 8)).1.findIdx? _ = some k from hk]
    rfl

/-! ### FILL_MEM and COPY_MEM (R125, R128) -/

/-- A command whose body accepts a long operation takes the lowest free record, or gets NO_RESOURCE (R125, log 11). -/
theorem done_acceptOp (A : Admits s h slot x) {op opcode : Nat} {self : Instr} {rom : Bool} {body : Body} {k : OpKind}
    (hb : body slot (s.taken h slot x) = acceptOp opcode k slot (s.taken h slot x)) :
    let u := s.taken h slot x
    (∀ n, u.freeOp = some n → done (s.cmd h op self rom body)
      = .next ((u.startOp n slot (BitVec.ofNat 16 opcode) k).replies slot h op stOk (beBytes 2 n))) ∧
    (u.freeOp = none → done (s.cmd h op self rom body) = .next (u.replies slot h op stNoResource [])) := by
  refine ⟨fun n hn => done_reply A (hb.trans ?_), fun hn => done_reply A (hb.trans ?_)⟩
  · simp only [acceptOp, hn]
    rfl
  · simp only [acceptOp, hn]
    rfl

/-- FILL_MEM that passes its checks is a long operation (R118, R119, R128). -/
theorem fillMemBody_accepts {addr len pattern : BitVec 64} (ht : h.target = 0xff) (hp : h.plen = 24)
    (ha : addr.toNat % 64 = 0) (hl : len.toNat % 64 = 0) (h0 : len.toNat ≠ 0) (hd : u.noDram = false)
    (hi : u.inDram addr.toNat len.toNat = true) (ho : u.mayWrite slot addr.toNat len.toNat = true) :
    fillMemBody h addr len pattern slot u = acceptOp 0x0022 (.fill addr.toNat len.toNat pattern) slot u := by
  simp [fillMemBody, devShape_of ht hp, ha, hl, h0, hd, hi, ho]

/-- COPY_MEM that passes its checks is a long operation (R118, R119, R128). -/
theorem copyMemBody_accepts {src dst len : BitVec 64} (ht : h.target = 0xff) (hp : h.plen = 24)
    (ha : src.toNat % 64 = 0) (hb : dst.toNat % 64 = 0) (hl : len.toNat % 64 = 0) (h0 : len.toNat ≠ 0)
    (hm : rangesMeet src.toNat len.toNat dst.toNat len.toNat = false) (hd : u.noDram = false)
    (hsrc : u.inDram src.toNat len.toNat = true) (hdst : u.inDram dst.toNat len.toNat = true)
    (ho : u.mayWrite slot dst.toNat len.toNat = true) :
    copyMemBody h src dst len slot u = acceptOp 0x0023 (.copy src.toNat dst.toNat len.toNat) slot u := by
  simp [copyMemBody, devShape_of ht hp, ha, hb, hl, h0, hm, hd, hsrc, hdst, ho]

/-- Settles O23: a command that passes its checks is an access of DRAM or a long operation, whose ends are the lemmas above.
-/
theorem memoryCommandsComplete : Obligations.MemoryCommandsComplete := by
  intro s h slot x A ht u hd
  refine ⟨fun addr len ha hl hi => ⟨fun data hp hlen ho => ?_, fun hp => ?_⟩,
    fun addr len pattern hp ha hl h0 hi ho => done_acceptOp A (fillMemBody_accepts ht hp ha hl h0 hd hi ho),
    fun src dst len hp ha hb hl h0 hm hsrc hdst ho =>
      done_acceptOp A (copyMemBody_accepts ht hp ha hb hl h0 hm hd hsrc hdst ho)⟩
  · have body := writeMemBody_access (slot := slot) ⟨ht, hp, hlen, ha, hl⟩ hd hi ho
    exact ⟨done_writeMem_served A body, done_memAccess_unserved A body⟩
  · have body := readMemBody_access (slot := slot) ht hp ha hl hd hi
    exact ⟨done_readMem_served A body, done_memAccess_unserved A body⟩

/-! ### The ends of FILL_MEM and COPY_MEM (R412, R429, R436) -/

section
variable {op : BitVec 16} {o : OpRec} (ho : s.op op.toNat = some o) (hd : o.done = false)
include ho hd

/-- A running FILL_MEM ends (R128). -/
theorem exec_fillMemDone {a len : Nat} {pattern : BitVec 64} (hk : o.kind = .fill a len pattern) :
    exec (.fillMemDone op) s = .next (if s.memHeld a len then s.opTimeout op.toNat o (s.memReset a len)
      else ((s.fillWords (dcpWriter o.startAt) a pattern (len / 8)).noteWrite a len).endOpFree op.toNat stOk).settle := by
  show execFillMemDone op s = _
  cases hm : s.memHeld a len <;> simp [execFillMemDone, ho, hk, hd, hm, done]

/-- A running COPY_MEM ends, and counts the poisoned words that it copied (R128, R429). -/
theorem exec_copyMemDone {a b len : Nat} (hk : o.kind = .copy a b len) :
    let r := s.copyWords (dcpWriter o.startAt) a b (len / 8)
    exec (.copyMemDone op) s = .next (if s.memHeld a len || s.memHeld b len then
        s.opTimeout op.toNat o (s.memReset a len || s.memReset b len)
      else (r.2.noteWrite b len).endOp op.toNat (if r.1 = 0 then stOk else stPoison) (BitVec.ofNat 64 r.1)).settle := by
  show execCopyMemDone op s = _
  cases hm : (s.memHeld a len || s.memHeld b len) <;> simp [execCopyMemDone, ho, hk, hd, hm, done]

end

/-- Settles O24: the two ends above, by whether a controller that the operation needs is held. -/
theorem memoryOperationsEnd : Obligations.MemoryOperationsEnd := by
  intro s op o ho hd
  refine ⟨fun a len pattern hk => ⟨fun hm => ?_, fun hm => ?_⟩, fun a b len hk => ⟨fun ha hb => ?_, fun hm => ?_⟩⟩
  · rw [exec_fillMemDone ho hd hk, if_neg (by simp [hm])]
  · rw [exec_fillMemDone ho hd hk, if_pos hm]
  · rw [exec_copyMemDone ho hd hk, if_neg (by simp [ha, hb])]
  · rw [exec_copyMemDone ho hd hk, if_pos (by simpa using hm)]

end Sys2Proof.Machine
end

section
/-! SUPPORT. The stream commands, once checks 7 and 8 pass, and the CREDIT frame (R118, R134–R137, R309, R371, R378). -/

namespace Sys2Proof.Machine

open Sys2Proof

variable {s : State} {h : Hdr} {slot : Nat} {x : Session} {queue : BitVec 16}

theorem queueShape_of {q n : Nat} (hq : q < 32768) (ht : h.target = queueTarget q) (hp : h.plen = n) :
    queueShape h q n = true := by
  simp [queueShape, hq, ht, hp]

/-- The stream that its session's commands reach (R118, R378). -/
theorem ownStream_own {u : State} {q : Nat} {t : Stream} (ht : u.stream q = some t) (ho : t.slot = slot) :
    u.ownStream slot q = (some t, stOk) := by
  simp [State.ownStream, ht, ho]

/-- Another session's stream (R118). -/
theorem ownStream_other {u : State} {q : Nat} {t : Stream} (ht : u.stream q = some t) (ho : t.slot ≠ slot) :
    u.ownStream slot q = (none, stNotOwner) := by
  simp [State.ownStream, ht, ho]

section
variable (A : Admits s h slot x) (hq : queue.toNat < 32768) (hg : h.target = queueTarget queue.toNat)
include A hq hg

/-- STREAM_OPEN of a queue without a consumer opens a stream for the session (R134, R135, R371). -/
theorem exec_streamOpen {maxp flush : BitVec 16} {limit : BitVec 32} {y : Session} (hp : h.plen = 10)
    (hm : 256 ≤ maxp.toNat) (hm' : maxp.toNat ≤ plenMax h.bind) (hl : limit.toNat ≤ 4096) (hf : 1 ≤ flush.toNat)
    (hf' : flush.toNat ≤ 10000) (ho : (s.taken h slot x).mayOpen slot queue.toNat = true)
    (hn : (s.taken h slot x).stream queue.toNat = none)
    (hc : (s.taken h slot x).flag F.QM_CFG.consumer queue.toNat = false) (hr : (s.taken h slot x).inReset .qm = false)
    (hy : (s.taken h slot x).session slot = some y) :
    exec (.streamOpen h queue maxp limit flush) s = .next (((s.taken h slot x).setStream queue.toNat (some
      { slot := slot, gen := y.gen, target := h.target, maxPayload := maxp.toNat, flushUs := flush.toNat,
        limit := limit })).replies slot h 0x0040 stOk []) := by
  refine done_reply A (body := streamOpenBody h queue maxp limit flush) ?_
  have hm₁ : ¬ maxp.toNat < 256 := by omega
  have hm₂ : ¬ plenMax h.bind < maxp.toNat := by omega
  have hl₁ : ¬ 4096 < limit.toNat := by omega
  have hf₁ : ¬ flush.toNat = 0 := by omega
  have hf₂ : ¬ 10000 < flush.toNat := by omega
  simp only [streamOpenBody, queueShape_of hq hg hp, hm₁, hm₂, hl₁, hf₁, hf₂, ho, hn, hc, hr, hy]
  rfl

section
variable {t : Stream} (ht : (s.taken h slot x).stream queue.toNat = some t)
include ht

/-- STREAM_CLOSE of another session's stream (R118). -/
theorem exec_streamClose_other (ho : t.slot ≠ slot) (hp : h.plen = 2) :
    exec (.streamClose h queue) s = .next ((s.taken h slot x).replies slot h 0x0042 stNotOwner []) :=
  done_reply A (body := streamCloseBody h queue) (by
    simp [streamCloseBody, queueShape_of hq hg hp, ownStream_other ht ho, refuse])

variable (ho : t.slot = slot)
include ho

/-- CREDIT of the session's stream replaces ack and limit when it is valid (R136). -/
theorem exec_credit {ack limit : BitVec 32} (hp : h.plen = 10) :
    let u := s.taken h slot x
    (t.creditOk ack limit = true → exec (.credit h queue ack limit) s = .next ((u.takeCredit queue.toNat t ack limit).replies
      slot h 0x0041 stOk (beBytes 4 ack.toNat ++ beBytes 4 limit.toNat))) ∧
    (t.creditOk ack limit = false →
      exec (.credit h queue ack limit) s = .next (u.replies slot h 0x0041 stBadParam [])) := by
  refine ⟨fun hc => done_reply A (body := creditBody h queue ack limit) ?_,
    fun hc => done_reply A (body := creditBody h queue ack limit) ?_⟩
  · simp [creditBody, queueShape_of hq hg hp, ownStream_own ht ho, hc, okay]
  · simp [creditBody, queueShape_of hq hg hp, ownStream_own ht ho, hc, refuse]

/-- STREAM_CLOSE returns the next sequence, past the frame in hand, and closes the stream (R137, R368). -/
theorem exec_streamClose (hp : h.plen = 2) :
    exec (.streamClose h queue) s = .next (((s.taken h slot x).closeStream queue.toNat).replies slot h 0x0042 stOk
      (beBytes 4 (if t.buf.isEmpty then t.next else t.next + 1).toNat)) :=
  done_reply A (body := streamCloseBody h queue) (by
    simp [streamCloseBody, queueShape_of hq hg hp, ownStream_own ht ho, okay])

/-- REWIND of a tailrace stream to a sequence from ack to next, when it is still retained (R137, R310). -/
theorem exec_rewind {fromSeq : BitVec 32} (hp : h.plen = 6) (htail : tailStall queue.toNat ≠ none)
    (hack : notBehind fromSeq t.ack = true) (hnext : notBehind t.next fromSeq = true) :
    let u := s.taken h slot x
    (notBehind fromSeq t.floor = true → exec (.rewind h queue fromSeq) s = .next ((u.setStream queue.toNat (some { t with
      resend := if fromSeq = t.next then none else some fromSeq })).replies slot h 0x0043 stOk [])) ∧
    (notBehind fromSeq t.floor = false →
      exec (.rewind h queue fromSeq) s = .next (u.replies slot h 0x0043 stRewindLost [])) := by
  refine ⟨fun hf => done_reply A (body := rewindBody h queue fromSeq) ?_,
    fun hf => done_reply A (body := rewindBody h queue fromSeq) ?_⟩
  · simp [rewindBody, queueShape_of hq hg hp, htail, ownStream_own ht ho, hack, hnext, hf, okay]
  · simp [rewindBody, queueShape_of hq hg hp, htail, ownStream_own ht ho, hack, hnext, hf, refuse]

end

end

@[simp] theorem arrived_stream (s : State) (h : Hdr) (q : Nat) : (s.arrived h).stream q = s.stream q := by
  show mget _ (s.heard h).2.streams q = mget _ s.streams q
  rw [heard_streams]

/-- A valid CREDIT frame of a live session for its stream takes effect without a reply (R136). -/
theorem exec_creditFrame {ack limit : BitVec 32} {t : Stream} (hh : (s.heard h).1 = true) (hr : s.phase = .ready)
    (hv : h.version = 2) (hp : h.plen = 8) (hs : s.slotOf h.session = some slot) (hx : s.session slot = some x)
    (hb : x.bind = h.bind) (hl : x.expired = false) (ht : s.stream queue.toNat = some t) (ho : t.slot = slot)
    (hc : t.creditOk ack limit = true) :
    exec (.creditFrame h queue ack limit) s = .next ((s.arrived h).takeCredit queue.toNat t ack limit).settle := by
  have serves : (s.arrived h).ready = true := by simp [State.ready, hr]
  have valid : (s.arrived h).creditFrame h queue.toNat ack limit = (s.arrived h).takeCredit queue.toNat t ack limit := by
    simp [State.creditFrame, hs, hx, ht, hb, hl, ho, hc, hp]
  show execCreditFrame h queue ack limit s = _
  unfold execCreditFrame
  rw [if_neg (by simp [hh])]
  show (if ((s.arrived h).ready && h.version == 2) = true then done ((s.arrived h).creditFrame h queue.toNat ack limit)
    else done (s.arrived h)) = _
  rw [serves, hv, valid]
  rfl

/-- Settles O30: each clause is the lemma above for its command. -/
theorem streamCommandsComplete : Obligations.StreamCommandsComplete :=
  ⟨fun _ _ _ _ _ A hq hg =>
    ⟨fun _ _ _ _ hp hm hm' hl hf hf' ho hn hc hr hy => exec_streamOpen A hq hg hp hm hm' hl hf hf' ho hn hc hr hy,
      fun _ ht ho => ⟨fun _ _ hp => exec_credit A hq hg ht ho hp, fun hp => exec_streamClose A hq hg ht ho hp,
        fun _ hp htail hack hnext => exec_rewind A hq hg ht ho hp htail hack hnext⟩,
      fun _ ht ho hp => exec_streamClose_other A hq hg ht ho hp⟩,
    fun _ _ _ _ _ _ _ _ hh hr hv hp hs hx hb hl ht ho hc => exec_creditFrame hh hr hv hp hs hx hb hl ht ho hc⟩

end Sys2Proof.Machine
end

section
/-! SUPPORT. The calibration and self-test commands, once checks 7 and 8 pass (R118, R125, R130, R457, R461, R463, R465,
R468–R470). -/

namespace Sys2Proof.Machine

open Sys2Proof

variable {s u : State} {h : Hdr} {slot n : Nat} {x : Session}

/-! ### The results (R461, R470) -/

/-- CAL_READ returns the result of the element, of unit and channel 0 for item 4 (R461). -/
theorem exec_calRead (A : Admits s h slot x) {channel item : BitVec 8} (ht : h.target = 0xff) (hp : h.plen = 2)
    (hi : item.toNat ≤ 4) (hu : item.toNat = 0 → channel.toNat ≤ 15) (hc : item.toNat ≠ 4 → channel.toNat ≤ 127)
    (hl : (s.taken h slot x).level ≠ 3) : exec (.calRead h channel item) s
    = .next ((s.taken h slot x).replies slot h 0x0051 stOk
      ((s.taken h slot x).calBytes item.toNat (readIndex item.toNat channel.toNat))) := by
  refine done_reply A (body := calReadBody h channel item) ?_
  have shape : (! devShape h 2 || 4 < item.toNat || (item = 0 && 15 < channel.toNat)
      || (item ≠ 4 && 127 < channel.toNat)) = false := by
    have unit : item = 0 → channel.toNat ≤ 15 := fun h0 => hu (by rw [h0]; rfl)
    have chan : item ≠ 4 → channel.toNat ≤ 127 := fun h4 => hc fun e => h4 (BitVec.eq_of_toNat_eq e)
    simpa [devShape_of ht hp, hi, imp_iff_not_or.symm] using ⟨unit, chan⟩
  simp only [calReadBody, shape, hl]
  rfl

/-- SELFTEST_READ returns the findings of the target's last self-test, those of none before any (R470). -/
theorem exec_selftestRead (A : Admits s h slot x) (ht : calTarget h.target = true) (hp : h.plen = 0) :
    let f := (mget (fun _ => none) (s.taken h slot x).tests (testKey h.target)).getD noFinding
    exec (.selftestRead h) s = .next ((s.taken h slot x).replies slot h 0x0054 stOk
      (beBytes 4 f.run.toNat ++ beBytes 4 f.fail.toNat ++ f.bays ++ beBytes 4 f.memErrors.toNat
        ++ beBytes 4 f.firstMem.toNat ++ beBytes 4 f.loopFail.toNat ++ beBytes 8 f.loopFirst.toNat)) :=
  done_reply A (body := selftestReadBody h) (by simp [selftestReadBody, ht, hp, okay])

/-! ### The operations (R125, R465) -/

/-- An accepted operation takes the lowest free record and the engine (R125, R465, log 11). -/
theorem acceptCal_accepts {opcode : Nat} {k : OpKind} (hn : u.freeOp = some n) : acceptCal opcode k slot u
    = (.reply stOk (beBytes 2 n), (u.startOp n slot (BitVec.ofNat 16 opcode) k).withCalOp (some n)) := by
  simp [acceptCal, hn, okay]

/-- The device, or a stall that is not busy, does not refuse an operation of the engine (R465). -/
theorem not_stall_busy {t : BitVec 8} (hb : t = 0xff ∨ u.busyStall t.toNat = false) :
    ¬ (t ≠ tgDev ∧ u.busyStall t.toNat = true) := by
  rintro ⟨hne, hbusy⟩
  rcases hb with he | hf
  · exact hne he
  · simp [hf] at hbusy

section
variable (ht : calTarget h.target = true) (hc : u.calCheck slot h.target = 0) (hn : u.freeOp = some n) (hl : u.level ≠ 3)
include ht hc hn hl

/-- CAL_RUN of assigned items and existing channels that R465 does not refuse (R457). -/
theorem calRunBody_accepts {items : BitVec 32} {count : BitVec 8} {l : List (BitVec 8)} (hp : h.plen = 5 + l.length)
    (hcount : count.toNat = l.length) (hi : items.toNat < 32) (hch : ∀ c ∈ l, c.toNat ≤ 127)
    (hr : u.runRefusal h.target items.toNat (u.runChans h.target l) = 0) : calRunBody h items count l slot u
    = (.reply stOk (beBytes 2 n),
      (u.startOp n slot 0x0050 (.calRun h.target items (u.runChans h.target l))).withCalOp (some n)) := by
  have chans : l.any (fun c => decide (127 < c.toNat)) = false := by simpa using hch
  simp [calRunBody, ht, hp, hcount, Nat.not_le.mpr hi, chans, hl, hc, hr, acceptCal_accepts hn]

section
variable (hb : u.calBusy = false) (hr : u.inReset .cal = false)
include hb hr

/-- CAL_COMMIT with the engine free, of the device or of a stall that is not busy (R463, R465). -/
theorem calCommitBody_accepts (hp : h.plen = 0) (hstall : h.target = 0xff ∨ u.busyStall h.target.toNat = false) :
    calCommitBody h slot u = (.reply stOk (beBytes 2 n),
      (u.startOp n slot 0x0052 (.calCommit h.target)).withCalOp (some n)) := by
  simp [calCommitBody, ht, hp, hl, hc, hb, hr, not_stall_busy hstall, acceptCal_accepts hn]

variable {tests : BitVec 32} (hp : h.plen = 4) (h5 : bitsOf tests.toNat 15 5 = 0) (h18 : bitsOf tests.toNat 31 18 = 0)
include hp h5 h18

/-- SELFTEST_RUN without LOOP_PATTERN, with MEM_SYSTEM on the idle device only (R465, R468, R469). -/
theorem selftestRunBody_accepts (hloop : tbit tests.toNat 4 = false)
    (hstall : h.target = 0xff ∨ u.busyStall h.target.toNat = false)
    (hsys : tbit tests.toNat 3 = true → h.target = 0xff ∧ u.systemIdle = true) : selftestRunBody h tests slot u
    = (.reply stOk (beBytes 2 n), (u.startOp n slot 0x0053 (.selftest h.target tests)).withCalOp (some n)) := by
  have stall : (! h.target == tgDev && u.busyStall h.target.toNat) = false := by
    rcases hstall with he | hf
    · simp [he, tgDev]
    · simp [hf]
  have target : (tbit tests.toNat 3 && ! h.target == tgDev) = false := by
    cases h3 : tbit tests.toNat 3
    · rfl
    · simp [(hsys h3).1, tgDev]
  have idle : (tbit tests.toNat 3 && ! u.systemIdle) = false := by
    cases h3 : tbit tests.toNat 3
    · rfl
    · simp [(hsys h3).2]
  simp [selftestRunBody, ht, hp, h5, h18, hloop, hl, hc, hb, hr, stall, target, idle, hn, acceptCal_accepts hn]

/-- SELFTEST_RUN with LOOP_PATTERN of a stall that is not busy first arms it as a START (R468, R469). -/
theorem selftestRunBody_loops (hloop : tbit tests.toNat 4 = true) (hsys : tbit tests.toNat 3 = false)
    (hdev : h.target ≠ 0xff) (hd : u.noDram = false) (hbusy : u.busyStall h.target.toNat = false) {v : State} {m : Nat}
    (hv : u.loopStart h.target tests.toNat = (0, v)) (hm : v.freeOp = some m) : selftestRunBody h tests slot u
    = (.reply stOk (beBytes 2 m), (v.startOp m slot 0x0053 (.selftest h.target tests)).withCalOp (some m)) := by
  have dev : (h.target == tgDev) = false := by simpa [tgDev] using hdev
  simp [selftestRunBody, ht, hp, h5, h18, hloop, hsys, hl, hc, hb, hr, dev, hd, hbusy, hn, hv, acceptCal_accepts hm]

end
end

/-- Settles O32: the bodies above, each in its command. -/
theorem calibrationCommandsComplete : Obligations.CalibrationCommandsComplete := by
  intro s h slot x A u
  refine ⟨fun channel item ht hp hi hu hc hl => exec_calRead A ht hp hi hu hc hl, fun f ht hp hf => ?_,
    fun ht hc n hn => ⟨fun items count l hp hcount hi hch hl hr => ?_, fun hp hl hb hr hs => ?_,
      fun tests hp h5 h18 hl hb hr => ⟨fun hloop hs hsys => ?_, fun hloop hsys hdev hd hs v m hv hm => ?_⟩⟩⟩
  · subst hf
    exact exec_selftestRead A ht hp
  · exact done_reply A (body := calRunBody h items count l) (calRunBody_accepts ht hc hn hl hp hcount hi hch hr)
  · exact done_reply A (body := calCommitBody h) (calCommitBody_accepts ht hc hn hl hb hr hp hs)
  · exact done_reply A (body := selftestRunBody h tests)
      (selftestRunBody_accepts ht hc hn hl hb hr hp h5 h18 hloop hs hsys)
  · exact done_reply A (body := selftestRunBody h tests)
      (selftestRunBody_loops ht hc hn hl hb hr hp h5 h18 hloop hsys hdev hd hs hv hm)

end Sys2Proof.Machine
end

section
/-! SUPPORT. The Yard's commands, once checks 7 and 8 pass (R118, R125, R384–R386, R401, R402). -/

namespace Sys2Proof.Machine

open Sys2Proof

variable {s u : State} {h : Hdr} {slot : Nat} {x : Session}

theorem yardShape_of {n : Nat} (ht : h.target = 0xfe) (hp : h.plen = n) : yardShape h n = true := by
  simp [yardShape, tgYard, ht, hp]

/-- The device owner passes check 8 of a Yard command while the Yard is not in block reset (R118). -/
theorem yardCheck_passes (ho : u.owns slot devRes = true) (hr : u.inReset .yrd = false) : u.yardCheck slot = 0 := by
  simp [State.yardCheck, ho, hr]

/-- YARD_SUBMIT of a loaded template that passes the checks adds to its instances (R385, R400). -/
theorem yardSubmitBody_creates {template flow n : BitVec 16} {data img : List Byte} (ht : h.target = 0xfe)
    (hp : h.plen = 6 + n.toNat) (hd : data.length = n.toNat) (himg : u.tmplImg template.toNat = img)
    (hr : u.inReset .yrd = false) (hi : img ≠ []) (hn : n.toNat ≤ tParamLen img)
    (hf : flow.toNat ≤ 1023 ∨ flow.toNat = yNone)
    (hb : (List.range (tOps img)).any (u.badPorts (data ++ (tParams img).drop n.toNat) img) = false)
    (hl : tStall img ≠ 0xff → u.level ≠ 3)
    (ho : (u.owns slot devRes || (if tStall img = 0xff then u.ownsStall slot else u.owns slot (tStall img))) = true)
    (hroom : u.instRoom img flow.toNat = true) (hy : u.yState = 0) : yardSubmitBody h template flow n data slot u
    = (.reply stOk (beBytes 4 u.nextInst.toNat),
      u.createInst template.toNat flow.toNat (data ++ (tParams img).drop n.toNat)) := by
  have loaded : img.isEmpty = false := by simpa using hi
  have flowOk : (decide (1023 < flow.toNat) && decide (flow.toNat ≠ yNone)) = false := by
    simpa [imp_iff_not_or, Nat.not_lt] using hf
  have level : ¬ (tStall img ≠ 0xff ∧ u.level = 3) := fun ⟨hne, h3⟩ => hl hne h3
  simp only [yardSubmitBody, yardShape_of ht hp, hd, himg, hr, loaded, Nat.not_lt.mpr hn, flowOk, hb, level, ho, hroom, hy]
  simp [okay]

section
variable (A : Admits s h slot x) (ht : h.target = 0xfe)
include A ht

/-- YARD_STATUS needs no ownership (R402). -/
theorem exec_yardStatus (hp : h.plen = 0) :
    let u := s.taken h slot x
    exec (.yardStatus h) s = .next (u.replies slot h 0x0065 stOk (beBytes 1 u.yState ++ beBytes 2 u.tmpl.length
      ++ beBytes 2 u.mods.length ++ beBytes 4 u.liveInsts ++ beBytes 4 u.slotsHeld ++ beBytes 4 u.readyOps
      ++ beBytes 4 u.asleepMask)) :=
  done_reply A (body := yardStatusBody h) (by simp [yardStatusBody, yardShape_of ht hp, okay])

section
variable (hc : (s.taken h slot x).yardCheck slot = 0)
include hc

/-- YARD_LOAD of an existing slot is a long operation (R125, R384). -/
theorem exec_yardLoad {kind : BitVec 8} {k : BitVec 16} {a : BitVec 64} {len : BitVec 32} {n : Nat} (hp : h.plen = 15)
    (hk : yardSlotOk kind.toNat k.toNat = true) (hn : (s.taken h slot x).freeOp = some n) :
    exec (.yardLoad h kind k a len) s = .next (((s.taken h slot x).startOp n slot 0x0060
      (.yardLoad kind.toNat k.toNat a.toNat len.toNat)).replies slot h 0x0060 stOk (beBytes 2 n)) :=
  (done_acceptOp A (body := yardLoadBody h kind k a len) (by simp [yardLoadBody, yardShape_of ht hp, hk, hc])).1 n hn

/-- YARD_UNLOAD of a template without live instances empties its slot, with what its triggers left due (R401). -/
theorem exec_yardUnload_template {k : BitVec 16} (hp : h.plen = 3) (hk : k.toNat < 4096)
    (hl : (s.taken h slot x).tmplLive k.toNat = false) :
    let u := s.taken h slot x
    exec (.yardUnload h 0 k) s = .next ((((u.withTmpl (mset (fun _ => []) u.tmpl k.toNat [])).withTrigPend
      (mset (fun _ => 0) u.trigPend k.toNat 0)).withDue (u.due.filter (fun d => d != k.toNat))).replies slot h
        0x0061 stOk []) := by
  refine done_reply A (body := yardUnloadBody h 0 k) ?_
  have ok : yardSlotOk (0 : BitVec 8).toNat k.toNat = true := by simp [yardSlotOk, hk]
  simp only [yardUnloadBody, yardShape_of ht hp, ok, hc, hl]
  rfl

/-- YARD_UNLOAD of a module that no loaded template names empties its slot (R401). -/
theorem exec_yardUnload_module {k : BitVec 16} (hp : h.plen = 3) (hk : k.toNat < 256)
    (hm : (s.taken h slot x).modNamed k.toNat = false) :
    let u := s.taken h slot x
    exec (.yardUnload h 1 k) s
      = .next ((u.withMods (mset (fun _ => []) u.mods k.toNat [])).replies slot h 0x0061 stOk []) := by
  refine done_reply A (body := yardUnloadBody h 1 k) ?_
  have ok : yardSlotOk (1 : BitVec 8).toNat k.toNat = true := by simp [yardSlotOk, hk]
  simp only [yardUnloadBody, yardShape_of ht hp, ok, hc, hm]
  rfl

/-- YARD_QUIESCE of a running Yard is a long operation that stops creation (R125, R401). -/
theorem exec_yardQuiesce {n : Nat} (hp : h.plen = 0) (hy : (s.taken h slot x).yState = 0)
    (hn : (s.taken h slot x).freeOp = some n) :
    let u := s.taken h slot x
    exec (.yardQuiesce h) s = .next (((u.startOp n slot 0x0063 (.quiesce u.yended)).setFl F.YRD_STAT.state 1).replies
      slot h 0x0063 stOk (beBytes 2 n)) :=
  done_reply A (body := yardQuiesceBody h) (by simp [yardQuiesceBody, yardShape_of ht hp, hc, hy, hn, okay])

/-- YARD_RESUME has the Yard run, with the due instances that fit first (R386, R401). -/
theorem exec_yardResume (hp : h.plen = 0) :
    let v := (s.taken h slot x).setFl F.YRD_STAT.state 0
    exec (.yardResume h) s = .next ((v.createDue v.due.length).replies slot h 0x0064 stOk []) :=
  done_reply A (body := yardResumeBody h) (by simp [yardResumeBody, yardShape_of ht hp, hc, okay])

end

end

/-- Settles O35: each clause is the lemma above for its command. -/
theorem yardCommandsComplete : Obligations.YardCommandsComplete := by
  intro s h slot x A ht u
  refine ⟨fun hp => exec_yardStatus A ht hp, fun ho hr => ?_,
    fun template flow n data hp hd hr hi hn hf hb hl hown hroom hy =>
      done_reply A (yardSubmitBody_creates ht hp hd rfl hr hi hn hf hb hl hown hroom hy)⟩
  have hc : u.yardCheck slot = 0 := yardCheck_passes ho hr
  exact ⟨fun kind k a len n hp hk hn => exec_yardLoad A ht hc hp hk hn,
    fun k hp => ⟨fun hk hl => exec_yardUnload_template A ht hc hp hk hl,
      fun hk hm => exec_yardUnload_module A ht hc hp hk hm⟩,
    fun n hp hy hn => exec_yardQuiesce A ht hc hp hy hn, fun hp => exec_yardResume A ht hc hp⟩

end Sys2Proof.Machine
end

section
/-! SUPPORT. The commands of network time, of alarms and of transmit stamps, once check 7 passes (R118, R443–R445,
R450–R453). -/

namespace Sys2Proof.Machine

open Sys2Proof

variable {s u : State} {h : Hdr} {slot : Nat} {x : Session}

/-- A command that needs the device is its body for the device owner (R118). -/
theorem ownDevice_owner {body : Body} (ho : u.owns slot devRes = true) : ownDevice body slot u = body slot u := by
  simp [ownDevice, ho]

/-- A command that needs the device gets NOT_OWNER from any other session (R118). -/
theorem ownDevice_other {body : Body} (ho : u.owns slot devRes = false) : ownDevice body slot u = refuse stNotOwner u := by
  simp [ownDevice, ho]

section
variable (A : Admits s h slot x) (ht : h.target = 0xff)
include A ht

/-- TIME_READ returns the counter, network time and validity of one edge (R443). -/
theorem exec_timeRead (hp : h.plen = 0) :
    let u := s.taken h slot x
    exec (.timeRead h) s = .next (u.replies slot h 0x0070 stOk (beBytes 8 u.cnt.toNat
      ++ beBytes 8 (ntSplit u.nt).1 ++ beBytes 4 (ntSplit u.nt).2.1 ++ beBytes 2 (ntSplit u.nt).2.2
      ++ [BitVec.ofNat 8 (bit (u.flag F.TB_STAT.valid))])) :=
  done_reply A (body := timeReadBody h) (by simp [timeReadBody, devShape_of ht hp, okay])

/-- TIME_STEP is the device owner's (R118, R444). -/
theorem exec_timeStep_other {delta : BitVec 64} (ho : (s.taken h slot x).owns slot devRes = false) (hp : h.plen = 8) :
    exec (.timeStep h delta) s = .next ((s.taken h slot x).replies slot h 0x0072 stNotOwner []) :=
  done_reply A (body := timeStepBody h delta) (by simp [timeStepBody, devShape_of ht hp, ownDevice_other ho, refuse])

variable (ho : (s.taken h slot x).owns slot devRes = true)
include ho

/-- TIME_SET of a representable time and rate, while no port is a slave (R444, R445). -/
theorem exec_timeSet {sec rate : BitVec 64} {ns : BitVec 32} {sub : BitVec 16} (hp : h.plen = 22)
    (hsec : sec.toNat < 2 ^ 48) (hns : ns.toNat < 1000000000) (hrate : rate.toInt.natAbs ≤ 2 ^ 30)
    (hservo : (s.taken h slot x).servoRuns = false)
    (hofs : 0 ≤ (ofTime sec.toNat ns.toNat sub.toNat : Int) - ntOf 0 rate.toInt (s.taken h slot x).cnt.toNat) :
    let u := s.taken h slot x
    exec (.timeSet h sec ns sub rate) s = .next
      (((u.setTimeRate ((ofTime sec.toNat ns.toNat sub.toNat : Int) - ntOf 0 rate.toInt u.cnt.toNat)
        rate.toInt).setFlag F.TB_STAT.valid true).replies slot h 0x0071 stOk []) := by
  refine done_reply A (body := timeSetBody h sec ns sub rate) ?_
  simp only [timeSetBody, devShape_of ht hp, Nat.not_le.mpr hsec, Nat.not_le.mpr hns, Nat.not_lt.mpr hrate,
    ownDevice_owner ho, hservo, Int.not_lt.mpr hofs]
  rfl

/-- TIME_STEP to a representable offset, while no port is a slave (R444, R445). -/
theorem exec_timeStep {delta : BitVec 64} (hp : h.plen = 8) (hservo : (s.taken h slot x).servoRuns = false)
    (hofs : ofsOk (((s.taken h slot x).ofs : Int) + delta.toInt * 65536) = true) :
    let u := s.taken h slot x
    exec (.timeStep h delta) s
      = .next ((u.withOfs ((u.ofs : Int) + delta.toInt * 65536).toNat).replies slot h 0x0072 stOk []) :=
  done_reply A (body := timeStepBody h delta) (by
    simp [timeStepBody, devShape_of ht hp, ownDevice_owner ho, hservo, hofs, okay])

/-- ALARM_SET arms an alarm afresh, after a firing that falls on the same edge (R451–R453). -/
theorem exec_alarmSet {a action : BitVec 8} {sec period : BitVec 64} {ns : BitVec 32} (hp : h.plen = 22)
    (ha : a.toNat ≤ 15) (hact : action.toNat ≤ 8) (hsec : sec.toNat < 2 ^ 48) (hns : ns.toNat < 1000000000)
    (hper : period.toNat = 0 ∨ (1000 ≤ period.toNat ∧ period.toNat ≤ 1000000000000))
    (hout : (toutOf action.toNat).any (fun n => (s.taken h slot x).toutDriven a.toNat n) = false) :
    let tau := ofTime sec.toNat ns.toNat 0
    let v := ((s.taken h slot x).fireDue a.toNat).disarmAlarm a.toNat
    let w := v.setAlarm a.toNat (some ⟨tau, period.toNat * 65536, action.toNat, v.now, decide ((tau : Int) ≤ v.nt)⟩)
    exec (.alarmSet h a action sec ns period) s = .next ((w.setRg .TB_ALARM_STAT (1 + bit (period.toNat != 0) * 2
      + bit (w.flag F.TB_ALARM_STAT.invalid a.toNat) * 4 + action.toNat * 2 ^ 8) a.toNat).replies slot h 0x0073
        stOk []) := by
  refine done_reply A (body := alarmSetBody h a action sec ns period) ?_
  have periodOk : (decide (period.toNat ≠ 0) && (decide (period.toNat < 1000) || decide (1000000000000 < period.toNat)))
      = false := by
    simp only [Bool.and_eq_false_iff, Bool.or_eq_false_iff, decide_eq_false_iff_not]
    omega
  simp only [alarmSetBody, devShape_of ht hp, show ¬ 15 < a.toNat by omega, show ¬ 8 < action.toNat by omega,
    Nat.not_le.mpr hsec, Nat.not_le.mpr hns, periodOk, ownDevice_owner ho, hout]
  rfl

/-- ALARM_CANCEL disarms an alarm, after a firing that falls on the same edge (R453). -/
theorem exec_alarmCancel {a : BitVec 8} (hp : h.plen = 1) (ha : a.toNat ≤ 15) : exec (.alarmCancel h a) s
    = .next ((((s.taken h slot x).fireDue a.toNat).disarmAlarm a.toNat).replies slot h 0x0074 stOk []) :=
  done_reply A (body := alarmCancelBody h a) (by
    simp [alarmCancelBody, devShape_of ht hp, Nat.not_lt.mpr ha, ownDevice_owner ho, okay])

/-- TSQ_READ pops up to 64 stamps of a port, and returns and clears its overflow bit (R450). -/
theorem exec_tsqRead {port max : BitVec 8} (hp : h.plen = 2) (hport : port.toNat ≤ 7) (hm : 1 ≤ max.toNat)
    (hm' : max.toNat ≤ 64) :
    let u := s.taken h slot x
    let r := u.popStamps port.toNat max.toNat
    exec (.tsqRead h port max) s = .next ((r.2.setFl F.TB_TSQ_STAT.overflow
      (putBits (u.fl F.TB_TSQ_STAT.overflow) port.toNat port.toNat 0)).replies slot h 0x0075 stOk
        ([BitVec.ofNat 8 r.1.length, BitVec.ofNat 8 (bit (tbit (u.fl F.TB_TSQ_STAT.overflow) port.toNat))]
          ++ r.1.flatten)) := by
  refine done_reply A (body := tsqReadBody h port max) ?_
  simp only [tsqReadBody, devShape_of ht hp, Nat.not_lt.mpr hport, show ¬ max.toNat = 0 by omega, Nat.not_lt.mpr hm',
    ownDevice_owner ho]
  rfl

end

/-- Settles O37: each clause is the lemma above for its command. -/
theorem timeCommandsComplete : Obligations.TimeCommandsComplete :=
  fun _ _ _ _ A ht => ⟨fun hp => exec_timeRead A ht hp,
    fun ho => ⟨fun _ _ _ _ hp hsec hns hrate hservo hofs => exec_timeSet A ht ho hp hsec hns hrate hservo hofs,
      fun _ hp hservo hofs => exec_timeStep A ht ho hp hservo hofs,
      fun _ _ _ _ _ hp ha hact hsec hns hper hout => exec_alarmSet A ht ho hp ha hact hsec hns hper hout,
      fun _ hp ha => exec_alarmCancel A ht ho hp ha, fun _ _ hp hport hm hm' => exec_tsqRead A ht ho hp hport hm hm'⟩,
    fun ho _ hp => exec_timeStep_other A ht ho hp⟩

end Sys2Proof.Machine
end

section
/-! SUPPORT. The fault commands, once check 7 passes (R118, R477, R480, R483, R485, R488). -/

namespace Sys2Proof.Machine

open Sys2Proof

variable {s : State} {h : Hdr} {slot : Nat} {x : Session}

section
variable (A : Admits s h slot x)
include A

section
variable (ht : h.target = 0xff)
include ht

/-- FAULT_READ returns the live and the sticky map and the first record (R477). -/
theorem exec_faultRead (hp : h.plen = 0) :
    let u := s.taken h slot x
    exec (.faultRead h) s = .next (u.replies slot h 0x0080 stOk
      (u.srcMap .FLC_LIVE ++ u.srcMap .FLC_STICKY ++ beBytes 1 (u.fl F.FLC_FIRST.source)
        ++ beBytes 1 (u.fl F.FLC_FIRST.valid) ++ beBytes 8 (u.rg64 .FLC_FIRST_TAG_LO .FLC_FIRST_TAG_HI)
        ++ beBytes 1 (u.fl F.FLC_FIRST.overflow))) :=
  done_reply A (body := faultReadBody h) (by simp [faultReadBody, devShape_of ht hp, okay])

variable (ho : (s.taken h slot x).owns slot devRes = true)
include ho

/-- FAULT_CLEAR clears the sources of its mask and, if asked, the first record (R480, R483). -/
theorem exec_faultClear {mask : BitVec 256} {first : BitVec 8} (hp : h.plen = 33) (hf : first.toNat ≤ 1) :
    exec (.faultClear h mask first) s = .next
      (((s.taken h slot x).faultClear (fun n => mask.getLsbD n) (first == 1)).replies slot h 0x0081 stOk []) :=
  done_reply A (body := faultClearBody h mask first) (by
    simp only [faultClearBody, devShape_of ht hp, Nat.not_lt.mpr hf, ho]
    rfl)

/-- FAULT_REACTION of a source that is neither reserved nor 9 or 10 (R485). -/
theorem exec_faultReaction {source reaction : BitVec 8} (hp : h.plen = 2) (hs : srcReserved source.toNat = false)
    (h9 : source.toNat ≠ 9) (h10 : source.toNat ≠ 10) (hr : reaction.toNat ≤ 5) :
    exec (.faultReaction h source reaction) s = .next
      (((s.taken h slot x).setReaction source.toNat reaction.toNat).replies slot h 0x0082 stOk []) :=
  done_reply A (body := faultReactionBody h source reaction) (by
    simp [faultReactionBody, devShape_of ht hp, hs, h9, h10, Nat.not_lt.mpr hr, ho, okay])

/-- FAULT_INJECT of an injectable source: a checker's injection waits for its next read, and one only; any other source is
reported as injected (R488). -/
theorem exec_faultInject {source : BitVec 8} (hp : h.plen = 1) (hs : srcReserved source.toNat = false)
    (hn : noInject source.toNat = false) :
    let u := s.taken h slot x
    (isChecker source.toNat = true → u.flag F.FLC_INJECT.pending = false → exec (.faultInject h source) s = .next
      ((u.setRg .FLC_INJECT (source.toNat + 256)).replies slot h 0x0083 stOk [])) ∧
    (isChecker source.toNat = true → u.flag F.FLC_INJECT.pending = true →
      exec (.faultInject h source) s = .next (u.replies slot h 0x0083 stBusy [])) ∧
    (isChecker source.toNat = false → exec (.faultInject h source) s = .next
      ((u.raise source.toNat 0xffff true).replies slot h 0x0083 stOk [])) := by
  refine ⟨fun hc hf => done_reply A (body := faultInjectBody h source) ?_,
    fun hc hf => done_reply A (body := faultInjectBody h source) ?_,
    fun hc => done_reply A (body := faultInjectBody h source) ?_⟩
  · simp [faultInjectBody, devShape_of ht hp, hs, hn, ho, hc, hf, okay]
  · simp [faultInjectBody, devShape_of ht hp, hs, hn, ho, hc, hf, refuse]
  · simp [faultInjectBody, devShape_of ht hp, hs, hn, ho, hc, okay]

end

/-- FAULT_RELEASE by the owner of the stall or of the device: a stall without a hold, a hold that a live source keeps, and a
hold that ends (R118, R485). -/
theorem exec_faultRelease (ht : h.target.toNat < 16) (hp : h.plen = 0)
    (ho : ((s.taken h slot x).owns slot h.target.toNat || (s.taken h slot x).owns slot devRes) = true) :
    let u := s.taken h slot x
    let st := h.target.toNat
    (u.flag F.STL_SEQ_STAT.fault_hold st = false →
      exec (.faultRelease h) s = .next (u.replies slot h 0x0084 stOk [])) ∧
    (u.flag F.STL_SEQ_STAT.fault_hold st = true → u.heldLive st = true →
      exec (.faultRelease h) s = .next (u.replies slot h 0x0084 stBusy [])) ∧
    (u.flag F.STL_SEQ_STAT.fault_hold st = true → u.heldLive st = false →
      exec (.faultRelease h) s = .next ((u.endHold st).replies slot h 0x0084 stOk [])) := by
  refine ⟨fun hf => done_reply A (body := faultReleaseBody h) ?_,
    fun hf hl => done_reply A (body := faultReleaseBody h) ?_, fun hf hl => done_reply A (body := faultReleaseBody h) ?_⟩
  · simp only [faultReleaseBody, stallShape_of ht hp, ho, hf]
    rfl
  · simp only [faultReleaseBody, stallShape_of ht hp, ho, hf, hl]
    rfl
  · simp only [faultReleaseBody, stallShape_of ht hp, ho, hf, hl]
    rfl

end

/-- Settles O40: each clause is the lemma above for its command. -/
theorem faultCommandsComplete : Obligations.FaultCommandsComplete := by
  intro s h slot x A u
  refine ⟨fun ht hp => exec_faultRead A ht hp,
    fun ht ho => ⟨fun _ _ hp hf => exec_faultClear A ht ho hp hf,
      fun _ _ hp hs h9 h10 hr => exec_faultReaction A ht ho hp hs h9 h10 hr,
      fun _ hp hs hn => exec_faultInject A ht ho hp hs hn⟩,
    fun st hst hlt hp ho => ?_⟩
  subst hst
  exact exec_faultRelease A hlt hp ho

end Sys2Proof.Machine
end

section
/-! SUPPORT. The end of a prefill and starvation (R130, R172, R173, R198, R205, R206). -/

namespace Sys2Proof.Machine

open Sys2Proof

/-- The end of the prefill starts a stall of source 0 at the next edge, and answers the START of any other (R130, R173). -/
theorem exec_prefillComplete {s : State} {st : StallIx} (hd : s.prefillDone st.val = true) :
    let v := s.setStall st.val { s.stall st.val with prefilled := true }
    exec (.prefillComplete st) s = .next (if (s.stall st.val).src.source = 0 then
      (v.advTo (s.now + 1)).startEvent st.val (s.now + 1) else v.answerAll (.start st.val) stOk []).settle := by
  show execPrefillComplete st s = _
  by_cases h0 : (s.stall st.val).src.source = 0 <;> simp [execPrefillComplete, hd, h0, done]

/-- A line absent 40 ns before the first vector that uses it starves the stall (R205, R206). -/
theorem exec_starvation {s : State} {st : StallIx} {vec t0 line : Nat} (hb : s.busyStall st.val = true)
    (hs : (s.stall st.val).starved = false) (hf : s.firstAbsent st.val = some (vec, t0, line)) :
    exec (.starvation st) s = .next ((s.advToU (t0 - 64 * unitsPerCyc)).starve st.val vec line).settle := by
  show execStarvation st s = _
  simp only [execStarvation, hb, hs, hf]
  rfl

/-- Settles O56: the two events above, the first by the stall's start source. -/
theorem prefillEndsAndStarvationStops : Obligations.PrefillEndsAndStarvationStops := by
  refine ⟨fun s st hd => ⟨fun h0 => ?_, fun h0 => ?_⟩, fun _ _ _ _ _ hb hs hf => exec_starvation hb hs hf⟩
  · rw [exec_prefillComplete hd, if_pos h0]
  · rw [exec_prefillComplete hd, if_neg h0]

end Sys2Proof.Machine
end

section
/-! SUPPORT. The events of queues and streams: pushes, pops, read-backs and stream frames (R134, R137, R364–R369,
R375–R377). -/

namespace Sys2Proof.Machine

open Sys2Proof

variable {s : State} {q : QIx}

/-- The state in which a packet of `n` words is judged: for a record on a tailrace queue, retained frames have been given up
for it (R309). -/
def State.offered (s : State) (p : Producer) (q n : Nat) : State :=
  match p with
  | .acq _ => if (tailStall q).isSome then s.reclaim q n 4096 else s
  | _ => s

/-- The state with the destination of a record noted, which no other packet has. -/
def State.noted (s : State) (p : Producer) (q : Nat) : State :=
  match p with
  | .acq st => s.noteDest st.val q
  | _ => s

/-- A packet that a producer may push there, of 1 to 4,096 words and no more than the queue's size, enters the queue or is
refused and accounted for; a pop in the same cycle frees its place first (R355, R364–R369). -/
theorem exec_queuePush {p : Producer} {ws : List (BitVec 64 × Bool)} {popHere : Bool} (hp : mayPush p q.val = true)
    (h0 : ws ≠ []) (hn : ws.length ≤ 4096) (hs : ws.length ≤ s.qSize q.val) :
    let v := s.offered p q.val ws.length
    let fits := v.pushOk q.val ws.length (popHere && v.consumes q.val)
    let w := if popHere then v.consume q.val false else v
    (fits = true → exec (.queuePush q p ws popHere) s = .next ((w.noted p q.val).pushAll q.val (packet ws)).settle) ∧
    (fits = false → exec (.queuePush q p ws popHere) s = .next ((w.refusePush q.val).refusedBy p q.val ws).settle) := by
  intro v fits w
  have legal : ¬ (! mayPush p q.val || decide (ws.length = 0) || decide (4096 < ws.length)
      || decide (s.qSize q.val < ws.length)) = true := by
    simp [hp, h0, Nat.not_lt.mpr hn, Nat.not_lt.mpr hs]
  have outcome : exec (.queuePush q p ws popHere) s = .next (if fits then (w.noted p q.val).pushAll q.val (packet ws)
      else (w.refusePush q.val).refusedBy p q.val ws).settle := by
    show execQueuePush q p ws popHere s = _
    simp only [execQueuePush, if_neg legal]
    cases hf : fits
    · cases p <;> simp_all [done, fits, v, w, State.offered]
    · cases p <;> simp_all [done, fits, v, w, State.offered, State.noted]
  exact ⟨fun hf => by rw [outcome, if_pos hf], fun hf => by rw [outcome, if_neg (by simp [hf])]⟩

/-- The consumer named by QM_CFG pops the oldest word (R368, R369). -/
theorem exec_queuePop_consumer {bad : Bool} (hs : s.stream q.val = none) (hc : s.flag F.QM_CFG.consumer q.val = true) :
    exec (.queuePop q bad) s = .next (s.pop q.val bad).2.settle := by
  show done (s.consume q.val bad) = _
  simp [State.consume, hs, hc, done]

/-- An open stream that resends nothing takes the oldest word into its frame in hand (R134, R368). -/
theorem exec_queuePop_stream {bad : Bool} {t : Stream} (hs : s.stream q.val = some t) (hr : t.resend = none) :
    exec (.queuePop q bad) s = .next (s.popStream q.val bad).settle := by
  show done (s.consume q.val bad) = _
  simp [State.consume, hs, hr, done]

/-- The oldest spilled word comes back while no controller of the region retrains (R375–R377, R412). -/
theorem exec_spillReadback {cells : Cells} (hh : s.spillHeld q.val = false) :
    exec (.spillReadback q cells) s = .next (s.readback q.val cells).settle := by
  show done (if s.spillHeld q.val then s else s.readback q.val cells) = _
  rw [if_neg (by simp [hh])]
  rfl

section
variable {t : Stream} (hs : s.stream q.val = some t)
include hs

/-- A stream that resends sends its next retained frame (R137, R309). -/
theorem exec_streamFrameSend_resend {r : BitVec 32} (hr : t.resend = some r) :
    exec (.streamFrameSend q) s = .next (s.resendNext q.val t r).settle := by
  show execStreamFrameSend q s = _
  simp only [execStreamFrameSend, hs, hr]
  rfl

/-- A stream with credit sends the frame that it filled once it is full, or once it has waited for its flush time on a queue
that holds no further word (R134, R135). -/
theorem exec_streamFrameSend_fill (hr : t.resend = none) (hm : t.maySend = true) :
    let v := s.fillFrame q.val 1200
    ∀ z, v.stream q.val = some z → z.buf ≠ [] →
      (v.frameFull q.val z = true → exec (.streamFrameSend q) s = .next (v.sendFrame q.val).settle) ∧
      (v.frameFull q.val z = false → (v.queue q.val).depth = 0 →
        exec (.streamFrameSend q) s = .next ((v.advTo (z.firstAt + z.flushUs * usCyc)).sendFrame q.val).settle) := by
  intro v z hz hb
  have inHand : z.buf.isEmpty = false := by simpa using hb
  refine ⟨fun hf => ?_, fun hf hd => ?_⟩
  · show execStreamFrameSend q s = _
    simp [execStreamFrameSend, hs, hr, hm, show (s.fillFrame q.val 1200).stream q.val = some z from hz, inHand,
      show (s.fillFrame q.val 1200).frameFull q.val z = true from hf, done, v]
  · show execStreamFrameSend q s = _
    simp [execStreamFrameSend, hs, hr, hm, show (s.fillFrame q.val 1200).stream q.val = some z from hz, inHand,
      show (s.fillFrame q.val 1200).frameFull q.val z = false from hf,
      show ((s.fillFrame q.val 1200).queue q.val).depth = 0 from hd, done, v]

end

/-- Settles O60: each clause is the lemma above for its event. -/
theorem queueEventsComplete : Obligations.QueueEventsComplete :=
  ⟨fun _ _ _ _ _ hp h0 hn hs => exec_queuePush hp h0 hn hs,
    fun _ _ _ => ⟨fun hs hc => exec_queuePop_consumer hs hc, fun _ hs hr => exec_queuePop_stream hs hr⟩,
    fun _ _ _ _ _ _ hh => exec_spillReadback hh,
    fun _ _ _ hs => ⟨fun _ hr => exec_streamFrameSend_resend hs hr,
      fun hr hm z hz hb hf => (exec_streamFrameSend_fill hs hr hm z hz hb).1 hf,
      fun hr hm z hz hb hf hd => (exec_streamFrameSend_fill hs hr hm z hz hb).2 hf hd⟩⟩

end Sys2Proof.Machine
end

section
/-! SUPPORT. The shadows of stall resets: the sweep that ends every command closes each whose stall reset is no longer
pending, and a passing cycle changes neither shadows nor stalls (R181, R486, log 1). -/

namespace Sys2Proof.Machine

open Sys2Proof

variable {s : State} {x y : Shadow}

/-! ### The sweep -/

/-- The shadow of a stall's reset has no end although no stall reset is pending. -/
def State.Overdue (s : State) (x : Shadow) : Prop :=
  ∃ st : StallIx, x.blk = .stall st ∧ x.endsAt = none ∧ (s.stall st.val).stops.any (fun p => p.cause == 6) = false

theorem shadowsInv_iff : s.shadowsInv ↔ ∀ x ∈ s.shadows, ¬ s.Overdue x := by
  simp only [State.shadowsInv, State.Overdue, not_exists, not_and, Bool.not_eq_false]

/-- The sweep of one shadow. -/
def State.sweepShadow (s : State) (x : Shadow) : State :=
  match x.blk, x.endsAt with
  | .stall st, none => if (s.stall st.val).stops.any (fun p => p.cause == 6) then s else s.closeShadow x.blk
  | _, _ => s

theorem sweepShadows_eq_foldl (s : State) : s.sweepShadows = s.shadows.foldl State.sweepShadow s := rfl

/-- Sweeping an overdue shadow sets the end of its block's shadow. -/
theorem sweepShadow_overdue (h : s.Overdue x) : s.sweepShadow x = s.closeShadow x.blk := by
  obtain ⟨st, hb, he, hp⟩ := h
  simp [State.sweepShadow, hb, he, hp]

/-- Sweeping a shadow that is not overdue does nothing. -/
theorem sweepShadow_notOverdue (h : ¬ s.Overdue x) : s.sweepShadow x = s := by
  unfold State.sweepShadow
  split
  next st hb he =>
    by_cases hp : (s.stall st.val).stops.any (fun p => p.cause == 6) = true
    · rw [if_pos hp]
    · exact absurd ⟨st, hb, he, Bool.eq_false_iff.mpr hp⟩ h
  next => rfl

/-- A shadow without an end that closing leaves was there before, for another block. -/
theorem mem_closeShadow_open {b : Blk} (hy : y ∈ (s.closeShadow b).shadows) (he : y.endsAt = none) :
    y ∈ s.shadows ∧ y.blk ≠ b := by
  simp only [State.closeShadow, withShadows_shadows, List.mem_map] at hy
  obtain ⟨z, hz, rfl⟩ := hy
  split at he
  · cases he
  next h =>
    rw [if_neg h]
    exact ⟨hz, fun hb => h ⟨hb, he⟩⟩

/-- An overdue shadow that sweeping `x` leaves was overdue before, and is not `x`. -/
theorem overdue_sweepShadow (hy : y ∈ (s.sweepShadow x).shadows) (ho : (s.sweepShadow x).Overdue y) :
    y ∈ s.shadows ∧ s.Overdue y ∧ y ≠ x := by
  by_cases hx : s.Overdue x
  · rw [sweepShadow_overdue hx] at hy ho
    obtain ⟨st, hb, he, hp⟩ := ho
    obtain ⟨hmem, hne⟩ := mem_closeShadow_open hy he
    exact ⟨hmem, ⟨st, hb, he, hp⟩, fun h => hne (h ▸ rfl)⟩
  · rw [sweepShadow_notOverdue hx] at hy ho
    exact ⟨hy, ho, fun h => hx (h ▸ ho)⟩

/-- An overdue shadow that sweeping a list of shadows leaves was there before, and is not in the list. -/
theorem overdue_foldl_sweepShadow : ∀ (l : List Shadow) {s : State}, y ∈ (l.foldl State.sweepShadow s).shadows →
    (l.foldl State.sweepShadow s).Overdue y → y ∈ s.shadows ∧ s.Overdue y ∧ y ∉ l
  | [], _, hy, ho => ⟨hy, ho, List.not_mem_nil⟩
  | x :: t, s, hy, ho => by
    obtain ⟨hmem, hover, ht⟩ := overdue_foldl_sweepShadow t hy ho
    obtain ⟨hs, hos, hx⟩ := overdue_sweepShadow hmem hover
    exact ⟨hs, hos, by simp [hx, ht]⟩

/-- The sweep goes over every shadow, so it leaves none overdue. -/
theorem shadowsInv_sweepShadows (s : State) : s.sweepShadows.shadowsInv := by
  rw [sweepShadows_eq_foldl, shadowsInv_iff]
  intro y hy ho
  obtain ⟨hmem, -, hnot⟩ := overdue_foldl_sweepShadow s.shadows hy ho
  exact hnot hmem

/-- Whatever a command did, its end leaves no shadow overdue. -/
theorem shadowsInv_settle (s : State) : s.settle.shadowsInv := by
  unfold State.settle
  split
  next h =>
    obtain ⟨-, hnone⟩ : s.reports = [] ∧ s.shadows = [] := by simpa using h
    simp [State.shadowsInv, hnone]
  next => exact shadowsInv_sweepShadows _

/-! ### A passing cycle -/

@[simp] theorem answer_shadows (s : State) (n : Nat) (k : WaitKind) (c : Nat) (p : List Byte) :
    (s.answer n k c p).shadows = s.shadows := by
  unfold State.answer
  repeat' split
  all_goals simp

@[simp] theorem expireWait_shadows (s : State) (n : Nat) : (s.expireWait n).shadows = s.shadows := by
  unfold State.expireWait
  repeat' split
  all_goals simp

theorem tick_shadows (s : State) : s.tick.shadows = s.shadows := by
  refine foldl_keeps (P := fun t => t.shadows = s.shadows) (fun t n ht => ?_) _ ?_
  · rw [expireWait_shadows, ht]
  · exact advTo_shadows (s := s) _

theorem tick_stalls (s : State) : s.tick.stalls = s.stalls := by
  obtain ⟨-, -, -, -, hstalls⟩ := sameCore_expireWaits (s.advTo (s.now + 1))
  rw [State.tick, hstalls, advTo_stalls]

theorem shadowsInv_tick (hs : s.shadowsInv) : s.tick.shadowsInv := by
  simpa only [State.shadowsInv, State.stall, tick_shadows, tick_stalls] using hs

/-! ### The step -/

/-- A command ends in a settled state, whose shadows were swept. -/
theorem shadowsInv_exec (c : Instr) (s : State) : Keeps State.shadowsInv (exec c s) := by
  obtain ⟨v, hv⟩ := answers_exec c s
  rw [hv]
  exact shadowsInv_settle v

/-- A step runs a command, which ends with the sweep, or lets a cycle pass. -/
theorem shadowsInv_step (hs : s.shadowsInv) : Keeps State.shadowsInv (step s) := by
  unfold step
  split
  · exact shadowsInv_exec _ _
  · split
    · exact shadowsInv_exec _ _
    · exact shadowsInv_tick hs

/-- Settles O5: the cases of a step above. -/
theorem everyStepKeepsStallShadows : Obligations.EveryStepKeepsStallShadows := by
  intro s t hs ht
  have hk := shadowsInv_step hs
  rw [ht] at hk
  exact hk

end Sys2Proof.Machine
end

section
/-! SUPPORT. The vector due, the SETF before a segment, a stop at its boundary, and the end of a stall reset (R146, R157,
R175–R178, R181, R185, R231). -/

namespace Sys2Proof.Machine

open Sys2Proof

variable {s : State} {st : StallIx}

/-- The vector that a stall can play next plays (R146, R157). -/
theorem exec_vectorT0 {n : NextVec} (hn : s.canPlay st.val = some n) :
    exec (.vectorT0 st) s = .next (s.playVector st.val n).settle := by
  show execVectorT0 st s = _
  simp only [execVectorT0, hn]
  rfl

/-- The SETF pairs for a channel before the segment of a vector. -/
def NextVec.setfOf (n : NextVec) (ch : Nat) : List (Nat × Nat) := n.p.setf.filter (fun e => e.1 == ch)

/-- The state after the T0 of a segment, with a channel's increments set and its SETF pairs used up. -/
def State.setfDone (s : State) (st ch : Nat) (n : NextVec) : State :=
  let v := (n.setfOf ch).foldl (fun a e => a.setInc e.1 e.2) (s.advToU n.t0)
  v.setStall st ((v.stall st).takeSetf ch)

/-- A channel is free-running and no odd channel of a PAIR, so a SETF restarts its phase (R185, R231). -/
def State.restartsPhase (s : State) (st ch : Nat) : Bool :=
  s.flag F.CHN_TG_CTL.mode ch && ! ((s.stall st).mode == 3 && ch % 2 == 1)

theorem restartsPhase_of_freeRunning {s : State} {st ch : Nat} (hm : s.flag F.CHN_TG_CTL.mode ch = true)
    (hp : (s.stall st).mode ≠ 3 ∨ ch % 2 = 0) : s.restartsPhase st ch = true := by
  rcases hp with h | h <;> simp [State.restartsPhase, hm, h]

theorem restartsPhase_otherwise {s : State} {st ch : Nat}
    (h : s.flag F.CHN_TG_CTL.mode ch = false ∨ (s.stall st).mode = 3 ∧ ch % 2 = 1) : s.restartsPhase st ch = false := by
  rcases h with h | ⟨h3, hodd⟩
  · simp [State.restartsPhase, h]
  · simp [State.restartsPhase, h3, hodd]

/-- A channel that a SETF before the segment names takes its increments at the segment's first T0 (R185). -/
theorem exec_setfPhaseReset {ch : ChIx} {n : NextVec} (hs : s.stallOfChan ch.val = some st.val)
    (hn : s.canPlay st.val = some n) (hf : n.first = true) (hm : n.setfOf ch.val ≠ []) :
    let w := s.setfDone st.val ch.val n
    exec (.setfPhaseReset ch) s =
      if w.restartsPhase st.val ch.val then .next (w.phaseReset ch.val n.t0).settle else .next w.settle := by
  intro w
  have due : (n.first && ! (n.p.setf.filter (fun e => e.1 == ch.val)).isEmpty) = true := by
    simpa [hf, NextVec.setfOf] using hm
  show execSetfPhaseReset ch s = _
  simp only [execSetfPhaseReset, hs, hn, if_pos due]
  rfl

/-- At a boundary of a running stall the highest cause due stops it (R176–R178). -/
theorem exec_stopBoundary {c : Nat} {t : List Nat} (hr : s.running st.val = true) (hc : s.stopCauses st.val = c :: t) :
    exec (.stopBoundary st) s = .next (s.stopAt st.val (t.foldl max c)).settle := by
  show execStopBoundary st s = _
  simp only [execStopBoundary, hc, if_pos hr]
  rfl

/-- A stall reset that waits on a stall which no longer runs completes (R181). -/
theorem exec_stallResetComplete (hr : s.running st.val = false)
    (hp : (s.stall st.val).stops.any (fun p => p.cause == 6) = true) :
    exec (.stallResetComplete st) s = .next (s.stallResetDone st.val).settle := by
  show execStallResetComplete st s = _
  simp only [execStallResetComplete, hr, hp]
  rfl

/-- Settles O57: each clause is the lemma above for its event; the two SETF clauses decide the restart of the phase. -/
theorem vectorsAndStopsTakePlace : Obligations.VectorsAndStopsTakePlace := by
  refine ⟨fun s st n hn => ⟨exec_vectorT0 hn, fun ch hs hf hm => ?_⟩,
    fun _ _ _ _ hr hc => exec_stopBoundary hr hc, fun _ _ hr hp => exec_stallResetComplete hr hp⟩
  have outcome := exec_setfPhaseReset hs hn hf hm
  exact ⟨fun hmode hp => outcome.trans (if_pos (restartsPhase_of_freeRunning hmode hp)),
    fun h => outcome.trans (if_neg (Bool.eq_false_iff.mp (restartsPhase_otherwise h)))⟩

end Sys2Proof.Machine
end

section
/-! SUPPORT. A write of a register without an effect of its own: it stores the merged word at the register's address, and
that is all (R500, R505, R506). -/

namespace Sys2Proof.Machine

open Sys2Proof

variable {s : State}

/-- A register keeps its value when a register at another address is stored. -/
theorem rg_setRg_ne {r t : R} {i j k l : Nat} (h : r.addr i j ≠ t.addr k l) (v : Nat) :
    (s.setRg t v k l).rg r i j = s.rg r i j :=
  congrArg BitVec.toNat (mget_mset_ne _ _ _ h)

/-- Storing a register changes the register file alone. -/
theorem setRg_eq_withRegs (s : State) (r : R) (v i j : Nat) : s.setRg r v i j = s.withRegs (s.setRg r v i j).regs := rfl

/-- Settles O21: each register of the list falls under the last arm of `applyReg`, which stores the merged word. -/
theorem plainRegisterWriteFrame : Obligations.PlainRegisterWriteFrame := by
  intro s r i j v hc hr
  have stored : s.applyReg r i j v = s.setRg r (mergeWrite r.row (s.rg r i j) v) i j := by
    fin_cases hr <;> rfl
  rw [stored]
  exact ⟨fun _ _ _ h => rg_setRg_ne h _, rg_setRg_same hc.regs r _ i j, setRg_eq_withRegs s r _ i j⟩

end Sys2Proof.Machine
end

section
/-! SUPPORT. The events of a channel: a placed compare event, a grid sample, the end of an equaliser window; and the
characters of a framer (R252–R255, R270–R273, R278, R293, log 60, log 61). -/

namespace Sys2Proof.Machine

open Sys2Proof

variable {s : State} {ch : ChIx} {st : StallIx}

/-! ### Compare events (R253–R255) -/

/-- The next placed compare event of a channel, known to be the next, takes effect at its instant; a stop discards the
window that it leaves open. -/
theorem exec_compareEvent {e : CmpEvt} {t : List CmpEvt} {h l : Bool} (hs : s.stallOfChan ch.val = some st.val)
    (hc : (s.chan ch.val).cmp = e :: t) (hk : s.cmpKnown st.val ch.val e = true) :
    let v := ((s.advToU e.at_).setChan ch.val { s.chan ch.val with cmp := t }).compareEvent st.val ch.val e h l
    exec (.compareEvent ch h l) s = .next (if v.running st.val then v else v.cutWin st.val ch.val).settle := by
  show execCompareEvent ch h l s = _
  simp only [execCompareEvent, hs, hc, if_pos hk]
  rfl

/-! ### Grid samples (R252, R254, R293) -/

/-- A running stall samples every channel that is no odd one of a PAIR (R228, R293). -/
theorem gridOn_of_running {s : State} {st ch : Nat} (hr : s.running st = true)
    (hp : (s.stall st).mode ≠ 3 ∨ ch % 2 = 0) : s.gridOn st ch = true := by
  rcases hp with hp | hp <;> simp [State.gridOn, hr, hp]

/-- A channel's first sample is kept and checked. -/
theorem firstSample_of_noGrid {s : State} {ch code : Nat} (hg : (s.chan ch).grid = []) :
    s.firstSample ch code = (s.setChan ch { s.chan ch with grid := [(0, code)] }).noteSample ch code :=
  if_pos (by rw [hg]; rfl)

/-- The state at grid sample `k`, with its code kept after the sample `g` before it, and both checked. The samples before
`g` stay only while a window is open. -/
def State.edgeKept (s : State) (st ch k code : Nat) (g : Nat × Nat) (rest : List (Nat × Nat)) : State :=
  let v := (s.advToU (skewed ((s.stall st).epoch + 625 * k / 2) (s.cmpSkew ch))).setChan ch
    { s.chan ch with grid := (k, code) :: (if (s.chan ch).win.isSome then g :: rest else [g]) }
  (v.noteSample ch g.2).noteSample ch code

/-- The sample before an edge is the last one kept. -/
theorem lastGrid_of_cons {s : State} {ch : Nat} {g : Nat × Nat} {rest : List (Nat × Nat)}
    (hg : (s.chan ch).grid = g :: rest) : s.lastGrid ch = (g, s) := by
  simp only [State.lastGrid, hg]

/-- A sample that differs from the last one kept is kept, and recorded where the channel is not masked and its vector
captures edges. -/
theorem gridEdge_of_differing {s : State} {st ch k n code : Nat} {g : Nat × Nat} {rest : List (Nat × Nat)}
    (hg : (s.chan ch).grid = g :: rest) (hk : g.1 ≤ k) (hne : code ≠ g.2) :
    let w := s.edgeKept st ch k code g rest
    s.gridEdge st ch k n code =
      if w.flag F.CHN_CMP_CTL.mask ch || ! tbit (s.chan ch).caps (((s.stall st).vec.getD 0) - n) then w
      else w.form ch ⟨2, 0, st, ch, code + 4 * g.2, k % 2 ^ 56, n % 2 ^ 40⟩ := by
  have taken : ¬ (k < g.1 ∨ code = g.2) := by simp [hne, hk]
  simp only [State.gridEdge, lastGrid_of_cons hg, if_neg taken, hg, List.drop_one, List.tail_cons]
  rfl

section
variable (hs : s.stallOfChan ch.val = some st.val) (hon : s.gridOn st.val ch.val = true)
include hs hon

/-- Sample −1 of a channel that is sampled is taken. -/
theorem exec_edgeCapture_first {h l : Bool} :
    exec (.edgeCapture ch none h l) s = .next (s.firstSample ch.val (s.sample ch.val h l)).settle := by
  show execEdgeCapture ch none h l s = _
  simp only [execEdgeCapture, hs, hon]
  rfl

/-- Grid sample `k` of a channel that is sampled is judged in the vector that holds it. -/
theorem exec_edgeCapture_sample {k n : Nat} {h l : Bool} (hn : (s.stall st.val).holder k = some n) :
    exec (.edgeCapture ch (some k) h l) s
      = .next (s.gridEdge st.val ch.val k n (s.sample ch.val h l)).settle := by
  show execEdgeCapture ch (some k) h l s = _
  simp only [execEdgeCapture, hs, hon, hn]
  rfl

end

/-! ### Equaliser windows (R270–R273) -/

/-- The state at the end of a channel's equaliser window, with the window counted. -/
def State.eqWindowOver (s : State) (st ch : Nat) : State :=
  let c := s.chan ch
  (s.advToU (skewed ((s.stall st).epoch + (c.eqWin + 1) * eqSpan (s.stall st).mode) (s.cmpSkew ch))).setChan ch
    { c with eqWin := c.eqWin + 1 }

/-- The channel is the receive channel of its octet's framer, which is enabled. -/
def State.framed (s : State) (ch : Nat) : Bool := s.flag F.FRM_RX_CTL.en (ch / 8) && s.rxChan (ch / 8) == ch

/-- Both receivers of a channel stand still: adaptation is off, or the framer has seen an idle ordered set (R271). -/
def State.eqStill (s : State) (ch : Nat) : Bool :=
  ! s.flag F.CHN_EQ_CTL.adapt_en ch || (s.framed ch && (s.framer (ch / 8)).idleSeen)

/-- A channel's transition counts are set, each at most 4,096, and its receivers take their steps. -/
def State.eqAdapt (s : State) (ch transH transL stepH stepL : Nat) (still : Bool) : State :=
  ((s.setRg .CHN_EQ_WIN (min 4096 transH + min 4096 transL * 2 ^ 16) ch).eqReceiver ch F.CHN_EQ_STAT.code_h
    F.CHN_EQ_CTL.trained_h F.CHN_EQ_STAT.frozen_h F.CHN_EQ_STAT.bound_h transH stepH still).eqReceiver ch
    F.CHN_EQ_STAT.code_l F.CHN_EQ_CTL.trained_l F.CHN_EQ_STAT.frozen_l F.CHN_EQ_STAT.bound_l transL stepL still

/-- The end of an equaliser window of a channel that is sampled adapts its receivers; the framer's note of an idle ordered
set starts again. -/
theorem exec_eqWindowEnd {transH transL : BitVec 13} {stepH stepL : Fin 3} (hs : s.stallOfChan ch.val = some st.val)
    (hon : s.gridOn st.val ch.val = true) :
    let o := ch.val / 8
    let a := s.eqWindowOver st.val ch.val
    let d := a.eqAdapt ch.val transH.toNat transL.toNat stepH.val stepL.val (a.eqStill ch.val)
    exec (.eqWindowEnd ch transH transL stepH stepL) s
      = .next (if a.framed ch.val then d.setFramer o { d.framer o with idleSeen := false } else d).settle := by
  have sampled : ¬ (! s.running st.val || ((s.stall st.val).mode == 3 && ch.val % 2 == 1)) = true := by
    simpa [State.gridOn, imp_iff_not_or] using hon
  show execEqWindowEnd ch transH transL stepH stepL s = _
  simp only [execEqWindowEnd, hs, if_neg sampled]
  rfl

/-! ### Framers (R278) -/

section
variable {o : OctIx} (hs : s.stallOfOct o.val = some st.val)
include hs

/-- A character that the encoder completes was placed with its vectors, and changes nothing more (log 61). -/
theorem exec_framerCharacter_tx : exec (.framerCharacter o true) s = .next s.settle := by
  show execFramerCharacter o true s = _
  simp only [execFramerCharacter, hs]
  rfl

/-- The decoder takes the bits that are ready, up to ten. -/
theorem exec_framerCharacter_rx :
    exec (.framerCharacter o false) s = .next (s.framerBits st.val o.val 10).settle := by
  show execFramerCharacter o false s = _
  simp only [execFramerCharacter, hs]
  rfl

end

/-- Of the bits that a decoder may take, it takes a ready one first. -/
theorem framerBits_of_ready {s : State} {st o n : Nat} (hr : s.bitReady st o = true) :
    s.framerBits st o (n + 1) = (s.framerBit st o).framerBits st o n :=
  if_pos hr

/-- Settles O58: each clause is the lemma above for its event, for a channel that is sampled or a bit that is ready. -/
theorem channelEventsComplete : Obligations.ChannelEventsComplete := by
  refine ⟨fun s ch st hs => ⟨fun e t h l hc hk => exec_compareEvent hs hc hk, fun hr hp => ?_⟩,
    fun s o st hs => ⟨exec_framerCharacter_tx hs, fun hb => ?_⟩⟩
  · have hon := gridOn_of_running hr hp
    refine ⟨fun h l hg => ?_, fun k n h l g rest hn hg hk hne => ?_, fun _ _ _ _ => exec_eqWindowEnd hs hon⟩
    · rw [exec_edgeCapture_first hs hon, firstSample_of_noGrid hg]
    · rw [exec_edgeCapture_sample hs hon hn, gridEdge_of_differing hg hk hne]
      rfl
  · rw [exec_framerCharacter_rx hs, framerBits_of_ready hb]

end Sys2Proof.Machine
end

section
/-! SUPPORT. The events of acquisition, time-interval units and filters: records on their way, GAP and TIME pairs,
triggers and windows, gates, edges and results, filter samples (R292, R301, R302, R304–R306, R323–R328, R334, R338). -/

namespace Sys2Proof.Machine

open Sys2Proof

variable {s : State}

/-! ### Records (R15, R16, R301, R302, R304) -/

theorem advTo_injected (t n : Nat) : (s.advTo t).injected n = s.injected n := by
  simp only [State.injected, State.flag, State.fl, State.rg, State.rd, advTo_regs]

/-- The engine takes the record `r` of buffer `i`, a MARK after its trigger's cycle, and leaves `t` there; source 12 reports
a bad flit. -/
def State.takeRecord (s : State) (i : Nat) (r : Rec) (t : List Rec) (bad : Bool) : State :=
  let a := if r.type = 3 then s.advTo (((s.stall r.stall).epoch + r.tag / 8 * unitsPerCyc) / unitsPerCyc + 1) else s
  if bad then (a.setBuf i t).raise 12 1 false (some r.stall) else a.setBuf i t

/-- Neither the wait for a MARK's cycle nor the buffer holds the pending injection. -/
theorem checkFlit_takeRecord (hj : s.injected 12 = false) (i : Nat) (r : Rec) (t : List Rec) (bad : Bool) :
    ((if r.type = 3 then s.advTo (((s.stall r.stall).epoch + r.tag / 8 * unitsPerCyc) / unitsPerCyc + 1)
      else s).setBuf i t).checkFlit 1 (some r.stall) bad = (bad, s.takeRecord i r t bad) := by
  refine checkFlit_uninjected ?_ 1 (some r.stall) bad
  split
  · exact (advTo_injected _ 12).trans hj
  · exact hj

section
variable {i : Fin 176} {r : Rec} {t : List Rec} (hb : s.buf i.val = r :: t) (hj : s.injected 12 = false) (bad : Bool)
include hb hj

theorem exec_recordAccept_unrouted (hd : (s.takeRecord i.val r t bad).destOf r.stall r.type = none) :
    exec (.recordAccept i bad) s = .next ((s.takeRecord i.val r t bad).bump F.ACQ_DISC.count 1 r.stall).settle := by
  show execRecordAccept i bad s = _
  simp only [execRecordAccept, hb, checkFlit_takeRecord hj, hd, done]

theorem exec_recordAccept_routed {d : Nat} (hd : (s.takeRecord i.val r t bad).destOf r.stall r.type = some d) :
    exec (.recordAccept i bad) s = .next (if bad then (s.takeRecord i.val r t bad).lose d 5 r
      else (s.takeRecord i.val r t bad).deliver d r).settle := by
  show execRecordAccept i bad s = _
  simp only [execRecordAccept, hb, checkFlit_takeRecord hj, hd, done]

end

/-! ### Pairs, triggers and windows (R292, R302, R305, R306) -/

theorem exec_gapPairWrite {st : StallIx} {d : Fin 32769} (hd : d.val ≠ ringDest) (ha : s.inReset .acq = false)
    (hq : s.inReset .qm = false) : exec (.gapPairWrite st d) s = .next (s.closeLoss st.val d.val).settle :=
  if_neg (by simp [hd, ha, hq])

theorem exec_timePairPeriodic {st : StallIx} (hr : s.running st.val = true) :
    let m := (s.stall st.val).timePairs + 1
    let v := s.advToU ((s.stall st.val).epoch + m * 2 ^ 40 * 625 / 2)
    exec (.timePairPeriodic st) s = .next ((v.setStall st.val { s.stall st.val with timePairs := m }).timePair
      st.val (m * 2 ^ 40 % 2 ^ 56)).settle :=
  if_neg (by simp [hr])

/-- The next edge of an enabled pulse is its rise or its fall. -/
theorem exec_trigOutPulse {n : Fin 4} {t : Nat} {p : Pulse} (he : s.flag F.ACQ_TRIGOUT.en n.val = true)
    (hp : (mget (fun _ => ({} : Pulse)) s.trigOut n.val).edge = some (t, p)) : exec (.trigOutPulse n) s
      = .next ((s.advTo t).withTrigOut (mset (fun _ => ({} : Pulse)) s.trigOut n.val p)).settle := by
  show execTrigOutPulse n s = _
  simp only [execTrigOutPulse, he, if_true, hp, done]

/-! ### Gates and edges of the time-interval units (R323, R324, R326, R334) -/

section
variable {k : Fin 16}

theorem exec_timGateOpen (hp : s.pinGate k.val = true) (hg : (s.tim k.val).gateOpen = false) :
    exec (.timGateOpen k) s = .next (s.openGate k.val s.nowU).settle :=
  if_pos (by simp [hp, hg])

theorem exec_timGateClose (hp : s.pinGate k.val = true) (hg : (s.tim k.val).gateOpen = true) :
    exec (.timGateClose k) s = .next (s.closeGate k.val).settle :=
  if_pos (by simp [hp, hg])

/-- A unit takes a stop edge that is not its last. -/
theorem takeStop_counted {u t cp fp : Nat} {n : Int} (h : (s.tim u).stops + 1 < s.fl F.TIM_CTL.stop_count u) :
    s.takeStop u t cp fp n = s.setTim u { s.tim u with stops := (s.tim u).stops + 1 } :=
  if_pos h

/-- A unit takes its last stop edge. -/
theorem takeStop_last {u t cp fp : Nat} {n : Int} (h : s.fl F.TIM_CTL.stop_count u ≤ (s.tim u).stops + 1) :
    s.takeStop u t cp fp n = s.deliverTim u cp fp n false t :=
  if_neg (Nat.not_lt.mpr h)

variable (hs : s.timSync k.val = false)
include hs

theorem exec_timStartEdge {c : BitVec 48} {f : BitVec 12} (hw : s.timState k.val = tmWaitStart) :
    let t := s.cycleOf c
    let v := s.advTo t
    (s.tim k.val).openAt * 1024 ≤ lsbAt t f.toNat * 625 →
    v.edgeFrom F.TIM_START_SRC.src F.TIM_START_SRC.index F.TIM_START_SRC.edge k.val (lsbAt t f.toNat) = true →
    exec (.timStartEdge k c f) s = .next ((v.setTim k.val { v.tim k.val with
      cs := c.toNat, fs := f.toNat, startT := t, stops := 0
      gateOpen := (v.tim k.val).gateOpen && v.fl F.TIM_CTL.gate_src k.val != 0 }).setTimState k.val tmWaitStop).settle :=
  fun ho he => if_pos ⟨hw, by simp [hs], ho, he⟩

section
variable {c : BitVec 48} {f : BitVec 12} (hw : s.timState k.val = tmWaitStop)
  (hm : (s.advTo (s.cycleOf c)).stopMay k.val (lsbAt (s.cycleOf c) f.toNat) = true)
include hw hm

/-- A stop edge within 20 ps of the start: a free value says whether it counts, and is its N (log 71). -/
theorem exec_timStopEdge_close
    (hg : (lsbAt (s.cycleOf c) f.toNat - lsbAt (s.tim k.val).startT (s.tim k.val).fs) * 625 ≤ 81920) :
    let d := (s.advTo (s.cycleOf c)).draw 65
    exec (.timStopEdge k c f) s = .next (if d.1.getLsbD 64 then
      d.2.takeStop k.val (s.cycleOf c) c.toNat f.toNat (d.1.setWidth 64).toInt else d.2).settle := by
  intro d
  show execTimStopEdge k c f s = _
  rw [execTimStopEdge, if_pos ⟨hw, by simp [hs], hm⟩, if_pos hg]
  exact (apply_ite done _ _ _).symm

theorem exec_timStopEdge
    (hg : 81920 < (lsbAt (s.cycleOf c) f.toNat - lsbAt (s.tim k.val).startT (s.tim k.val).fs) * 625) :
    let v := s.advTo (s.cycleOf c)
    exec (.timStopEdge k c f) s
      = .next (v.takeStop k.val (s.cycleOf c) c.toNat f.toNat (v.timN k.val c.toNat f.toNat)).settle := by
  intro v
  show execTimStopEdge k c f s = _
  rw [execTimStopEdge, if_pos ⟨hw, by simp [hs], hm⟩, if_neg (Nat.not_le.mpr hg), done]

end

/-! ### The end of a measurement (R324, R328) -/

theorem exec_timTimeout (hw : s.timState k.val = tmWaitStop) (ht : s.fl F.TIM_TIMEOUT.timeout k.val ≠ 0) :
    let t := (s.tim k.val).startT + s.fl F.TIM_TIMEOUT.timeout k.val * usCyc
    exec (.timTimeout k) s = .next ((s.advTo t).deliverTim k.val 0 0 0 true t).settle :=
  if_pos ⟨hw, by simp [hs], ht⟩

theorem exec_timDeadEnd (hw : s.timState k.val = tmDead) :
    let v := s.advTo (s.tim k.val).deadAt
    exec (.timDeadEnd k) s = .next (if v.flag F.TIM_CTL.repeat_ k.val then v.setTimState k.val tmWaitGate
      else (v.setFlag F.TIM_CTL.en false k.val).setTimState k.val tmOff).settle := by
  intro v
  show execTimDeadEnd k s = _
  rw [execTimDeadEnd, if_pos ⟨hw, by simp [hs]⟩]
  exact (apply_ite done _ _ _).symm

end

/-! ### Filter samples (R338) -/

/-- The outcome that an enabled chain of a running stall gives for the vector that is due. -/
theorem exec_fltInputSample {c : Fin 16} (ha : s.flag F.FLT_ASSIGN.assigned c.val = true)
    (he : s.flag F.FLT_CTL.en c.val = true) (hr : s.running (s.fl F.FLT_ASSIGN.stall c.val) = true)
    (hf : s.inReset .flt = false) :
    let st := s.fl F.FLT_ASSIGN.stall c.val
    let f := (s.flt c.val).applyResets (s.fltStep c.val st)
    let vec := f.v0 + f.s * s.fltStep c.val st
    s.fltReady c.val st vec = true →
    let v := (s.setFlt c.val f).controlFlit 1
    let bits := (v.fltChans c.val).map (fun ch => v.fltBit ch vec)
    let w := if bits.any Option.isNone then v.setFlag F.FLT_STAT.no_strobe true c.val else v
    let t0 := (((w.stall st).t0s.find? (fun e => e.1 == vec)).map (fun e => e.2)).getD (w.stall st).t0
    let y := w.fltSample c.val st t0 (w.fltValue c.val (bits.map (fun b => b.getD false)))
    exec (.fltInputSample c) s = .next ((y.fltChans c.val).foldl (fun z ch => z.dropBits st ch) y).settle :=
  fun hv => (if_pos (by simp [ha, he, hr, hf])).trans (if_pos hv)

/-- Settles O59: each clause is the lemma above for its event; the auto trigger and the rearm have no guard but their own
premise, and a stop edge beyond 20 ps is the last one or not. -/
theorem acquisitionAndIntervalEventsComplete : Obligations.AcquisitionAndIntervalEventsComplete := by
  refine ⟨fun s i r t bad hb hj => ⟨exec_recordAccept_unrouted hb hj bad, fun d => exec_recordAccept_routed hb hj bad⟩,
    fun s st => ⟨fun d => exec_gapPairWrite, exec_timePairPeriodic, fun ha => if_pos ha, fun hw => if_pos hw⟩,
    fun s n t p => exec_trigOutPulse,
    fun s k => ⟨fun hp => ⟨exec_timGateOpen hp, exec_timGateClose hp⟩, fun c f hw hs => exec_timStartEdge hs hw,
      fun c f hw hs hm => ⟨exec_timStopEdge_close hs hw hm, fun hg hn => ?_, fun hg hn => ?_⟩,
      fun hw hs => exec_timTimeout hs hw, fun hw hs => exec_timDeadEnd hs hw⟩,
    fun s c => exec_fltInputSample⟩
  · rw [exec_timStopEdge hs hw hm hg, takeStop_counted hn]
  · rw [exec_timStopEdge hs hw hm hg, takeStop_last hn]

end Sys2Proof.Machine
end

section
/-! SUPPORT. A queue has one consumer: STREAM_OPEN of a queue that is taken, and the consumer field of a tailrace queue
(R359, R371, R380). -/

namespace Sys2Proof.Machine

open Sys2Proof

variable {s u : State} {h : Hdr} {slot : Nat} {x : Session}

/-! ### STREAM_OPEN -/

/-- STREAM_OPEN that passes the checks of its parameters and of ownership gets no second consumer for a queue that has one
(R371). -/
theorem streamOpenBody_taken {queue maxp flush : BitVec 16} {limit : BitVec 32}
    (hs : queueShape h queue.toNat 10 = true) (hm : 256 ≤ maxp.toNat) (hm' : maxp.toNat ≤ plenMax h.bind)
    (hl : limit.toNat ≤ 4096) (hf : 1 ≤ flush.toNat) (hf' : flush.toNat ≤ 10000)
    (ho : u.mayOpen slot queue.toNat = true)
    (ht : u.stream queue.toNat ≠ none ∨ u.flag F.QM_CFG.consumer queue.toNat = true) :
    streamOpenBody h queue maxp limit flush slot u = refuse stNoResource u := by
  have legal : (! queueShape h queue.toNat 10 || maxp.toNat < 256 || plenMax h.bind < maxp.toNat || 4096 < limit.toNat
      || flush.toNat = 0 || 10000 < flush.toNat) = false := by
    simp only [hs, Bool.not_true, Bool.false_or, Bool.or_eq_false_iff, decide_eq_false_iff_not]
    omega
  have taken : ((u.stream queue.toNat).isSome || u.flag F.QM_CFG.consumer queue.toNat) = true := by
    simpa [Option.isSome_iff_ne_none] using ht
  simp only [streamOpenBody, legal, ho, taken]
  rfl

/-! ### The consumer field of a tailrace queue -/

/-- The tailrace queues are numbers 512 to 1023 (R359). -/
theorem tailStall_ne_none {q : Nat} : tailStall q ≠ none ↔ 512 ≤ q ∧ q < 1024 := by
  simp [tailStall]

/-- The descriptor of a tailrace queue belongs to the stall that the queue serves (R359, R506). -/
theorem regRes_QM_CFG_tailrace {q st : Nat} (ht : tailStall q = some st) : u.regRes .QM_CFG q 0 = some st := by
  have hq : 64 ≤ q := by
    have := tailStall_ne_none.mp (ht ▸ Option.some_ne_none st)
    omega
  simp [State.regRes, writable, queueRes, ht, hq, Nat.not_lt.mpr hq]

/-- QM_CFG of a tailrace queue refuses consumer 1, whatever its other fields hold (R9, R371). -/
theorem badCode_QM_CFG_consumer {l : List (Nat × Nat)} {q v : Nat} (ht : tailStall q ≠ none) (hv : tbit v 12 = true) :
    u.badCode l .QM_CFG q 0 v = true := by
  simp [State.badCode, hv, Option.isSome_iff_ne_none.mpr ht]

/-- No queue's descriptor has consumer 1 at reset (R380). -/
theorem qmCfgReset_consumer (q : Nat) : bitsOf (qmCfgReset q) 12 12 = 0 := by
  unfold qmCfgReset
  split_ifs <;> rfl

theorem regAt_QM_CFG {q : Nat} (hq : q < 32768) : regAt (R.addr .QM_CFG q) = some (.QM_CFG, q, 0) :=
  regAt_addr (rowRegs_own _ (by decide)) hq (by decide)

/-- At reset QM_CFG holds its Reset-column value (R7, R380). -/
theorem reset_rg_QM_CFG {q : Nat} (hq : q < 32768) : State.reset.rg .QM_CFG q = qmCfgReset q % 2 ^ 32 := by
  show (regRst (R.addr .QM_CFG q)).toNat = _
  simp [regRst, regAt_QM_CFG hq, R.reset]

theorem reset_consumer {q : Nat} (hq : q < 32768) : State.reset.flag F.QM_CFG.consumer q = false := by
  have field : bitsOf (State.reset.rg .QM_CFG q) 12 12 = 0 := by
    rw [reset_rg_QM_CFG hq, bitsOf_mod_word _ _ (by decide), qmCfgReset_consumer]
  simp [State.flag, State.fl, field]

/-- A write of a tailrace queue's descriptor with consumer 1 is refused before any other check (R371, R500 order 1). -/
theorem exec_qmCfgWrite_consumer (A : Admits s h slot x) {q : QIx} {v : Word} (hg : h.target = 0xff) (hp : h.plen = 10)
    (ht : tailStall q.val ≠ none) (hv : v.getLsbD 12 = true) :
    exec (.qmCfgWrite h q v) s = .next ((s.taken h slot x).replies slot h 0x0011 stBadParam []) := by
  obtain ⟨st, hst⟩ := Option.ne_none_iff_exists'.mp ht
  exact done_oneReg A hg hp
    (writeRegs_badCode (regAt_QM_CFG q.isLt) (regRes_QM_CFG_tailrace hst) (badCode_QM_CFG_consumer ht hv))

/-- Settles O31: STREAM_OPEN stops at its check for a consumer, the write of the field at its check of codes, and the reset
value is the descriptor's own. -/
theorem consumedQueueRefusesStream : Obligations.ConsumedQueueRefusesStream :=
  ⟨fun _ _ _ _ _ _ _ _ A hq hg hp hm hm' hl hf hf' ho ht =>
      done_reply A (streamOpenBody_taken (queueShape_of hq hg hp) hm hm' hl hf hf' ho ht),
    fun _ _ _ _ _ _ A hg hp ht hv => exec_qmCfgWrite_consumer A hg hp ht hv,
    fun _ ht => reset_consumer (by have := tailStall_ne_none.mp ht; omega)⟩

end Sys2Proof.Machine
end

section
/-! SUPPORT. A step with a command waiting takes the one at the front (R112). -/

namespace Sys2Proof.Machine

/-- Settles O1: the two sides are the same call of `exec`. -/
theorem stepRunsFrontCommand : Obligations.StepRunsFrontCommand := fun _ _ _ => rfl

end Sys2Proof.Machine
end

section
/-! SUPPORT. The register map: every register's address is its own, except those of a sequencer stack's entries, whose two
halves take turns in one range (R208, R498). -/

namespace Sys2Proof.Machine

theorem mem_regKinds (r : R) : r ∈ regKinds := by
  cases r <;> decide +kernel

/-- Every listed register has its addresses to itself, save the two of the stack's entries. -/
theorem regKinds_own : ∀ r ∈ regKinds, r ≠ .STL_STACK_A → r ≠ .STL_STACK_B → r.own = true := by decide +kernel

/-- Settles O17: the register map is checked once, kind against kind; the address of a kind found apart leads back to it. -/
theorem registerMapUnambiguous : Obligations.RegisterMapUnambiguous :=
  fun r _ _ ha hb hi hj => regAt_addr (regKinds_own r (mem_regKinds r) ha hb) hi hj

end Sys2Proof.Machine
end

section
/-! SUPPORT. The checks of one register write, in the order of R500. -/

namespace Sys2Proof.Machine

open Sys2Proof

variable {u : State} {r : R} {i j v slot res : Nat}

/-- The checks of a write of a register that has writable fields and an owner resource, from the codes to the drop rules
(R500 orders 1 to 6). -/
theorem writeStatus_owned {l : List (Nat × Nat)} (hr : regAt (r.addr i j) = some (r, i, j)) (ho : u.regRes r i j = some res) :
    u.writeStatus l slot (r.addr i j) v =
      if u.badCode l r i j v then stBadParam
      else if u.level = 3 ∧ timingDie (r.addr i j) then stNoResource
      else if ! u.owns slot res then stNotOwner
      else if u.addrInReset (r.addr i j) then stBusy
      else if u.runningDrop r i j v then stStallRunning
      else u.otherDrop l r i j v := by
  simp only [State.writeStatus, hr, ho]

/-- Settles O19: the row is one call of WRITE_REG, whose status is that of the first check in the chain that fails. -/
theorem registerWriteChecksInOrder : Obligations.RegisterWriteChecksInOrder := by
  intro c s h slot x r i j v res hc hw A ht hp u a ho
  have refused {st : Nat} (e : u.writeStatus [(a, v)] slot a v = st) (hne : st ≠ 0) :
      exec c s = .next (u.replies slot h 0x0011 st []) :=
    (exec_rowWrite hc hw).trans (done_oneReg A ht hp (writeRegs_refused e hne))
  rw [writeStatus_owned (regAt_rowWrite hw) ho] at refused
  refine ⟨fun code => ?_, fun code => ⟨fun level => ?_, fun level => ⟨fun own => ?_, fun own => ⟨fun rst => ?_,
    fun rst => ⟨fun run => ?_, fun run other => ?_⟩⟩⟩⟩⟩
  · exact refused (if_pos code) (by decide)
  · exact refused (by rw [code, if_neg Bool.false_ne_true, if_pos level]) (by decide)
  · exact refused (by rw [code, if_neg Bool.false_ne_true, if_neg level, own]; rfl) (by decide)
  · exact refused (by rw [code, if_neg Bool.false_ne_true, if_neg level, own, rst]; rfl) (by decide)
  · exact refused (by rw [code, if_neg Bool.false_ne_true, if_neg level, own, rst, run]; rfl) (by decide)
  · exact refused (by rw [code, if_neg Bool.false_ne_true, if_neg level, own, rst, run]; rfl) other

end Sys2Proof.Machine
end

section
/-! SUPPORT. An injection whose record in the fault queue takes that queue's on-chip room below 8,192 words, so that ACQ_OVERRUN
of a stall with a kept route to the queue activates with it (R294, R300, R479). -/

namespace Sys2Proof.Machine

open Sys2Proof

/-- The session that owns the device, on the management port. -/
def deviceOwner : Session where
  gen := 0
  expired := false
  client := 0
  bind := .mgmt
  leaseMs := 1000
  leaseEnd := 1000 * msCyc
  expiredAt := 0
  nextSeq := 0
  helloSeq := 0
  helloOnly := true
  cache := []
  evSeq := 0
  wait := none

/-- Its first command after HELLO: a FAULT_INJECT. -/
def injectHdr : Hdr := { bind := .mgmt, session := 0, seq := 0, target := 0xff, plen := 1 }

/-- The part in service with stall 0 running, reserved, and its records of type 0 routed to the fault queue, which is empty and
has 8,192 words on-chip. The reaction of source 7 is to log only. -/
def routedToFaultQueue : State :=
  let s := ((State.reset.withPhase .ready).setSession 0 (some deviceOwner)).setOwner devRes (some 0)
  let s := (s.setFl F.STL_SEQ_STAT.state stRunning 0).setFlag F.ACQ_CTL.reserved_run true 0
  ((s.setRg .ACQ_ROUTE (8 + 0x8000) 0 0).setRg .QM_CFG (1 + 13 * 2 + 13 * 64) 8).setReaction 7 0

theorem routedToFaultQueue_canon : routedToFaultQueue.Canon := by constructor <;> decide +kernel

theorem injectHdr_passes : Admits routedToFaultQueue injectHdr 0 deviceOwner where
  fresh := rfl
  ready := rfl
  heard := rfl
  version := rfl
  handle := by decide +kernel
  session := rfl
  bound := rfl
  live := rfl
  turn := by decide +kernel
  inOrder := rfl

/-- Refutes O42, by its clause on the other sources: the record of the injected source 7 brings queue 8 from 8,192 free words
to 8,190, and source 80, ACQ_OVERRUN of stall 0, activates too. -/
theorem not_injectionIsReported : ¬ Obligations.InjectionIsReported := by
  intro holds
  obtain ⟨_, _, _, others⟩ := holds routedToFaultQueue _ injectHdr 0 deviceOwner 7 injectHdr_passes rfl rfl
    (by decide +kernel) (by decide) (by decide) (by decide) (by decide +kernel) (by decide +kernel)
    routedToFaultQueue_canon (by decide +kernel) (by decide +kernel) (by decide +kernel) (by decide +kernel) rfl
  have overrun := others 80 (by decide) (by decide)
  revert overrun
  decide +kernel

end Sys2Proof.Machine
end

section
/-! SUPPORT. TIME_READ and the registers that a read of TB_CNT_LO latches (R443, R502). -/

namespace Sys2Proof.Machine

open Sys2Proof

variable {s u : State} {h : Hdr} {slot : Nat} {x : Session} {r : R} {i j : Nat}

/-! ### TIME_READ -/

/-- Network time follows from three parts of the state (R440, R441). -/
theorem nt_congr {t : State} (hofs : t.ofs = s.ofs) (hrate : t.rate = s.rate) (hcnt : t.cnt = s.cnt) : t.nt = s.nt := by
  simp only [State.nt, hofs, hrate, hcnt]

/-- Taking a command leaves network time. -/
@[simp] theorem taken_nt : (s.taken h slot x).nt = s.nt := by
  obtain ⟨g, e⟩ := heard_eq s h
  have hofs : (s.heard h).2.ofs = s.ofs := by rw [e]
  have hrate : (s.heard h).2.rate = s.rate := by rw [e]
  exact nt_congr (s := s) (t := s.taken h slot x) hofs hrate (taken_cnt s h slot x)

/-- So does its reply when no report waits, which takes no time either. -/
theorem replies_time {op c : Nat} {p : List Byte} (hr : u.reports = []) :
    let t := u.replies slot h op c p
    t.cnt = u.cnt ∧ t.now = u.now ∧ t.nt = u.nt := by
  intro t
  have calm : t = ((u.replyTo slot (BitVec.ofNat 16 op) h.seq h.target c p).withResuming false).sweepShadows :=
    replies_calm hr
  obtain ⟨k, e⟩ := sweepShadows_eq ((u.replyTo slot (BitVec.ofNat 16 op) h.seq h.target c p).withResuming false)
  rw [calm, e]
  exact ⟨replyTo_cnt .., replyTo_now .., nt_congr (replyTo_ofs ..) (replyTo_rate ..) (replyTo_cnt ..)⟩

/-- The parameters of a command's reply are at the front of its session's cache. -/
theorem replies_cached {op c : Nat} {p : List Byte} (hr : u.reports = []) (hx : u.session slot = some x) {y : Session}
    (hy : (u.replies slot h op c p).session slot = some y) : y.cache.head?.map (fun m => m.params) = some p := by
  rw [replies_calm hr, sweepShadows_session] at hy
  obtain rfl := Option.some.inj ((replyTo_session hx ..).symm.trans hy)
  rfl

theorem taken_TB_valid : (s.taken h slot x).flag F.TB_STAT.valid = s.flag F.TB_STAT.valid := by
  simp only [State.flag]
  rw [taken_fl (by decide) (by decide) (by decide) (by decide) (by decide)]

/-! ### The registers that a read of TB_CNT_LO latches -/

/-- They follow the time base and not what is latched. -/
theorem regNow_setLatch {t : R} {k m : Nat} (hr : r ∈ latches .TB_CNT_LO) (v : Nat) :
    (s.setLatch t v k m).regNow r 0 0 = s.regNow r 0 0 := by
  simp only [latches, List.mem_cons, List.not_mem_nil, or_false] at hr
  obtain rfl | rfl | rfl | rfl | rfl | rfl | rfl := hr <;> rfl

theorem latches_TB_CNT_LO_addr : ∀ r ∈ latches .TB_CNT_LO, ∀ t ∈ latches .TB_CNT_LO, r ≠ t → r.addr ≠ t.addr := by decide

theorem latched_setLatch_same (v : Nat) : (s.setLatch r v i j).latched r i j = some (BitVec.ofNat 32 v) :=
  mget_mset_listed _ _ _ (by simp)

theorem latched_setLatch_ne {t : R} {k m : Nat} (ha : r.addr i j ≠ t.addr k m) (v : Nat) :
    (s.setLatch t v k m).latched r i j = s.latched r i j :=
  mget_mset_ne _ _ _ ha

/-- Registers latched one after the other, each as it stands. -/
def State.latchAll (s : State) (l : List R) : State := l.foldl (fun s r => s.setLatch r (s.regNow r 0 0)) s

theorem latched_latchAll_ne : ∀ (l : List R) (s : State), (∀ t ∈ l, r.addr ≠ t.addr) →
    (s.latchAll l).latched r = s.latched r
  | [], _, _ => rfl
  | t :: l, _, ha => (latched_latchAll_ne l _ fun t' ht => ha t' (List.mem_cons_of_mem t ht)).trans
      (latched_setLatch_ne (ha t List.mem_cons_self) _)

/-- Each of them is latched as it stood before the first. -/
theorem latched_latchAll (hr : r ∈ latches .TB_CNT_LO) (l : List R) (hl : ∀ t ∈ l, t ∈ latches .TB_CNT_LO) (hm : r ∈ l) :
    (s.latchAll l).latched r = some (BitVec.ofNat 32 (s.regNow r 0 0)) := by
  induction l generalizing s with
  | nil => cases hm
  | cons t l ih =>
    have hl' : ∀ t' ∈ l, t' ∈ latches .TB_CNT_LO := fun t' ht => hl t' (List.mem_cons_of_mem t ht)
    by_cases later : r ∈ l
    · exact (ih hl' later).trans (by rw [regNow_setLatch hr])
    · obtain rfl : r = t := (List.mem_cons.mp hm).resolve_right later
      have apart : ∀ t' ∈ l, r.addr ≠ t'.addr := fun t' ht =>
        latches_TB_CNT_LO_addr r hr t' (hl' t' ht) fun e => later (e ▸ ht)
      exact (latched_latchAll_ne l _ apart).trans (latched_setLatch_same _)

/-- A read of a register off the timing die that no block reset covers, and that nothing brings up to date. -/
theorem regRead_plain (ha : regAt (r.addr i j) = some (r, i, j)) (hd : timingDie (r.addr i j) = false)
    (hb : blockOf (r.addr i j) = none) (hu : s.beforeRead r i = s) :
    (s.regReads [r.addr i j]).1 = [BitVec.ofNat 32 (s.regValue r i j)] := by
  simp [State.regReads, State.regRead, ha, hd, State.addrInReset, hb, hu]

/-- The registers of the time base are such. -/
theorem regRead_timeBase (hr : r ∈ R.TB_CNT_LO :: latches .TB_CNT_LO) (s : State) :
    (s.regReads [r.addr]).1 = [BitVec.ofNat 32 (s.regValue r 0 0)] := by
  have place : ∀ t ∈ R.TB_CNT_LO :: latches .TB_CNT_LO, t.own = true ∧ 0 < t.row.n1 ∧ 0 < t.row.n2
      ∧ timingDie t.addr = false ∧ blockOf t.addr = none := by decide +kernel
  obtain ⟨own, hi, hj, die, blk⟩ := place r hr
  refine regRead_plain (regAt_addr own hi hj) die blk ?_
  simp only [latches, List.mem_cons, List.not_mem_nil, or_false] at hr
  obtain rfl | rfl | rfl | rfl | rfl | rfl | rfl | rfl := hr <;> rfl

theorem regAt_TB_CNT_LO : regAt (R.addr .TB_CNT_LO) = some (.TB_CNT_LO, 0, 0) :=
  regAt_addr (by decide +kernel) (by decide) (by decide)

/-- A read of TB_CNT_LO changes what is latched, and nothing else. -/
theorem regReads_TB_CNT_LO_state : (s.regReads [R.addr .TB_CNT_LO]).2 = s.latchAll (latches .TB_CNT_LO) := by
  have die : timingDie (R.addr .TB_CNT_LO) = false := by decide
  have blk : blockOf (R.addr .TB_CNT_LO) = none := by decide
  have rc : hasRc .TB_CNT_LO = false := by decide
  simp [State.regReads, State.regRead, regAt_TB_CNT_LO, die, State.addrInReset, blk, rc, State.beforeRead, State.latchAll]

/-- TB_CNT_LO is latched by nothing. -/
theorem regValue_TB_CNT_LO : s.regValue .TB_CNT_LO 0 0 = s.cnt.toNat % 2 ^ 32 := by
  unfold State.regValue
  split <;> rfl

/-- A register that TB_CNT_LO latches reads as it is latched. -/
theorem regValue_latched (hr : r ∈ latches .TB_CNT_LO) {v : Word} (hv : s.latched r = some v) :
    s.regValue r 0 0 = v.toNat := by
  have all : ∀ t ∈ latches .TB_CNT_LO, isLatched t = true := by decide
  simp only [State.regValue, hv, all r hr, if_true]

/-- Settles O38: the reply is the body's, on a state with the time of the arrival; the read of TB_CNT_LO latches each of its
registers, and neither time nor the offset nor the rate is among what later reads of them look at. -/
theorem timeReadIsOneEdge : Obligations.TimeReadIsOneEdge := by
  refine ⟨fun s h slot x A ht hp hr => ⟨_, exec_timeRead A ht hp, ?_⟩, fun s c o rate r _ hr => ?_⟩
  · have calm : (s.taken h slot x).reports = [] := (taken_reports s h slot x).trans hr
    obtain ⟨hcnt, hnow, hnt⟩ := replies_time (h := h) (slot := slot) calm
    refine ⟨hcnt.trans (taken_cnt s h slot x), hnow.trans (taken_now s h slot x), hnt.trans taken_nt, fun y hy => ?_⟩
    rw [replies_cached calm (taken_session s h slot x) hy, taken_cnt, taken_nt, taken_TB_valid]
  · intro a later
    have hl : r ∈ latches .TB_CNT_LO := by revert r; decide
    have kept : later.latched r = some (BitVec.ofNat 32 (s.regNow r 0 0)) := by
      have ha : a.2 = s.latchAll (latches .TB_CNT_LO) := regReads_TB_CNT_LO_state
      show mget (fun _ => none) later.latch _ = _
      rw [show later.latch = a.2.latch from advTo_latch .., ha]
      exact latched_latchAll hl _ (fun _ ht => ht) hl
    refine ⟨(regRead_timeBase (by decide) s).trans (by rw [regValue_TB_CNT_LO]), ?_⟩
    rw [regRead_timeBase (List.mem_cons_of_mem _ hl), regValue_latched hl kept, BitVec.ofNat_toNat, BitVec.setWidth_eq]

end Sys2Proof.Machine
end

section
/-! SUPPORT. The measurement of an element, and the ends of calibration runs, commits and self-tests (R458–R460, R463, R468,
R470). -/

namespace Sys2Proof.Machine

open Sys2Proof

variable {s : State} {op : BitVec 16} {o : OpRec}

/-! ### The best candidate (R459) -/

/-- A residual has 16 bits. -/
theorem worst_le (l : List (BitVec 16)) : worst l ≤ 65535 := by
  have bound : ∀ (l : List (BitVec 16)) (a : Nat), a ≤ 65535 → l.foldl (fun a x => max a x.toNat) a ≤ 65535 := by
    intro l
    induction l with
    | nil => exact fun a ha => ha
    | cons x l ih => exact fun a ha => ih _ (max_le ha (Nat.le_of_lt_succ x.isLt))
  unfold worst
  split
  · exact le_rfl
  · exact bound l 0 (Nat.zero_le _)

/-- When some candidate gave a measurement, the best is one that no other undercuts. -/
theorem bestCand_spec {r : List (List (BitVec 16))} (h : r.all (fun c => worst c == 65535) = false) :
    ∃ c, r[bestCand r]? = some c ∧ ∀ d ∈ r, worst c ≤ worst d := by
  obtain ⟨c₀, hc₀, hne⟩ : ∃ c ∈ r, worst c ≠ 65535 := by simpa using h
  obtain ⟨m, hm⟩ : ∃ m, (r.map worst).foldl min 65535 = m := ⟨_, rfl⟩
  obtain ⟨listed, least⟩ := List.min?_eq_some_iff.mp (List.min?_cons'.trans (congrArg some hm))
  have le_worst (d) (hd : d ∈ r) : m ≤ worst d := least _ (List.mem_cons_of_mem _ (List.mem_map_of_mem hd))
  have attained : m ∈ r.map worst := by
    refine (List.mem_cons.mp listed).resolve_left fun e => hne ?_
    exact le_antisymm (worst_le c₀) (e ▸ le_worst c₀ hc₀)
  obtain ⟨k, hk⟩ : ∃ k, (r.map worst).findIdx? (fun w => w == m) = some k :=
    Option.isSome_iff_exists.mp (by rw [List.findIdx?_isSome]; exact List.any_eq_true.mpr ⟨m, attained, by simp⟩)
  obtain ⟨hlt, hw, -⟩ := List.findIdx?_eq_some_iff_getElem.mp hk
  have best : bestCand r = k := by simp only [bestCand, hm, hk, Option.getD_some]
  rw [List.length_map] at hlt
  rw [List.getElem_map, beq_iff_eq] at hw
  exact ⟨r[k], by rw [best, List.getElem?_eq_getElem hlt], fun d hd => hw ▸ le_worst d hd⟩

/-! ### The elements -/

/-- In the canonical form an element reads as it was stored. -/
theorem calElem_setCalElem_same (hs : s.Canon) (item idx : Nat) (e : CalElem) :
    (s.setCalElem item idx e).calElem item idx = e := mget_mset_same _ _ 0 _ _ hs.cal

/-- The other elements of its item stay. -/
theorem calElem_setCalElem_ne {idx k : Nat} (hk : k ≠ idx) (item : Nat) (e : CalElem) :
    (s.setCalElem item idx e).calElem item k = s.calElem item k :=
  mget_mset_ne _ _ _ (by simp only [calKey]; omega)

/-- What the measurement `m` makes of an element (R459): without a usable residual its state and the figures of the
measurement, else everything. -/
def CalElem.measure (old : CalElem) (m : CalMeas) (item sec : Nat) : CalElem :=
  let r := measResid item m.resid
  if r.all (fun c => worst c == 65535) then { old with state := 3, sec := sec, tj := m.tj, resid := r }
  else ⟨1, bestCand r, sec, m.tj, r, m.codes, true⟩

/-- A measured element is stored, after the draw that an element without a measurement takes its temperature from. -/
theorem measured_eq {meas : List CalMeas} {item idx : Nat} {m : CalMeas}
    (hm : meas.find? (fun e => e.item.val == item && e.index.val == idx) = some m) :
    s.measured meas item idx
      = (s.draw 8).2.setCalElem item idx ((s.calElem item idx).measure m item (s.draw 8).2.measSec) := by
  simp only [State.measured, hm, CalElem.measure, Option.map_some, Option.getD_some]
  split <;> rfl

/-- Settles O34: the element is stored as measured, and no other is. -/
theorem bestCandidateIsKept : Obligations.BestCandidateIsKept := by
  intro s meas item idx m _ _ hs hm
  rw [measured_eq hm]
  intro t r
  have stored : t.calElem item idx = (s.calElem item idx).measure m item (s.draw 8).2.measSec :=
    calElem_setCalElem_same (canon_draw hs) item idx _
  refine ⟨fun unusable => ?_, fun usable => ?_, fun k _ hk => calElem_setCalElem_ne hk item _, rfl, rfl⟩
  · rw [stored, CalElem.measure, if_pos unusable]
    exact ⟨rfl, rfl, rfl⟩
  · rw [stored, CalElem.measure, if_neg (ne_true_of_eq_false usable)]
    exact ⟨rfl, rfl, rfl, bestCand_spec usable⟩

/-! ### The ends of the engine's operations -/

/-- An operation that has not ended and that the engine runs passes the guard of its end. -/
theorem engineRuns (hd : o.done = false) (hc : s.calOp = some op.toNat) : (o.done || s.calOp ≠ some op.toNat) = false := by
  simp [hd, hc]

section
variable (ho : s.op op.toNat = some o) (hd : o.done = false) (hc : s.calOp = some op.toNat)
include ho hd hc

theorem exec_calRunDone {t : BitVec 8} {items : BitVec 32} {chans : List Nat} (hk : o.kind = .calRun t items chans)
    (meas : List CalMeas) : exec (.calRunDone op meas) s = .next
      ((((s.runElems items.toNat chans).foldl (fun v e => v.measured meas e.1 e.2) s).withCalOp none).endOpFree
        op.toNat stOk).settle := by
  show execCalRunDone op meas s = _
  simp only [execCalRunDone, ho, hk, engineRuns hd hc, done]
  rfl

theorem exec_calCommitDone {t : BitVec 8} (hk : o.kind = .calCommit t) :
    let v := (s.targetChans t).foldl (fun v c => v.commitChan c) s
    exec (.calCommitDone op) s = .next (((if t = 0xff then v.commitDev else v).withCalOp none).endOpFree op.toNat
      stOk).settle := by
  show execCalCommitDone op s = _
  simp only [execCalCommitDone, ho, hk, engineRuns hd hc, done]
  rfl

theorem exec_selftestDone {t : BitVec 8} {tests : BitVec 32} (hk : o.kind = .selftest t tests) (found : TestFinding)
    (stopped : tbit tests.toNat 4 = true → s.busyStall t.toNat = false) :
    let f := s.findings t tests.toNat found
    let v := if tbit tests.toNat 4 then s else s.afterTests t tests.toNat
    let w : State := (v.withCalOp none).withTests (mset (fun _ => none) v.tests (testKey t) (some f))
    exec (.selftestDone op found) s = .next (((List.range 5).foldl (fun v b =>
      if f.fail.getLsbD b then (v.raise 33 b).settle else v) w).endOpFree op.toNat stOk).settle := by
  have ended : (tbit tests.toNat 4 && s.busyStall t.toNat) = false := by
    cases hl : tbit tests.toNat 4 with
    | false => rfl
    | true => exact stopped hl
  show execSelftestDone op found s = _
  simp only [execSelftestDone, ho, hk, engineRuns hd hc, ended, done]
  rfl

end

/-- Settles O33: each clause is the lemma above for its event. -/
theorem calibrationOperationsEnd : Obligations.CalibrationOperationsEnd :=
  fun _ _ _ ho hd hc => ⟨fun _ _ _ meas hk => exec_calRunDone ho hd hc hk meas, fun _ hk => exec_calCommitDone ho hd hc hk,
    fun _ _ found hk stopped => exec_selftestDone ho hd hc hk found stopped⟩

end Sys2Proof.Machine
end

section
/-! SUPPORT. The events of the Yard: loading, instances, work of the cores, ends of operations and flag writes (R382–R393, R401,
R402). -/

namespace Sys2Proof.Machine

open Sys2Proof

variable {s : State} {op : BitVec 16} {o : OpRec}

/-! ### YARD_LOAD ends (R384, R412) -/

section
variable {kind k a len : Nat} (ho : s.op op.toNat = some o) (hk : o.kind = .yardLoad kind k a len) (hd : o.done = false)
  (hr : s.inReset .yrd = false)
include ho hk hd hr

/-- An image outside DRAM, or without bytes, fails check 2. -/
theorem exec_yardLoadDone_outside (hi : s.inDram a len = false ∨ len = 0) :
    exec (.yardLoadDone op) s = .next (s.endOp op.toNat stBadParam 2).settle := by
  have outside : (! s.inDram a len || len = 0) = true := by simpa using hi
  show execYardLoadDone op s = _
  simp only [execYardLoadDone, ho, hk, hd, hr, outside, done]
  rfl

/-- An image inside DRAM whose controllers serve is read and checked. -/
theorem exec_yardLoadDone_inside (hi : s.inDram a len = true) (hl : len ≠ 0) (hm : s.memHeld a len = false) :
    let r := s.dramBytes a len
    let c := if kind = 0 then r.2.tmplCheck r.1 k else r.2.modCheck r.1 k
    exec (.yardLoadDone op) s =
      if c ≠ 0 then .next (r.2.endOp op.toNat stBadParam (BitVec.ofNat 64 c)).settle
      else if kind = 0 then .next ((r.2.putTemplate k r.1).endOpFree op.toNat stOk).settle
      else .next ((r.2.withMods (mset (fun _ => []) r.2.mods k r.1)).endOpFree op.toNat stOk).settle := by
  have inside : (! s.inDram a len || len = 0) = false := by simp [hi, hl]
  show execYardLoadDone op s = _
  simp only [execYardLoadDone, ho, hk, hd, hr, inside, hm, done]
  rfl

end

/-! ### Instances and quiesce (R386, R401) -/

/-- The oldest of the due instances is created when the Yard runs and has room. -/
theorem exec_instanceCreate {k : Nat} {rest : List Nat} (hk : s.due = k :: rest) (hy : s.yState = 0)
    (hr : s.inReset .yrd = false) (room : s.instRoom (s.tmplImg k) (tFlow (s.tmplImg k)) = true) :
    exec .instanceCreate s
      = .next ((s.withDue rest).createInst k (tFlow (s.tmplImg k)) (tParams (s.tmplImg k))).settle := by
  show execInstanceCreate s = _
  simp only [execInstanceCreate, hk, hy, hr, room, done]
  rfl

/-- A quiesce ends once no instances are live. -/
theorem exec_yardQuiesceDone {base : Nat} (ho : s.op op.toNat = some o) (hk : o.kind = .quiesce base) (hd : o.done = false)
    (hl : s.liveInsts = 0) : exec (.yardQuiesceDone op) s = .next
      ((if s.yState = 1 then s.setFl F.YRD_STAT.state 2 else s).endOp op.toNat stOk
        (BitVec.ofNat 64 (s.yended - base))).settle := by
  have count : (if s.yState = 1 then s.setFl F.YRD_STAT.state 2 else s).yended = s.yended := by
    split
    · rfl
    · rfl
  show execYardQuiesceDone op s = _
  simp only [execYardQuiesceDone, ho, hk, hd, hl, count, done]
  rfl

/-! ### A free core (R382, R389, R402) -/

section
variable {c : Fin 32} (hf : (s.core c.val).work = none) (hr : s.inReset .yrd = false)
include hf hr

theorem exec_workRequest_sleeps (hw : s.nextWork c.val = none) :
    exec (.workRequest c) s = .next (s.setCore c.val { s.core c.val with asleep := true }).settle := by
  show execWorkRequest c s = _
  simp only [execWorkRequest, hf, hr, hw, done]
  rfl

/-- The core begins the oldest ready operation that it may run; a vendor service pops its packets then, which no spilled word
that is held may keep it from. -/
theorem exec_workRequest_begins {y : Inst} {j : Nat} (hw : s.nextWork c.val = some (y, j))
    (free : 256 ≤ opService (s.tmplImg y.tmpl) j ∨ opIn (s.tmplImg y.tmpl) j = yNone ∨
      s.spillHeld (inQueue (s.tmplImg y.tmpl) j) = false) :
    let img := s.tmplImg y.tmpl
    let v := ((s.setInst (y.setOp j { y.op j with core := some c.val })).countWait y.tmpl j (opService img j)
      (s.now - (y.op j).readyAt.getD s.now)).checkYardMem c.val
    let n := v.wantPkts img j
    let p := if opService img j < 256 then v.popPackets (inQueue img j) n.2 else ([], v)
    exec (.workRequest c) s = .next (p.2.setCore c.val { p.2.core c.val with
      work := some (y.num, j), asleep := false, startAt := v.now, input := p.1, short := decide (n.2 < n.1) }).settle := by
  have go : (decide (opService (s.tmplImg y.tmpl) j < 256) && opIn (s.tmplImg y.tmpl) j != yNone
      && s.spillHeld (inQueue (s.tmplImg y.tmpl) j)) = false := by
    obtain code | noPop | unspilled := free
    · simp [Nat.not_lt.mpr code]
    · simp [noPop]
    · simp [unspilled]
  show execWorkRequest c s = _
  simp only [execWorkRequest, hf, hr, hw, go, done]
  rfl

end

/-! ### Ends of operations (R387, R388, R391, R412) -/

section
variable {c : Fin 32} {num : BitVec 32} {j : Nat} {y : Inst} (hw : (s.core c.val).work = some (num, j))
  (hy : s.inst num = some y)
include hw hy

/-- A service whose DRAM accesses are not held ends: its core is free, its outputs are made, and it has its status. -/
theorem exec_operationComplete (acts : List ModAct) (st : BitVec 3) :
    let img := s.tmplImg y.tmpl
    let code := opService img j
    let par := opParams y.params img j
    let w := coreWriter c.val (s.core c.val).startAt
    s.serviceHeld img (s.modImg (code - 256)) code j par (s.core c.val).input acts = false →
    let v := s.freeCore c.val
    let r : YRes := if code < 256 then vendor w code (opOut img j) (opState img j) par (s.core c.val).input
        (s.core c.val).short v
      else if v.badPorts y.params img j then badInput v
      else userModule w img (v.modImg (code - 256)) par j acts st.toNat (s.core c.val).short v
    let e := r.st.outputs y (opResult img j) r
    exec (.operationComplete c acts st) s
      = .next (e.2.endOperation num j (if (s.core c.val).full then yOutFull else e.1)).settle := by
  intro img code par w held
  show execOperationComplete c acts st s = _
  simp only [execOperationComplete, hw, hy]
  exact if_neg (ne_true_of_eq_false held)

/-- An operation at its limit ends with TIMEOUT; what a user module did stays. -/
theorem exec_operationTimeout (acts : List ModAct) :
    let img := s.tmplImg y.tmpl
    let code := opService img j
    let v := s.advTo ((s.core c.val).startAt + s.opLimit code * usCyc)
    let r := userModule (coreWriter c.val (s.core c.val).startAt) img (v.modImg (code - 256)) (opParams y.params img j) j
      acts 0 (s.core c.val).short v
    let w := if code < 256 || v.badPorts y.params img j then v else (r.st.outputs y (opResult img j) r).2
    exec (.operationTimeout ⟨c, acts⟩) s
      = .next (((w.freeCore c.val).raise 32 c.val).endOperation num j yTimeout).settle := by
  show execOperationTimeout ⟨c, acts⟩ s = _
  simp only [execOperationTimeout, hw, hy, done]

end

/-! ### Flag writes (R393) -/

/-- The oldest flag write of a stall changes the flags that its mask names. -/
theorem exec_yardflagUpdate {st : StallIx} {at_ : Nat} {mask value : BitVec 8} {rest : List (Nat × BitVec 8 × BitVec 8)}
    (hf : mget (fun _ => []) s.yflags st.val = (at_, mask, value) :: rest) :
    let v := s.advTo (at_ + 1)
    exec (.yardflagUpdate st) s = .next (((v.withYflags (mset (fun _ => []) v.yflags st.val rest)).controlFlit 0).setFl
      F.STL_FLAGS.yardflag
      ((BitVec.ofNat 8 (v.fl F.STL_FLAGS.yardflag st.val) &&& ~~~mask) ||| (value &&& mask)).toNat st.val).settle := by
  show execYardflagUpdate st s = _
  simp only [execYardflagUpdate, hf, done]

/-- Settles O36: each clause is the lemma above for its event; the check of an image decides the end of its load. -/
theorem yardEventsComplete : Obligations.YardEventsComplete := by
  refine ⟨fun s op o kind k a len ho hk hd hr => ⟨exec_yardLoadDone_outside ho hk hd hr, fun hi hl hm => ?_⟩,
    fun _ _ _ hk hy hr room => exec_instanceCreate hk hy hr room,
    fun _ _ _ _ ho hk hd hl => exec_yardQuiesceDone ho hk hd hl,
    fun _ _ hf hr => ⟨exec_workRequest_sleeps hf hr, fun _ _ hw free => exec_workRequest_begins hf hr hw free⟩,
    fun _ _ _ _ _ hw hy => ⟨exec_operationComplete hw hy, exec_operationTimeout hw hy⟩,
    fun _ _ _ _ _ _ hf => exec_yardflagUpdate hf⟩
  have ended := exec_yardLoadDone_inside ho hk hd hr hi hl hm
  exact ⟨fun bad => ended.trans (if_pos bad),
    fun good template => ended.trans ((if_neg (not_not.mpr good)).trans (if_pos template)),
    fun good module => ended.trans ((if_neg (not_not.mpr good)).trans (if_neg module))⟩

end Sys2Proof.Machine
end

section
/-! SUPPORT. The events of the DRAM controllers: requests, fills, refresh, power states, migration, scrub and retraining (R410,
R412–R414, R419–R425, R431–R435). -/

namespace Sys2Proof.Machine

open Sys2Proof

variable {s : State}

/-! ### Requests and fills (R410, R413, R414, R425) -/

section
variable {src : DramSrc} {addr : BitVec 64} {store : Option (BitVec 64)} {a : Nat}
  (ha : s.requestAddr src addr.toNat = some a)
include ha

/-- A request that is served wakes its rank, activates its row, takes of its share and is carried out. -/
theorem exec_dramRequest_served (hi : s.inDram a 8 = true) (hs : s.serving (s.place a).m = true)
    (hn : s.needsDevice src a store = true) (ho : s.outranked (s.place a).m src = false)
    (ht : s.throttledNow src (s.place a) = false) (c : Cells) :
    let p := s.place a
    exec (.dramRequest src addr store c) s
      = .next ((((s.wake p).activateRow src p).takeTokens p.m src).serveRequest src a store c).settle := by
  show execDramRequest src addr store c s = _
  simp only [execDramRequest, ha, hi, hs, hn, ho, ht, done]
  rfl

/-- A request that needs no device access, or that waits, changes nothing. -/
theorem exec_dramRequest_waits (hw : s.needsDevice src a store = false ∨ s.outranked (s.place a).m src = true
    ∨ s.throttledNow src (s.place a) = true) (c : Cells) : exec (.dramRequest src addr store c) s = .next s.settle := by
  have guard : (! s.inDram a 8 || ! s.serving (s.place a).m || ! s.needsDevice src a store || s.outranked (s.place a).m src
      || s.throttledNow src (s.place a)) = true := by
    obtain hw | hw | hw := hw <;> simp [hw]
  show execDramRequest src addr store c s = _
  simp only [execDramRequest, ha]
  exact if_pos guard

end

theorem exec_regionFill {r : BitVec 20} (hi : s.inDram (r.toNat * 2 ^ 20) (2 ^ 20) = true)
    (hu : s.isInit (r.toNat * 2 ^ 20) = false) : exec (.regionFill r) s = .next (s.setInit r.toNat).settle := by
  show execRegionFill r s = _
  simp only [execRegionFill, hi, hu, done]
  rfl

/-! ### Refresh and power states (R419–R424) -/

section
variable {m : McIx} {r : Fin 4}

/-- A refresh interval of a rank that is awake: paid, postponed, or urgent. -/
theorem exec_refreshInterval (hr : s.rankIn m.val r.val = true) (ha : s.asleep m.val r.val = false) :
    let u := s.toInterval m.val r.val
    exec (.refreshInterval m r) s =
      if ! u.anyPanic then .next (u.setDebt m.val r.val 0).settle
      else if u.rankDebt m.val r.val < 4 then .next (u.setDebt m.val r.val (u.rankDebt m.val r.val + 1)).settle
      else .next (u.bump F.MC_URGENT.count 1 m.val).settle := by
  show execRefreshInterval m r s = _
  simp only [execRefreshInterval, hr, ha, done]
  rfl

theorem exec_powerDownEntry (hr : s.rankIn m.val r.val = true) (ha : s.asleep m.val r.val = false)
    (hp : s.anyPanic = false) (ht : s.fl F.MC_SYS_PWR.pd_timer ≠ 0) :
    let v := s.advTo ((s.rankTimes m.val r.val).req + s.fl F.MC_SYS_PWR.pd_timer * 160)
    exec (.powerDownEntry m r) s = .next (v.setFl F.MC_STAT.power_down
      (putBits (v.fl F.MC_STAT.power_down m.val) r.val r.val 1) m.val).settle := by
  have timed : (s.fl F.MC_SYS_PWR.pd_timer != 0) = true := bne_iff_ne.mpr ht
  show execPowerDownEntry m r s = _
  simp only [execPowerDownEntry, hr, ha, hp, timed, done]
  rfl

theorem exec_selfRefreshEntry (hm : s.maySleep m.val r.val = true) :
    let v := (s.advTo ((s.rankTimes m.val r.val).req + s.fl F.MC_SYS_PWR.sr_timer * usCyc)).setDebt m.val r.val 0
    exec (.selfRefreshEntry m r) s = .next (v.setRg .MC_STAT (putBits (putBits (v.rg .MC_STAT m.val) (9 + r.val)
      (9 + r.val) 1) (13 + r.val) (13 + r.val) 0) m.val).settle := by
  show execSelfRefreshEntry m r s = _
  simp only [execSelfRefreshEntry, hm, if_true, done]

theorem exec_mr4Poll (hm : s.dram.set.contains m.val = true) (rates : List (BitVec 2)) (temps : List (BitVec 7)) :
    exec (.mr4Poll m rates temps) s = .next ((s.ranksOf m.val).foldl (fun v r => match rates[r]?, temps[r]? with
      | some x, some t => v.pollRank m.val r x.toNat t.toNat
      | _, _ => v) (s.toPoll m.val)).settle := by
  show execMr4Poll m rates temps s = _
  simp only [execMr4Poll, hm, done]
  rfl

end

/-! ### Migration and scrub (R431, R432, R434, R435) -/

section
variable {g : Mig} (hg : s.mig = some g) (hp : g.paused = false)
include hg hp

theorem exec_migrationUnitCopy (hs : s.serving g.m = true) (hw : g.w < rankCap (s.useCfg g.m)) (cells : List Cells) :
    let a := s.addrOf g.m g.rank g.w
    let v := if s.inDram a 256 && s.isInit a then
      s.copyUnit g.m a (cells.take 32 ++ List.replicate (32 - cells.length) .asStored) else s
    exec (.migrationUnitCopy cells) s = .next (v.withMig (some { g with w := g.w + 256 })).settle := by
  have more : decide (rankCap (s.useCfg g.m) ≤ g.w) = false := decide_eq_false (Nat.not_le.mpr hw)
  show execMigrationUnitCopy cells s = _
  simp only [execMigrationUnitCopy, hg, hp, hs, more, done]
  rfl

/-- A migration whose watermark is at its rank's end retires the rank, ends its operations, and lets the next one start. -/
theorem exec_migrationDone (hw : rankCap (s.useCfg g.m) ≤ g.w) :
    let a := s.saveMap g.m 2 g.rank g.spare
    let b := (a.setFlag F.MC_STAT.retired_valid true g.m).setFl F.MC_STAT.retired_rank g.rank g.m
    let c := b.setRg .MC_STAT (putBits (putBits (b.rg .MC_STAT g.m) (9 + g.rank) (9 + g.rank) 1) (13 + g.rank)
      (13 + g.rank) 0) g.m
    let d := (c.withMig none).withMigWait (mset (fun _ => none) c.migWait g.m none)
    let e := d.event (d.ownerOf devRes) 5 0xff [2, BitVec.ofNat 8 g.m, BitVec.ofNat 8 g.rank]
    exec .migrationDone s = .next ((e.migOps g.m g.rank).foldl (fun w n => w.endOpFree n stOk) e).nextMig.settle := by
  have reached : decide (g.w < rankCap (s.useCfg g.m)) = false := decide_eq_false (Nat.not_lt.mpr hw)
  show execMigrationDone s = _
  simp only [execMigrationDone, hg, hp, reached, done]
  rfl

end

/-- A scrub looks at the words left and ends with its counts. -/
theorem exec_scrubDone {op : BitVec 16} {o : OpRec} {c c' : Nat} {l l' mcs : List Nat} (ho : s.op op.toNat = some o)
    (hs : s.scrubOp = some (op.toNat, c, l)) (hd : o.done = false) (hk : o.kind = .scrub mcs)
    (hv : ((s.scrubList mcs).foldl (fun v a => v.scrubWord a .asStored) s).scrubOp = some (op.toNat, c', l')) :
    exec (.scrubDone op) s = .next ((((s.scrubList mcs).foldl (fun v a => v.scrubWord a .asStored) s).withScrubOp none).endOp
      op.toNat stOk (BitVec.ofNat 64 (sat 0xffffffff c' + sat 0xffffffff l'.length * 2 ^ 32))).settle := by
  have runs : (op.toNat ≠ op.toNat || o.done) = false := by simp [hd]
  show execScrubDone op s = _
  simp only [execScrubDone, ho, hs, runs, hk, hv, done]
  rfl

/-! ### Retraining (R412) -/

theorem exec_warmRetrain {m : McIx} (hr : s.ready = true) (hm : s.flag F.MC_STAT.retraining m.val = true) :
    exec (.warmRetrain m) s = .next (s.withRetrain (mset (fun _ => false) s.retrain m.val true)).settle := by
  show execWarmRetrain m s = _
  simp only [execWarmRetrain, hr, hm, done]
  rfl

theorem exec_retrainingComplete {m : McIx} (hm : mget (fun _ => false) s.retrain m.val = true) (ok : Bool) :
    exec (.retrainingComplete m ok) s
      = .next ((List.range 32).foldl State.serveWait (((s.withRetrain (mset (fun _ => false) s.retrain m.val
        false)).withDead (mset (fun _ => false) s.dead m.val (! ok))).setFlag F.MC_STAT.retraining false m.val)).settle := by
  show execRetrainingComplete m ok s = _
  simp only [execRetrainingComplete, hm, if_true, done]

/-- Settles O46: each clause is the lemma above for its event; panic and debt decide what becomes of a refresh interval. -/
theorem dramEventsComplete : Obligations.DramEventsComplete := by
  refine ⟨fun s src addr store c a ha hi hs => ⟨fun hn ho ht => exec_dramRequest_served ha hi hs hn ho ht c,
      fun hw => exec_dramRequest_waits ha hw c⟩,
    fun s r hi hu => exec_regionFill hi hu,
    fun s m r hr => ⟨fun ha => ?_, exec_selfRefreshEntry⟩,
    fun s m rates temps hm => exec_mr4Poll hm rates temps, fun s m => rfl,
    fun s g cells hg hp => ⟨fun hs hw => exec_migrationUnitCopy hg hp hs hw cells, exec_migrationDone hg hp⟩,
    fun s op o c l mcs ho hs hd hk c' l' hv => exec_scrubDone ho hs hd hk hv,
    fun s m ok => ⟨exec_warmRetrain, fun hm => exec_retrainingComplete hm ok⟩⟩
  intro u
  have interval := exec_refreshInterval hr ha
  refine ⟨fun calm => interval.trans ?_, fun panic low => interval.trans ?_, fun panic high => interval.trans ?_,
    fun hp ht => exec_powerDownEntry hr ha hp ht⟩
  · exact if_pos (by simpa using calm)
  · exact (if_neg (by simpa using panic)).trans (if_pos low)
  · exact (if_neg (by simpa using panic)).trans (if_neg (Nat.not_lt.mpr high))

end Sys2Proof.Machine
end
